-- ==== Sys2Proof/Word.lean ====
section
/-! DEFINITION. The word types of the HT9624 register bus, memories and tiles, and their plainest arithmetic. -/
namespace Sys2Proof

/-- One byte, the smallest addressable unit of every memory of the device. -/
abbrev Byte := BitVec 8

/-- One register word: every register is 32 bits wide (R4). -/
abbrev Word := BitVec 32

/-- A 64-bit value: a `_LO`/`_HI` register pair (R4), an event value (R274), a tile register (R104). -/
abbrev DWord := BitVec 64

/-- A sparse table: rising keys, each with a value that differs from what an unlisted key reads as. -/
abbrev Table (α : Type) := List (Nat × α)

end Sys2Proof
end

