-- ==== Sys2Proof/Syntax.lean ====
section
/-! DEFINITION. The commands of the block, one constructor per row of the table of operations and events,
each with the operands it carries: who sends it and what it names. -/
namespace Sys2Proof

/-- What the HBM's ECC says of the items that a cellar request reads (R244, Table 7). -/
inductive Ecc where
  /-- Every item is clean. -/
  | clean
  /-- An item is corrected. -/
  | corrected
  /-- The data granule is uncorrectable. -/
  | dataUe
  /-- The MAC line is uncorrectable once; its re-read is good, corrected or not. -/
  | macUeOnce (corrected : Bool)
  /-- The MAC line is uncorrectable twice. -/
  | macUe
  /-- A group block (level 0) or node (level 1 or 2) is uncorrectable once; its re-read is good, corrected or not. -/
  | metaUeOnce (corrected : Bool)
  /-- A group block or node of the level is uncorrectable twice. -/
  | metaUe (level : Nat)
deriving DecidableEq, Repr

/-- How the MAC checks of a cellar request end (R245). -/
inductive MacRes where
  /-- Every MAC matches. -/
  | good
  /-- The granule's MAC mismatches once, and its retry matches. -/
  | granuleOnce
  /-- The granule's MAC mismatches twice. -/
  | granuleBad
  /-- The MAC of a group block or node mismatches once, and its retry matches. -/
  | nodeOnce
  /-- The MAC of a group block (level 0) or node mismatches twice. -/
  | nodeBad (level : Nat)
deriving DecidableEq, Repr

/-- The metadata a cellar request moves, and what its checks find: levels missed (0 to 3), lines written back, ECC, MACs. -/
structure Checks where
  levels : Nat := 0
  wb : Nat := 0
  ecc : Ecc := .clean
  mac : MacRes := .good
deriving DecidableEq, Repr

/-- A cellar request (R16, R249): client code, unit number, the command's tracker (0xFFFF for none), hoop, key index, generation,
physical address. -/
structure CelReq where
  client : Nat := 0
  unit : Nat := 0
  tracker : Nat := 0xFFFF
  hoop : Nat := 0
  key : Nat := 0
  gen : Nat := 0
  pa : Nat := 0
deriving DecidableEq, Repr

/-- What a DOE object carries, by its protocol (R254): Discovery of an index; an SPDM or secured SPDM message, answered by the row of that
message; IDE_KM setting the keys of a function's stream; TDISP locking, starting or stopping a VF's interface; another message. -/
inductive DoeBody where
  | discovery (index : Nat)
  | spdm
  | secured
  | ideKm (fn : Nat)
  | tdispLock (fn : Nat)
  | tdispStart (fn : Nat)
  | tdispStop (fn : Nat)
  | other
deriving DecidableEq, Repr

/-- A KEYX message of a peer (R405): the receiver's and the sender's pairing ids, the sender's serial and its slot's generation, its ephemeral ECDH P-384 key, its ML-KEM-1024
encapsulation key or, when `ct`, a ciphertext, the `POLICY` digest of its slot's hoop, and whether its certificates and both signatures verify. -/
structure KeyxMsg where
  pairing : Nat := 0
  peerPairing : Nat := 0
  serial : Nat := 0
  gen : Nat := 0
  ec : List Byte := []
  kem : List Byte := []
  ct : Bool := false
  policy : List Byte := []
  good : Bool := true
deriving DecidableEq, Repr

/-- What the steps of a boot attempt meet (R461 to R468): bits in which the second fuse sense differs, by word; the entropy tests; an RTP core whose
ROM fails; a flash or RTP SRAM that cannot serve; whether the derivations, the clocks (with VDD_CORE read back, mV, and the reference clocks
present, Ethernet then groups 0 to 3) and PCIe come up; what self-test retires: pantry units, tiles whose crocks failed, larder lines per slice,
darners, tree-cache ways, and spare rows used; array columns found bad (tile, physical array) and tiles that leave service; stacks that fail, with
lanes repaired, rows hard-repaired and retired pages that return; whether `META` and `READY` end well; Ethernet and Acaunel ports that fail, and ports
whose lane failed; a step that does not end; a failed log write; how long it takes, ns; and the ns since the NCLK PLL locked in it (R325). -/
structure BootOp where
  flips : List (Nat × Nat) := []
  entropy : Bool := true
  romBad : Option Nat := none
  flashBad : Bool := false
  dice : Bool := true
  vMeas : Nat := 750
  plls : Bool := true
  refs : Nat := 0x1F
  pcie : Bool := true
  units : List (Nat × Nat) := []
  crocks : List Nat := []
  larder : List Nat := []
  darners : List Nat := []
  ways : Nat := 0
  rows : Nat := 0
  arrays : List (Nat × Nat) := []
  tilesOut : List Nat := []
  stacksBad : Nat := 0
  stacksRep : Nat := 0
  rowsRep : Nat := 0
  pagesBack : List Nat := []
  metaOk : Bool := true
  ethBad : Nat := 0
  alnkBad : Nat := 0
  laneBad : Nat := 0
  readyOk : Bool := true
  hang : Option Nat := none
  logBad : Bool := false
  dur : Nat := 0
  lock : Nat := 0
deriving DecidableEq, Repr

/-- What a register write meets that the register's own command would carry as operands: a hardware update of the register in the same cycle (R8); the steps of a
boot attempt it starts; the battery, fuse bits that do not take and the bits after which power is lost (R424, R465); for STOR_OPEN the context, the target's answer,
the namespace's check, LBA size and block count; for TEST_OP what the test of a tile or stack finds. -/
structure WrEnv where
  collide : Bool := false
  boot : BootOp := {}
  vbat : Nat := 0
  fuseBad : Nat := 0
  lost : Option Nat := none
  ctx : Nat := 0
  connect : Bool := true
  nsOk : Bool := true
  lba : Nat := 12
  blocks : Nat := 0
  units : List Nat := []
  rows : Nat := 0
  crock : Bool := false
  arrays : List Nat := []
  pass : Bool := true
  lanes : Bool := false
deriving DecidableEq, Repr

/-- A message that arrives on the management bus (R474, R507): a read or a write of a register as the BMC port, an SPDM message, which the row of that message
serves, or another message. -/
inductive MgmtMsg where
  | read (page off : Nat)
  | write (page off value : Nat) (e : WrEnv)
  | spdm
  | other (bytes : List Byte)
deriving DecidableEq, Repr

/-- The commands (one constructor per row of the table). -/
inductive Instr where
  /-- `REGISTER_WRITE` (R6): A write to a register that has no behaviour of its own takes effect or is discarded according to its access type and the page's rules. -/
  | registerWrite (port page off value : Nat) (e : WrEnv) (now : Nat)
  /-- `WIDTH_ERROR_ACCESS` (R5): A BAR0 access that is not 32 bits wide or not 4-byte aligned returns zero or is discarded, and an error-log entry is recorded. -/
  | widthErrorAccess (port page off : Nat) (write : Bool) (value now : Nat)
  /-- `RC_READ` (R488): A read of a read-clear register returns its value and clears it in the same register-bus cycle. -/
  | rcRead (port page off now : Nat)
  /-- `LOW_WORD_READ` (R484): A read of the low word of a 64-bit or wider value returns it and loads the port's read latch with the other words from the same shadow instant. -/
  | lowWordRead (port page off now : Nat)
  /-- `HIGH_WORD_COMMIT` (R485): A write to the highest word of a wide RW value commits the staged words in one cycle of the block's clock. -/
  | highWordCommit (port page off value : Nat) (e : WrEnv) (now : Nat)
  /-- `SELECT_WRITE` (R480): A write to BLK_SEL or another banked select register changes the writer's bank only, logging SEL_RANGE once for an out-of-range value. -/
  | selectWrite (port page off value now : Nat)
  /-- `SOFT_RESET` (R478): Writing BLK_CTL.SOFT_RESET clears LOCK, interrupt state, error logs and select registers of the page in every bank. -/
  | softReset (port page now : Nat)
  /-- `BLK_LOCK` (R478): Setting BLK_CTL.LOCK locks the page's RWL registers until soft reset or device reset. -/
  | blkLock (port page now : Nat)
  /-- `BLK_INT_SET` (R477): A write to BLK_INT_SET sets the matching interrupt status bits in the writer's bank. -/
  | blkIntSet (port page value now : Nat)
  /-- `NOP` (R122): The sequencer issues NOP, which has no effect and takes one cycle. -/
  | nop (tile slot : Nat)
  /-- `SETX` (R119): SETX writes a static offset pair into x1-x7. -/
  | setx (tile slot : Nat)
  /-- `ADDX` (R119): ADDX adds to each half of a static offset pair modulo 2^32. -/
  | addx (tile slot : Nat)
  /-- `LOOP` (R120): LOOP runs the following body of instructions a fixed number of times. -/
  | loopIns (tile slot : Nat)
  /-- `FENCE` (R121): FENCE holds issue until lanes retire, stores are visible, or a timeline event reaches a value. -/
  | fence (tile slot : Nat)
  /-- `END` (R122): END waits as FENCE STORES, ends the command on the tile and clears the context's issue state. -/
  | tileEnd (tile slot : Nat)
  /-- `MMA` (R127): MMA computes a matmul on the laces with the R70 accumulation and the output path of R57. -/
  | mma (tile slot : Nat) (ue : Bool) (chk : Option (Nat × Nat))
  /-- `MMG` (R129): MMG runs a gathered matmul with low-rank adapters in its gather or combine phase. -/
  | mmg (tile slot : Nat) (ue : Bool) (chk : Option (Nat × Nat))
  /-- `KNOT` (R93): KNOT computes a matmul on the knot cubes. -/
  | knot (tile slot : Nat) (ue : Bool)
  /-- `STCH` (R95): STCH computes a thin matmul with at most 8 rows on the stitch path. -/
  | stch (tile slot : Nat) (ue : Bool)
  /-- `ATTF` (R158): ATTF runs fused forward attention over key blocks with online-softmax state. -/
  | attf (tile slot : Nat) (ue : Bool) (chk : Option (Nat × Nat))
  /-- `ATTB` (R162): ATTB runs backward attention, recomputing probabilities from saved statistics. -/
  | attb (tile slot : Nat) (ue : Bool) (chk : Option (Nat × Nat))
  /-- `LD` (R123): LD copies a cellar slice into a shelf record after translating every page. -/
  | ld (tile slot : Nat) (ue : Bool)
  /-- `ST` (R123): ST copies a shelf slice to a cellar record. -/
  | st (tile slot : Nat) (ue : Bool)
  /-- `MOV` (R123): MOV copies a shelf slice to another shelf record. -/
  | mov (tile slot : Nat) (ue : Bool)
  /-- `LDQ` (R124): LDQ rotates, block-scales and quantizes a source slice into a shelf record and writes clip tallies. -/
  | ldq (tile slot : Nat) (ue : Bool)
  /-- `WLD` (R125): WLD loads a stored composite with its scales and tensor scale from the cellar without conversion. -/
  | wld (tile slot : Nat) (ue : Bool)
  /-- `SEND` (R126): SEND posts a payload with a tag into a receive queue of another tile, using one credit. -/
  | send (tile slot : Nat) (ue : Bool)
  /-- `RECV` (R126): RECV takes the oldest visible entry with a matching tag, copying it or binding it to a view. -/
  | recv (tile slot : Nat) (ue : Bool)
  /-- `REL` (R126): REL unbinds a handoff view and returns its credit. -/
  | rel (tile slot : Nat)
  /-- `VEW` (R130): VEW applies an elementwise or transcendental function to slices. -/
  | vew (tile slot : Nat) (ue : Bool)
  /-- `VRED` (R132): VRED reduces a slice per row or per column in a fixed order. -/
  | vred (tile slot : Nat) (ue : Bool)
  /-- `VSTAT` (R133): VSTAT contributes a slice's sum of squares, amax and count to a layer-statistics entry. -/
  | vstat (tile slot : Nat) (ue : Bool)
  /-- `INSTRUCTION_RETIRE` (R61): A tile instruction retires and delivers its saturation and statistics contributions as one atomic update. -/
  | instructionRetire (tile slot lane elapsed wait ce sentinel : Nat) (parity : Bool)
  /-- `HANDOFF_UNPARK` (R100): A shelf parked for a handoff credit or matching entry resumes when it arrives. -/
  | handoffUnpark (tile slot : Nat)
  /-- `TILE_HEALTH_WINDOW` (R101): At the end of each 2^24 CCLK window a tile computes its rate and cohort. -/
  | tileHealthWindow (tile : Nat)
  /-- `DOORBELL_RING` (R267): A 4-byte BAR2 doorbell advances a RING queue's tail, or is discarded with a flag. -/
  | doorbellRing (fn queue off width tail now : Nat)
  /-- `DOORBELL_PUSH` (R267): A 64-byte BAR2 write delivers one whole descriptor to a PUSH queue. -/
  | doorbellPush (fn queue off : Nat) (bytes : List Byte) (now : Nat)
  /-- `DESCRIPTOR_DECISION` (R268): A fetched descriptor is read with its blocks and accepted or rejected within 1 us. -/
  | descriptorDecision (queue now : Nat)
  /-- `COMMAND_RELEASE` (R293): A command whose waits, fence rules, lookups and queue order are met is released and its deadline fixed. -/
  | commandRelease (trk now : Nat)
  /-- `CACHE_FILL_DONE` (R198): A model-cache fill finishes reading its pages, making the entry resident or failing its waiters. -/
  | cacheFillDone (entry now : Nat)
  /-- `COMMAND_COMPLETE` (R270): An accepted command finishes: writes visible, event signalled, completion record written, MSI-X sent. -/
  | commandComplete (trk now : Nat)
  /-- `EXEC` (R272): An EXEC command runs an entry point of the context's pricking with its argument block. -/
  | execCmd (trk now : Nat)
  /-- `LOAD` (R146): A LOAD command checks, grants and places a pricking, computing its work estimates. -/
  | loadCmd (trk nclk now : Nat)
  /-- `UNLOAD` (R134): An UNLOAD command releases the context's pricking. -/
  | unloadCmd (trk now : Nat)
  /-- `SIGNAL` (R271): A SIGNAL command waits on its events and then signals. -/
  | signalCmd (trk now : Nat)
  /-- `CTX_CREATE` (R261): CREATE takes the lowest free context and binds its root table page. -/
  | ctxCreate (port now : Nat)
  /-- `CTX_DESTROY` (R279): DESTROY tears a context down through the steps of Table 13 and enters DRAINING. -/
  | ctxDestroy (port now : Nat)
  /-- `CTX_RESET` (R443): A context reset stops, samples and clears a context, returning it to ACTIVE. -/
  | ctxReset (port now : Nat)
  /-- `SET_WINDOW` (R265): SET_WINDOW sets or removes one of the context's 16 host windows. -/
  | setWindow (port now : Nat)
  /-- `BIND_FENCE` (R183): BIND_FENCE binds the lowest free update fence to a context. -/
  | bindFence (port now : Nat)
  /-- `UNBIND_FENCE` (R261): UNBIND_FENCE returns an idle fence to FREE. -/
  | unbindFence (port now : Nat)
  /-- `FABRIC_DRAIN_END` (R279): 20,000 ACLK cycles after the device side ends, a DRAINING context becomes FREE. -/
  | fabricDrainEnd (ctx now : Nat)
  /-- `QUE_CREATE` (R266): Queue CREATE takes the lowest free queue of the hoop's range with its rings and vector. -/
  | queCreate (port now : Nat)
  /-- `QUE_DESTROY` (R281): Queue DESTROY aborts the queue's commands and frees it. -/
  | queDestroy (port now : Nat)
  /-- `EVT_CREATE` (R274): Event CREATE takes the lowest free timeline event with its initial value. -/
  | evtCreate (port : Nat) (shared : Bool) (ctx now : Nat)
  /-- `EVT_DESTROY` (R281): Event DESTROY completes its waiters with BAD_DESCRIPTOR and frees the event. -/
  | evtDestroy (port now : Nat)
  /-- `EVT_SIG_HI` (R275): A write to EVT_SIG_HI signals the event with the staged 64-bit value. -/
  | evtSigHi (port hi now : Nat)
  /-- `APER_CTX_WRITE` (R260): A write to APER_CTX sets the BAR4 aperture context, discarded for a sealed hoop. -/
  | aperCtxWrite (port value now : Nat)
  /-- `BAR4_READ` (R260): A BAR4 read is translated through the aperture context and served from the cellar or fails with UR. -/
  | bar4Read (fn addr len now : Nat)
  /-- `BAR4_WRITE` (R260): A BAR4 write is translated and written to the cellar or discarded. -/
  | bar4Write (fn addr : Nat) (bytes : List Byte) (now : Nat)
  /-- `FLR_VF` (R255): An FLR of a VF destroys every context of that VF within 2.2 ms. -/
  | flrVf (fn now : Nat)
  /-- `FLR_PF` (R255): An FLR of the PF destroys every context, clears VF Enable and resets every hoop. -/
  | flrPf (now : Nat)
  /-- `VF_ENABLE_CLEAR` (R255): Clearing VF Enable or changing NumVFs destroys every VF's contexts. -/
  | vfEnableClear (enable : Bool) (num now : Nat)
  /-- `D3HOT_ENTRY` (R254): Entering D3hot destroys the function's contexts as FLR does. -/
  | d3hotEntry (fn now : Nat)
  /-- `IDE_INTEGRITY_FAILURE` (R254): An IDE integrity failure sets the stream Insecure and moves the function's TDI to ERROR. -/
  | ideIntegrityFailure (stream now : Nat)
  /-- `STOP_INTERFACE` (R258): STOP_INTERFACE returns a TDI to CONFIG_UNLOCKED. -/
  | stopInterface (fn now : Nat)
  /-- `DOE_OBJECT` (R254): A DOE mailbox object is taken by its protocol, or discarded with DOE Error if too long. -/
  | doeObject (dw : Nat) (body : DoeBody) (now : Nat)
  /-- `FOLD` (R175): FOLD writes each record's gradient pair from its FP32 gradient. -/
  | foldCmd (trk now : Nat)
  /-- `SCAN` (R175): SCAN decodes each record's gradient pair and delivers it to LST_G. -/
  | scanCmd (trk now : Nat)
  /-- `STEP` (R177): STEP applies each record's optimiser rule, writing master, moments and compute copy. -/
  | stepCmd (trk now : Nat)
  /-- `DARNER_STRIP_COMMIT` (R178): A darner commits a processed strip's writes and contributions once lower strips have begun writing. -/
  | darnerStripCommit (trk ce : Nat) (ue : Bool) (now : Nat)
  /-- `DARNER_SRAM_UE` (R180): An uncorrectable darner SRAM read in an idle darner takes it out of service. -/
  | darnerSramUe (darner : Nat)
  /-- `LST_CTL_WRITE` (R188): A write to LST_CTL sets SHIFT and source, discarded if it duplicates SRC_SAT or names a foreign entry. -/
  | lstCtlWrite (port value : Nat) (e : WrEnv) (now : Nat)
  /-- `CACHE_REGISTER` (R194): REGISTER creates a model-cache entry over pinned pages. -/
  | cacheRegister (trk now : Nat)
  /-- `CACHE_DROP` (R194): DROP unregisters an entry, freeing lines when holds reach zero. -/
  | cacheDrop (trk now : Nat)
  /-- `CACHE_PIN` (R194): PIN makes an entry resident and exempt from eviction. -/
  | cachePin (trk now : Nat)
  /-- `CACHE_UNPIN` (R202): UNPIN makes an entry evictable, deferred while class G commands name it. -/
  | cacheUnpin (trk now : Nat)
  /-- `CACHE_PREFETCH` (R194): PREFETCH makes an entry resident without holding it. -/
  | cachePrefetch (trk now : Nat)
  /-- `GRANT` (R219): GRANT gives physical pages to a hoop. -/
  | mmuGrant (trk now : Nat)
  /-- `RECLAIM` (R219): RECLAIM zeroes pages and clears their ownership entries. -/
  | mmuReclaim (trk now : Nat)
  /-- `MAP` (R219): MAP writes leaves, binding and zeroing unbound pages and creating tables as needed. -/
  | mmuMap (trk now : Nat)
  /-- `UNMAP` (R220): UNMAP clears leaves and decrements MAPS, completing after invalidation. -/
  | mmuUnmap (trk now : Nat)
  /-- `PROTECT` (R220): PROTECT replaces the R, W and P bits of leaves. -/
  | mmuProtect (trk now : Nat)
  /-- `MMU_INVALIDATION_DONE` (R220): An UNMAP or PROTECT completes once caches are dropped and old accesses have finished. -/
  | mmuInvalidationDone (trk now : Nat)
  /-- `MMU_DEFERRED_PROCEED` (R221): A deferred pin-removing MMU operation proceeds once no class G command references its pages. -/
  | mmuDeferredProceed (trk now : Nat)
  /-- `MMU_F_RESP_RESUME` (R223): RESUME written to MMU_F_RESP makes the stopped client translate again. -/
  | mmuFRespResume (port now : Nat)
  /-- `MMU_F_RESP_ABORT` (R223): ABORT written to MMU_F_RESP completes the faulting command with PAGE_FAULT. -/
  | mmuFRespAbort (port now : Nat)
  /-- `FAULT_ANSWER_TIMEOUT` (R223): A fault record unanswered within MMU_FAULT_TMO completes its command with PAGE_FAULT. -/
  | faultAnswerTimeout (ctx rec' now : Nat)
  /-- `DMA_COPY` (R225): COPY moves rows of bytes between cellar and host or cellar addresses. -/
  | dmaCopy (trk now : Nat)
  /-- `DMA_TRANSPOSE` (R225): TRANSPOSE moves elements of ESIZE bytes to their transposed positions. -/
  | dmaTranspose (trk now : Nat)
  /-- `DMA_FILL` (R225): FILL writes a 32-bit pattern across every destination row. -/
  | dmaFill (trk now : Nat)
  /-- `DMA_SEGMENT_COMPLETE` (R227): A DMA segment completes, advancing the cursor and letting the channel choose its next work. -/
  | dmaSegmentComplete (chan ue : Nat) (hostBad : Bool) (cyc now : Nat)
  /-- `CELLAR_READ` (R243): A cellar read fetches data, MAC and missing tree levels, verifies and decrypts the granule. -/
  | cellarRead (req : CelReq) (chk : Checks) (now : Nat)
  /-- `CELLAR_WRITE` (R246): A whole-granule write increments the version, encrypts and writes data and MAC. -/
  | cellarWrite (req : CelReq) (bytes : List Byte) (chk : Checks) (now : Nat)
  /-- `CELLAR_PARTIAL_WRITE` (R247): A write under 256 bytes reads, merges and writes its granule as one step. -/
  | cellarPartialWrite (req : CelReq) (bytes : List Byte) (chk : Checks) (now : Nat)
  /-- `REKEY_SWEEP_COMPLETE` (R251): The rekey sweep finishes and the previous key is zeroized. -/
  | rekeySweepComplete (key now : Nat)
  /-- `SCRUB_AFTER_DRAIN` (R250): When a slot's drain completes, every page bound to it is zeroed and the slot becomes empty. -/
  | scrubAfterDrain (key now : Nat)
  /-- `PAGE_RETIRE_COPY` (R456): A page queued for retirement is copied to a spare page and redirected. -/
  | pageRetireCopy (ppn : Nat) (ue : List Nat) (now : Nat)
  /-- `REQUEST_DROP` (R448): A stopped context's request not returned within 100 us is dropped by its node. -/
  | requestDrop (ctx cause : Nat) (write : Bool) (pa : Nat) (fence : Option Nat) (now : Nat)
  /-- `HOOP_CREATE` (R304): CREATE makes a FREE hoop ACTIVE, open and in interleave mode. -/
  | hoopCreate (port hoop now : Nat)
  /-- `HOOP_APPLY` (R286): APPLY checks all staged hoop parameters and applies all or none. -/
  | hoopApply (port hoop now : Nat)
  /-- `HOOP_EXCLUSIVE` (R289): EXCLUSIVE puts a hoop in exclusive mode. -/
  | hoopExclusive (port hoop now : Nat)
  /-- `HOOP_INTERLEAVE` (R289): INTERLEAVE returns a hoop to interleave mode. -/
  | hoopInterleave (port hoop now : Nat)
  /-- `HOOP_RESET` (R444): A hoop reset resets every context of the hoop and its hoop-wide state. -/
  | hoopReset (port hoop now : Nat)
  /-- `HOOP_DESTROY` (R304): DESTROY frees a hoop holding no context and no granted page. -/
  | hoopDestroy (port hoop now : Nat)
  /-- `HOOP_SEAL` (R285): SEAL makes a hoop sealed under two-party authorisation. -/
  | hoopSeal (port hoop now : Nat)
  /-- `HOOP_UNSEAL` (R285): UNSEAL makes a hoop open under two-party authorisation. -/
  | hoopUnseal (port hoop now : Nat)
  /-- `DEADLINE_PASSED` (R296): A class G command passes its deadline, withdrawing its promise with cause MISS. -/
  | deadlinePassed (trk now : Nat)
  /-- `REPLAY_LIMIT` (R296): Replay cycles on a tile exceed a command's allowance, withdrawing its promise with cause REPLAY. -/
  | replayLimit (trk now : Nat)
  /-- `EXCLUSIVE_SWITCH_TIMEOUT` (R289): After 1,000,000 CCLK cycles an exclusive lane changes context at its next boundary. -/
  | exclusiveSwitchTimeout (tile lane now : Nat)
  /-- `THERMAL_INTERVAL_END` (R300): At the end of each 1 ms interval every hoop's HOOP_THERM receives the safe-clock level. -/
  | thermalIntervalEnd (now : Nat)
  /-- `SENSOR_SAMPLE` (R513): Each temperature sensor is sampled every 10 us and compared with the limits. -/
  | sensorSample (sensor reading now : Nat)
  /-- `THERMAL_RELEASE` (R299): 1 ms after every sensor is at or below 95 C, CCLK returns to 2 GHz and class G admission resumes. -/
  | thermalRelease (now : Nat)
  /-- `ALNK_ENABLE` (R310): Setting ALNK_CTL.ENABLE starts training of a port, stopping any lane test on it. -/
  | alnkEnable (port lport : Nat)
  /-- `PORT_PEER_DETECT` (R323): A peer detected on a DOWN port with ENABLE set starts training again. -/
  | portPeerDetect (lport : Nat)
  /-- `TRAINING_TIMEOUT` (R310): A port that has not reached VC0_ONLY within 50 ms returns to detect and sets TRAIN_FAIL. -/
  | trainingTimeout (lport : Nat)
  /-- `LANE_BAD` (R308): A lane loses lock or exceeds its error limit over a window and is marked bad. -/
  | laneBad (lport lane : Nat)
  /-- `ALNK_RETRAIN` (R309): A write to ALNK_RETRAIN retrains the port. -/
  | alnkRetrain (port lport : Nat)
  /-- `FLIT_RECEIVE` (R314): A flit is received, checked, delivered in order or failed with NAK. -/
  | flitReceive (lport : Nat) (bytes : List Byte) (corrected uncorrectable : Nat)
  /-- `FLIT_REPLAY_TIMEOUT` (R314): A flit unacknowledged for 4,096 LCLK cycles is replayed. -/
  | flitReplayTimeout (lport : Nat)
  /-- `RETRY_BUFFER_STALL` (R314): A full retry buffer with no ACK for 100 us starts a retrain. -/
  | retryBufferStall (lport : Nat)
  /-- `CREDIT_WATCHDOG` (R318): A stream with flits waiting and no credit for 100 us retrains the port, or takes it DOWN on a second firing. -/
  | creditWatchdog (lport share vc now : Nat)
  /-- `VC_APPLY` (R317): A write to VC_APPLY arms the staged share tables for a leader-timed swap. -/
  | vcApply (port lport : Nat)
  /-- `SHARE_SWAP_TIMEOUT` (R317): A share swap whose credits are not back within 100 us is abandoned. -/
  | shareSwapTimeout (lport : Nat)
  /-- `LINK_RECORD_RECEIVE` (R321): A link record is checked for pairing, generation, counter and tag and passed to its engine. -/
  | linkRecordReceive (lport share vc cyc now : Nat)
  /-- `SYNC` (R326): A SYNC timestamp exchange message updates offset and path delay and steers the servo. -/
  | sync (lport : Nat) (t1 t2 t3 t4 : Int) (peerLocked : Bool) (peerPub : Option Nat)
  /-- `SYNC_TIMER` (R326): Every 1 us a port starts a SYNC exchange. -/
  | syncTimer (lport now : Nat)
  /-- `ANNOUNCE` (R328): An ANNOUNCE message carries the best pair known and is adopted and flooded. -/
  | announce (lport prio peer hops now : Nat)
  /-- `ANNOUNCE_TIMER` (R328): Every 1 us a port sends ANNOUNCE. -/
  | announceTimer (lport now : Nat)
  /-- `GRANDMASTER_TIMEOUT` (R328): No refreshed ANNOUNCE for 100 us puts the device in HOLDOVER and starts a new election. -/
  | grandmasterTimeout (now : Nat)
  /-- `TOPO_CHANGE` (R327): A TOPO_CHANGE with a greater epoch is adopted and flooded. -/
  | topoChange (lport epoch hops : Nat)
  /-- `PROBE` (R330): A discovery probe is forwarded along its source route or answered. -/
  | probe (lport slot hops behind route back epoch : Nat)
  /-- `PROBE_REPLY` (R330): A probe reply completes its probe slot, or is discarded as EPOCH_STALE. -/
  | probeReply (lport slot left back epoch serial prio index states : Nat)
  /-- `FAB_PROBE_START` (R330): A write to FAB_P_CTL starts a probe from the selected slot. -/
  | fabProbeStart (port value now : Nat)
  /-- `PROBE_TIMEOUT` (R330): A probe slot with no reply within 20 us completes with GROUP_TIMEOUT. -/
  | probeTimeout (slot now : Nat)
  /-- `FAB_PUBLISH` (R331): A write to FAB_PUBLISH publishes the topology and opens ports to data. -/
  | fabPublish (port epoch : Nat)
  /-- `PICOT_TIME_LOAD` (R329): A write to PICOT_TIME_LOAD steps the grandmaster's time base before publication. -/
  | picotTimeLoad (port : Nat)
  /-- `UNPAIR` (R321): An UNPAIR message sets the new generation in the peer's pairing entries. -/
  | unpair (lport pairing gen : Nat)
  /-- `KEYX` (R405): A KEYX message carries key-exchange material between RTPs for link pairing. -/
  | keyx (lport : Nat) (msg : KeyxMsg) (now : Nat)
  /-- `SHARE_SWAP` (R317): A SHARE_SWAP message exchanges the staged table CRC and swap instant. -/
  | shareSwap (lport crc instant : Nat)
  /-- `GUARD_NOTICE` (R334): A GUARD_NOTICE adjusts the sender's trim and makes it resend the frame two slots later. -/
  | guardNotice (lport slot : Nat) (offset : Int)
  /-- `DRIFT_NOTICE` (R334): A DRIFT_NOTICE adjusts the sender's launch trim. -/
  | driftNotice (lport : Nat) (offset : Int)
  /-- `PICOT_STATE` (R335): A PICOT_STATE message reports slot mode suspended or resumed on the link. -/
  | picotState (lport : Nat) (suspended : Bool)
  /-- `PICOT_SLOT_LAUNCH` (R333): At a scheduled slot's launch instant the port inserts a picot frame. -/
  | picotSlotLaunch (lport slot now : Nat)
  /-- `PICOT_FRAME_RECEIVE` (R334): A picot frame is decoded, its arrival offset measured, and it is accepted or discarded in the guard. -/
  | picotFrameReceive (lport slot : Nat) (offset : Int) (frame : List Byte) (now : Nat)
  /-- `PICOT_RESUME` (R335): A write to PICOT_RESUME resumes slot mode at the next schedule swap. -/
  | picotResume (port lport : Nat)
  /-- `PICOT_SWAP_ARM` (R333): A write to PICOT_SWAP_ARM arms the schedule swap at an aligned future instant. -/
  | picotSwapArm (port now : Nat)
  /-- `PICOT_SCHEDULE_SWAP` (R333): At PICOT_SWAP_AT the staged and active schedule banks swap. -/
  | picotScheduleSwap (now : Nat)
  /-- `LINK_HEALTH_WINDOW` (R336): At the end of each 2^24 LCLK window a port computes its rate and may be flagged slow. -/
  | linkHealthWindow (lport f : Nat)
  /-- `SHUT_CREATE` (R339): SHUT_OP CREATE takes a group slot for a ring collective group. -/
  | shutCreate (port now : Nat)
  /-- `SHUT_DESTROY` (R340): SHUT_OP DESTROY frees a group, aborting its pending commands. -/
  | shutDestroy (port group now : Nat)
  /-- `SHUT_FENCE` (R340): SHUT_OP FENCE fences a group and holds its context. -/
  | shutFence (port group now : Nat)
  /-- `SHUT_G_LEASE` (R340): A write to SHUT_G_LEASE restarts the group's lease. -/
  | shutGLease (port now : Nat)
  /-- `LEASE_EXPIRY` (R340): An expired lease fences the group. -/
  | leaseExpiry (group now : Nat)
  /-- `ALLREDUCE` (R345): ALLREDUCE reduces FP32 chunks round the ring in fixed order and distributes them. -/
  | allreduce (trk now : Nat)
  /-- `ALLREDUCE_PAIR` (R346): ALLREDUCE_PAIR sums gradient pairs across ranks and refolds them at each owner. -/
  | allreducePair (trk now : Nat)
  /-- `REDUCE_SCATTER` (R344): REDUCE_SCATTER leaves each rank its own reduced chunks. -/
  | reduceScatter (trk now : Nat)
  /-- `ALLGATHER` (R344): ALLGATHER gives every rank every rank's source bytes. -/
  | allgather (trk now : Nat)
  /-- `BROADCAST` (R344): BROADCAST copies the root rank's source to every rank. -/
  | broadcast (trk now : Nat)
  /-- `PICOT_ALLREDUCE` (R353): PICOT_ALLREDUCE reduces a small payload in one frame over scheduled picot hops. -/
  | picotAllreduce (trk now : Nat)
  /-- `XSEND` (R357): XSEND sends a tagged micro-batch to the next member once it holds a matching credit. -/
  | xsend (trk now : Nat)
  /-- `XRECV` (R357): XRECV posts a credit and receives a tagged micro-batch from the previous member. -/
  | xrecv (trk now : Nat)
  /-- `GROUP_TIMEOUT` (R351): A collective waiting for a record beyond the group timeout or its deadline completes with GROUP_TIMEOUT. -/
  | groupTimeout (group now : Nat)
  /-- `COLLECTIVE_START_TIME` (R351): A collective held until START_NS begins sending when that fabric time is reached. -/
  | collectiveStartTime (trk now : Nat)
  /-- `STOR_OPEN` (R361): STOR_OP OPEN connects an NVMe-oF session. -/
  | storOpen (port ctx : Nat) (connect nsOk : Bool) (lba blocks now : Nat)
  /-- `STOR_CLOSE` (R361): STOR_OP CLOSE closes a session. -/
  | storClose (port session now : Nat)
  /-- `KEEP_ALIVE_TIMER` (R361): Every KATO/2 the device sends Keep Alive on a session. -/
  | keepAliveTimer (session : Nat) (ok : Bool) (now : Nat)
  /-- `NVME_COMPLETION` (R367): An NVMe completion finishes one chunk's I/O, good or failed. -/
  | nvmeCompletion (session rkey : Nat) (ok : Bool) (cyc now : Nat)
  /-- `NVME_IO_TIMEOUT` (R367): An I/O with no completion within STOR_IO_TMO fails its chunk. -/
  | nvmeIoTimeout (rkey now : Nat)
  /-- `STORAGE_READ` (R366): READ decrypts a range of file chunks into the cellar. -/
  | storageRead (trk now : Nat)
  /-- `STORAGE_WRITE` (R366): WRITE writes a whole new file under a fresh nonce. -/
  | storageWrite (trk now : Nat)
  /-- `STORAGE_FLUSH` (R366): FLUSH sends Flush on every session the file names. -/
  | storageFlush (trk now : Nat)
  /-- `RDMA_READ` (R362): A target's RDMA READ is served by encrypting cellar plaintext in flight through a live rkey window. -/
  | rdmaRead (session rkey off len now : Nat)
  /-- `RDMA_WRITE` (R360): A target's RDMA WRITE into a live rkey window delivers ciphertext for decryption. -/
  | rdmaWrite (session rkey off : Nat) (bytes : List Byte) (now : Nat)
  /-- `SEND_WITH_INVALIDATE` (R360): A SEND with Invalidate from a target is taken by the responder. -/
  | sendWithInvalidate (session rkey : Nat) (ok : Bool) (cyc now : Nat)
  /-- `ETHERNET_FRAME` (R360): An Ethernet frame is received and dropped if oversized, double-tagged or fragmented. -/
  | ethernetFrame (port len tags : Nat) (fragment : Bool)
  /-- `CAPTURE` (R376): CAPTURE writes shards, compares replica digests and writes the signed manifest. -/
  | capture (trk now : Nat)
  /-- `COPYOUT` (R372): COPYOUT copies staged shards from the cellar to storage again. -/
  | copyout (trk now : Nat)
  /-- `RESTORE` (R379): RESTORE checks the manifest and writes target slices from overlapping shards. -/
  | restore (trk now : Nat)
  /-- `CKPT_TIMER_FIRE` (R370): The checkpoint timer fires, starting the oldest armed CAPTURE or setting MISSED. -/
  | ckptTimerFire (fence now : Nat)
  /-- `CKPT_TMS_WRITE` (R370): A write to CKPT_TMS sets the timer period and restarts its count. -/
  | ckptTmsWrite (port fence value now : Nat)
  /-- `SEC_MB_GO` (R417): A write to SEC_MB_GO queues an RTP request or refuses it at once. -/
  | secMbGo (port value now : Nat)
  /-- `GET_NONCE` (R529): GET_NONCE returns a 32-byte authorisation nonce for a hoop. -/
  | getNonce (now : Nat)
  /-- `KEY_CREATE` (R398): KEY_CREATE makes the lowest empty slot active with a generated or imported base secret. -/
  | keyCreate (now : Nat)
  /-- `KEY_REVOKE` (R403): KEY_REVOKE puts a slot in DRAINING and increments its generation. -/
  | keyRevoke (now : Nat)
  /-- `AUTHORISE` (R411): AUTHORISE stages a signed two-party record against a hoop. -/
  | authorise (now : Nat)
  /-- `KEY_POLICY` (R411): KEY_POLICY changes a slot's OWNER or cipher limit under two-party control. -/
  | keyPolicy (slot owner limit now : Nat)
  /-- `PAIR_LINK` (R405): PAIR_LINK pairs a link slot with a peer device by key exchange. -/
  | pairLink (lport slot pairing peerPairing peerSerial now : Nat)
  /-- `PAIR_LINK_TIMEOUT` (R405): A pairing with no matching peer request within 10 s completes with GROUP_TIMEOUT. -/
  | pairLinkTimeout (lport pairing now : Nat)
  /-- `APPROVE` (R414): APPROVE records an owner's approval of a pricking measurement. -/
  | approve (owner : Nat) (measure ecSig pqSig : List Byte) (now : Nat)
  /-- `RELEASE_POLICY` (R415): RELEASE_POLICY replaces a joint hoop's release policy. -/
  | releasePolicy (now : Nat)
  /-- `ATTEST` (R396): ATTEST returns the signed attestation report over a requester nonce. -/
  | attest (nonce : List Byte) (now : Nat)
  /-- `OWNER_ADD` (R411): OWNER_ADD adds an owner to a hoop. -/
  | ownerAdd (owner : Nat) (ec pq : List Byte) (now : Nat)
  /-- `OWNER_REMOVE` (R411): OWNER_REMOVE removes an owner from a hoop. -/
  | ownerRemove (owner now : Nat)
  /-- `CONSENT` (R433): CONSENT sets the hoop's debug consent flags, cutting off cleared rights. -/
  | consent (flags now : Nat)
  /-- `RTP_WATCHDOG` (R387): RTP core A's watchdog fires, restarting it from ROM or halting on a second firing. -/
  | rtpWatchdog (core dur now : Nat)
  /-- `DECK_DERIVE` (R400): The RTP derives a slot's deck key at internal priority and sets DECK_READY. -/
  | deckDerive (slot now : Nat)
  /-- `KEY_DELIVER` (R398): KEY_DELIVER imports a slot's base secret through a bound SPDM session. -/
  | keyDeliver (session slot : Nat) (secret : List Byte) (now : Nat)
  /-- `KEY_DELIVER_TIMEOUT` (R398): No KEY_DELIVER within 60 s fails the import and empties the slot. -/
  | keyDeliverTimeout (slot now : Nat)
  /-- `KEM_ENCAP` (R395): KEM_ENCAP mixes an ML-KEM shared secret into the session's keys and binds the session. -/
  | kemEncap (session : Nat) (ct : List Byte) (now : Nat)
  /-- `REPORT` (R396): The REPORT vendor message returns the attestation report. -/
  | spdmReport (mctp : Bool) (session : Option Nat) (nonce : List Byte) (now : Nat)
  /-- `PQ_CERT` (R394): PQ_CERT returns the ML-DSA-87 certificates of both chains. -/
  | pqCert (mctp : Bool) (session : Option Nat) (now : Nat)
  /-- `GET_VERSION` (R394): GET_VERSION reports SPDM 1.3. -/
  | getVersion (mctp : Bool) (now : Nat)
  /-- `NEGOTIATE_ALGORITHMS` (R394): NEGOTIATE_ALGORITHMS accepts only the supported algorithm set. -/
  | negotiateAlgorithms (mctp : Bool) (version : Nat) (baseAsym reqAsym baseHash dhe aead measHash : Bool) (now : Nat)
  /-- `KEY_EXCHANGE` (R394): KEY_EXCHANGE opens a secured session, up to 32 at once. -/
  | keyExchange (mctp : Bool) (version slot len : Nat) (peer : List Byte) (now : Nat)
  /-- `FINISH` (R395): FINISH completes a session handshake, after which KEM_ENCAP must follow. -/
  | spdmFinish (session : Nat) (good : Bool) (leaf : List Byte) (now : Nat)
  /-- `GET_MEASUREMENTS` (R396): GET_MEASUREMENTS returns measurement blocks, the report at index 0xF0. -/
  | getMeasurements (mctp : Bool) (version len : Nat) (session : Option Nat) (index : Nat) (nonce : List Byte) (now : Nat)
  /-- `TAMPER_TRIP` (R389): A tamper source trips, zeroizing the root secret, logging the trip and halting if powered. -/
  | tamperTrip (source bclk now : Nat)
  /-- `ENTROPY_HEALTH_FAIL` (R391): An entropy health-test failure restarts the source, halting after three in 1 s. -/
  | entropyHealthFail (startup : Bool) (now : Nat)
  /-- `KEYS_ZEROIZE` (R403): A write to KEYS_ZEROIZE destroys a slot's keys by hardware and drains it. -/
  | keysZeroize (port value now : Nat)
  /-- `CIPHU_TAIL` (R409): A write to CIPHU_TAIL is the doorbell of a hoop's cipher queue. -/
  | ciphuTail (port hoop value now : Nat)
  /-- `GCM_ENC` (R407): GCM_ENC encrypts with AES-256-GCM under a counted IV. -/
  | gcmEnc (hoop own lender stall now : Nat)
  /-- `GCM_DEC` (R407): GCM_DEC decrypts and checks the tag, zeroing the output on failure. -/
  | gcmDec (hoop own lender stall now : Nat)
  /-- `SHA384` (R407): SHA384 writes the digest of the input. -/
  | sha384 (hoop own lender stall now : Nat)
  /-- `HMAC384` (R407): HMAC384 writes the HMAC-SHA-384 of the input under a slot key. -/
  | hmac384 (hoop own lender stall now : Nat)
  /-- `LC_TO_TEST_UNLOCKED` (R425): A transition to TEST_UNLOCKED programs word W1. -/
  | lcToTestUnlocked (port vbat fuseBad : Nat) (lost : Option Nat) (now : Nat)
  /-- `LC_TO_TEST_LOCKED` (R425): A transition to TEST_LOCKED programs word W2. -/
  | lcToTestLocked (port vbat fuseBad : Nat) (lost : Option Nat) (now : Nat)
  /-- `LC_TO_MANUFACTURED` (R426): A transition to MANUFACTURED writes the root secret and programs W3. -/
  | lcToManufactured (port vbat fuseBad : Nat) (lost : Option Nat) (now : Nat)
  /-- `LC_TO_SECURED` (R425): A transition to SECURED programs W4. -/
  | lcToSecured (port vbat fuseBad : Nat) (lost : Option Nat) (now : Nat)
  /-- `LC_TO_RMA` (R426): A transition to RMA zeroizes every secret and programs W5. -/
  | lcToRma (port vbat fuseBad : Nat) (lost : Option Nat) (now : Nat)
  /-- `LC_TO_SCRAPPED` (R426): A transition to SCRAPPED zeroizes every secret and programs W6. -/
  | lcToScrapped (port vbat fuseBad : Nat) (lost : Option Nat) (now : Nat)
  /-- `DBG_ENABLE` (R431): ENABLE verifies a debug certificate and sets the rights and scope in force. -/
  | dbgEnable (port ctx now : Nat)
  /-- `DBG_CHALLENGE` (R434): CHALLENGE draws a 32-byte legacy nonce. -/
  | dbgChallenge (port now : Nat)
  /-- `DBG_RESPONSE` (R434): RESPONSE verifies a legacy signature and grants the legacy rights. -/
  | dbgResponse (port ctx now : Nat)
  /-- `DBG_REVOKE` (R435): REVOKE ends every debug right in force. -/
  | dbgRevoke (port now : Nat)
  /-- `DBG_HALT` (R429): HALT stops a context's lanes on a tile at instruction boundaries. -/
  | dbgHalt (port ctx tile now : Nat)
  /-- `DBG_RESUME` (R429): RESUME restarts a halted context's lanes. -/
  | dbgResume (port ctx tile now : Nat)
  /-- `ENGINE_WATCHDOG` (R440): A unit making no progress within RAS_EWD fires cause 0x44, resetting the context. -/
  | engineWatchdog (kind unit ctx now : Nat)
  /-- `QUEUE_WATCHDOG` (R440): A command not started within RAS_QWD fires cause 0x45, resetting the context. -/
  | queueWatchdog (trk now : Nat)
  /-- `RAS_HALT_REQ` (R438): Writing the halt code to RAS_HALT_REQ halts the device with cause SW_HALT. -/
  | rasHaltReq (port value now : Nat)
  /-- `RAS_HALT_STS_CLEAR` (R450): Clearing RAS_HALT_STS.VALID zeroes the halt record. -/
  | rasHaltStsClear (port value : Nat)
  /-- `HALT_N_LOW` (R504): HALT_N held low externally with EXT_HALT_EN set halts the device with cause 0x16. -/
  | haltNLow (now : Nat)
  /-- `REMAP_TILE` (R455): REMAP_TILE arms the move of a logical tile onto its row's spare. -/
  | remapTile (port tile : Nat) (immediate : Bool) (now : Nat)
  /-- `REMAP_CANCEL` (R455): CANCEL disarms a tile remap and releases its hold. -/
  | remapCancel (port tile now : Nat)
  /-- `TILE_REMAP_EXECUTE` (R455): When the held tile has no released work left, its units and state are copied to the spare and the hold released. -/
  | tileRemapExecute (tile now : Nat)
  /-- `POWER_ON` (R458): Core power-good and SYS_RST_N start a cold boot attempt. -/
  | powerOn (b : BootOp) (now : Nat)
  /-- `SYS_RST_N_RELEASE` (R459): SYS_RST_N released after assertion starts a cold attempt. -/
  | sysRstNRelease (b : BootOp) (now : Nat)
  /-- `SYS_RST_N_ASSERT` (R458): SYS_RST_N going low holds the core in reset at once. -/
  | sysRstNAssert (now : Nat)
  /-- `POWER_GOOD_LOSS` (R458): A core power-good falling holds the core in reset and loses its state. -/
  | powerGoodLoss (rail now : Nat)
  /-- `PG_RISE` (R502): A power-good input rises and its order is recorded, holding the core on a sequencing error. -/
  | pgRise (rails : List Nat) (now : Nat)
  /-- `PERST_N_ASSERT` (R459): PERST_N asserted after READY or in safe mode starts a warm attempt on release. -/
  | perstNAssert (now : Nat)
  /-- `PERST_N_RELEASE` (R458): PERST_N released lets PCIe training proceed and starts a pending warm attempt. -/
  | perstNRelease (b : BootOp) (now : Nat)
  /-- `BOOT_CTL_WARM` (R459): Writing BOOT_CTL.WARM starts a warm attempt. -/
  | bootCtlWarm (port : Nat) (b : BootOp) (now : Nat)
  /-- `CLEAR_SERIES` (R464): Writing CLEAR_SERIES with WARM leaves safe mode at series attempt 1. -/
  | clearSeries (port : Nat) (b : BootOp) (now : Nat)
  /-- `BOOT_RETRY` (R462): 100 ms after a failed attempt the always-on domain starts a retry. -/
  | bootRetry (b : BootOp) (now : Nat)
  /-- `BOOT_STEP_TIMEOUT` (R461): A boot step still running at its limit fails with TIMEOUT. -/
  | bootStepTimeout (b : BootOp) (now : Nat)
  /-- `BOOT_SVN_COMMIT` (R465): Writing the commit code raises the firmware rollback floor. -/
  | bootSvnCommit (port value : Nat) (lost : Option Nat) (now : Nat)
  /-- `FLASH_ERASE` (R472): BOOT_FL_OP ERASE erases one 4 KiB flash sector. -/
  | flashErase (port now : Nat)
  /-- `FLASH_PROGRAM` (R472): BOOT_FL_OP PROGRAM writes 256 bytes to flash. -/
  | flashProgram (port now : Nat)
  /-- `FLASH_READ` (R472): BOOT_FL_OP READ reads 256 bytes from flash. -/
  | flashRead (port now : Nat)
  /-- `FLASH_BUSY_TIMEOUT` (R472): Flash still busy after 500 ms ends the operation with TMO. -/
  | flashBusyTimeout (port op now : Nat)
  /-- `PEER_RESET_ENTRY` (R492): A side of a crossing enters reset and the live side treats the crossing as down. -/
  | peerResetEntry (crossing side drops now : Nat)
  /-- `CROSSING_REOPEN` (R493): A side leaving reset reopens the crossing by a four-phase handshake. -/
  | crossingReopen (crossing side now : Nat)
  /-- `AVS_UPDATE` (R500): Every 100 ms the device writes a new VDD_CORE target over AVSBus. -/
  | avsUpdate (target retries : Nat) (failed : Bool) (now : Nat)
  /-- `ICORE_READ` (R500): Every 1 ms the device reads the VDD_CORE current into TEL_ICORE. -/
  | icoreRead (amps now : Nat)
  /-- `MCTP_MESSAGE` (R507): An MCTP message on the management bus is taken and answered. -/
  | mctpMessage (msg : MgmtMsg) (won : Bool) (now : Nat)
  /-- `MCTP_SEND_TIMEOUT` (R508): A management packet not sent within 10 ms is dropped. -/
  | mctpSendTimeout (now : Nat)
  /-- `TEST_LCTL_WRITE` (R519): A write to TEST_LCTL sets a lane's pattern, checker and loopback, or is refused. -/
  | testLctlWrite (port value now : Nat)
  /-- `TEST_LSEL_WRITE` (R528): A write to TEST_LSEL selects a lane, discarded for a lane beyond the port. -/
  | testLselWrite (port value now : Nat)
  /-- `MBIST_TILE` (R523): MBIST_TILE tests one unassigned logical tile's memories and arrays. -/
  | mbistTile (port tile : Nat) (units : List Nat) (rows : Nat) (crock : Bool) (arrays : List Nat) (now : Nat)
  /-- `HBM_TEST` (R525): HBM_TEST tests and repairs one stack and reinitialises its metadata. -/
  | hbmTest (port stack : Nat) (hard pass lanes : Bool) (rows now : Nat)
  /-- `TAP_RESET` (R509): TRST_N low or TMS high for five TCK cycles resets the TAP. -/
  | tapReset
  /-- `EXTEST` (R527): EXTEST drives the outputs from the boundary register in allowed states. -/
  | extest (cells : Nat)
  /-- `CLAMP` (R527): CLAMP holds outputs from the boundary register and selects bypass. -/
  | tapClamp
  /-- `HIGHZ` (R527): HIGHZ releases the outputs and selects bypass. -/
  | highz
  /-- `SAMPLE_PRELOAD` (R526): SAMPLE/PRELOAD samples the lands into the boundary register. -/
  | samplePreload (lands preload : Nat)
  /-- `IDCODE` (R526): IDCODE selects the identification register. -/
  | idcode
  /-- `BYPASS` (R526): BYPASS selects the bypass register. -/
  | bypass
  /-- `REGACC` (R474): REGACC selects the register-access data register of the JTAG port. -/
  | regacc
  /-- `DBGCERT` (R431): DBGCERT selects the certificate data register for debug certificates. -/
  | dbgcert (bytes : List Byte) (now : Nat)
  /-- `DBGTAP` (R429): DBGTAP connects the debug TAP with the rights in force. -/
  | dbgtap
  /-- `PLL_LOCK_LOSS` (R438): A CCLK, NCLK, MCLK or SCLK PLL that loses lock for 4 ACLK cycles halts the device with cause CLOCK_LOSS. -/
  | pllLockLoss (pll now : Nat)
  /-- `ALWAYS_ON_RESET_RELEASE` (R458): With VDD_AON and VDDIO_1V8 good and SYSREF_CLK running, the always-on domain leaves its power-on reset, samples the management straps and starts serving its pages and clock tamper checks. -/
  | alwaysOnResetRelease (i3c : Bool) (addr now : Nat)
  /-- `VDD_AON_LOSS` (R460): VDD_AON or VDDIO_1V8 failing puts the always-on domain in reset, losing the halt record, ledger, series counter and repair lists and leaving safe mode. -/
  | vddAonLoss (now : Nat)
  /-- `OSCILLATOR_START` (R506): The battery-domain crystal oscillator starts after VBAT is applied, after which CLOCK tamper checking begins. -/
  | oscillatorStart (applied : Bool) (now : Nat)
  /-- `TRAINING_COMPLETE` (R327): A training or retraining port reaches VC0_ONLY, or the x4 retrain finishes; VC0 traffic starts, the epoch increments and TOPO_CHANGE is flooded. -/
  | trainingComplete (lport good peer prio peerPort hoplat crc : Nat)
  /-- `COMPLETION_TIMEOUT` (R254): A PCIe read with no completion within the Device Control 2 range fails its DMA segment, or moves a queue whose fetch it was to ERROR. -/
  | completionTimeout (fetch : Bool) (unit cyc now : Nat)
  /-- `ETHERNET_LINK_UP` (R360): An Ethernet port's PHY links with its partner and sets STOR_P_STS.LINK. -/
  | ethernetLinkUp (port : Nat) (rateOk : Bool)
  /-- `ETHERNET_LINK_DOWN` (R360): An Ethernet port loses its link, clearing STOR_P_STS.LINK and taking its sessions' queue pairs to error. -/
  | ethernetLinkDown (port : Nat)
  /-- `SEQ_HOLD_RELEASE` (R502): After every power-good input has been low together for 1 ms, the core hold set by a sequencing error clears. -/
  | seqHoldRelease (now : Nat)
  /-- `CHECKER_LOCK` (R518): A lane pattern checker locks after 64 matching bits and starts counting errors and bits. -/
  | checkerLock (kind lport lane errs bits : Nat)
  /-- `CHECKER_LOSS_OF_LOCK` (R518): A lane pattern checker that sees 32 or more of 64 bits mismatch clears LOCK and relocks. -/
  | checkerLossOfLock (kind lport lane errs bits : Nat)
  /-- `HEARTBEAT_TIMEOUT` (R394): A secured SPDM session that receives no heartbeat within its 10 s period ends. -/
  | heartbeatTimeout (session now : Nat)
deriving DecidableEq, Repr

end Sys2Proof
end

