-- ==== Sys2Proof/Machine/Tab.lean ====
section
/-! DEFINITION. The one sparse table of the model: a list of key and value pairs in ONE canonical form
(keys strictly rising, no entry equal to what an unlisted key reads as). Register file, memories and every
numbered set of objects are such tables. -/
namespace Sys2Proof.Machine

/-- What key `k` holds: the listed value, else what an unlisted key reads as. -/
def tabGet {α : Type} (dflt : Nat → α) : Table α → Nat → α
  | [], k => dflt k
  | (k', v) :: r, k => if k' = k then v else tabGet dflt r k

/-- Put `v` at `k`, keeping the keys rising. -/
def tabIns {α : Type} : Table α → Nat → α → Table α
  | [], k, v => [(k, v)]
  | (k', v') :: r, k, v =>
    if k < k' then (k, v) :: (k', v') :: r else if k = k' then (k, v) :: r else (k', v') :: tabIns r k v

/-- Write `v` at `k`: a value equal to the unlisted one is left out. -/
def tabPut {α : Type} [DecidableEq α] (dflt : Nat → α) : Table α → Nat → α → Table α
  | [], k, v => if v = dflt k then [] else [(k, v)]
  | e :: r, k, v => if v = dflt k then (e :: r).filter (fun x => x.1 != k) else tabIns (e :: r) k v

/-- Every key of the table lies above `lo`, keys rise, and no entry equals the unlisted value. -/
def tabWfFrom {α : Type} [DecidableEq α] (dflt : Nat → α) : Option Nat → Table α → Bool
  | _, [] => true
  | lo, (k, v) :: r =>
    (match lo with
     | none => true
     | some l => decide (l < k)) && decide (v ≠ dflt k) && tabWfFrom dflt (some k) r

/-- The canonical form of a table. -/
def tabWf {α : Type} [DecidableEq α] (dflt : Nat → α) (t : Table α) : Bool := tabWfFrom dflt none t

/-- The table with every entry whose key satisfies `p` dropped back to the unlisted value. -/
def tabClear {α : Type} (p : Nat → Bool) (t : Table α) : Table α := t.filter (fun e => !p e.1)

/-- The keys listed, rising, whose value satisfies `p`. -/
def tabKeys {α : Type} (p : Nat → α → Bool) (t : Table α) : List Nat :=
  (t.filter (fun e => p e.1 e.2)).map (·.1)

/-- The lowest number below `n`, from `k` up, that satisfies `p`: how the device takes a free slot of any kind. -/
def lowestFrom (p : Nat → Bool) : Nat → Nat → Option Nat
  | _, 0 => none
  | k, fuel + 1 => if p k then some k else lowestFrom p (k + 1) fuel

/-- The lowest number below `n` that satisfies `p`. -/
def lowest (n : Nat) (p : Nat → Bool) : Option Nat := lowestFrom p 0 n

end Sys2Proof.Machine
end

