-- ==== Sys2Proof/Machine/Bits.lean ====
section
/-! DEFINITION. Bit fields, little-endian byte order (R4) and byte memories. -/
namespace Sys2Proof.Machine

/-- Field `[hi:lo]` of a number. -/
def fld (x hi lo : Nat) : Nat := (x >>> lo) % 2 ^ (hi + 1 - lo)

/-- Bit `i` of a number. -/
def bit (x i : Nat) : Bool := (x >>> i) % 2 == 1

/-- 1 for true, 0 for false. -/
def b2n (b : Bool) : Nat := if b then 1 else 0

/-- Field `[hi:lo]` of a register word, as a number. -/
def wfld (w : Word) (hi lo : Nat) : Nat := fld w.toNat hi lo

/-- `x` with field `[hi:lo]` replaced by `v`. -/
def setFld (x hi lo v : Nat) : Nat :=
  x - fld x hi lo * 2 ^ lo + (v % 2 ^ (hi + 1 - lo)) * 2 ^ lo

/-- The bytes of `v`, least significant first: the device is little-endian (R4). -/
def toBytes : Nat → Nat → List Byte
  | 0, _ => []
  | n + 1, v => BitVec.ofNat 8 v :: toBytes n (v / 256)

/-- The number that little-endian bytes hold. -/
def ofBytes : List Byte → Nat
  | [] => 0
  | b :: r => b.toNat + 256 * ofBytes r

/-- What an unlisted byte of the cellar, the pantries or host memory reads as. -/
def zeroByte (_ : Nat) : Byte := 0

/-- What an erased flash byte reads as. -/
def erasedByte (_ : Nat) : Byte := 0xFF

/-- One byte of a memory whose unlisted bytes read zero. -/
def memGet (m : List (Nat × Byte)) (a : Nat) : Byte := tabGet zeroByte m a

/-- One byte stored. -/
def memPut (m : List (Nat × Byte)) (a : Nat) (b : Byte) : List (Nat × Byte) := tabPut zeroByte m a b

/-- `n` bytes from address `a` up. -/
def memRead (m : List (Nat × Byte)) : Nat → Nat → List Byte
  | _, 0 => []
  | a, n + 1 => memGet m a :: memRead m (a + 1) n

/-- Bytes stored from address `a` up. -/
def memWrite (m : List (Nat × Byte)) : Nat → List Byte → List (Nat × Byte)
  | _, [] => m
  | a, b :: r => memWrite (memPut m a b) (a + 1) r

/-- A little-endian number of `n` bytes at `a`. -/
def memNat (m : List (Nat × Byte)) (a n : Nat) : Nat := ofBytes (memRead m a n)

/-- The canonical form of a memory whose unlisted bytes read zero. -/
def memWf (m : List (Nat × Byte)) : Bool := tabWf zeroByte m

/-- The same, under the name that the interface gives it. -/
abbrev Memory.wf (m : List (Nat × Byte)) : Bool := memWf m

/-- Bytes `[lo, lo + n)` dropped back to zero. -/
def memZero (m : List (Nat × Byte)) (lo n : Nat) : List (Nat × Byte) :=
  tabClear (fun k => decide (lo ≤ k) && decide (k < lo + n)) m

/-- Bytes of a list, as the number that the field `[off, off + n)` holds. -/
def bytesNat (bs : List Byte) (off n : Nat) : Nat := ofBytes ((bs.drop off).take n)

/-- Ceiling division; division by 0 is 0. -/
def cdiv (a b : Nat) : Nat := (a + b - 1) / b

/-- `x` rounded up to a multiple of `m`. -/
def roundUp (x m : Nat) : Nat := cdiv x m * m

/-- ceil(log2 n), 0 for n ≤ 1. -/
def clog2 (n : Nat) : Nat := if n ≤ 1 then 0 else Nat.log2 (n - 1) + 1

/-- A sum held at its greatest value instead of wrapping. -/
def satAdd (width x y : Nat) : Nat := min (x + y) (2 ^ width - 1)

/-- An element put before the first one that it is not after. -/
def insertBy {α : Type} (le : α → α → Bool) (x : α) : List α → List α
  | [] => [x]
  | y :: r => if le x y then x :: y :: r else y :: insertBy le x r

/-- A list in order, equals as they stood. -/
def sortBy {α : Type} (l : List α) (le : α → α → Bool) : List α := l.foldr (insertBy le) []

/-- The two's complement value of the low `w` bits. -/
def sint (w x : Nat) : Int :=
  let y := x % 2 ^ w
  if y < 2 ^ (w - 1) then (y : Int) else (y : Int) - 2 ^ w

/-- The low `w` bits of an integer. -/
def unsint (w : Nat) (x : Int) : Nat := (x % (2 ^ w : Int)).toNat

/-- Numbers 0 to n-1. -/
def upto (n : Nat) : List Nat := List.range n

/-- Fold over the numbers 0 to n-1, lowest first. -/
def foldUpto {α : Type} (n : Nat) (f : α → Nat → α) (a : α) : α := (List.range n).foldl f a

end Sys2Proof.Machine
end

