-- ==== Sys2Proof/Machine/RegMap.lean ====
section
/-! DEFINITION. The static register map: every register of every page, written from the Offset tables of the chapters
(access type R7, reset value, writable bits, width of the value it is a word of, whether it is banked per access port, R474). -/
namespace Sys2Proof.Machine

/-- Access types (R7, Table 2). `mixed` is `BLK_CTL`, whose fields differ. -/
inductive Acc where
  | ro | rw | wo | w1c | w1s | rc | mixed
deriving DecidableEq, Repr

/-- One register of a page: offset, access type, reset value, the bits a write reaches (R6), the offset of the lowest
word of the value it belongs to and how many words that value has (R485), and whether each port has its own bank. -/
structure RegDef where
  off : Nat
  acc : Acc
  reset : Nat
  mask : Nat
  low : Nat
  words : Nat
  banked : Bool
deriving DecidableEq, Repr

/-- Page NUM (R64). -/
def mapNum : List RegDef := [
  ⟨0x0100, .rw, 0x00000000, 0x00000001, 0x0100, 1, false⟩, -- SAT_CTL
  ⟨0x0104, .ro, 0x00000000, 0xFFFFFFFF, 0x0104, 1, false⟩, -- SAT_OWNER
  ⟨0x0108, .rw, 0x00000000, 0xFFFFFFFF, 0x0108, 2, false⟩, -- SAT_COUNT_LO
  ⟨0x010C, .rw, 0x00000000, 0xFFFFFFFF, 0x0108, 2, false⟩, -- SAT_COUNT_HI
  ⟨0x0110, .rw, 0x00000000, 0xFFFFFFFF, 0x0110, 2, false⟩, -- SAT_ELEMS_LO
  ⟨0x0114, .rw, 0x00000000, 0xFFFFFFFF, 0x0110, 2, false⟩, -- SAT_ELEMS_HI
  ⟨0x0118, .rw, 0x00000000, 0xFFFFFFFF, 0x0118, 1, false⟩, -- SAT_AMAX
  ⟨0x011C, .w1c, 0x00000000, 0x0000001F, 0x011C, 1, false⟩, -- SAT_FLAGS
  ⟨0x0120, .rw, 0x00000000, 0xFFFFFFFF, 0x0120, 2, false⟩, -- SAT_LIMIT_LO
  ⟨0x0124, .rw, 0x00000000, 0xFFFFFFFF, 0x0120, 2, false⟩, -- SAT_LIMIT_HI
  ⟨0x0128, .rw, 0x00000000, 0xFFFFFFFF, 0x0128, 2, false⟩, -- ESC_BLOCKS_LO
  ⟨0x012C, .rw, 0x00000000, 0xFFFFFFFF, 0x0128, 2, false⟩, -- ESC_BLOCKS_HI
  ⟨0x0130, .rw, 0x00000000, 0xFFFFFFFF, 0x0130, 2, false⟩, -- ESC_EXAMINED_LO
  ⟨0x0134, .rw, 0x00000000, 0xFFFFFFFF, 0x0130, 2, false⟩, -- ESC_EXAMINED_HI
  ⟨0x0138, .ro, 0x00000000, 0xFFFFFFFF, 0x0138, 1, false⟩, -- SAT_TENSOR
  ⟨0x1000, .ro, 0x00001000, 0xFFFFFFFF, 0x1000, 1, false⟩, -- NUM_ENTRIES
  ⟨0x1004, .ro, 0x0000001F, 0xFFFFFFFF, 0x1004, 1, false⟩, -- NUM_ROT_SIZES
  ⟨0x1008, .ro, 0x00000080, 0xFFFFFFFF, 0x1008, 1, false⟩, -- NUM_TALLY_GROUP
  ⟨0x100C, .ro, 0x00000010, 0xFFFFFFFF, 0x100C, 1, false⟩] -- NUM_ACC_GROUP

/-- Page TILE (R103). -/
def mapTilePart0 : List RegDef := [
  ⟨0x0100, .ro, 0x00000001, 0xFFFFFFFF, 0x0100, 1, false⟩, -- TILE_STS
  ⟨0x0104, .ro, 0x00000000, 0x0000007F, 0x0104, 1, false⟩, -- TILE_PHYS
  ⟨0x0108, .ro, 0x00200220, 0x00FF0F3F, 0x0108, 1, false⟩, -- TILE_ARRAYS
  ⟨0x0110, .ro, 0xFFFFFFFF, 0xFFFFFFFF, 0x0110, 2, false⟩, -- TILE_UNIT_FREE_LO
  ⟨0x0114, .ro, 0xFFFFFFFF, 0xFFFFFFFF, 0x0110, 2, false⟩, -- TILE_UNIT_FREE_HI
  ⟨0x0118, .ro, 0x00000000, 0xFFFFFFFF, 0x0118, 1, false⟩, -- TILE_UNIT_OWNER0
  ⟨0x011C, .ro, 0x00000000, 0xFFFFFFFF, 0x011C, 1, false⟩, -- TILE_UNIT_OWNER1
  ⟨0x0120, .ro, 0x00000000, 0xFFFFFFFF, 0x0120, 1, false⟩, -- TILE_UNIT_OWNER2
  ⟨0x0124, .ro, 0x00000000, 0xFFFFFFFF, 0x0124, 1, false⟩, -- TILE_UNIT_OWNER3
  ⟨0x0128, .ro, 0x00000000, 0xFFFFFFFF, 0x0128, 1, false⟩, -- TILE_UNIT_OWNER4
  ⟨0x012C, .ro, 0x00000000, 0xFFFFFFFF, 0x012C, 1, false⟩, -- TILE_UNIT_OWNER5
  ⟨0x0130, .ro, 0x00000000, 0xFFFFFFFF, 0x0130, 1, false⟩, -- TILE_UNIT_OWNER6
  ⟨0x0134, .ro, 0x00000000, 0xFFFFFFFF, 0x0134, 1, false⟩, -- TILE_UNIT_OWNER7
  ⟨0x0140, .ro, 0x00000000, 0xFFFFFFFF, 0x0140, 1, false⟩, -- TILE_SLOT0
  ⟨0x0144, .ro, 0x00000000, 0xFFFFFFFF, 0x0144, 1, false⟩, -- TILE_SLOT1
  ⟨0x0148, .ro, 0x00000000, 0xFFFFFFFF, 0x0148, 1, false⟩, -- TILE_SLOT2
  ⟨0x014C, .ro, 0x00000000, 0xFFFFFFFF, 0x014C, 1, false⟩, -- TILE_SLOT3
  ⟨0x0150, .ro, 0x00000000, 0xFFFFFFFF, 0x0150, 1, false⟩, -- TILE_SLOT4
  ⟨0x0154, .ro, 0x00000000, 0xFFFFFFFF, 0x0154, 1, false⟩, -- TILE_SLOT5
  ⟨0x0158, .ro, 0x00000000, 0xFFFFFFFF, 0x0158, 1, false⟩, -- TILE_SLOT6
  ⟨0x015C, .ro, 0x00000000, 0xFFFFFFFF, 0x015C, 1, false⟩, -- TILE_SLOT7
  ⟨0x0160, .ro, 0x00000000, 0xFFFFFFFF, 0x0160, 1, false⟩, -- TILE_SLOT8
  ⟨0x0164, .ro, 0x00000000, 0xFFFFFFFF, 0x0164, 1, false⟩, -- TILE_SLOT9
  ⟨0x0168, .ro, 0x00000000, 0xFFFFFFFF, 0x0168, 1, false⟩, -- TILE_SLOT10
  ⟨0x016C, .ro, 0x00000000, 0xFFFFFFFF, 0x016C, 1, false⟩, -- TILE_SLOT11
  ⟨0x0170, .ro, 0x00000000, 0xFFFFFFFF, 0x0170, 1, false⟩, -- TILE_SLOT12
  ⟨0x0174, .ro, 0x00000000, 0xFFFFFFFF, 0x0174, 1, false⟩, -- TILE_SLOT13
  ⟨0x0178, .ro, 0x00000000, 0xFFFFFFFF, 0x0178, 1, false⟩, -- TILE_SLOT14
  ⟨0x017C, .ro, 0x00000000, 0xFFFFFFFF, 0x017C, 1, false⟩, -- TILE_SLOT15
  ⟨0x0180, .rw, 0x00000000, 0xFFFFFFFF, 0x0180, 2, false⟩, -- TILE_NOM_CYC_LO
  ⟨0x0184, .rw, 0x00000000, 0xFFFFFFFF, 0x0180, 2, false⟩, -- TILE_NOM_CYC_HI
  ⟨0x0188, .rw, 0x00000000, 0xFFFFFFFF, 0x0188, 2, false⟩] -- TILE_ELAPSED_LO

/-- More of page TILE (R103). -/
def mapTilePart1 : List RegDef := [
  ⟨0x018C, .rw, 0x00000000, 0xFFFFFFFF, 0x0188, 2, false⟩, -- TILE_ELAPSED_HI
  ⟨0x0190, .rw, 0x00000000, 0xFFFFFFFF, 0x0190, 2, false⟩, -- TILE_REPLAY_LO
  ⟨0x0194, .rw, 0x00000000, 0xFFFFFFFF, 0x0190, 2, false⟩, -- TILE_REPLAY_HI
  ⟨0x0198, .rc, 0x00000000, 0xFFFFFFFF, 0x0198, 1, false⟩, -- TILE_PANTRY_CE
  ⟨0x019C, .ro, 0x00010000, 0x0001FFFF, 0x019C, 1, false⟩, -- TILE_RATE
  ⟨0x01A0, .ro, 0x00010000, 0x0001FFFF, 0x01A0, 1, false⟩, -- TILE_COHORT
  ⟨0x01A4, .w1c, 0x00000000, 0x0000001F, 0x01A4, 1, false⟩, -- TILE_HFLAGS
  ⟨0x01A8, .ro, 0x00000000, 0xFFFFFFFF, 0x01A8, 1, false⟩, -- TILE_QUEUES
  ⟨0x1000, .ro, 0x00000060, 0xFFFFFFFF, 0x1000, 1, false⟩, -- TILE_COUNT
  ⟨0x1004, .ro, 0x00000018, 0xFFFFFFFF, 0x1004, 1, false⟩, -- TILE_WINDOW
  ⟨0x1008, .ro, 0x0000E666, 0xFFFFFFFF, 0x1008, 1, false⟩, -- TILE_SLOW_THRESH
  ⟨0x1010, .ro, 0x00000000, 0xFFFFFFFF, 0x1010, 1, false⟩, -- TILE_SLOW_MAP0
  ⟨0x1014, .ro, 0x00000000, 0xFFFFFFFF, 0x1014, 1, false⟩, -- TILE_SLOW_MAP1
  ⟨0x1018, .ro, 0x00000000, 0xFFFFFFFF, 0x1018, 1, false⟩] -- TILE_SLOW_MAP2

/-- Page TILE, whole (R103). -/
def mapTile : List RegDef := mapTilePart0 ++ mapTilePart1

/-- Page DARN (R191). -/
def mapDarn : List RegDef := [
  ⟨0x0100, .ro, 0x00000001, 0x00000003, 0x0100, 1, false⟩, -- DARN_STS
  ⟨0x0104, .ro, 0x00000000, 0x800F0FFF, 0x0104, 1, false⟩, -- DARN_CTX
  ⟨0x0108, .rw, 0x00000000, 0xFFFFFFFF, 0x0108, 2, false⟩, -- DARN_STRIPS_LO
  ⟨0x010C, .rw, 0x00000000, 0xFFFFFFFF, 0x0108, 2, false⟩, -- DARN_STRIPS_HI
  ⟨0x0110, .rw, 0x00000000, 0xFFFFFFFF, 0x0110, 2, false⟩, -- DARN_BUSY_LO
  ⟨0x0114, .rw, 0x00000000, 0xFFFFFFFF, 0x0110, 2, false⟩, -- DARN_BUSY_HI
  ⟨0x0118, .rc, 0x00000000, 0xFFFFFFFF, 0x0118, 1, false⟩, -- DARN_SRAM_CE
  ⟨0x011C, .w1c, 0x00000000, 0x00000007, 0x011C, 1, false⟩, -- DARN_FLAGS
  ⟨0x1000, .ro, 0x00000008, 0xFFFFFFFF, 0x1000, 1, false⟩, -- DARN_COUNT
  ⟨0x1004, .ro, 0x0000003E, 0xFFFFFFFF, 0x1004, 1, false⟩, -- DARN_RULES
  ⟨0x1008, .ro, 0x00000400, 0xFFFFFFFF, 0x1008, 1, false⟩, -- DARN_FENCES
  ⟨0x1010, .rw, 0x00000000, 0x000003FF, 0x1010, 1, true⟩, -- DARN_FSEL
  ⟨0x1020, .ro, 0x00000000, 0xFFFFFFFF, 0x1020, 1, false⟩, -- DARN_F_STATE
  ⟨0x1024, .ro, 0x00000000, 0xFFFFFFFF, 0x1024, 1, false⟩, -- DARN_F_STEP
  ⟨0x1028, .ro, 0x00000000, 0xFFFFFFFF, 0x1028, 1, false⟩, -- DARN_F_CURSOR
  ⟨0x102C, .ro, 0x00000000, 0xFFFFFFFF, 0x102C, 1, false⟩, -- DARN_F_HOLDS
  ⟨0x1030, .ro, 0x00000000, 0xFFFFFFFF, 0x1030, 2, false⟩, -- DARN_F_EST_LO
  ⟨0x1034, .ro, 0x00000000, 0xFFFFFFFF, 0x1030, 2, false⟩] -- DARN_F_EST_HI

/-- Page LST (R191). -/
def mapLst : List RegDef := [
  ⟨0x0100, .rw, 0x00000000, 0x001FFFFF, 0x0100, 1, false⟩, -- LST_CTL
  ⟨0x0104, .ro, 0x00000000, 0x800F0FFF, 0x0104, 1, false⟩, -- LST_OWNER
  ⟨0x0108, .ro, 0x00000000, 0xFFFFFFFF, 0x0108, 1, false⟩, -- LST_SUMSQ
  ⟨0x010C, .rw, 0x00000000, 0xFFFFFFFF, 0x010C, 1, false⟩, -- LST_AMAX
  ⟨0x0110, .rw, 0x00000000, 0xFFFFFFFF, 0x0110, 2, false⟩, -- LST_COUNT_LO
  ⟨0x0114, .rw, 0x00000000, 0xFFFFFFFF, 0x0110, 2, false⟩, -- LST_COUNT_HI
  ⟨0x0118, .rw, 0x00000000, 0xFFFFFFFF, 0x0118, 2, false⟩, -- LST_SATCNT_LO
  ⟨0x011C, .rw, 0x00000000, 0xFFFFFFFF, 0x0118, 2, false⟩, -- LST_SATCNT_HI
  ⟨0x0120, .rw, 0x00000000, 0xFFFFFFFF, 0x0120, 4, false⟩, -- LST_ACC0
  ⟨0x0124, .rw, 0x00000000, 0xFFFFFFFF, 0x0120, 4, false⟩, -- LST_ACC1
  ⟨0x0128, .rw, 0x00000000, 0xFFFFFFFF, 0x0120, 4, false⟩, -- LST_ACC2
  ⟨0x012C, .rw, 0x00000000, 0xFFFFFFFF, 0x0120, 4, false⟩, -- LST_ACC3
  ⟨0x0130, .w1c, 0x00000000, 0x0000001F, 0x0130, 1, false⟩, -- LST_FLAGS
  ⟨0x1000, .ro, 0x00004000, 0xFFFFFFFF, 0x1000, 1, false⟩] -- LST_ENTRIES

/-- Page MCACHE (R208). -/
def mapMcachePart0 : List RegDef := [
  ⟨0x0100, .ro, 0x00000000, 0xFFFFFFFF, 0x0100, 1, false⟩, -- MC_STS
  ⟨0x0104, .ro, 0x00000000, 0x800F0FFF, 0x0104, 1, false⟩, -- MC_OWNER
  ⟨0x0108, .ro, 0x00000000, 0xFFFFFFFF, 0x0108, 1, false⟩, -- MC_MODEL
  ⟨0x010C, .ro, 0x00000000, 0xFFFFFFFF, 0x010C, 2, false⟩, -- MC_VADDR_LO
  ⟨0x0110, .ro, 0x00000000, 0x0000FFFF, 0x010C, 2, false⟩, -- MC_VADDR_HI
  ⟨0x0114, .ro, 0x00000000, 0x000007FF, 0x0114, 1, false⟩, -- MC_PAGES
  ⟨0x0118, .ro, 0x00000000, 0x0000FFFF, 0x0118, 1, false⟩, -- MC_KEY
  ⟨0x011C, .ro, 0x00000000, 0x0000FFFF, 0x011C, 1, false⟩, -- MC_HOLDS
  ⟨0x0120, .ro, 0x00000000, 0xFFFFFFFF, 0x0120, 2, false⟩, -- MC_STAMP_LO
  ⟨0x0124, .ro, 0x00000000, 0xFFFFFFFF, 0x0120, 2, false⟩, -- MC_STAMP_HI
  ⟨0x1000, .ro, 0x00000400, 0xFFFFFFFF, 0x1000, 1, false⟩, -- MC_ENTRIES
  ⟨0x1004, .ro, 0x00000100, 0xFFFFFFFF, 0x1004, 1, false⟩, -- MC_SLICE_LINES
  ⟨0x1008, .ro, 0x00010000, 0xFFFFFFFF, 0x1008, 1, false⟩, -- MC_LINE_BYTES
  ⟨0x100C, .ro, 0x00000010, 0xFFFFFFFF, 0x100C, 1, false⟩, -- MC_MAX_LIST
  ⟨0x1010, .rw, 0x00000000, 0x00000FFF, 0x1010, 1, true⟩, -- MC_CSEL
  ⟨0x1014, .w1c, 0x00000000, 0x00000003, 0x1014, 1, false⟩, -- MC_CFLAGS
  ⟨0x1018, .rw, 0x00000000, 0xFFFFFFFF, 0x1018, 2, false⟩, -- MC_HITS_LO
  ⟨0x101C, .rw, 0x00000000, 0xFFFFFFFF, 0x1018, 2, false⟩, -- MC_HITS_HI
  ⟨0x1020, .rw, 0x00000000, 0xFFFFFFFF, 0x1020, 2, false⟩, -- MC_MISSES_LO
  ⟨0x1024, .rw, 0x00000000, 0xFFFFFFFF, 0x1020, 2, false⟩, -- MC_MISSES_HI
  ⟨0x1028, .rw, 0x00000000, 0xFFFFFFFF, 0x1028, 2, false⟩, -- MC_FILL_B_LO
  ⟨0x102C, .rw, 0x00000000, 0xFFFFFFFF, 0x1028, 2, false⟩, -- MC_FILL_B_HI
  ⟨0x1030, .rw, 0x00000000, 0xFFFFFFFF, 0x1030, 2, false⟩, -- MC_EVICTS_LO
  ⟨0x1034, .rw, 0x00000000, 0xFFFFFFFF, 0x1030, 2, false⟩, -- MC_EVICTS_HI
  ⟨0x1038, .rc, 0x00000000, 0xFFFFFFFF, 0x1038, 1, false⟩, -- MC_REJECTS
  ⟨0x1040, .ro, 0x00000000, 0x01FF01FF, 0x1040, 1, false⟩, -- MC_QUOTA0
  ⟨0x1044, .ro, 0x00000000, 0x01FF01FF, 0x1044, 1, false⟩, -- MC_QUOTA1
  ⟨0x1048, .ro, 0x00000000, 0x01FF01FF, 0x1048, 1, false⟩, -- MC_QUOTA2
  ⟨0x104C, .ro, 0x00000000, 0x01FF01FF, 0x104C, 1, false⟩, -- MC_QUOTA3
  ⟨0x1050, .ro, 0x00000000, 0x01FF01FF, 0x1050, 1, false⟩, -- MC_QUOTA4
  ⟨0x1054, .ro, 0x00000000, 0x01FF01FF, 0x1054, 1, false⟩, -- MC_QUOTA5
  ⟨0x1058, .ro, 0x00000000, 0x01FF01FF, 0x1058, 1, false⟩] -- MC_QUOTA6

/-- More of page MCACHE (R208). -/
def mapMcachePart1 : List RegDef := [
  ⟨0x105C, .ro, 0x00000000, 0x01FF01FF, 0x105C, 1, false⟩] -- MC_QUOTA7

/-- Page MCACHE, whole (R208). -/
def mapMcache : List RegDef := mapMcachePart0 ++ mapMcachePart1

/-- Page MMU (R232). -/
def mapMmu : List RegDef := [
  ⟨0x0100, .ro, 0x00000000, 0x000F003F, 0x0100, 1, false⟩, -- MMU_CTX_STS
  ⟨0x0104, .ro, 0x00000000, 0xFFFFFFFF, 0x0104, 2, false⟩, -- MMU_ROOT_LO
  ⟨0x0108, .ro, 0x00000000, 0xFFFF007F, 0x0104, 2, false⟩, -- MMU_ROOT_HI
  ⟨0x0110, .rw, 0x00000000, 0x0000000F, 0x0110, 1, true⟩, -- MMU_FIDX
  ⟨0x0114, .ro, 0x00000000, 0xFFFFFFFF, 0x0114, 2, false⟩, -- MMU_F_VA_LO
  ⟨0x0118, .ro, 0x00000000, 0x0000FFFF, 0x0114, 2, false⟩, -- MMU_F_VA_HI
  ⟨0x011C, .ro, 0x00000000, 0xFFFFFFFF, 0x011C, 1, false⟩, -- MMU_F_INFO
  ⟨0x0120, .ro, 0x00000000, 0x0000FFFF, 0x0120, 1, false⟩, -- MMU_F_TRACKER
  ⟨0x0124, .wo, 0x00000000, 0x00000003, 0x0124, 1, false⟩, -- MMU_F_RESP
  ⟨0x0128, .rw, 0x00000000, 0xFFFFFFFF, 0x0128, 2, false⟩, -- MMU_WALKS_LO
  ⟨0x012C, .rw, 0x00000000, 0xFFFFFFFF, 0x0128, 2, false⟩, -- MMU_WALKS_HI
  ⟨0x0130, .rw, 0x00000000, 0xFFFFFFFF, 0x0130, 2, false⟩, -- MMU_TC_MISS_LO
  ⟨0x0134, .rw, 0x00000000, 0xFFFFFFFF, 0x0130, 2, false⟩, -- MMU_TC_MISS_HI
  ⟨0x0138, .w1c, 0x00000000, 0x00000007, 0x0138, 1, false⟩, -- MMU_FLAGS
  ⟨0x1000, .rw, 0x000F4240, 0xFFFFFFFF, 0x1000, 1, false⟩, -- MMU_FAULT_TMO
  ⟨0x1004, .ro, 0x007A0000, 0xFFFFFFFF, 0x1004, 1, false⟩, -- MMU_PAGES_USABLE
  ⟨0x1008, .ro, 0x00010000, 0xFFFFFFFF, 0x1008, 1, false⟩, -- MMU_PAGES_SPARE
  ⟨0x100C, .ro, 0x00000010, 0xFFFFFFFF, 0x100C, 1, false⟩, -- MMU_WALKERS
  ⟨0x1010, .rw, 0x00000000, 0x007FFFFF, 0x1010, 1, true⟩, -- MMU_PSEL
  ⟨0x1014, .ro, 0x00000000, 0xFFFFFFFF, 0x1014, 1, false⟩] -- MMU_POT

/-- Page DMA (R233). -/
def mapDma : List RegDef := [
  ⟨0x0100, .ro, 0x00000000, 0x000F0003, 0x0100, 1, false⟩, -- DMA_CH_STS
  ⟨0x0104, .ro, 0x00000000, 0x80000FFF, 0x0104, 1, false⟩, -- DMA_CH_CTX
  ⟨0x0108, .ro, 0x00000000, 0x0000FFFF, 0x0108, 1, false⟩, -- DMA_CH_TRACKER
  ⟨0x010C, .ro, 0x00000000, 0x0001FFFF, 0x010C, 1, false⟩, -- DMA_CH_CURSOR
  ⟨0x0110, .ro, 0x00000000, 0x0001FFFF, 0x0110, 1, false⟩, -- DMA_CH_SEGS
  ⟨0x0114, .ro, 0x00000000, 0x0001FFFF, 0x0114, 1, false⟩, -- DMA_CH_FAILED
  ⟨0x0118, .rw, 0x00000000, 0xFFFFFFFF, 0x0118, 2, false⟩, -- DMA_CH_BYTES_LO
  ⟨0x011C, .rw, 0x00000000, 0xFFFFFFFF, 0x0118, 2, false⟩, -- DMA_CH_BYTES_HI
  ⟨0x0120, .w1c, 0x00000000, 0x00000003, 0x0120, 1, false⟩, -- DMA_CH_FLAGS
  ⟨0x1000, .ro, 0x00000010, 0xFFFFFFFF, 0x1000, 1, false⟩, -- DMA_CHANNELS
  ⟨0x1004, .ro, 0x00010000, 0xFFFFFFFF, 0x1004, 1, false⟩, -- DMA_SEG_BYTES
  ⟨0x1008, .ro, 0x00010000, 0xFFFFFFFF, 0x1008, 1, false⟩, -- DMA_MAX_SEGS
  ⟨0x100C, .ro, 0x00800100, 0xFFFFFFFF, 0x100C, 1, false⟩] -- DMA_RATES

/-- Page CEL (R233). -/
def mapCel : List RegDef := [
  ⟨0x1000, .ro, 0x00000000, 0x00000007, 0x1000, 1, false⟩, -- CEL_STS
  ⟨0x1004, .ro, 0x000F4000, 0xFFFFFFFF, 0x1004, 1, false⟩, -- CEL_PAGES
  ⟨0x1008, .ro, 0x00002000, 0xFFFFFFFF, 0x1008, 1, false⟩, -- CEL_SPARE_LEFT
  ⟨0x100C, .rc, 0x00000000, 0xFFFFFFFF, 0x100C, 1, false⟩, -- CEL_CE
  ⟨0x1010, .rc, 0x00000000, 0xFFFFFFFF, 0x1010, 1, false⟩, -- CEL_UE
  ⟨0x1018, .rw, 0x00000000, 0xFFFFFFFF, 0x1018, 2, false⟩, -- CEL_RD_LO
  ⟨0x101C, .rw, 0x00000000, 0xFFFFFFFF, 0x1018, 2, false⟩, -- CEL_RD_HI
  ⟨0x1020, .rw, 0x00000000, 0xFFFFFFFF, 0x1020, 2, false⟩, -- CEL_WR_LO
  ⟨0x1024, .rw, 0x00000000, 0xFFFFFFFF, 0x1020, 2, false⟩, -- CEL_WR_HI
  ⟨0x1028, .ro, 0x00000000, 0x000003FF, 0x1028, 1, false⟩, -- CEL_TEMP
  ⟨0x102C, .w1c, 0x00000000, 0x00000003, 0x102C, 1, false⟩] -- CEL_FLAGS

/-- Page MENC (R253). -/
def mapMenc : List RegDef := [
  ⟨0x0100, .ro, 0x00000001, 0x00000007, 0x0100, 1, false⟩, -- MENC_STS
  ⟨0x0104, .rw, 0x00000000, 0xFFFFFFFF, 0x0104, 2, false⟩, -- MENC_TC_HIT_LO
  ⟨0x0108, .rw, 0x00000000, 0xFFFFFFFF, 0x0104, 2, false⟩, -- MENC_TC_HIT_HI
  ⟨0x010C, .rw, 0x00000000, 0xFFFFFFFF, 0x010C, 2, false⟩, -- MENC_TC_MISS_LO
  ⟨0x0110, .rw, 0x00000000, 0xFFFFFFFF, 0x010C, 2, false⟩, -- MENC_TC_MISS_HI
  ⟨0x0114, .rw, 0x00000000, 0xFFFFFFFF, 0x0114, 2, false⟩, -- MENC_WB_LO
  ⟨0x0118, .rw, 0x00000000, 0xFFFFFFFF, 0x0114, 2, false⟩, -- MENC_WB_HI
  ⟨0x011C, .rw, 0x00000000, 0xFFFFFFFF, 0x011C, 2, false⟩, -- MENC_OVF_LO
  ⟨0x0120, .rw, 0x00000000, 0xFFFFFFFF, 0x011C, 2, false⟩, -- MENC_OVF_HI
  ⟨0x0124, .rc, 0x00000000, 0xFFFFFFFF, 0x0124, 1, false⟩, -- MENC_MAC_RETRY
  ⟨0x0128, .rc, 0x00000000, 0xFFFFFFFF, 0x0128, 1, false⟩, -- MENC_POISONED
  ⟨0x012C, .ro, 0x00000000, 0x000FFFFF, 0x012C, 1, false⟩, -- MENC_SCRUB_PEND
  ⟨0x0130, .w1c, 0x00000000, 0x00000003, 0x0130, 1, false⟩, -- MENC_FLAGS
  ⟨0x1000, .ro, 0x00000100, 0xFFFFFFFF, 0x1000, 1, false⟩, -- MENC_GRANULE
  ⟨0x1004, .ro, 0x01000000, 0xFFFFFFFF, 0x1004, 1, false⟩, -- MENC_TC_BYTES
  ⟨0x1008, .ro, 0x00000302, 0x0000FFFF, 0x1008, 1, false⟩, -- MENC_LEVELS
  ⟨0x100C, .ro, 0x00000000, 0xFFFFFFFF, 0x100C, 1, false⟩, -- MENC_SEALED_SHARED
  ⟨0x1010, .ro, 0x00000000, 0xFFFFFFFF, 0x1010, 1, false⟩, -- MENC_TC_WAYS0
  ⟨0x1014, .ro, 0x00000000, 0xFFFFFFFF, 0x1014, 1, false⟩, -- MENC_TC_WAYS1
  ⟨0x1018, .ro, 0x00000000, 0xFFFFFFFF, 0x1018, 1, false⟩, -- MENC_TC_WAYS2
  ⟨0x101C, .ro, 0x00000000, 0xFFFFFFFF, 0x101C, 1, false⟩, -- MENC_TC_WAYS3
  ⟨0x1020, .rw, 0x00000000, 0x00000FFF, 0x1020, 1, true⟩, -- MENC_KSEL
  ⟨0x1024, .ro, 0x00000000, 0x0000000F, 0x1024, 1, false⟩, -- MENC_K_STS
  ⟨0x1028, .ro, 0x00000000, 0xFFFFFFFF, 0x1028, 2, false⟩, -- MENC_K_USE_LO
  ⟨0x102C, .ro, 0x00000000, 0xFFFFFFFF, 0x1028, 2, false⟩, -- MENC_K_USE_HI
  ⟨0x1030, .ro, 0x00000000, 0x007FFFFF, 0x1030, 1, false⟩, -- MENC_K_SWEEP_CUR
  ⟨0x1034, .ro, 0x00000000, 0x007FFFFF, 0x1034, 1, false⟩] -- MENC_K_SWEEP_LEFT

/-- Page CTX (R263). -/
def mapCtxPart0 : List RegDef := [
  ⟨0x0100, .ro, 0x00000000, 0x800F3F07, 0x0100, 1, false⟩, -- CTX_STATE
  ⟨0x0104, .ro, 0x00000000, 0x0001FFFF, 0x0104, 1, false⟩, -- CTX_PEND
  ⟨0x0200, .ro, 0x00000000, 0xFFFFFFFF, 0x0200, 1, false⟩, -- CTX_WIN0_0
  ⟨0x0204, .ro, 0x00000000, 0xFFFFFFFF, 0x0204, 1, false⟩, -- CTX_WIN0_1
  ⟨0x0208, .ro, 0x00000000, 0xFFFFFFFF, 0x0208, 1, false⟩, -- CTX_WIN0_2
  ⟨0x020C, .ro, 0x00000000, 0xFFFFFFFF, 0x020C, 1, false⟩, -- CTX_WIN0_3
  ⟨0x0210, .ro, 0x00000000, 0xFFFFFFFF, 0x0210, 1, false⟩, -- CTX_WIN1_0
  ⟨0x0214, .ro, 0x00000000, 0xFFFFFFFF, 0x0214, 1, false⟩, -- CTX_WIN1_1
  ⟨0x0218, .ro, 0x00000000, 0xFFFFFFFF, 0x0218, 1, false⟩, -- CTX_WIN1_2
  ⟨0x021C, .ro, 0x00000000, 0xFFFFFFFF, 0x021C, 1, false⟩, -- CTX_WIN1_3
  ⟨0x0220, .ro, 0x00000000, 0xFFFFFFFF, 0x0220, 1, false⟩, -- CTX_WIN2_0
  ⟨0x0224, .ro, 0x00000000, 0xFFFFFFFF, 0x0224, 1, false⟩, -- CTX_WIN2_1
  ⟨0x0228, .ro, 0x00000000, 0xFFFFFFFF, 0x0228, 1, false⟩, -- CTX_WIN2_2
  ⟨0x022C, .ro, 0x00000000, 0xFFFFFFFF, 0x022C, 1, false⟩, -- CTX_WIN2_3
  ⟨0x0230, .ro, 0x00000000, 0xFFFFFFFF, 0x0230, 1, false⟩, -- CTX_WIN3_0
  ⟨0x0234, .ro, 0x00000000, 0xFFFFFFFF, 0x0234, 1, false⟩, -- CTX_WIN3_1
  ⟨0x0238, .ro, 0x00000000, 0xFFFFFFFF, 0x0238, 1, false⟩, -- CTX_WIN3_2
  ⟨0x023C, .ro, 0x00000000, 0xFFFFFFFF, 0x023C, 1, false⟩, -- CTX_WIN3_3
  ⟨0x0240, .ro, 0x00000000, 0xFFFFFFFF, 0x0240, 1, false⟩, -- CTX_WIN4_0
  ⟨0x0244, .ro, 0x00000000, 0xFFFFFFFF, 0x0244, 1, false⟩, -- CTX_WIN4_1
  ⟨0x0248, .ro, 0x00000000, 0xFFFFFFFF, 0x0248, 1, false⟩, -- CTX_WIN4_2
  ⟨0x024C, .ro, 0x00000000, 0xFFFFFFFF, 0x024C, 1, false⟩, -- CTX_WIN4_3
  ⟨0x0250, .ro, 0x00000000, 0xFFFFFFFF, 0x0250, 1, false⟩, -- CTX_WIN5_0
  ⟨0x0254, .ro, 0x00000000, 0xFFFFFFFF, 0x0254, 1, false⟩, -- CTX_WIN5_1
  ⟨0x0258, .ro, 0x00000000, 0xFFFFFFFF, 0x0258, 1, false⟩, -- CTX_WIN5_2
  ⟨0x025C, .ro, 0x00000000, 0xFFFFFFFF, 0x025C, 1, false⟩, -- CTX_WIN5_3
  ⟨0x0260, .ro, 0x00000000, 0xFFFFFFFF, 0x0260, 1, false⟩, -- CTX_WIN6_0
  ⟨0x0264, .ro, 0x00000000, 0xFFFFFFFF, 0x0264, 1, false⟩, -- CTX_WIN6_1
  ⟨0x0268, .ro, 0x00000000, 0xFFFFFFFF, 0x0268, 1, false⟩, -- CTX_WIN6_2
  ⟨0x026C, .ro, 0x00000000, 0xFFFFFFFF, 0x026C, 1, false⟩, -- CTX_WIN6_3
  ⟨0x0270, .ro, 0x00000000, 0xFFFFFFFF, 0x0270, 1, false⟩, -- CTX_WIN7_0
  ⟨0x0274, .ro, 0x00000000, 0xFFFFFFFF, 0x0274, 1, false⟩] -- CTX_WIN7_1

/-- More of page CTX (R263). -/
def mapCtxPart1 : List RegDef := [
  ⟨0x0278, .ro, 0x00000000, 0xFFFFFFFF, 0x0278, 1, false⟩, -- CTX_WIN7_2
  ⟨0x027C, .ro, 0x00000000, 0xFFFFFFFF, 0x027C, 1, false⟩, -- CTX_WIN7_3
  ⟨0x0280, .ro, 0x00000000, 0xFFFFFFFF, 0x0280, 1, false⟩, -- CTX_WIN8_0
  ⟨0x0284, .ro, 0x00000000, 0xFFFFFFFF, 0x0284, 1, false⟩, -- CTX_WIN8_1
  ⟨0x0288, .ro, 0x00000000, 0xFFFFFFFF, 0x0288, 1, false⟩, -- CTX_WIN8_2
  ⟨0x028C, .ro, 0x00000000, 0xFFFFFFFF, 0x028C, 1, false⟩, -- CTX_WIN8_3
  ⟨0x0290, .ro, 0x00000000, 0xFFFFFFFF, 0x0290, 1, false⟩, -- CTX_WIN9_0
  ⟨0x0294, .ro, 0x00000000, 0xFFFFFFFF, 0x0294, 1, false⟩, -- CTX_WIN9_1
  ⟨0x0298, .ro, 0x00000000, 0xFFFFFFFF, 0x0298, 1, false⟩, -- CTX_WIN9_2
  ⟨0x029C, .ro, 0x00000000, 0xFFFFFFFF, 0x029C, 1, false⟩, -- CTX_WIN9_3
  ⟨0x02A0, .ro, 0x00000000, 0xFFFFFFFF, 0x02A0, 1, false⟩, -- CTX_WIN10_0
  ⟨0x02A4, .ro, 0x00000000, 0xFFFFFFFF, 0x02A4, 1, false⟩, -- CTX_WIN10_1
  ⟨0x02A8, .ro, 0x00000000, 0xFFFFFFFF, 0x02A8, 1, false⟩, -- CTX_WIN10_2
  ⟨0x02AC, .ro, 0x00000000, 0xFFFFFFFF, 0x02AC, 1, false⟩, -- CTX_WIN10_3
  ⟨0x02B0, .ro, 0x00000000, 0xFFFFFFFF, 0x02B0, 1, false⟩, -- CTX_WIN11_0
  ⟨0x02B4, .ro, 0x00000000, 0xFFFFFFFF, 0x02B4, 1, false⟩, -- CTX_WIN11_1
  ⟨0x02B8, .ro, 0x00000000, 0xFFFFFFFF, 0x02B8, 1, false⟩, -- CTX_WIN11_2
  ⟨0x02BC, .ro, 0x00000000, 0xFFFFFFFF, 0x02BC, 1, false⟩, -- CTX_WIN11_3
  ⟨0x02C0, .ro, 0x00000000, 0xFFFFFFFF, 0x02C0, 1, false⟩, -- CTX_WIN12_0
  ⟨0x02C4, .ro, 0x00000000, 0xFFFFFFFF, 0x02C4, 1, false⟩, -- CTX_WIN12_1
  ⟨0x02C8, .ro, 0x00000000, 0xFFFFFFFF, 0x02C8, 1, false⟩, -- CTX_WIN12_2
  ⟨0x02CC, .ro, 0x00000000, 0xFFFFFFFF, 0x02CC, 1, false⟩, -- CTX_WIN12_3
  ⟨0x02D0, .ro, 0x00000000, 0xFFFFFFFF, 0x02D0, 1, false⟩, -- CTX_WIN13_0
  ⟨0x02D4, .ro, 0x00000000, 0xFFFFFFFF, 0x02D4, 1, false⟩, -- CTX_WIN13_1
  ⟨0x02D8, .ro, 0x00000000, 0xFFFFFFFF, 0x02D8, 1, false⟩, -- CTX_WIN13_2
  ⟨0x02DC, .ro, 0x00000000, 0xFFFFFFFF, 0x02DC, 1, false⟩, -- CTX_WIN13_3
  ⟨0x02E0, .ro, 0x00000000, 0xFFFFFFFF, 0x02E0, 1, false⟩, -- CTX_WIN14_0
  ⟨0x02E4, .ro, 0x00000000, 0xFFFFFFFF, 0x02E4, 1, false⟩, -- CTX_WIN14_1
  ⟨0x02E8, .ro, 0x00000000, 0xFFFFFFFF, 0x02E8, 1, false⟩, -- CTX_WIN14_2
  ⟨0x02EC, .ro, 0x00000000, 0xFFFFFFFF, 0x02EC, 1, false⟩, -- CTX_WIN14_3
  ⟨0x02F0, .ro, 0x00000000, 0xFFFFFFFF, 0x02F0, 1, false⟩, -- CTX_WIN15_0
  ⟨0x02F4, .ro, 0x00000000, 0xFFFFFFFF, 0x02F4, 1, false⟩] -- CTX_WIN15_1

/-- More of page CTX (R263). -/
def mapCtxPart2 : List RegDef := [
  ⟨0x02F8, .ro, 0x00000000, 0xFFFFFFFF, 0x02F8, 1, false⟩, -- CTX_WIN15_2
  ⟨0x02FC, .ro, 0x00000000, 0xFFFFFFFF, 0x02FC, 1, false⟩, -- CTX_WIN15_3
  ⟨0x1000, .ro, 0x00001000, 0xFFFFFFFF, 0x1000, 1, false⟩, -- CTX_COUNT
  ⟨0x1004, .rw, 0x00000000, 0x0000000F, 0x1004, 1, true⟩, -- CTX_OP
  ⟨0x1008, .rw, 0x00000000, 0xFFFFFFFF, 0x1008, 1, true⟩, -- CTX_ARG0
  ⟨0x100C, .rw, 0x00000000, 0xFFFFFFFF, 0x100C, 1, true⟩, -- CTX_ARG1
  ⟨0x1010, .rw, 0x00000000, 0xFFFFFFFF, 0x1010, 1, true⟩, -- CTX_ARG2
  ⟨0x1014, .rw, 0x00000000, 0xFFFFFFFF, 0x1014, 1, true⟩, -- CTX_ARG3
  ⟨0x1018, .rw, 0x00000000, 0xFFFFFFFF, 0x1018, 1, true⟩, -- CTX_ARG4
  ⟨0x101C, .rw, 0x00000000, 0xFFFFFFFF, 0x101C, 1, true⟩, -- CTX_ARG5
  ⟨0x1020, .ro, 0x00000000, 0x0001FFFF, 0x1020, 1, true⟩, -- CTX_OP_STS
  ⟨0x1024, .ro, 0x00000000, 0x00000FFF, 0x1024, 1, true⟩, -- CTX_OP_RES
  ⟨0x1030, .rw, 0x00000000, 0x80000FFF, 0x1030, 1, true⟩, -- APER_CTX
  ⟨0x1034, .rw, 0x00000000, 0xFFFFFFFF, 0x1034, 2, true⟩, -- APER_BASE_LO
  ⟨0x1038, .rw, 0x00000000, 0x0000FFFF, 0x1034, 2, true⟩, -- APER_BASE_HI
  ⟨0x103C, .rc, 0x00000000, 0xFFFFFFFF, 0x103C, 1, true⟩] -- APER_FAULTS

/-- Page CTX, whole (R263). -/
def mapCtx : List RegDef := mapCtxPart0 ++ mapCtxPart1 ++ mapCtxPart2

/-- Page QUE (R270). -/
def mapQue : List RegDef := [
  ⟨0x0100, .ro, 0x00000000, 0x000F0007, 0x0100, 1, false⟩, -- QUE_STS
  ⟨0x0104, .ro, 0x00000000, 0x00000FFF, 0x0104, 1, false⟩, -- QUE_CTX
  ⟨0x0108, .ro, 0x00000000, 0x0007FFFF, 0x0108, 1, false⟩, -- QUE_CFG
  ⟨0x010C, .ro, 0x00000000, 0xFFFFFFFF, 0x010C, 2, false⟩, -- QUE_RING_LO
  ⟨0x0110, .ro, 0x00000000, 0xFFFFFFFF, 0x010C, 2, false⟩, -- QUE_RING_HI
  ⟨0x0114, .ro, 0x00000000, 0xFFFFFFFF, 0x0114, 2, false⟩, -- QUE_CPL_LO
  ⟨0x0118, .ro, 0x00000000, 0xFFFFFFFF, 0x0114, 2, false⟩, -- QUE_CPL_HI
  ⟨0x011C, .ro, 0x00000000, 0xFFFFFFFF, 0x011C, 1, false⟩, -- QUE_TAIL
  ⟨0x0120, .ro, 0x00000000, 0xFFFFFFFF, 0x0120, 1, false⟩, -- QUE_DECIDED
  ⟨0x0124, .ro, 0x00000000, 0xFFFFFFFF, 0x0124, 1, false⟩, -- QUE_DONE
  ⟨0x0128, .rw, 0x00000000, 0xFFFFFFFF, 0x0128, 1, false⟩, -- QUE_CPL_HEAD
  ⟨0x012C, .w1c, 0x00000000, 0x0000000F, 0x012C, 1, false⟩, -- QUE_FLAGS
  ⟨0x0130, .rc, 0x00000000, 0xFFFFFFFF, 0x0130, 1, false⟩, -- QUE_REJECTS
  ⟨0x1000, .ro, 0x00010000, 0xFFFFFFFF, 0x1000, 1, false⟩, -- QUE_COUNT
  ⟨0x1004, .rw, 0x00000000, 0x0000000F, 0x1004, 1, true⟩, -- QUE_OP
  ⟨0x1008, .rw, 0x00000000, 0x7FFFFFFF, 0x1008, 1, true⟩, -- QUE_ARG0
  ⟨0x100C, .rw, 0x00000000, 0xFFFFFFFF, 0x100C, 1, true⟩, -- QUE_ARG1
  ⟨0x1010, .rw, 0x00000000, 0xFFFFFFFF, 0x1010, 1, true⟩, -- QUE_ARG2
  ⟨0x1014, .rw, 0x00000000, 0xFFFFFFFF, 0x1014, 1, true⟩, -- QUE_ARG3
  ⟨0x1018, .rw, 0x00000000, 0xFFFFFFFF, 0x1018, 1, true⟩, -- QUE_ARG4
  ⟨0x101C, .rw, 0x00000000, 0x0000FFFF, 0x101C, 1, true⟩, -- QUE_ARG5
  ⟨0x1020, .ro, 0x00000000, 0x0001FFFF, 0x1020, 1, true⟩, -- QUE_OP_STS
  ⟨0x1024, .ro, 0x00000000, 0x0000FFFF, 0x1024, 1, true⟩, -- QUE_OP_RES
  ⟨0x1028, .rc, 0x00000000, 0xFFFFFFFF, 0x1028, 1, true⟩] -- QUE_DB_FOREIGN

/-- Page EVT (R275). -/
def mapEvt : List RegDef := [
  ⟨0x0100, .ro, 0x00000000, 0xFFFF0003, 0x0100, 1, false⟩, -- EVT_STS
  ⟨0x0104, .ro, 0x00000000, 0xFFFFFFFF, 0x0104, 2, false⟩, -- EVT_VALUE_LO
  ⟨0x0108, .ro, 0x00000000, 0xFFFFFFFF, 0x0104, 2, false⟩, -- EVT_VALUE_HI
  ⟨0x010C, .rw, 0x00000000, 0xFFFFFFFF, 0x010C, 2, false⟩, -- EVT_SIG_LO
  ⟨0x0110, .wo, 0x00000000, 0xFFFFFFFF, 0x010C, 2, false⟩, -- EVT_SIG_HI
  ⟨0x0114, .w1c, 0x00000000, 0x00000001, 0x0114, 1, false⟩, -- EVT_FLAGS
  ⟨0x0118, .ro, 0x00000000, 0x0001FFFF, 0x0118, 1, false⟩, -- EVT_WAITERS
  ⟨0x1000, .ro, 0x00010000, 0xFFFFFFFF, 0x1000, 1, false⟩, -- EVT_COUNT
  ⟨0x1004, .rw, 0x00000000, 0x0FFF0007, 0x1004, 1, true⟩, -- EVT_OP
  ⟨0x1008, .rw, 0x00000000, 0xFFFFFFFF, 0x1008, 2, true⟩, -- EVT_INIT_LO
  ⟨0x100C, .rw, 0x00000000, 0xFFFFFFFF, 0x1008, 2, true⟩, -- EVT_INIT_HI
  ⟨0x1010, .ro, 0x00000000, 0x0001FFFF, 0x1010, 1, true⟩, -- EVT_OP_STS
  ⟨0x1014, .ro, 0x00000000, 0x0000FFFF, 0x1014, 1, true⟩, -- EVT_OP_RES
  ⟨0x1018, .rw, 0x00000000, 0x0000FFFF, 0x1018, 1, true⟩] -- EVT_DARG

/-- Page HOOP (R304). -/
def mapHoop : List RegDef := [
  ⟨0x0100, .ro, 0x00000001, 0x0000003F, 0x0100, 1, false⟩, -- HOOP_STS
  ⟨0x0104, .rw, 0x00000001, 0xFFFFFFFF, 0x0104, 2, false⟩, -- HOOP_FUNC_LO
  ⟨0x0108, .rw, 0x00000000, 0xFFFFFFFF, 0x0104, 2, false⟩, -- HOOP_FUNC_HI
  ⟨0x010C, .rw, 0xFFFFFFFF, 0xFFFFFFFF, 0x010C, 1, false⟩, -- HOOP_TILES0
  ⟨0x0110, .rw, 0xFFFFFFFF, 0xFFFFFFFF, 0x0110, 1, false⟩, -- HOOP_TILES1
  ⟨0x0114, .rw, 0xFFFFFFFF, 0xFFFFFFFF, 0x0114, 1, false⟩, -- HOOP_TILES2
  ⟨0x0118, .rw, 0x00000100, 0x000001FF, 0x0118, 1, false⟩, -- HOOP_TSHARE
  ⟨0x011C, .rw, 0x00000000, 0x0000003F, 0x011C, 1, false⟩, -- HOOP_CSLOTS
  ⟨0x0120, .rw, 0x0000FFFF, 0x0000FFFF, 0x0120, 1, false⟩, -- HOOP_DMA
  ⟨0x0124, .rw, 0x00000000, 0x0000FFFF, 0x0124, 1, false⟩, -- HOOP_QBASE
  ⟨0x0128, .rw, 0x00010000, 0x0001FFFF, 0x0128, 1, false⟩, -- HOOP_QCOUNT
  ⟨0x012C, .rw, 0x00001000, 0x00001FFF, 0x012C, 1, false⟩, -- HOOP_CTXS
  ⟨0x0130, .rw, 0x00000FFF, 0x00001FFF, 0x0130, 1, false⟩, -- HOOP_KEYS
  ⟨0x0134, .rw, 0x10000100, 0x1FFF01FF, 0x0134, 1, false⟩, -- HOOP_OBJ
  ⟨0x0138, .rw, 0x00004000, 0x00007FFF, 0x0138, 1, false⟩, -- HOOP_LSTS
  ⟨0x013C, .rw, 0x01000400, 0x01FF07FF, 0x013C, 1, false⟩, -- HOOP_MCACHE
  ⟨0x0140, .rw, 0x00000000, 0x0000071F, 0x0140, 1, false⟩, -- HOOP_TCWAYS
  ⟨0x0144, .rw, 0x007A0000, 0x007FFFFF, 0x0144, 1, false⟩, -- HOOP_PAGES
  ⟨0x0148, .rw, 0x000007D0, 0x00000FFF, 0x0148, 1, false⟩, -- HOOP_POWER
  ⟨0x014C, .rw, 0x00000000, 0x00FFFFFF, 0x014C, 1, false⟩, -- HOOP_GDEPTH
  ⟨0x0150, .rw, 0x00000001, 0x000000FF, 0x0150, 1, false⟩, -- HOOP_SWEIGHT
  ⟨0x0160, .ro, 0x01312D00, 0xFFFFFFFF, 0x0160, 2, false⟩, -- HOOP_E_LEFT_LO
  ⟨0x0164, .ro, 0x00000000, 0xFFFFFFFF, 0x0160, 2, false⟩, -- HOOP_E_LEFT_HI
  ⟨0x0168, .ro, 0x00000000, 0xFFFFFFFF, 0x0168, 1, false⟩, -- HOOP_G_ACC
  ⟨0x016C, .ro, 0x00000000, 0xFFFFFFFF, 0x016C, 1, false⟩, -- HOOP_G_REL
  ⟨0x0170, .rc, 0x00000000, 0xFFFFFFFF, 0x0170, 1, false⟩, -- HOOP_WITHDRAWN
  ⟨0x0174, .ro, 0x00000000, 0xFFFFFF07, 0x0174, 1, false⟩, -- HOOP_THERM
  ⟨0x1000, .ro, 0x00000010, 0xFFFFFFFF, 0x1000, 1, false⟩, -- HOOP_COUNT
  ⟨0x1004, .rw, 0x00000000, 0x000000FF, 0x1004, 1, false⟩, -- HOOP_OP
  ⟨0x1008, .ro, 0x00000000, 0x0001FFFF, 0x1008, 1, false⟩] -- HOOP_OP_STS

/-- Page SCHED (R305). -/
def mapSched : List RegDef := [
  ⟨0x1000, .ro, 0x00004000, 0xFFFFFFFF, 0x1000, 1, false⟩, -- SCHED_FIXED
  ⟨0x1004, .ro, 0x04400400, 0xFFFFFFFF, 0x1004, 1, false⟩, -- SCHED_FRAME
  ⟨0x1008, .ro, 0x0000003C, 0x0000003F, 0x1008, 1, false⟩, -- SCHED_SLOTS_FREE
  ⟨0x100C, .ro, 0x00000000, 0x00000FFF, 0x100C, 1, false⟩, -- SCHED_POWER_FREE
  ⟨0x1010, .ro, 0x00000000, 0xFFFFFF01, 0x1010, 1, false⟩, -- SCHED_SAFE
  ⟨0x1020, .ro, 0x00000000, 0xFFFFFFFF, 0x1020, 1, false⟩, -- SCHED_EC_MX
  ⟨0x1024, .ro, 0x00000000, 0xFFFFFFFF, 0x1024, 1, false⟩, -- SCHED_EC_VX
  ⟨0x1028, .ro, 0x00000000, 0xFFFFFFFF, 0x1028, 1, false⟩, -- SCHED_EC_MV
  ⟨0x102C, .ro, 0x00000000, 0xFFFFFFFF, 0x102C, 1, false⟩, -- SCHED_EC_DN
  ⟨0x1030, .ro, 0x00000000, 0xFFFFFFFF, 0x1030, 1, false⟩, -- SCHED_EC_CEL
  ⟨0x1034, .ro, 0x00000000, 0xFFFFFFFF, 0x1034, 1, false⟩, -- SCHED_EC_LNK
  ⟨0x1038, .ro, 0x00000000, 0xFFFFFFFF, 0x1038, 1, false⟩, -- SCHED_EC_STO
  ⟨0x103C, .ro, 0x00000000, 0xFFFFFFFF, 0x103C, 1, false⟩, -- SCHED_EC_HST
  ⟨0x1040, .rw, 0x00000000, 0x0000FFFF, 0x1040, 1, true⟩, -- SCHED_TSEL
  ⟨0x1044, .ro, 0x00000000, 0xFFFF00FF, 0x1044, 1, false⟩, -- SCHED_TRK_INFO
  ⟨0x1048, .ro, 0x00000000, 0xFFFFFFFF, 0x1048, 2, false⟩, -- SCHED_TRK_REL_LO
  ⟨0x104C, .ro, 0x00000000, 0xFFFFFFFF, 0x1048, 2, false⟩, -- SCHED_TRK_REL_HI
  ⟨0x1050, .ro, 0x00000000, 0xFFFFFFFF, 0x1050, 2, false⟩, -- SCHED_TRK_DL_LO
  ⟨0x1054, .ro, 0x00000000, 0xFFFFFFFF, 0x1050, 2, false⟩, -- SCHED_TRK_DL_HI
  ⟨0x1058, .ro, 0x00000000, 0xFFFFFFFF, 0x1058, 1, false⟩, -- SCHED_TRK_PRICE
  ⟨0x105C, .ro, 0x00000000, 0xFFFFFFFF, 0x105C, 1, false⟩] -- SCHED_TRK_ENERGY

/-- Page ACCT (R306). -/
def mapAcct : List RegDef := [
  ⟨0x0100, .ro, 0x00000000, 0xFFFFFFFF, 0x0100, 2, false⟩, -- ACCT_MX_LO
  ⟨0x0104, .ro, 0x00000000, 0xFFFFFFFF, 0x0100, 2, false⟩, -- ACCT_MX_HI
  ⟨0x0108, .ro, 0x00000000, 0xFFFFFFFF, 0x0108, 2, false⟩, -- ACCT_VX_LO
  ⟨0x010C, .ro, 0x00000000, 0xFFFFFFFF, 0x0108, 2, false⟩, -- ACCT_VX_HI
  ⟨0x0110, .ro, 0x00000000, 0xFFFFFFFF, 0x0110, 2, false⟩, -- ACCT_MV_LO
  ⟨0x0114, .ro, 0x00000000, 0xFFFFFFFF, 0x0110, 2, false⟩, -- ACCT_MV_HI
  ⟨0x0118, .ro, 0x00000000, 0xFFFFFFFF, 0x0118, 2, false⟩, -- ACCT_DN_LO
  ⟨0x011C, .ro, 0x00000000, 0xFFFFFFFF, 0x0118, 2, false⟩, -- ACCT_DN_HI
  ⟨0x0120, .ro, 0x00000000, 0xFFFFFFFF, 0x0120, 2, false⟩, -- ACCT_DMA_LO
  ⟨0x0124, .ro, 0x00000000, 0xFFFFFFFF, 0x0120, 2, false⟩, -- ACCT_DMA_HI
  ⟨0x0128, .ro, 0x00000000, 0xFFFFFFFF, 0x0128, 2, false⟩, -- ACCT_SHUT_LO
  ⟨0x012C, .ro, 0x00000000, 0xFFFFFFFF, 0x0128, 2, false⟩, -- ACCT_SHUT_HI
  ⟨0x0130, .ro, 0x00000000, 0xFFFFFFFF, 0x0130, 2, false⟩, -- ACCT_STOR_LO
  ⟨0x0134, .ro, 0x00000000, 0xFFFFFFFF, 0x0130, 2, false⟩, -- ACCT_STOR_HI
  ⟨0x0138, .ro, 0x00000000, 0xFFFFFFFF, 0x0138, 2, false⟩, -- ACCT_CEL_RD_LO
  ⟨0x013C, .ro, 0x00000000, 0xFFFFFFFF, 0x0138, 2, false⟩, -- ACCT_CEL_RD_HI
  ⟨0x0140, .ro, 0x00000000, 0xFFFFFFFF, 0x0140, 2, false⟩, -- ACCT_CEL_WR_LO
  ⟨0x0144, .ro, 0x00000000, 0xFFFFFFFF, 0x0140, 2, false⟩, -- ACCT_CEL_WR_HI
  ⟨0x0148, .ro, 0x00000000, 0xFFFFFFFF, 0x0148, 2, false⟩, -- ACCT_LNK_TX_LO
  ⟨0x014C, .ro, 0x00000000, 0xFFFFFFFF, 0x0148, 2, false⟩, -- ACCT_LNK_TX_HI
  ⟨0x0150, .ro, 0x00000000, 0xFFFFFFFF, 0x0150, 2, false⟩, -- ACCT_LNK_RX_LO
  ⟨0x0154, .ro, 0x00000000, 0xFFFFFFFF, 0x0150, 2, false⟩, -- ACCT_LNK_RX_HI
  ⟨0x0158, .ro, 0x00000000, 0xFFFFFFFF, 0x0158, 2, false⟩, -- ACCT_STO_LO
  ⟨0x015C, .ro, 0x00000000, 0xFFFFFFFF, 0x0158, 2, false⟩, -- ACCT_STO_HI
  ⟨0x0160, .ro, 0x00000000, 0xFFFFFFFF, 0x0160, 2, false⟩, -- ACCT_HST_LO
  ⟨0x0164, .ro, 0x00000000, 0xFFFFFFFF, 0x0160, 2, false⟩, -- ACCT_HST_HI
  ⟨0x0168, .ro, 0x00000000, 0xFFFFFFFF, 0x0168, 2, false⟩, -- ACCT_EN_LO
  ⟨0x016C, .ro, 0x00000000, 0xFFFFFFFF, 0x0168, 2, false⟩, -- ACCT_EN_HI
  ⟨0x0170, .w1c, 0x00000000, 0x00000001, 0x0170, 1, false⟩, -- ACCT_FLAGS
  ⟨0x1000, .ro, 0x00002000, 0xFFFFFFFF, 0x1000, 1, false⟩] -- ACCT_BYTE_UNIT

/-- Page ALNK (R337). -/
def mapAlnkPart0 : List RegDef := [
  ⟨0x0100, .ro, 0x00000000, 0x000000FF, 0x0100, 1, false⟩, -- ALNK_STS
  ⟨0x0104, .ro, 0x00000000, 0x000001FF, 0x0104, 1, false⟩, -- ALNK_LANES
  ⟨0x0108, .ro, 0x76543210, 0xFFFFFFFF, 0x0108, 1, false⟩, -- ALNK_LMAP
  ⟨0x010C, .ro, 0x00000000, 0xFFFFFFFF, 0x010C, 2, false⟩, -- ALNK_PEER_LO
  ⟨0x0110, .ro, 0x00000000, 0xFFFFFFFF, 0x010C, 2, false⟩, -- ALNK_PEER_HI
  ⟨0x0114, .ro, 0x00000000, 0x0000FF0F, 0x0114, 1, false⟩, -- ALNK_PEER_PORT
  ⟨0x0118, .ro, 0x00000000, 0x0000FFFF, 0x0118, 1, false⟩, -- ALNK_HOPLAT
  ⟨0x011C, .rw, 0x00000000, 0x00000001, 0x011C, 1, false⟩, -- ALNK_CTL
  ⟨0x0120, .wo, 0x00000000, 0x00000001, 0x0120, 1, false⟩, -- ALNK_RETRAIN
  ⟨0x0124, .ro, 0x00010000, 0x0001FFFF, 0x0124, 1, false⟩, -- ALNK_RATE
  ⟨0x0128, .w1c, 0x00000000, 0x000001FF, 0x0128, 1, false⟩, -- ALNK_FLAGS
  ⟨0x0130, .rw, 0x00000000, 0xFFFFFFFF, 0x0130, 2, false⟩, -- ALNK_TX_FLITS_LO
  ⟨0x0134, .rw, 0x00000000, 0xFFFFFFFF, 0x0130, 2, false⟩, -- ALNK_TX_FLITS_HI
  ⟨0x0138, .rw, 0x00000000, 0xFFFFFFFF, 0x0138, 2, false⟩, -- ALNK_RX_FLITS_LO
  ⟨0x013C, .rw, 0x00000000, 0xFFFFFFFF, 0x0138, 2, false⟩, -- ALNK_RX_FLITS_HI
  ⟨0x0140, .rw, 0x00000000, 0xFFFFFFFF, 0x0140, 2, false⟩, -- ALNK_REPLAY_LO
  ⟨0x0144, .rw, 0x00000000, 0xFFFFFFFF, 0x0140, 2, false⟩, -- ALNK_REPLAY_HI
  ⟨0x0148, .rc, 0x00000000, 0xFFFFFFFF, 0x0148, 1, false⟩, -- ALNK_FEC_CE
  ⟨0x014C, .rc, 0x00000000, 0xFFFFFFFF, 0x014C, 1, false⟩, -- ALNK_FEC_UE
  ⟨0x0150, .rc, 0x00000000, 0xFFFFFFFF, 0x0150, 1, false⟩, -- ALNK_STALE
  ⟨0x0154, .rc, 0x00000000, 0xFFFFFFFF, 0x0154, 1, false⟩, -- ALNK_RCTR_DROP
  ⟨0x0158, .rc, 0x00000000, 0xFFFFFFFF, 0x0158, 1, false⟩, -- ALNK_TAG_FAIL
  ⟨0x015C, .rc, 0x00000000, 0xFFFFFFFF, 0x015C, 1, false⟩, -- ALNK_BADCTL
  ⟨0x1000, .ro, 0x00000010, 0xFFFFFFFF, 0x1000, 1, false⟩, -- ALNK_PORTS
  ⟨0x1004, .rw, 0x00000080, 0x000000FF, 0x1004, 1, false⟩, -- ALNK_PRIO
  ⟨0x1008, .rw, 0x00000064, 0x0000FFFF, 0x1008, 1, false⟩, -- ALNK_SER_MAX
  ⟨0x100C, .ro, 0x00000018, 0xFFFFFFFF, 0x100C, 1, false⟩, -- ALNK_WINDOW
  ⟨0x1010, .ro, 0x00000400, 0xFFFFFFFF, 0x1010, 1, false⟩, -- ALNK_PAIRS
  ⟨0x1020, .ro, 0x00000000, 0xFFFFFFFF, 0x1020, 1, false⟩, -- FAB_EPOCH
  ⟨0x1024, .ro, 0x00000000, 0x00000001, 0x1024, 1, false⟩, -- FAB_STS
  ⟨0x1028, .w1c, 0x00000000, 0x00000003, 0x1028, 1, false⟩, -- FAB_FLAGS
  ⟨0x102C, .rw, 0x00000000, 0x00000FFF, 0x102C, 1, false⟩] -- FAB_INDEX

/-- More of page ALNK (R337). -/
def mapAlnkPart1 : List RegDef := [
  ⟨0x1030, .rw, 0x00000000, 0x00001FFF, 0x1030, 1, false⟩, -- FAB_COUNT
  ⟨0x1034, .wo, 0x00000000, 0xFFFFFFFF, 0x1034, 1, false⟩, -- FAB_PUBLISH
  ⟨0x1040, .rw, 0x00000000, 0x0000003F, 0x1040, 1, true⟩, -- FAB_PSEL
  ⟨0x1044, .rw, 0x00000000, 0xFFFFFFFF, 0x1044, 2, false⟩, -- FAB_P_ROUTE_LO
  ⟨0x1048, .rw, 0x00000000, 0xFFFFFFFF, 0x1044, 2, false⟩, -- FAB_P_ROUTE_HI
  ⟨0x104C, .wo, 0x00000000, 0x8000001F, 0x104C, 1, false⟩, -- FAB_P_CTL
  ⟨0x1050, .ro, 0x00000000, 0xFFFF0003, 0x1050, 1, false⟩, -- FAB_P_STS
  ⟨0x1054, .ro, 0x00000000, 0xFFFFFFFF, 0x1054, 1, false⟩, -- FAB_P_REPLY0
  ⟨0x1058, .ro, 0x00000000, 0xFFFFFFFF, 0x1058, 1, false⟩, -- FAB_P_REPLY1
  ⟨0x105C, .ro, 0x00000000, 0xFFFFFFFF, 0x105C, 1, false⟩, -- FAB_P_REPLY2
  ⟨0x1060, .ro, 0x00000000, 0xFFFFFFFF, 0x1060, 1, false⟩, -- FAB_P_REPLY3
  ⟨0x1064, .ro, 0x00000000, 0xFFFFFFFF, 0x1064, 1, false⟩, -- FAB_P_REPLY4
  ⟨0x1068, .ro, 0x00000000, 0xFFFFFFFF, 0x1068, 1, false⟩] -- FAB_P_REPLY5

/-- Page ALNK, whole (R337). -/
def mapAlnk : List RegDef := mapAlnkPart0 ++ mapAlnkPart1

/-- Page VC (R337). -/
def mapVcPart0 : List RegDef := [
  ⟨0x0100, .rw, 0x20202020, 0xFFFFFFFF, 0x0100, 1, false⟩, -- VC_WEIGHT0
  ⟨0x0104, .rw, 0x00002040, 0x0000FFFF, 0x0104, 1, false⟩, -- VC_WEIGHT1
  ⟨0x0108, .rw, 0xFFFFFFFF, 0xFFFFFFFF, 0x0108, 1, false⟩, -- VC_SLOT0
  ⟨0x010C, .rw, 0xFFFFFFFF, 0xFFFFFFFF, 0x010C, 1, false⟩, -- VC_SLOT1
  ⟨0x0110, .rw, 0xFFFFFFFF, 0xFFFFFFFF, 0x0110, 1, false⟩, -- VC_SLOT2
  ⟨0x0114, .rw, 0xFFFFFFFF, 0xFFFFFFFF, 0x0114, 1, false⟩, -- VC_SLOT3
  ⟨0x0118, .rw, 0xFFFFFFFF, 0xFFFFFFFF, 0x0118, 1, false⟩, -- VC_SLOT4
  ⟨0x011C, .rw, 0xFFFFFFFF, 0xFFFFFFFF, 0x011C, 1, false⟩, -- VC_SLOT5
  ⟨0x0120, .rw, 0xFFFFFFFF, 0xFFFFFFFF, 0x0120, 1, false⟩, -- VC_SLOT6
  ⟨0x0124, .rw, 0xFFFFFFFF, 0xFFFFFFFF, 0x0124, 1, false⟩, -- VC_SLOT7
  ⟨0x0128, .rw, 0xFFFFFFFF, 0xFFFFFFFF, 0x0128, 1, false⟩, -- VC_SLOT8
  ⟨0x012C, .rw, 0xFFFFFFFF, 0xFFFFFFFF, 0x012C, 1, false⟩, -- VC_SLOT9
  ⟨0x0130, .rw, 0xFFFFFFFF, 0xFFFFFFFF, 0x0130, 1, false⟩, -- VC_SLOT10
  ⟨0x0134, .rw, 0xFFFFFFFF, 0xFFFFFFFF, 0x0134, 1, false⟩, -- VC_SLOT11
  ⟨0x0138, .rw, 0xFFFFFFFF, 0xFFFFFFFF, 0x0138, 1, false⟩, -- VC_SLOT12
  ⟨0x013C, .rw, 0xFFFFFFFF, 0xFFFFFFFF, 0x013C, 1, false⟩, -- VC_SLOT13
  ⟨0x0140, .rw, 0xFFFFFFFF, 0xFFFFFFFF, 0x0140, 1, false⟩, -- VC_SLOT14
  ⟨0x0144, .rw, 0xFFFFFFFF, 0xFFFFFFFF, 0x0144, 1, false⟩, -- VC_SLOT15
  ⟨0x0148, .rw, 0xFFFFFFFF, 0xFFFFFFFF, 0x0148, 1, false⟩, -- VC_SLOT16
  ⟨0x014C, .rw, 0xFFFFFFFF, 0xFFFFFFFF, 0x014C, 1, false⟩, -- VC_SLOT17
  ⟨0x0150, .rw, 0xFFFFFFFF, 0xFFFFFFFF, 0x0150, 1, false⟩, -- VC_SLOT18
  ⟨0x0154, .rw, 0xFFFFFFFF, 0xFFFFFFFF, 0x0154, 1, false⟩, -- VC_SLOT19
  ⟨0x0158, .rw, 0xFFFFFFFF, 0xFFFFFFFF, 0x0158, 1, false⟩, -- VC_SLOT20
  ⟨0x015C, .rw, 0xFFFFFFFF, 0xFFFFFFFF, 0x015C, 1, false⟩, -- VC_SLOT21
  ⟨0x0160, .rw, 0xFFFFFFFF, 0xFFFFFFFF, 0x0160, 1, false⟩, -- VC_SLOT22
  ⟨0x0164, .rw, 0xFFFFFFFF, 0xFFFFFFFF, 0x0164, 1, false⟩, -- VC_SLOT23
  ⟨0x0168, .rw, 0xFFFFFFFF, 0xFFFFFFFF, 0x0168, 1, false⟩, -- VC_SLOT24
  ⟨0x016C, .rw, 0xFFFFFFFF, 0xFFFFFFFF, 0x016C, 1, false⟩, -- VC_SLOT25
  ⟨0x0170, .rw, 0xFFFFFFFF, 0xFFFFFFFF, 0x0170, 1, false⟩, -- VC_SLOT26
  ⟨0x0174, .rw, 0xFFFFFFFF, 0xFFFFFFFF, 0x0174, 1, false⟩, -- VC_SLOT27
  ⟨0x0178, .rw, 0xFFFFFFFF, 0xFFFFFFFF, 0x0178, 1, false⟩, -- VC_SLOT28
  ⟨0x017C, .rw, 0xFFFFFFFF, 0xFFFFFFFF, 0x017C, 1, false⟩] -- VC_SLOT29

/-- More of page VC (R337). -/
def mapVcPart1 : List RegDef := [
  ⟨0x0180, .rw, 0xFFFFFFFF, 0xFFFFFFFF, 0x0180, 1, false⟩, -- VC_SLOT30
  ⟨0x0184, .rw, 0xFFFFFFFF, 0xFFFFFFFF, 0x0184, 1, false⟩, -- VC_SLOT31
  ⟨0x0188, .rw, 0x00000000, 0xFFFFFFFF, 0x0188, 1, false⟩, -- VC_SHARE_HOOP0
  ⟨0x018C, .rw, 0x00000000, 0xFFFFFFFF, 0x018C, 1, false⟩, -- VC_SHARE_HOOP1
  ⟨0x0190, .rw, 0x00000000, 0x00007FFF, 0x0190, 1, false⟩, -- VC_SHARE_EN
  ⟨0x0194, .ro, 0x00000000, 0xFFFFFFFF, 0x0194, 1, false⟩, -- VC_TABLE_CRC
  ⟨0x0198, .ro, 0x00000000, 0xFFFFFFFF, 0x0198, 1, false⟩, -- VC_PEER_CRC
  ⟨0x019C, .wo, 0x00000000, 0x00000001, 0x019C, 1, false⟩, -- VC_APPLY
  ⟨0x01A0, .ro, 0x00000000, 0x00000003, 0x01A0, 1, false⟩] -- VC_APPLY_STS

/-- Page VC, whole (R337). -/
def mapVc : List RegDef := mapVcPart0 ++ mapVcPart1

/-- Page PICOT (R337). -/
def mapPicot : List RegDef := [
  ⟨0x0100, .ro, 0x00000000, 0x0000FF0F, 0x0100, 1, false⟩, -- PICOT_PSTS
  ⟨0x0104, .ro, 0x00000000, 0x000000FF, 0x0104, 1, false⟩, -- PICOT_LAUNCH
  ⟨0x0108, .ro, 0x00000000, 0x0000FFFF, 0x0108, 1, false⟩, -- PICOT_LAST_OFS
  ⟨0x010C, .rc, 0x00000000, 0xFFFFFFFF, 0x010C, 1, false⟩, -- PICOT_GUARD
  ⟨0x0110, .rc, 0x00000000, 0xFFFFFFFF, 0x0110, 1, false⟩, -- PICOT_DRIFT_CNT
  ⟨0x0114, .w1c, 0x00000000, 0x0000001F, 0x0114, 1, false⟩, -- PICOT_FLAGS
  ⟨0x0118, .wo, 0x00000000, 0x00000001, 0x0118, 1, false⟩, -- PICOT_RESUME
  ⟨0x0120, .rw, 0x00000000, 0x000003FF, 0x0120, 1, true⟩, -- PICOT_SCHED_IDX
  ⟨0x0124, .rw, 0x00000000, 0x000001FF, 0x0124, 1, false⟩, -- PICOT_SCHED
  ⟨0x0128, .rw, 0x00000000, 0xFFFFFFFF, 0x0128, 2, false⟩, -- PICOT_FRAMES_LO
  ⟨0x012C, .rw, 0x00000000, 0xFFFFFFFF, 0x0128, 2, false⟩, -- PICOT_FRAMES_HI
  ⟨0x1000, .ro, 0x00000000, 0xFFFFFFFF, 0x1000, 2, false⟩, -- PICOT_TIME_LO
  ⟨0x1004, .ro, 0x00000000, 0xFFFFFFFF, 0x1000, 2, false⟩, -- PICOT_TIME_HI
  ⟨0x1008, .rw, 0x00000000, 0xFFFFFFFF, 0x1008, 2, false⟩, -- PICOT_TIME_SET_LO
  ⟨0x100C, .rw, 0x00000000, 0xFFFFFFFF, 0x1008, 2, false⟩, -- PICOT_TIME_SET_HI
  ⟨0x1010, .wo, 0x00000000, 0x00000001, 0x1010, 1, false⟩, -- PICOT_TIME_LOAD
  ⟨0x1014, .ro, 0x00000000, 0x000F01FF, 0x1014, 1, false⟩, -- PICOT_TSTS
  ⟨0x1018, .ro, 0x00000000, 0xFFFFFFFF, 0x1018, 2, false⟩, -- PICOT_GM_LO
  ⟨0x101C, .ro, 0x00000000, 0xFFFFFFFF, 0x1018, 2, false⟩, -- PICOT_GM_HI
  ⟨0x1020, .ro, 0x00000000, 0x000000FF, 0x1020, 1, false⟩, -- PICOT_GM_PRIO
  ⟨0x1024, .ro, 0x00000000, 0x0000FFFF, 0x1024, 1, false⟩, -- PICOT_OFFSET
  ⟨0x1028, .ro, 0x00000004, 0xFFFFFFFF, 0x1028, 1, false⟩, -- PICOT_SLACK
  ⟨0x102C, .rw, 0x00000000, 0xFFFFFFFF, 0x102C, 2, false⟩, -- PICOT_SWAP_AT_LO
  ⟨0x1030, .rw, 0x00000000, 0xFFFFFFFF, 0x102C, 2, false⟩, -- PICOT_SWAP_AT_HI
  ⟨0x1034, .wo, 0x00000000, 0x00000001, 0x1034, 1, false⟩] -- PICOT_SWAP_ARM

/-- Page SHUT (R359). -/
def mapShut : List RegDef := [
  ⟨0x0100, .ro, 0x00000000, 0xFFFF003F, 0x0100, 1, false⟩, -- SHUT_G_STS
  ⟨0x0104, .ro, 0x00000000, 0x0FFF1FFF, 0x0104, 1, false⟩, -- SHUT_G_RING
  ⟨0x0108, .ro, 0x00000000, 0x00FFFFFF, 0x0108, 1, false⟩, -- SHUT_G_PORTS
  ⟨0x010C, .ro, 0x00000000, 0x0000FFFF, 0x010C, 1, false⟩, -- SHUT_G_KEY
  ⟨0x0110, .ro, 0x00000000, 0xFFFFFFFF, 0x0110, 1, false⟩, -- SHUT_G_TMO
  ⟨0x0114, .ro, 0x00000000, 0xFFFFFFFF, 0x0114, 1, false⟩, -- SHUT_G_LEASE_LEN
  ⟨0x0118, .wo, 0x00000000, 0x00000001, 0x0118, 1, false⟩, -- SHUT_G_LEASE
  ⟨0x011C, .ro, 0x00000000, 0xFFFFFFFF, 0x011C, 1, false⟩, -- SHUT_G_LEASE_LEFT
  ⟨0x0120, .rw, 0x00000000, 0x0001FFFF, 0x0120, 1, false⟩, -- SHUT_G_RATE
  ⟨0x0124, .rw, 0x00000000, 0x000001FF, 0x0124, 1, false⟩, -- SHUT_G_SHARE
  ⟨0x0128, .ro, 0x00000000, 0x00000FFF, 0x0128, 1, false⟩, -- SHUT_G_INST
  ⟨0x012C, .ro, 0x00000000, 0x003FFFFF, 0x012C, 1, false⟩, -- SHUT_G_CURSOR
  ⟨0x0130, .ro, 0x00000000, 0x007FFFFF, 0x0130, 1, false⟩, -- SHUT_G_FAILED
  ⟨0x0134, .rw, 0x00000000, 0xFFFFFFFF, 0x0134, 2, false⟩, -- SHUT_G_TX_LO
  ⟨0x0138, .rw, 0x00000000, 0xFFFFFFFF, 0x0134, 2, false⟩, -- SHUT_G_TX_HI
  ⟨0x013C, .rw, 0x00000000, 0xFFFFFFFF, 0x013C, 2, false⟩, -- SHUT_G_RX_LO
  ⟨0x0140, .rw, 0x00000000, 0xFFFFFFFF, 0x013C, 2, false⟩, -- SHUT_G_RX_HI
  ⟨0x0144, .rc, 0x00000000, 0xFFFFFFFF, 0x0144, 1, false⟩, -- SHUT_G_STALE
  ⟨0x0148, .w1c, 0x00000000, 0x0000001F, 0x0148, 1, false⟩, -- SHUT_G_FLAGS
  ⟨0x1000, .ro, 0x00000100, 0xFFFFFFFF, 0x1000, 1, false⟩, -- SHUT_GROUPS
  ⟨0x1004, .ro, 0x00010000, 0xFFFFFFFF, 0x1004, 1, false⟩, -- SHUT_CHUNK
  ⟨0x1008, .ro, 0x00008000, 0xFFFFFFFF, 0x1008, 1, false⟩, -- SHUT_BUF
  ⟨0x100C, .ro, 0x00000100, 0xFFFFFFFF, 0x100C, 1, false⟩, -- SHUT_PICOT_MAX
  ⟨0x1010, .rw, 0x00000000, 0x0000FF0F, 0x1010, 1, false⟩, -- SHUT_OP
  ⟨0x1014, .rw, 0x00000000, 0xFFFFFFFF, 0x1014, 1, false⟩, -- SHUT_ARG0
  ⟨0x1018, .rw, 0x00000000, 0xFFFFFFFF, 0x1018, 1, false⟩, -- SHUT_ARG1
  ⟨0x101C, .rw, 0x00000000, 0xFFFFFFFF, 0x101C, 1, false⟩, -- SHUT_ARG2
  ⟨0x1020, .rw, 0x00000000, 0xFFFFFFFF, 0x1020, 1, false⟩, -- SHUT_ARG3
  ⟨0x1024, .rw, 0x00000000, 0xFFFFFFFF, 0x1024, 1, false⟩, -- SHUT_ARG4
  ⟨0x1028, .rw, 0x00000000, 0xFFFFFFFF, 0x1028, 1, false⟩, -- SHUT_ARG5
  ⟨0x102C, .ro, 0x00000000, 0x0001FFFF, 0x102C, 1, false⟩, -- SHUT_OP_STS
  ⟨0x1030, .ro, 0x00000000, 0x000000FF, 0x1030, 1, false⟩] -- SHUT_OP_RES

/-- Page STOR (R383). -/
def mapStor : List RegDef := [
  ⟨0x0100, .ro, 0x00000000, 0x00000F07, 0x0100, 1, false⟩, -- STOR_S_STS
  ⟨0x0104, .ro, 0x00000000, 0xFFFFFFFF, 0x0104, 1, false⟩, -- STOR_S_NSID
  ⟨0x0108, .ro, 0x00000000, 0x0000000F, 0x0108, 1, false⟩, -- STOR_S_LBA
  ⟨0x010C, .rw, 0x00000000, 0xFFFFFFFF, 0x010C, 2, false⟩, -- STOR_S_IO_LO
  ⟨0x0110, .rw, 0x00000000, 0xFFFFFFFF, 0x010C, 2, false⟩, -- STOR_S_IO_HI
  ⟨0x0114, .rc, 0x00000000, 0xFFFFFFFF, 0x0114, 1, false⟩, -- STOR_S_ERR
  ⟨0x0118, .w1c, 0x00000000, 0x00000007, 0x0118, 1, false⟩, -- STOR_S_FLAGS
  ⟨0x1000, .ro, 0x00000000, 0x00000003, 0x1000, 1, false⟩, -- STOR_P_STS
  ⟨0x1004, .rc, 0x00000000, 0xFFFFFFFF, 0x1004, 1, false⟩, -- STOR_P_RX_DROP
  ⟨0x1008, .rc, 0x00000000, 0xFFFFFFFF, 0x1008, 1, false⟩, -- STOR_TAG_FAIL
  ⟨0x100C, .rw, 0x11E1A300, 0xFFFFFFFF, 0x100C, 1, false⟩, -- STOR_IO_TMO
  ⟨0x1010, .rw, 0x00000000, 0x00003F0F, 0x1010, 1, false⟩, -- STOR_OP
  ⟨0x1014, .rw, 0x00000000, 0xFFFFFFFF, 0x1014, 2, false⟩, -- STOR_ARG_LO
  ⟨0x1018, .rw, 0x00000000, 0xFFFFFFFF, 0x1014, 2, false⟩, -- STOR_ARG_HI
  ⟨0x101C, .ro, 0x00000000, 0x0001FFFF, 0x101C, 1, false⟩, -- STOR_OP_STS
  ⟨0x1020, .ro, 0x00000000, 0x0000003F, 0x1020, 1, false⟩, -- STOR_OP_RES
  ⟨0x1040, .rw, 0x00000000, 0x8000003F, 0x1040, 1, false⟩, -- STOR_RELAY0
  ⟨0x1044, .rw, 0x00000000, 0x8000003F, 0x1044, 1, false⟩, -- STOR_RELAY1
  ⟨0x1048, .rw, 0x00000000, 0x8000003F, 0x1048, 1, false⟩, -- STOR_RELAY2
  ⟨0x104C, .rw, 0x00000000, 0x8000003F, 0x104C, 1, false⟩, -- STOR_RELAY3
  ⟨0x1050, .rw, 0x00000000, 0x8000003F, 0x1050, 1, false⟩, -- STOR_RELAY4
  ⟨0x1054, .rw, 0x00000000, 0x8000003F, 0x1054, 1, false⟩, -- STOR_RELAY5
  ⟨0x1058, .rw, 0x00000000, 0x8000003F, 0x1058, 1, false⟩, -- STOR_RELAY6
  ⟨0x105C, .rw, 0x00000000, 0x8000003F, 0x105C, 1, false⟩, -- STOR_RELAY7
  ⟨0x1060, .rw, 0x00000000, 0x8000003F, 0x1060, 1, false⟩, -- STOR_RELAY8
  ⟨0x1064, .rw, 0x00000000, 0x8000003F, 0x1064, 1, false⟩, -- STOR_RELAY9
  ⟨0x1068, .rw, 0x00000000, 0x8000003F, 0x1068, 1, false⟩, -- STOR_RELAY10
  ⟨0x106C, .rw, 0x00000000, 0x8000003F, 0x106C, 1, false⟩, -- STOR_RELAY11
  ⟨0x1070, .rw, 0x00000000, 0x8000003F, 0x1070, 1, false⟩, -- STOR_RELAY12
  ⟨0x1074, .rw, 0x00000000, 0x8000003F, 0x1074, 1, false⟩, -- STOR_RELAY13
  ⟨0x1078, .rw, 0x00000000, 0x8000003F, 0x1078, 1, false⟩, -- STOR_RELAY14
  ⟨0x107C, .rw, 0x00000000, 0x8000003F, 0x107C, 1, false⟩] -- STOR_RELAY15

/-- Page CKPT (R383). -/
def mapCkpt : List RegDef := [
  ⟨0x0100, .rw, 0x00000000, 0xFFFFFFFF, 0x0100, 1, false⟩, -- CKPT_TMS
  ⟨0x0104, .rw, 0x00000000, 0xFFFFFFFF, 0x0104, 1, false⟩, -- CKPT_TSTEPS
  ⟨0x0108, .ro, 0x00000000, 0x0000001F, 0x0108, 1, false⟩, -- CKPT_STS
  ⟨0x010C, .ro, 0x00000000, 0xFFFFFFFF, 0x010C, 1, false⟩, -- CKPT_LAST_STEP
  ⟨0x0110, .ro, 0x00000000, 0xFFFFFFFF, 0x0110, 1, false⟩, -- CKPT_NEXT_MS
  ⟨0x0114, .ro, 0x00000000, 0x0000FFFF, 0x0114, 1, false⟩, -- CKPT_LAST_STATUS
  ⟨0x0118, .ro, 0x00000000, 0xFFFFFFFF, 0x0118, 1, false⟩, -- CKPT_COUNT
  ⟨0x011C, .w1c, 0x00000000, 0x00000007, 0x011C, 1, false⟩, -- CKPT_FLAGS
  ⟨0x1000, .ro, 0x00010000, 0xFFFFFFFF, 0x1000, 1, false⟩, -- CKPT_CHUNK
  ⟨0x1004, .ro, 0x00000040, 0xFFFFFFFF, 0x1004, 1, false⟩] -- CKPT_MAX_SHARDS

/-- Page KEYS (R404). -/
def mapKeys : List RegDef := [
  ⟨0x0100, .ro, 0x00000000, 0xFFFFFFFF, 0x0100, 1, false⟩, -- KEYS_ATTR
  ⟨0x0104, .ro, 0x00000000, 0xFFFFFFFF, 0x0104, 2, false⟩, -- KEYS_USE_LO
  ⟨0x0108, .ro, 0x00000000, 0xFFFFFFFF, 0x0104, 2, false⟩, -- KEYS_USE_HI
  ⟨0x010C, .ro, 0x00000000, 0xFFFFFFFF, 0x010C, 2, false⟩, -- KEYS_LIMIT_LO
  ⟨0x0110, .ro, 0x00000000, 0xFFFFFFFF, 0x010C, 2, false⟩, -- KEYS_LIMIT_HI
  ⟨0x0114, .ro, 0x00000000, 0x007FFFFF, 0x0114, 1, false⟩, -- KEYS_PAGES
  ⟨0x0118, .w1c, 0x00000000, 0x00000007, 0x0118, 1, false⟩, -- KEYS_FLAGS
  ⟨0x1000, .ro, 0x00001000, 0xFFFFFFFF, 0x1000, 1, false⟩, -- KEYS_COUNT
  ⟨0x1004, .ro, 0x00000FFF, 0x00001FFF, 0x1004, 1, false⟩, -- KEYS_FREE
  ⟨0x1008, .wo, 0x00000000, 0x80000FFF, 0x1008, 1, true⟩, -- KEYS_ZEROIZE
  ⟨0x100C, .ro, 0x00000000, 0x0000FFFF, 0x100C, 1, true⟩] -- KEYS_ZSTS

/-- Page CIPHU (R409). -/
def mapCiphu : List RegDef := [
  ⟨0x1000, .rw, 0x00000000, 0x80FFFF01, 0x1000, 1, false⟩, -- CIPHU_CFG
  ⟨0x1004, .rw, 0x00000000, 0xFFFFFFFF, 0x1004, 2, false⟩, -- CIPHU_RING_LO
  ⟨0x1008, .rw, 0x00000000, 0x0000FFFF, 0x1004, 2, false⟩, -- CIPHU_RING_HI
  ⟨0x100C, .rw, 0x00000000, 0xFFFFFFFF, 0x100C, 2, false⟩, -- CIPHU_CPL_LO
  ⟨0x1010, .rw, 0x00000000, 0x0000FFFF, 0x100C, 2, false⟩, -- CIPHU_CPL_HI
  ⟨0x1014, .rw, 0x00000000, 0xFFFFFFFF, 0x1014, 1, false⟩, -- CIPHU_TAIL
  ⟨0x1018, .ro, 0x00000000, 0xFFFFFFFF, 0x1018, 1, false⟩, -- CIPHU_DONE
  ⟨0x101C, .rw, 0x00000000, 0xFFFFFFFF, 0x101C, 1, false⟩, -- CIPHU_CPL_HEAD
  ⟨0x1020, .ro, 0x00000000, 0xFFFFFFFF, 0x1020, 2, false⟩, -- CIPHU_BYTES_LO
  ⟨0x1024, .ro, 0x00000000, 0xFFFFFFFF, 0x1020, 2, false⟩, -- CIPHU_BYTES_HI
  ⟨0x1028, .w1c, 0x00000000, 0x0000000F, 0x1028, 1, false⟩] -- CIPHU_FLAGS

/-- Page SEC (R417). -/
def mapSec : List RegDef := [
  ⟨0x1000, .rw, 0x00000000, 0xFFFFFFFF, 0x1000, 2, true⟩, -- SEC_MB_ADDR_LO
  ⟨0x1004, .rw, 0x00000000, 0x0000FFFF, 0x1000, 2, true⟩, -- SEC_MB_ADDR_HI
  ⟨0x1008, .rw, 0x00000000, 0x00000FFF, 0x1008, 1, true⟩, -- SEC_MB_CTX
  ⟨0x100C, .wo, 0x00000000, 0x00000001, 0x100C, 1, true⟩, -- SEC_MB_GO
  ⟨0x1010, .ro, 0x00000000, 0x00FFFFFF, 0x1010, 1, true⟩, -- SEC_MB_STS
  ⟨0x1014, .ro, 0x00000000, 0x0000FF07, 0x1014, 1, false⟩, -- SEC_RTP_STS
  ⟨0x1018, .ro, 0x00000000, 0x0000FF07, 0x1018, 1, false⟩, -- SEC_TAMPER_HEAD
  ⟨0x1020, .ro, 0x00000000, 0xFFFFFFFF, 0x1020, 1, false⟩, -- SEC_TAMPER_LOG0
  ⟨0x1024, .ro, 0x00000000, 0xFFFFFFFF, 0x1024, 1, false⟩, -- SEC_TAMPER_LOG1
  ⟨0x1028, .ro, 0x00000000, 0xFFFFFFFF, 0x1028, 1, false⟩, -- SEC_TAMPER_LOG2
  ⟨0x102C, .ro, 0x00000000, 0xFFFFFFFF, 0x102C, 1, false⟩, -- SEC_TAMPER_LOG3
  ⟨0x1030, .ro, 0x00000000, 0xFFFFFFFF, 0x1030, 1, false⟩, -- SEC_TAMPER_LOG4
  ⟨0x1034, .ro, 0x00000000, 0xFFFFFFFF, 0x1034, 1, false⟩, -- SEC_TAMPER_LOG5
  ⟨0x1038, .ro, 0x00000000, 0xFFFFFFFF, 0x1038, 1, false⟩, -- SEC_TAMPER_LOG6
  ⟨0x103C, .ro, 0x00000000, 0xFFFFFFFF, 0x103C, 1, false⟩, -- SEC_TAMPER_LOG7
  ⟨0x1040, .ro, 0x00000000, 0xFFFFFFFF, 0x1040, 1, false⟩, -- SEC_TAMPER_LOG8
  ⟨0x1044, .ro, 0x00000000, 0xFFFFFFFF, 0x1044, 1, false⟩, -- SEC_TAMPER_LOG9
  ⟨0x1048, .ro, 0x00000000, 0xFFFFFFFF, 0x1048, 1, false⟩, -- SEC_TAMPER_LOG10
  ⟨0x104C, .ro, 0x00000000, 0xFFFFFFFF, 0x104C, 1, false⟩, -- SEC_TAMPER_LOG11
  ⟨0x1050, .ro, 0x00000000, 0xFFFFFFFF, 0x1050, 1, false⟩, -- SEC_TAMPER_LOG12
  ⟨0x1054, .ro, 0x00000000, 0xFFFFFFFF, 0x1054, 1, false⟩, -- SEC_TAMPER_LOG13
  ⟨0x1058, .ro, 0x00000000, 0xFFFFFFFF, 0x1058, 1, false⟩, -- SEC_TAMPER_LOG14
  ⟨0x105C, .ro, 0x00000000, 0xFFFFFFFF, 0x105C, 1, false⟩] -- SEC_TAMPER_LOG15

/-- Page CIPH (R418). -/
def mapCiph : List RegDef := [
  ⟨0x1000, .ro, 0x00000001, 0x00000003, 0x1000, 1, false⟩, -- CIPH_STS
  ⟨0x1004, .ro, 0x10000010, 0xFFFF00FF, 0x1004, 1, false⟩, -- CIPH_FRAME
  ⟨0x1008, .ro, 0x00002810, 0x0000FFFF, 0x1008, 1, false⟩, -- CIPH_RATES
  ⟨0x100C, .rw, 0x00000000, 0x0000000F, 0x100C, 1, true⟩, -- CIPH_HSEL
  ⟨0x1010, .ro, 0x00000000, 0xFFFFFFFF, 0x1010, 2, false⟩, -- CIPH_H_OWN_LO
  ⟨0x1014, .ro, 0x00000000, 0xFFFFFFFF, 0x1010, 2, false⟩, -- CIPH_H_OWN_HI
  ⟨0x1018, .ro, 0x00000000, 0xFFFFFFFF, 0x1018, 2, false⟩, -- CIPH_H_LENT_LO
  ⟨0x101C, .ro, 0x00000000, 0xFFFFFFFF, 0x1018, 2, false⟩, -- CIPH_H_LENT_HI
  ⟨0x1020, .ro, 0x00000000, 0xFFFFFFFF, 0x1020, 2, false⟩, -- CIPH_H_REQS_LO
  ⟨0x1024, .ro, 0x00000000, 0xFFFFFFFF, 0x1020, 2, false⟩, -- CIPH_H_REQS_HI
  ⟨0x1028, .rc, 0x00000000, 0xFFFFFFFF, 0x1028, 1, false⟩, -- CIPH_TAG_FAIL
  ⟨0x102C, .rc, 0x00000000, 0xFFFFFFFF, 0x102C, 1, false⟩, -- CIPH_MASK_STALL
  ⟨0x1030, .w1c, 0x00000000, 0x00000003, 0x1030, 1, false⟩] -- CIPH_FLAGS

/-- Page LC (R436). -/
def mapLc : List RegDef := [
  ⟨0x1000, .ro, 0x00000000, 0xFFFFFFFF, 0x1000, 1, false⟩, -- LC_STATE
  ⟨0x1004, .rw, 0x00000000, 0x0000000F, 0x1004, 1, false⟩, -- LC_TARGET
  ⟨0x1008, .ro, 0x00000000, 0x00FFFFFF, 0x1008, 1, false⟩, -- LC_OP_STS
  ⟨0x100C, .ro, 0x00000000, 0xFFFFFFFF, 0x100C, 1, false⟩, -- LC_WORDS
  ⟨0x1010, .ro, 0x00000000, 0xFFFFFFFF, 0x1010, 2, false⟩, -- LC_SERIAL_LO
  ⟨0x1014, .ro, 0x00000000, 0xFFFFFFFF, 0x1010, 2, false⟩] -- LC_SERIAL_HI

/-- Page DBG (R436). -/
def mapDbg : List RegDef := [
  ⟨0x1000, .ro, 0x00000000, 0xFFFF007F, 0x1000, 1, false⟩, -- DBG_RIGHTS
  ⟨0x1004, .rw, 0x00000000, 0x07FFFF0F, 0x1004, 1, false⟩, -- DBG_OP
  ⟨0x1008, .rw, 0x00000000, 0xFFFFFFFF, 0x1008, 2, false⟩, -- DBG_ARG_LO
  ⟨0x100C, .rw, 0x00000000, 0xFFFFFFFF, 0x1008, 2, false⟩, -- DBG_ARG_HI
  ⟨0x1010, .ro, 0x00000000, 0x0001FFFF, 0x1010, 1, false⟩, -- DBG_OP_STS
  ⟨0x1020, .ro, 0x00000000, 0xFFFFFFFF, 0x1020, 1, false⟩, -- DBG_CHAL0
  ⟨0x1024, .ro, 0x00000000, 0xFFFFFFFF, 0x1024, 1, false⟩, -- DBG_CHAL1
  ⟨0x1028, .ro, 0x00000000, 0xFFFFFFFF, 0x1028, 1, false⟩, -- DBG_CHAL2
  ⟨0x102C, .ro, 0x00000000, 0xFFFFFFFF, 0x102C, 1, false⟩, -- DBG_CHAL3
  ⟨0x1030, .ro, 0x00000000, 0xFFFFFFFF, 0x1030, 1, false⟩, -- DBG_CHAL4
  ⟨0x1034, .ro, 0x00000000, 0xFFFFFFFF, 0x1034, 1, false⟩, -- DBG_CHAL5
  ⟨0x1038, .ro, 0x00000000, 0xFFFFFFFF, 0x1038, 1, false⟩, -- DBG_CHAL6
  ⟨0x103C, .ro, 0x00000000, 0xFFFFFFFF, 0x103C, 1, false⟩, -- DBG_CHAL7
  ⟨0x1040, .rw, 0x00000000, 0x00000F7F, 0x1040, 1, false⟩, -- DBG_PTILE
  ⟨0x1044, .rw, 0x00000000, 0x003FFFF8, 0x1044, 1, false⟩, -- DBG_PADDR
  ⟨0x1048, .ro, 0x00000000, 0xFFFFFFFF, 0x1048, 2, false⟩, -- DBG_PDATA_LO
  ⟨0x104C, .ro, 0x00000000, 0xFFFFFFFF, 0x1048, 2, false⟩, -- DBG_PDATA_HI
  ⟨0x1050, .rw, 0x00000000, 0xFFFFFFFF, 0x1050, 2, false⟩, -- DBG_TBUF_LO
  ⟨0x1054, .rw, 0x00000000, 0xFFFFFFFF, 0x1050, 2, false⟩, -- DBG_TBUF_HI
  ⟨0x1058, .rw, 0x00000000, 0xFFFFFFFF, 0x1058, 1, false⟩, -- DBG_TBUF_LEN
  ⟨0x105C, .rw, 0x00000000, 0x00000FF1, 0x105C, 1, false⟩, -- DBG_TRACE_CTL
  ⟨0x1060, .rc, 0x00000000, 0xFFFFFFFF, 0x1060, 1, false⟩, -- DBG_TRACE_DROP
  ⟨0x1064, .rw, 0x00000000, 0x0000FF7F, 0x1064, 1, false⟩, -- DBG_PROF_SEL
  ⟨0x1068, .ro, 0x00000000, 0xFFFFFFFF, 0x1068, 2, false⟩, -- DBG_PROF_LO
  ⟨0x106C, .ro, 0x00000000, 0xFFFFFFFF, 0x1068, 2, false⟩] -- DBG_PROF_HI

/-- Page RAS (R451). -/
def mapRas : List RegDef := [
  ⟨0x0100, .rc, 0x00000000, 0xFFFFFFFF, 0x0100, 1, false⟩, -- RAS_H_CFAULTS
  ⟨0x0104, .rc, 0x00000000, 0xFFFFFFFF, 0x0104, 1, false⟩, -- RAS_H_PRESETS
  ⟨0x0108, .rc, 0x00000000, 0xFFFFFFFF, 0x0108, 1, false⟩, -- RAS_H_CE
  ⟨0x010C, .rc, 0x00000000, 0xFFFFFFFF, 0x010C, 1, false⟩, -- RAS_H_UE
  ⟨0x0110, .rc, 0x00000000, 0xFFFFFFFF, 0x0110, 1, false⟩, -- RAS_H_MISS
  ⟨0x0114, .ro, 0x00000000, 0x000003FF, 0x0114, 1, false⟩, -- RAS_H_LAST
  ⟨0x1000, .ro, 0x00000000, 0xFFFFFFFF, 0x1000, 1, false⟩, -- RAS_HALT0
  ⟨0x1004, .ro, 0x00000000, 0xFFFFFFFF, 0x1004, 1, false⟩, -- RAS_HALT1
  ⟨0x1008, .ro, 0x00000000, 0xFFFFFFFF, 0x1008, 1, false⟩, -- RAS_HALT2
  ⟨0x100C, .ro, 0x00000000, 0xFFFFFFFF, 0x100C, 1, false⟩, -- RAS_HALT3
  ⟨0x1010, .ro, 0x00000000, 0xFFFFFFFF, 0x1010, 1, false⟩, -- RAS_HALT4
  ⟨0x1014, .ro, 0x00000000, 0xFFFFFFFF, 0x1014, 1, false⟩, -- RAS_HALT5
  ⟨0x1018, .ro, 0x00000000, 0xFFFFFFFF, 0x1018, 1, false⟩, -- RAS_HALT6
  ⟨0x101C, .ro, 0x00000000, 0xFFFFFFFF, 0x101C, 1, false⟩, -- RAS_HALT7
  ⟨0x1020, .w1c, 0x00000000, 0x00000001, 0x1020, 1, false⟩, -- RAS_HALT_STS
  ⟨0x1024, .rw, 0x004C4B40, 0xFFFFFFFF, 0x1024, 1, false⟩, -- RAS_EWD
  ⟨0x1028, .rw, 0x3B9ACA00, 0xFFFFFFFF, 0x1028, 1, false⟩, -- RAS_QWD
  ⟨0x102C, .rw, 0x00000000, 0x00000001, 0x102C, 1, false⟩, -- RAS_CTL
  ⟨0x1030, .wo, 0x00000000, 0xFFFFFFFF, 0x1030, 1, false⟩, -- RAS_HALT_REQ
  ⟨0x1034, .ro, 0x00000000, 0xFFFFFFFF, 0x1034, 1, false⟩, -- RAS_LOG_HEAD
  ⟨0x1038, .rw, 0x00000000, 0x000000FF, 0x1038, 1, true⟩, -- RAS_LOG_IDX
  ⟨0x1040, .ro, 0x00000000, 0xFFFFFFFF, 0x1040, 1, false⟩, -- RAS_LOG0
  ⟨0x1044, .ro, 0x00000000, 0xFFFFFFFF, 0x1044, 1, false⟩, -- RAS_LOG1
  ⟨0x1048, .ro, 0x00000000, 0xFFFFFFFF, 0x1048, 1, false⟩, -- RAS_LOG2
  ⟨0x104C, .ro, 0x00000000, 0xFFFFFFFF, 0x104C, 1, false⟩, -- RAS_LOG3
  ⟨0x1050, .ro, 0x00000000, 0xFFFFFFFF, 0x1050, 1, false⟩, -- RAS_LOG4
  ⟨0x1054, .ro, 0x00000000, 0xFFFFFFFF, 0x1054, 1, false⟩, -- RAS_LOG5
  ⟨0x1058, .ro, 0x00000000, 0xFFFFFFFF, 0x1058, 1, false⟩, -- RAS_LOG6
  ⟨0x105C, .ro, 0x00000000, 0xFFFFFFFF, 0x105C, 1, false⟩] -- RAS_LOG7

/-- Page DIAG (R452). -/
def mapDiag : List RegDef := [
  ⟨0x0100, .rw, 0x00000000, 0x00000001, 0x0100, 1, false⟩, -- DIAG_CTL
  ⟨0x0104, .rw, 0x00000000, 0xFFFFFFFF, 0x0104, 2, false⟩, -- DIAG_BUF_LO
  ⟨0x0108, .rw, 0x00000000, 0x0000FFFF, 0x0104, 2, false⟩, -- DIAG_BUF_HI
  ⟨0x010C, .rw, 0x00000000, 0x0001FFFF, 0x010C, 1, false⟩, -- DIAG_BUF_LEN
  ⟨0x0110, .ro, 0x00000000, 0xFFFFFF07, 0x0110, 1, false⟩, -- DIAG_STS
  ⟨0x0120, .ro, 0x00000000, 0xFFFFFFFF, 0x0120, 1, false⟩, -- DIAG_FREC0
  ⟨0x0124, .ro, 0x00000000, 0xFFFFFFFF, 0x0124, 1, false⟩, -- DIAG_FREC1
  ⟨0x0128, .ro, 0x00000000, 0xFFFFFFFF, 0x0128, 1, false⟩, -- DIAG_FREC2
  ⟨0x012C, .ro, 0x00000000, 0xFFFFFFFF, 0x012C, 1, false⟩, -- DIAG_FREC3
  ⟨0x0130, .ro, 0x00000000, 0xFFFFFFFF, 0x0130, 1, false⟩, -- DIAG_FREC4
  ⟨0x0134, .ro, 0x00000000, 0xFFFFFFFF, 0x0134, 1, false⟩, -- DIAG_FREC5
  ⟨0x0138, .ro, 0x00000000, 0xFFFFFFFF, 0x0138, 1, false⟩, -- DIAG_FREC6
  ⟨0x013C, .ro, 0x00000000, 0xFFFFFFFF, 0x013C, 1, false⟩] -- DIAG_FREC7

/-- Page ATTIC (R457). -/
def mapAttic : List RegDef := [
  ⟨0x0100, .ro, 0x00000000, 0x0000007F, 0x0100, 1, false⟩, -- ATTIC_T_ARRMAP0
  ⟨0x0104, .ro, 0x00000000, 0x0000007F, 0x0104, 1, false⟩, -- ATTIC_T_ARRMAP1
  ⟨0x0108, .ro, 0x00000000, 0x0000007F, 0x0108, 1, false⟩, -- ATTIC_T_ARRMAP2
  ⟨0x010C, .ro, 0x00000000, 0x0000007F, 0x010C, 1, false⟩, -- ATTIC_T_ARRMAP3
  ⟨0x0110, .ro, 0x00000000, 0x0000007F, 0x0110, 1, false⟩, -- ATTIC_T_ARRMAP4
  ⟨0x0114, .ro, 0x00000000, 0x0000007F, 0x0114, 1, false⟩, -- ATTIC_T_ARRMAP5
  ⟨0x0118, .ro, 0x00000000, 0x0000007F, 0x0118, 1, false⟩, -- ATTIC_T_ARRMAP6
  ⟨0x011C, .ro, 0x00000000, 0x0000007F, 0x011C, 1, false⟩, -- ATTIC_T_ARRMAP7
  ⟨0x0120, .ro, 0x00000000, 0x00000007, 0x0120, 1, false⟩, -- ATTIC_T_PEND
  ⟨0x1000, .ro, 0x000000FF, 0xFFFFFFFF, 0x1000, 1, false⟩, -- ATTIC_ROWS
  ⟨0x1004, .rw, 0x00000000, 0x000107FF, 0x1004, 1, false⟩, -- ATTIC_OP
  ⟨0x1008, .ro, 0x00000000, 0x0001FFFF, 0x1008, 1, false⟩, -- ATTIC_OP_STS
  ⟨0x100C, .ro, 0x00000000, 0x000FFFFF, 0x100C, 1, false⟩, -- ATTIC_PAGES_RETIRED
  ⟨0x1010, .ro, 0x00000000, 0x0000FFFF, 0x1010, 1, false⟩] -- ATTIC_RETIRE_PEND

/-- Page BOOT (R473). -/
def mapBootPart0 : List RegDef := [
  ⟨0x1000, .ro, 0x00000000, 0xFFFFFFFF, 0x1000, 1, false⟩, -- BOOT_STS
  ⟨0x1004, .ro, 0x00000000, 0xFFFFFFFF, 0x1004, 1, false⟩, -- BOOT_COUNT
  ⟨0x1008, .rw, 0x00000000, 0x00000003, 0x1008, 1, true⟩, -- BOOT_LSEL
  ⟨0x1010, .ro, 0x00000000, 0xFFFFFFFF, 0x1010, 1, false⟩, -- BOOT_LREC0
  ⟨0x1014, .ro, 0x00000000, 0xFFFFFFFF, 0x1014, 1, false⟩, -- BOOT_LREC1
  ⟨0x1018, .ro, 0x00000000, 0xFFFFFFFF, 0x1018, 1, false⟩, -- BOOT_LREC2
  ⟨0x101C, .ro, 0x00000000, 0xFFFFFFFF, 0x101C, 1, false⟩, -- BOOT_LREC3
  ⟨0x1020, .ro, 0x00000000, 0xFFFFFFFF, 0x1020, 1, false⟩, -- BOOT_LREC4
  ⟨0x1024, .ro, 0x00000000, 0xFFFFFFFF, 0x1024, 1, false⟩, -- BOOT_LREC5
  ⟨0x1028, .ro, 0x00000000, 0xFFFFFFFF, 0x1028, 1, false⟩, -- BOOT_LREC6
  ⟨0x102C, .ro, 0x00000000, 0xFFFFFFFF, 0x102C, 1, false⟩, -- BOOT_LREC7
  ⟨0x1030, .ro, 0x00000000, 0xFFFFFFFF, 0x1030, 1, false⟩, -- BOOT_LREC8
  ⟨0x1034, .ro, 0x00000000, 0xFFFFFFFF, 0x1034, 1, false⟩, -- BOOT_LREC9
  ⟨0x1038, .ro, 0x00000000, 0xFFFFFFFF, 0x1038, 1, false⟩, -- BOOT_LREC10
  ⟨0x103C, .ro, 0x00000000, 0xFFFFFFFF, 0x103C, 1, false⟩, -- BOOT_LREC11
  ⟨0x1040, .ro, 0x00000000, 0xFFFFFFFF, 0x1040, 1, false⟩, -- BOOT_LREC12
  ⟨0x1044, .ro, 0x00000000, 0xFFFFFFFF, 0x1044, 1, false⟩, -- BOOT_LREC13
  ⟨0x1048, .ro, 0x00000000, 0xFFFFFFFF, 0x1048, 1, false⟩, -- BOOT_LREC14
  ⟨0x104C, .ro, 0x00000000, 0xFFFFFFFF, 0x104C, 1, false⟩, -- BOOT_LREC15
  ⟨0x1050, .ro, 0x00000000, 0xFFFFFFFF, 0x1050, 1, false⟩, -- BOOT_SKIP
  ⟨0x1054, .ro, 0x00000000, 0x00007F7F, 0x1054, 1, false⟩, -- BOOT_SVN
  ⟨0x1058, .wo, 0x00000000, 0x00000003, 0x1058, 1, false⟩, -- BOOT_CTL
  ⟨0x105C, .wo, 0x00000000, 0xFFFFFFFF, 0x105C, 1, false⟩, -- BOOT_SVN_COMMIT
  ⟨0x1060, .rw, 0x00000000, 0x00000003, 0x1060, 1, false⟩, -- BOOT_FL_OP
  ⟨0x1064, .rw, 0x00000000, 0x00FFFFFF, 0x1064, 1, false⟩, -- BOOT_FL_ADDR
  ⟨0x1068, .ro, 0x00000000, 0x0003FFFF, 0x1068, 1, false⟩, -- BOOT_FL_STS
  ⟨0x1100, .rw, 0x00000000, 0xFFFFFFFF, 0x1100, 1, false⟩, -- BOOT_FL_DATA0
  ⟨0x1104, .rw, 0x00000000, 0xFFFFFFFF, 0x1104, 1, false⟩, -- BOOT_FL_DATA1
  ⟨0x1108, .rw, 0x00000000, 0xFFFFFFFF, 0x1108, 1, false⟩, -- BOOT_FL_DATA2
  ⟨0x110C, .rw, 0x00000000, 0xFFFFFFFF, 0x110C, 1, false⟩, -- BOOT_FL_DATA3
  ⟨0x1110, .rw, 0x00000000, 0xFFFFFFFF, 0x1110, 1, false⟩, -- BOOT_FL_DATA4
  ⟨0x1114, .rw, 0x00000000, 0xFFFFFFFF, 0x1114, 1, false⟩] -- BOOT_FL_DATA5

/-- More of page BOOT (R473). -/
def mapBootPart1 : List RegDef := [
  ⟨0x1118, .rw, 0x00000000, 0xFFFFFFFF, 0x1118, 1, false⟩, -- BOOT_FL_DATA6
  ⟨0x111C, .rw, 0x00000000, 0xFFFFFFFF, 0x111C, 1, false⟩, -- BOOT_FL_DATA7
  ⟨0x1120, .rw, 0x00000000, 0xFFFFFFFF, 0x1120, 1, false⟩, -- BOOT_FL_DATA8
  ⟨0x1124, .rw, 0x00000000, 0xFFFFFFFF, 0x1124, 1, false⟩, -- BOOT_FL_DATA9
  ⟨0x1128, .rw, 0x00000000, 0xFFFFFFFF, 0x1128, 1, false⟩, -- BOOT_FL_DATA10
  ⟨0x112C, .rw, 0x00000000, 0xFFFFFFFF, 0x112C, 1, false⟩, -- BOOT_FL_DATA11
  ⟨0x1130, .rw, 0x00000000, 0xFFFFFFFF, 0x1130, 1, false⟩, -- BOOT_FL_DATA12
  ⟨0x1134, .rw, 0x00000000, 0xFFFFFFFF, 0x1134, 1, false⟩, -- BOOT_FL_DATA13
  ⟨0x1138, .rw, 0x00000000, 0xFFFFFFFF, 0x1138, 1, false⟩, -- BOOT_FL_DATA14
  ⟨0x113C, .rw, 0x00000000, 0xFFFFFFFF, 0x113C, 1, false⟩, -- BOOT_FL_DATA15
  ⟨0x1140, .rw, 0x00000000, 0xFFFFFFFF, 0x1140, 1, false⟩, -- BOOT_FL_DATA16
  ⟨0x1144, .rw, 0x00000000, 0xFFFFFFFF, 0x1144, 1, false⟩, -- BOOT_FL_DATA17
  ⟨0x1148, .rw, 0x00000000, 0xFFFFFFFF, 0x1148, 1, false⟩, -- BOOT_FL_DATA18
  ⟨0x114C, .rw, 0x00000000, 0xFFFFFFFF, 0x114C, 1, false⟩, -- BOOT_FL_DATA19
  ⟨0x1150, .rw, 0x00000000, 0xFFFFFFFF, 0x1150, 1, false⟩, -- BOOT_FL_DATA20
  ⟨0x1154, .rw, 0x00000000, 0xFFFFFFFF, 0x1154, 1, false⟩, -- BOOT_FL_DATA21
  ⟨0x1158, .rw, 0x00000000, 0xFFFFFFFF, 0x1158, 1, false⟩, -- BOOT_FL_DATA22
  ⟨0x115C, .rw, 0x00000000, 0xFFFFFFFF, 0x115C, 1, false⟩, -- BOOT_FL_DATA23
  ⟨0x1160, .rw, 0x00000000, 0xFFFFFFFF, 0x1160, 1, false⟩, -- BOOT_FL_DATA24
  ⟨0x1164, .rw, 0x00000000, 0xFFFFFFFF, 0x1164, 1, false⟩, -- BOOT_FL_DATA25
  ⟨0x1168, .rw, 0x00000000, 0xFFFFFFFF, 0x1168, 1, false⟩, -- BOOT_FL_DATA26
  ⟨0x116C, .rw, 0x00000000, 0xFFFFFFFF, 0x116C, 1, false⟩, -- BOOT_FL_DATA27
  ⟨0x1170, .rw, 0x00000000, 0xFFFFFFFF, 0x1170, 1, false⟩, -- BOOT_FL_DATA28
  ⟨0x1174, .rw, 0x00000000, 0xFFFFFFFF, 0x1174, 1, false⟩, -- BOOT_FL_DATA29
  ⟨0x1178, .rw, 0x00000000, 0xFFFFFFFF, 0x1178, 1, false⟩, -- BOOT_FL_DATA30
  ⟨0x117C, .rw, 0x00000000, 0xFFFFFFFF, 0x117C, 1, false⟩, -- BOOT_FL_DATA31
  ⟨0x1180, .rw, 0x00000000, 0xFFFFFFFF, 0x1180, 1, false⟩, -- BOOT_FL_DATA32
  ⟨0x1184, .rw, 0x00000000, 0xFFFFFFFF, 0x1184, 1, false⟩, -- BOOT_FL_DATA33
  ⟨0x1188, .rw, 0x00000000, 0xFFFFFFFF, 0x1188, 1, false⟩, -- BOOT_FL_DATA34
  ⟨0x118C, .rw, 0x00000000, 0xFFFFFFFF, 0x118C, 1, false⟩, -- BOOT_FL_DATA35
  ⟨0x1190, .rw, 0x00000000, 0xFFFFFFFF, 0x1190, 1, false⟩, -- BOOT_FL_DATA36
  ⟨0x1194, .rw, 0x00000000, 0xFFFFFFFF, 0x1194, 1, false⟩] -- BOOT_FL_DATA37

/-- More of page BOOT (R473). -/
def mapBootPart2 : List RegDef := [
  ⟨0x1198, .rw, 0x00000000, 0xFFFFFFFF, 0x1198, 1, false⟩, -- BOOT_FL_DATA38
  ⟨0x119C, .rw, 0x00000000, 0xFFFFFFFF, 0x119C, 1, false⟩, -- BOOT_FL_DATA39
  ⟨0x11A0, .rw, 0x00000000, 0xFFFFFFFF, 0x11A0, 1, false⟩, -- BOOT_FL_DATA40
  ⟨0x11A4, .rw, 0x00000000, 0xFFFFFFFF, 0x11A4, 1, false⟩, -- BOOT_FL_DATA41
  ⟨0x11A8, .rw, 0x00000000, 0xFFFFFFFF, 0x11A8, 1, false⟩, -- BOOT_FL_DATA42
  ⟨0x11AC, .rw, 0x00000000, 0xFFFFFFFF, 0x11AC, 1, false⟩, -- BOOT_FL_DATA43
  ⟨0x11B0, .rw, 0x00000000, 0xFFFFFFFF, 0x11B0, 1, false⟩, -- BOOT_FL_DATA44
  ⟨0x11B4, .rw, 0x00000000, 0xFFFFFFFF, 0x11B4, 1, false⟩, -- BOOT_FL_DATA45
  ⟨0x11B8, .rw, 0x00000000, 0xFFFFFFFF, 0x11B8, 1, false⟩, -- BOOT_FL_DATA46
  ⟨0x11BC, .rw, 0x00000000, 0xFFFFFFFF, 0x11BC, 1, false⟩, -- BOOT_FL_DATA47
  ⟨0x11C0, .rw, 0x00000000, 0xFFFFFFFF, 0x11C0, 1, false⟩, -- BOOT_FL_DATA48
  ⟨0x11C4, .rw, 0x00000000, 0xFFFFFFFF, 0x11C4, 1, false⟩, -- BOOT_FL_DATA49
  ⟨0x11C8, .rw, 0x00000000, 0xFFFFFFFF, 0x11C8, 1, false⟩, -- BOOT_FL_DATA50
  ⟨0x11CC, .rw, 0x00000000, 0xFFFFFFFF, 0x11CC, 1, false⟩, -- BOOT_FL_DATA51
  ⟨0x11D0, .rw, 0x00000000, 0xFFFFFFFF, 0x11D0, 1, false⟩, -- BOOT_FL_DATA52
  ⟨0x11D4, .rw, 0x00000000, 0xFFFFFFFF, 0x11D4, 1, false⟩, -- BOOT_FL_DATA53
  ⟨0x11D8, .rw, 0x00000000, 0xFFFFFFFF, 0x11D8, 1, false⟩, -- BOOT_FL_DATA54
  ⟨0x11DC, .rw, 0x00000000, 0xFFFFFFFF, 0x11DC, 1, false⟩, -- BOOT_FL_DATA55
  ⟨0x11E0, .rw, 0x00000000, 0xFFFFFFFF, 0x11E0, 1, false⟩, -- BOOT_FL_DATA56
  ⟨0x11E4, .rw, 0x00000000, 0xFFFFFFFF, 0x11E4, 1, false⟩, -- BOOT_FL_DATA57
  ⟨0x11E8, .rw, 0x00000000, 0xFFFFFFFF, 0x11E8, 1, false⟩, -- BOOT_FL_DATA58
  ⟨0x11EC, .rw, 0x00000000, 0xFFFFFFFF, 0x11EC, 1, false⟩, -- BOOT_FL_DATA59
  ⟨0x11F0, .rw, 0x00000000, 0xFFFFFFFF, 0x11F0, 1, false⟩, -- BOOT_FL_DATA60
  ⟨0x11F4, .rw, 0x00000000, 0xFFFFFFFF, 0x11F4, 1, false⟩, -- BOOT_FL_DATA61
  ⟨0x11F8, .rw, 0x00000000, 0xFFFFFFFF, 0x11F8, 1, false⟩, -- BOOT_FL_DATA62
  ⟨0x11FC, .rw, 0x00000000, 0xFFFFFFFF, 0x11FC, 1, false⟩] -- BOOT_FL_DATA63

/-- Page BOOT, whole (R473). -/
def mapBoot : List RegDef := mapBootPart0 ++ mapBootPart1 ++ mapBootPart2

/-- Page COMMON (R477). -/
def mapCommon : List RegDef := [
  ⟨0x0000, .ro, 0x00000000, 0xFFFFFFFF, 0x0000, 1, false⟩, -- BLK_ID
  ⟨0x0004, .ro, 0x00000141, 0x0000FFFF, 0x0004, 1, false⟩, -- BLK_VER
  ⟨0x0008, .ro, 0x00000000, 0x0000FFFF, 0x0008, 1, false⟩, -- BLK_CAP0
  ⟨0x000C, .ro, 0x00000000, 0x0000FFFF, 0x000C, 1, false⟩, -- BLK_CAP1
  ⟨0x0010, .mixed, 0x00000001, 0xFFFFFFFF, 0x0010, 1, false⟩, -- BLK_CTL
  ⟨0x0014, .ro, 0x00000000, 0xFFFFFFFF, 0x0014, 1, true⟩, -- BLK_STS
  ⟨0x0018, .w1c, 0x00000000, 0xFFFFFFFF, 0x0018, 1, true⟩, -- BLK_INT_STS
  ⟨0x001C, .rw, 0x00000000, 0xFFFFFFFF, 0x001C, 1, true⟩, -- BLK_INT_EN
  ⟨0x0020, .w1s, 0x00000000, 0xFFFFFFFF, 0x0020, 1, true⟩, -- BLK_INT_SET
  ⟨0x0030, .rw, 0x00000000, 0xFFFFFFFF, 0x0030, 1, true⟩, -- BLK_SEL
  ⟨0x0034, .ro, 0x00000000, 0xFFFFFFFF, 0x0034, 1, false⟩, -- BLK_SEL_MAX
  ⟨0x0040, .ro, 0x00000000, 0xFFFFFFFF, 0x0040, 1, true⟩, -- BLK_ERRLOG0_W0
  ⟨0x0044, .ro, 0x00000000, 0xFFFFFFFF, 0x0044, 1, true⟩, -- BLK_ERRLOG0_W1
  ⟨0x0048, .ro, 0x00000000, 0xFFFFFFFF, 0x0048, 1, true⟩, -- BLK_ERRLOG1_W0
  ⟨0x004C, .ro, 0x00000000, 0xFFFFFFFF, 0x004C, 1, true⟩, -- BLK_ERRLOG1_W1
  ⟨0x0050, .ro, 0x00000000, 0xFFFFFFFF, 0x0050, 1, true⟩, -- BLK_ERRLOG2_W0
  ⟨0x0054, .ro, 0x00000000, 0xFFFFFFFF, 0x0054, 1, true⟩, -- BLK_ERRLOG2_W1
  ⟨0x0058, .ro, 0x00000000, 0xFFFFFFFF, 0x0058, 1, true⟩, -- BLK_ERRLOG3_W0
  ⟨0x005C, .ro, 0x00000000, 0xFFFFFFFF, 0x005C, 1, true⟩, -- BLK_ERRLOG3_W1
  ⟨0x0060, .ro, 0x00000000, 0xFFFFFFFF, 0x0060, 1, true⟩, -- BLK_ERRLOG4_W0
  ⟨0x0064, .ro, 0x00000000, 0xFFFFFFFF, 0x0064, 1, true⟩, -- BLK_ERRLOG4_W1
  ⟨0x0068, .ro, 0x00000000, 0xFFFFFFFF, 0x0068, 1, true⟩, -- BLK_ERRLOG5_W0
  ⟨0x006C, .ro, 0x00000000, 0xFFFFFFFF, 0x006C, 1, true⟩, -- BLK_ERRLOG5_W1
  ⟨0x0070, .ro, 0x00000000, 0xFFFFFFFF, 0x0070, 1, true⟩, -- BLK_ERRLOG6_W0
  ⟨0x0074, .ro, 0x00000000, 0xFFFFFFFF, 0x0074, 1, true⟩, -- BLK_ERRLOG6_W1
  ⟨0x0078, .ro, 0x00000000, 0xFFFFFFFF, 0x0078, 1, true⟩, -- BLK_ERRLOG7_W0
  ⟨0x007C, .ro, 0x00000000, 0xFFFFFFFF, 0x007C, 1, true⟩, -- BLK_ERRLOG7_W1
  ⟨0x0080, .ro, 0x00000000, 0xFFFFFF07, 0x0080, 1, true⟩] -- BLK_ERRLOG_HEAD

/-- Page DEV (R494). -/
def mapDev : List RegDef := [
  ⟨0x1000, .ro, 0x00000000, 0x000000FF, 0x1000, 1, true⟩, -- DEV_PORT
  ⟨0x1004, .ro, 0x00000000, 0xFFFFFFFF, 0x1004, 2, false⟩, -- DEV_SERIAL_LO
  ⟨0x1008, .ro, 0x00000000, 0xFFFFFFFF, 0x1004, 2, false⟩, -- DEV_SERIAL_HI
  ⟨0x100C, .rc, 0x00000000, 0xFFFFFFFF, 0x100C, 1, false⟩] -- DEV_WIDTH_ERR

/-- Page CLK (R494). -/
def mapClk : List RegDef := [
  ⟨0x0100, .ro, 0x00000000, 0x0007FFFF, 0x0100, 1, false⟩, -- CLK_X_ID
  ⟨0x0104, .ro, 0x00000008, 0x0000000F, 0x0104, 1, false⟩, -- CLK_X_STS
  ⟨0x0108, .rc, 0x00000000, 0xFFFFFFFF, 0x0108, 1, false⟩, -- CLK_X_DROPS
  ⟨0x010C, .rc, 0x00000000, 0xFFFFFFFF, 0x010C, 1, false⟩, -- CLK_X_MERGE
  ⟨0x0110, .w1c, 0x00000000, 0x00000003, 0x0110, 1, false⟩, -- CLK_X_FLAGS
  ⟨0x0114, .ro, 0x00000202, 0x0000FFFF, 0x0114, 1, false⟩, -- CLK_X_LAT
  ⟨0x1000, .ro, 0x00000000, 0x000103FF, 0x1000, 1, false⟩, -- CLK_PLL_STS
  ⟨0x1004, .ro, 0x00000091, 0xFFFFFFFF, 0x1004, 1, false⟩, -- CLK_CROSSINGS
  ⟨0x1008, .ro, 0x00000040, 0xFFFFFFFF, 0x1008, 1, false⟩] -- CLK_SHADOW_AGE

/-- Page TEL (R516). -/
def mapTel : List RegDef := [
  ⟨0x1000, .ro, 0x00000000, 0x00000007, 0x1000, 1, false⟩, -- TEL_STS
  ⟨0x1004, .ro, 0x00000000, 0x003F03FF, 0x1004, 1, false⟩, -- TEL_TMAX
  ⟨0x1008, .rw, 0x00000000, 0xFFFFFFFF, 0x1008, 1, true⟩, -- TEL_SSEL
  ⟨0x100C, .ro, 0x00000000, 0x03FF03FF, 0x100C, 1, false⟩, -- TEL_TEMP
  ⟨0x1010, .ro, 0x017C01A4, 0x03FF03FF, 0x1010, 1, false⟩, -- TEL_LIMITS
  ⟨0x1014, .ro, 0x019001CC, 0x03FF03FF, 0x1014, 1, false⟩, -- TEL_TRIP
  ⟨0x1018, .ro, 0x000002EE, 0x00000FFF, 0x1018, 1, false⟩, -- TEL_VCORE_SET
  ⟨0x101C, .ro, 0x00000000, 0x00000FFF, 0x101C, 1, false⟩, -- TEL_VCORE_MEAS
  ⟨0x1020, .ro, 0x00000000, 0x00003FFF, 0x1020, 1, false⟩, -- TEL_ICORE
  ⟨0x1024, .ro, 0x00000000, 0x00000FFF, 0x1024, 1, false⟩, -- TEL_VOP
  ⟨0x1028, .ro, 0x00000000, 0xFFFFFFFF, 0x1028, 1, false⟩, -- TEL_SEQ
  ⟨0x102C, .w1c, 0x00000000, 0x0000001F, 0x102C, 1, false⟩, -- TEL_FLAGS
  ⟨0x1030, .rc, 0x00000000, 0xFFFFFFFF, 0x1030, 1, false⟩] -- TEL_AVS_RETRY

/-- Page TEST (R528). -/
def mapTest : List RegDef := [
  ⟨0x1000, .rw, 0x00000000, 0x00000FF3, 0x1000, 1, true⟩, -- TEST_LSEL
  ⟨0x1004, .rw, 0x00000000, 0x000000FF, 0x1004, 1, false⟩, -- TEST_LCTL
  ⟨0x1008, .ro, 0x00000000, 0xFFFF0003, 0x1008, 1, false⟩, -- TEST_LSTS
  ⟨0x100C, .rc, 0x00000000, 0xFFFFFFFF, 0x100C, 1, false⟩, -- TEST_LERR
  ⟨0x1010, .ro, 0x00000000, 0xFFFFFFFF, 0x1010, 2, false⟩, -- TEST_LBITS_LO
  ⟨0x1014, .ro, 0x00000000, 0xFFFFFFFF, 0x1010, 2, false⟩, -- TEST_LBITS_HI
  ⟨0x1018, .rw, 0x00000000, 0x000177FF, 0x1018, 1, false⟩, -- TEST_OP
  ⟨0x101C, .ro, 0x00000000, 0x0001FFFF, 0x101C, 1, false⟩, -- TEST_OP_STS
  ⟨0x1020, .ro, 0x00000000, 0x07FD7F7F, 0x1020, 1, false⟩, -- TEST_MB_RESULT
  ⟨0x1024, .ro, 0x00000000, 0xFFFFFFFF, 0x1024, 1, false⟩, -- TEST_BOOT_MB0
  ⟨0x1028, .ro, 0x00000000, 0xFFFFFFFF, 0x1028, 1, false⟩, -- TEST_BOOT_MB1
  ⟨0x102C, .ro, 0x00000000, 0xFFFFFFFF, 0x102C, 1, false⟩, -- TEST_HBM
  ⟨0x1030, .w1c, 0x00000000, 0x00000003, 0x1030, 1, false⟩] -- TEST_FLAGS

/-! Page indexes (R475, Table 2). -/
/-- Page DEV. -/
def pgDev : Nat := 0x000
/-- Page QUE. -/
def pgQue : Nat := 0x002
/-- Page EVT. -/
def pgEvt : Nat := 0x003
/-- Page CTX. -/
def pgCtx : Nat := 0x004
/-- Page HOOP. -/
def pgHoop : Nat := 0x005
/-- Page SCHED. -/
def pgSched : Nat := 0x006
/-- Page ACCT. -/
def pgAcct : Nat := 0x007
/-- Page TILE. -/
def pgTile : Nat := 0x010
/-- Page ATTIC. -/
def pgAttic : Nat := 0x011
/-- Page NUM. -/
def pgNum : Nat := 0x018
/-- Page MMU. -/
def pgMmu : Nat := 0x028
/-- Page DMA. -/
def pgDma : Nat := 0x029
/-- Page MENC. -/
def pgMenc : Nat := 0x02A
/-- Page DARN. -/
def pgDarn : Nat := 0x030
/-- Page LST. -/
def pgLst : Nat := 0x031
/-- Page MCACHE. -/
def pgMcache : Nat := 0x032
/-- Page ALNK. -/
def pgAlnk : Nat := 0x040
/-- Page VC. -/
def pgVc : Nat := 0x041
/-- Page PICOT. -/
def pgPicot : Nat := 0x042
/-- Page SHUT. -/
def pgShut : Nat := 0x043
/-- Page STOR. -/
def pgStor : Nat := 0x048
/-- Page CKPT. -/
def pgCkpt : Nat := 0x049
/-- Page SEC. -/
def pgSec : Nat := 0x050
/-- Page CIPH. -/
def pgCiph : Nat := 0x051
/-- Page KEYS. -/
def pgKeys : Nat := 0x052
/-- Page LC. -/
def pgLc : Nat := 0x053
/-- Page DBG. -/
def pgDbg : Nat := 0x054
/-- Page RAS. -/
def pgRas : Nat := 0x058
/-- Page DIAG. -/
def pgDiag : Nat := 0x059
/-- Page BOOT. -/
def pgBoot : Nat := 0x05A
/-- Page TEL. -/
def pgTel : Nat := 0x05B
/-- Page CLK. -/
def pgClk : Nat := 0x05C
/-- Page TEST. -/
def pgTest : Nat := 0x05D
/-- Page CAP. -/
def pgCap : Nat := 0x001
/-- Page CEL of stack 0; stack k follows at +k. -/
def pgCel : Nat := 0x020
/-- Page CIPHU of hoop 0; hoop h follows at +h. -/
def pgCiphu : Nat := 0x060
/-- Page HOOPV 0 of hoop 0; four pages per hoop. -/
def pgHoopv : Nat := 0x100

/-- The registers of a page from 0x0100 up (the page map, R475). -/
def pageMap (p : Nat) : List RegDef :=
  match p with
  | 0x000 => mapDev
  | 0x002 => mapQue
  | 0x003 => mapEvt
  | 0x004 => mapCtx
  | 0x005 => mapHoop
  | 0x006 => mapSched
  | 0x007 => mapAcct
  | 0x010 => mapTile
  | 0x011 => mapAttic
  | 0x018 => mapNum
  | 0x028 => mapMmu
  | 0x029 => mapDma
  | 0x02A => mapMenc
  | 0x030 => mapDarn
  | 0x031 => mapLst
  | 0x032 => mapMcache
  | 0x040 => mapAlnk
  | 0x041 => mapVc
  | 0x042 => mapPicot
  | 0x043 => mapShut
  | 0x048 => mapStor
  | 0x049 => mapCkpt
  | 0x050 => mapSec
  | 0x051 => mapCiph
  | 0x052 => mapKeys
  | 0x053 => mapLc
  | 0x054 => mapDbg
  | 0x058 => mapRas
  | 0x059 => mapDiag
  | 0x05A => mapBoot
  | 0x05B => mapTel
  | 0x05C => mapClk
  | 0x05D => mapTest
  | _ =>
    if 0x020 ≤ p && p ≤ 0x027 then mapCel
    else if 0x060 ≤ p && p ≤ 0x06F then mapCiphu
    else []

/-- `BLK_SEL_MAX` of a page (R475, Table 2). -/
def pageSelMax (p : Nat) : Nat :=
  match p with
  | 0x002 => 65535
  | 0x003 => 65535
  | 0x004 => 4095
  | 0x005 => 15
  | 0x007 => 4095
  | 0x010 => 95
  | 0x011 => 95
  | 0x018 => 4095
  | 0x028 => 4095
  | 0x029 => 15
  | 0x02A => 7
  | 0x030 => 7
  | 0x031 => 16383
  | 0x032 => 1023
  | 0x040 => 15
  | 0x041 => 15
  | 0x042 => 15
  | 0x043 => 255
  | 0x048 => 63
  | 0x049 => 1023
  | 0x052 => 4095
  | 0x058 => 15
  | 0x059 => 4095
  | 0x05C => 144
  | _ => 0

/-- Whether a page is in use (R475, Table 2; the page map gives HOOPV 64 pages). -/
def pageInUse (p : Nat) : Bool :=
  !(pageMap p).isEmpty || p == 0x001 || (0x100 ≤ p && p ≤ 0x13F)

/-- The register at an offset of a page, the common layout (R477) included; none: reserved (R6). -/
def regDef (p off : Nat) : Option RegDef :=
  if !pageInUse p then none
  else if off < 0x100 then mapCommon.find? (fun r => r.off == off)
  else (pageMap p).find? (fun r => r.off == off)

end Sys2Proof.Machine
end

