-- ==== Sys2Proof/Config.lean ====
section
/-! DEFINITION. What an implementation fixes, and the free values: constants with no body, so that no proof can see
what they are. -/
namespace Sys2Proof.Config

/-- FREE VALUE: the n-th random draw or value the spec leaves open, applied to `Dev.freeCtr` (log entry 2). -/
opaque freeWord : Nat → BitVec 64

/-- FREE VALUE: the AES-256 block function, key and block as numbers with the first byte most significant (log entry 10). -/
opaque aes256 : Nat → Nat → BitVec 128

/-- FREE VALUE: SHA-384 of a byte string (log entry 10). -/
opaque sha384 : List Byte → BitVec 384

/-- FREE VALUE: ECDSA P-384 verification of a signature: public key, message, signature (log entry 10). -/
opaque ecdsaVerify : List Byte → List Byte → List Byte → Bool

/-- FREE VALUE: ML-DSA-87 verification of a signature: public key, message, signature (log entry 10). -/
opaque mldsaVerify : List Byte → List Byte → List Byte → Bool

/-- FREE VALUE: the ECDSA P-384 public key of a private seed of 48 bytes (log entry 10). -/
opaque ecdsaPublic : List Byte → List Byte

/-- FREE VALUE: an ECDSA P-384 signature by a private seed over a message (log entry 10). -/
opaque ecdsaSign : List Byte → List Byte → List Byte

/-- FREE VALUE: the ML-DSA-87 public key of a seed (log entry 10). -/
opaque mldsaPublic : List Byte → List Byte

/-- FREE VALUE: an ML-DSA-87 signature by a seed over a message (log entry 10). -/
opaque mldsaSign : List Byte → List Byte → List Byte

/-- FREE VALUE: the ML-KEM-1024 encapsulation key of the seeds d ‖ z (log entry 10). -/
opaque mlkemPublic : List Byte → List Byte

/-- FREE VALUE: the secret that ML-KEM-1024 decapsulation gives of a ciphertext (log entry 10). -/
opaque mlkemDecap : List Byte → List Byte → List Byte

/-- FREE VALUE: the secret and ciphertext that ML-KEM-1024 encapsulation gives of a key and a random draw (log entry 10). -/
opaque mlkemEncap : List Byte → List Byte → List Byte × List Byte

/-- FREE VALUE: the ECDH P-384 secret of a private seed and a peer's public key (log entry 10). -/
opaque ecdh : List Byte → List Byte → List Byte

/-- FREE VALUE: the Ezunvis debug public keys in the RTP ROM, ECDSA P-384 and ML-DSA-87 (R431, log entry 10). -/
opaque ezDebugEc : List Byte

/-- FREE VALUE: the ML-DSA-87 debug public key (R431, log entry 10). -/
opaque ezDebugPq : List Byte

/-- FREE VALUE: the Ezunvis legacy ECDSA P-384 public key (R434, log entry 10). -/
opaque ezLegacyEc : List Byte

/-- FREE VALUE: the Ezunvis firmware public keys in the RTP ROM, ECDSA P-384 (R465, log entry 10). -/
opaque ezFwEc : List Byte

/-- FREE VALUE: the ML-DSA-87 firmware public key (R465, log entry 10). -/
opaque ezFwPq : List Byte

/-- FREE VALUE: the darner kernel ROM (R185, R466, log entry 10). -/
opaque darnRom : List Byte

/-- FREE VALUE: a word of the capability page by `CAP_GEN`, port and offset: the spec gives the types of the entries and not their layout (R276, R277,
log entry 62). -/
opaque capWord (gen port off : Nat) : BitVec 32

end Sys2Proof.Config
end

