-- ==== Sys2Proof/Machine/State.lean ====
section
/-! DEFINITION. The state of the HT9624 as plain data: every register, table, queue, counter, mode and pin the spec
gives the block, and the queue of waiting commands. `Dev` is the whole device apart from its one-time-programmable
fuses, which no reset of any kind clears. -/
namespace Sys2Proof.Machine

/-! ### Saturation and layer-statistics entries (chapters 3 and 8) -/

/-- Assignment of a saturation or layer-statistics entry to a tensor of a context (R59, R189). -/
structure Entry where
  assigned : Bool := false
  ctx : Nat := 0
  hoop : Nat := 0
  tensor : Nat := 0
deriving DecidableEq, Repr

/-- One instruction's or strip's contribution to a saturation entry (R60). `amax` is an FP32 code. -/
structure SatPart where
  entry : Nat := 0
  count : Nat := 0
  elems : Nat := 0
  amax : Nat := 0
  esc : Nat := 0
  exam : Nat := 0
deriving DecidableEq, Repr

/-- A contribution to a layer-statistics entry (R187): truncated squares, greatest magnitude, elements, saturation events. -/
structure LstPart where
  entry : Nat := 0
  acc : Nat := 0
  amax : Nat := 0
  nan : Bool := false
  inf : Bool := false
  count : Nat := 0
  sat : Nat := 0
deriving DecidableEq, Repr

/-! ### Prickings (chapter 6) -/

/-- One entry point with its tiles (logical tile, slot, entry index), its bounds of x8 to x15 and its estimate (R136, R142, R150). -/
structure PEntry where
  id : Nat := 0
  tiles : List (Nat × Nat × Nat) := []
  bounds : List Int := []
  bounded : Bool := true
  tCmd : Nat := 0
  matrix : Nat := 0
  vector : Nat := 0
  move : Nat := 0
  cellarRd : Nat := 0
  cellarWr : Nat := 0
  handoff : Nat := 0
  tStandin : Nat := 0
  /-- Cellar ranges that the entry touches (R292). -/
  ranges : Nat := 0
deriving DecidableEq, Repr

/-- A loaded pricking: measurement, placement (logical tile, slot), entry points, cellar ranges (base, length, access), and
the saturation and layer-statistics entries granted, in local order (R140). -/
structure Pricking where
  measure : List Byte := []
  tiles : List (Nat × Nat) := []
  entries : List PEntry := []
  ranges : List (Nat × Nat × Nat) := []
  sats : List Nat := []
  lsts : List Nat := []
deriving DecidableEq, Repr

/-! ### Observable outputs -/

/-- How an SPDM message is answered (R394): the ERROR codes that the spec names, and SPDM 1.3's `Busy` and `UnexpectedRequest`. -/
inductive SpdmAns where
  | ok | unsupportedRequest | versionMismatch | invalidRequest | sessionLimitExceeded | responseTooLarge | unspecified |
    busy | unexpectedRequest
deriving DecidableEq, Repr

/-- What leaves the block: the model's record of its outputs, newest first. -/
inductive Emit where
  /-- A register read answered: port, page, offset, value (R481). -/
  | readData (port page off : Nat) (v : Word)
  /-- A BAR4 read completed with data (R260). -/
  | bar4Data (fn addr : Nat) (bytes : List Byte)
  /-- A BAR2 or BAR4 request completed as an Unsupported Request (R258, R260). -/
  | pcieUr (fn : Nat)
  /-- An MSI-X message: function, vector (R270, R480). -/
  | msix (fn vec : Nat)
  /-- The interrupt of the RTP's own bank (R480). -/
  | rtpIrq
  /-- The in-band interrupt or SMBALERT# of the BMC bank (R480). -/
  | bmcIrq
  /-- A VC0 message sent on an Acaunel port: port, code of R324 Table 5, fields. -/
  | link (port kind : Nat) (fields : List Nat)
  /-- A data or idle flit of 256 bytes sent on an Acaunel port (R313). -/
  | flit (port : Nat) (bytes : List Byte)
  /-- A picot frame of 320 bytes launched on a port in a slot (R332). -/
  | picotFrame (port slot : Nat) (frame : List Byte)
  /-- An NVMe-oF capsule or RDMA message of a storage session: session, kind code, fields, payload. -/
  | storage (session kind : Nat) (fields : List Nat) (payload : List Byte)
  /-- A DOE response object: protocol code, bytes (R254). -/
  | doe (protocol : Nat) (bytes : List Byte)
  /-- An SPDM response, over MCTP or over DOE: how it answers, and its payload (R394). -/
  | spdm (mctp : Bool) (ans : SpdmAns) (payload : List Byte)
  /-- An MCTP message sent on the management bus: message type, bytes (R507). -/
  | mctp (mtype : Nat) (bytes : List Byte)
  /-- An AVSBus write of a VDD_CORE target in mV (R500). -/
  | avs (mv : Nat)
  /-- Bytes shifted out of a TAP data register (R526). -/
  | tap (code : Nat) (bits : Nat)
  /-- A trace record written (R430). -/
  | trace (fields : List Nat)
deriving DecidableEq, Repr

/-! ### Functions, contexts, queues, events (chapter 12) -/

/-- TDI states of a VF (R258). -/
inductive Tdi where
  | configUnlocked | configLocked | run | error
deriving DecidableEq, Repr

/-- One PCIe function: its TDI (VFs only), the state of its selective IDE stream, and its power state (R254, R258). -/
structure Func where
  tdi : Tdi := .configUnlocked
  ideInsecure : Bool := false
  d3hot : Bool := false
  /-- Binary logarithm of the size of BAR4: 28 (256 MiB) to 36 (64 GiB) (R259). -/
  bar4 : Nat := 28
deriving DecidableEq, Repr

/-- A host window of a context; valid while its length is not 0 (R265). -/
structure Window where
  base : Nat := 0
  pages : Nat := 0
  r : Bool := false
  w : Bool := false
  priv : Bool := false
deriving DecidableEq, Repr

/-- `CTX_STATE`[2:0] (R263). -/
inductive CtxState where
  | free | active | resetting | destroying | draining
deriving DecidableEq, Repr

/-- Clients of a translation (`MMU_F_INFO.CLIENT`, R232 Table 13; 5 and 6 as R249 adds). -/
inductive Client where
  | tile | dma | darner | shuttle | storage | host | internal
deriving DecidableEq, Repr

/-- A fault record of a context (R222). -/
structure FaultRec where
  va : Nat := 0
  write : Bool := false
  level : Nat := 0
  pending : Bool := false
  client : Client := .tile
  unit : Nat := 0
  tracker : Nat := 0
  /-- When it was made, fabric ns. -/
  time : Nat := 0
deriving DecidableEq, Repr

/-- One context (R261): its function, hoop, page tables, windows, fault records and accounting totals in base units. -/
structure Ctx where
  state : CtxState := .free
  func : Nat := 0
  hoop : Nat := 0
  root : Nat := 0
  tblKey : Nat := 0
  tblGen : Nat := 0
  windows : Table Window := []
  faults : Table FaultRec := []
  /-- Totals of the accounting counters by number 0 to 13 in Table 7's order, in cycles, bytes or pJ (R301, R302). -/
  acct : Table Nat := []
  pricking : Option Pricking := none
  /-- The context's last fault record (R452), its sampling flags and count. -/
  lastFault : Option (List Byte) := none
  sampleValid : Bool := false
  sampleTrunc : Bool := false
  sampleNoBuf : Bool := false
  sampleTiles : Nat := 0
  samples : Nat := 0
  /-- The unpinned count of R291. -/
  unpinned : Nat := 0
deriving DecidableEq, Repr

/-- One queue (R266, R267): configuration, ring state, and for a PUSH queue the descriptors delivered and not yet decided. -/
structure Queue where
  valid : Bool := false
  error : Bool := false
  destroying : Bool := false
  ctx : Nat := 0
  hoop : Nat := 0
  log2 : Nat := 0
  push : Bool := false
  ringHost : Bool := false
  cplHost : Bool := false
  vec : Nat := 0
  ring : Nat := 0
  cpl : Nat := 0
  tail : Nat := 0
  decided : Nat := 0
  done : Nat := 0
  cplHead : Nat := 0
  pushed : List (List Byte) := []
deriving DecidableEq, Repr

/-- One timeline event (R274, R275). -/
structure Event where
  valid : Bool := false
  shared : Bool := false
  ctx : Nat := 0
  hoop : Nat := 0
  value : Nat := 0
deriving DecidableEq, Repr

/-! ### Hoops, admission, accounting (chapter 13) -/

/-- The shares and parameters of a hoop (R284 Table 1, R304 Table 8). -/
structure HoopParams where
  funcs : Nat := 0
  tiles : Nat := 0
  sigma : Nat := 0
  cslots : Nat := 0
  dma : Nat := 0
  qbase : Nat := 0
  qcount : Nat := 0
  ctxs : Nat := 0
  keys : Nat := 0
  groups : Nat := 0
  sats : Nat := 0
  lsts : Nat := 0
  mcEntries : Nat := 0
  mcLines : Nat := 0
  tcWays : Nat := 0
  walkers : Nat := 0
  pages : Nat := 0
  power : Nat := 0
  gdepth : Nat := 0
  sweight : Nat := 1
deriving DecidableEq, Repr

/-- `HOOP_STS`[1:0] (R304). -/
inductive HoopState where
  | free | active | resetting
deriving DecidableEq, Repr

/-- One hoop: its mode bits, the parameters in force and staged (R286), the energy bucket (R297) in µJ, and the priced work per resource, accepted (A_r) and released (B_r) (R293, R294). -/
structure Hoop where
  state : HoopState := .free
  isSealed : Bool := false
  joint : Bool := false
  excl : Bool := false
  inForce : HoopParams := {}
  staged : HoopParams := {}
  energy : Int := 0
  refillNs : Nat := 0
  refillRem : Nat := 0
  accepted : Table Nat := []
  released : Table Nat := []
deriving DecidableEq, Repr

/-- Where an accepted command stands: waiting for release, released and running, deferred under R221, waiting for an invalidation
(R220), suspended on a fault record (R222), finished and ready for its completion (R270). -/
inductive CmdStage where
  | waiting | running | deferred | invalidating | faulted | finished
deriving DecidableEq, Repr

/-- A command held by an in-flight tracker (R268 to R272, R293 to R297). `desc` is the 64-byte descriptor, `block` and `block2` the blocks read at decision. -/
structure Cmd where
  live : Bool := false
  ctx : Nat := 0
  hoop : Nat := 0
  queue : Nat := 0
  seq : Nat := 0
  desc : List Byte := []
  block : List Byte := []
  block2 : List Byte := []
  stage : CmdStage := .waiting
  accOrder : Nat := 0
  released : Bool := false
  relTime : Nat := 0
  relOrder : Nat := 0
  deadline : Nat := 0
  prices : Table Nat := []
  estimate : Nat := 0
  measured : Nat := 0
  cause : Nat := 0
  status : Nat := 0
  started : Bool := false
  cursor : Nat := 0
  segs : Nat := 0
  failed : List Nat := []
  lookup : List Nat := []
  looked : Bool := false
  heldFence : Option Nat := none
  scratch : List Nat := []
  /-- T of its tile price (R292), CCLK cycles. -/
  tPrice : Nat := 0
  /-- Replay cycles of each of its tiles when it was released (R296 Table 4). -/
  replayBase : Table Nat := []
  /-- Contributions that a FOLD or SCAN collects until it completes (R175). -/
  satAcc : List SatPart := []
  lstAcc : List LstPart := []
deriving DecidableEq, Repr

/-! ### Cellar, MMU, DMA (chapters 10 and 11) -/

/-- A page ownership entry (R212 Table 3). -/
structure Pot where
  granted : Bool := false
  bound : Bool := false
  hoop : Nat := 0
  key : Nat := 0
  maps : Nat := 0
deriving DecidableEq, Repr

/-- The group block of 64 granules (R237 Table 3): minors not 0, major, zero map held as the granules NOT zero-mapped, poison map, epoch. -/
structure Group where
  major : Nat := 0
  minors : Table Nat := []
  written : Nat := 0
  poison : Nat := 0
  epoch : Bool := false
deriving DecidableEq, Repr

/-- One DMA channel (R224, R233): the tracker it carries. -/
structure DmaChannel where
  busy : Bool := false
  suspended : Bool := false
  tracker : Nat := 0
deriving DecidableEq, Repr

/-- `SLOT.state` of a key slot (R399). -/
inductive SlotState where
  | empty | active | draining | exhausted
deriving DecidableEq, Repr

/-- A key slot of the cupboard (R397 to R404): usage code, owning hoop, generation, phase, uses in the phase, deck, epoch and sweep of R251, and the secrets it holds. -/
structure KeySlot where
  state : SlotState := .empty
  usage : Nat := 0
  hoop : Nat := 0
  gen : Nat := 0
  phase : Nat := 0
  uses : Nat := 0
  deckReady : Bool := false
  epoch : Bool := false
  sweeping : Bool := false
  sweepCur : Nat := 0
  prevKept : Bool := false
  base : Nat := 0
  owner : Nat := 0
  limit : Nat := 0
  imported : Bool := false
  counter : Nat := 0
deriving DecidableEq, Repr

/-- The per-port state of wide accesses on one page (R484, R485): the lowest offset and values latched by the last low-word read. -/
structure Latch where
  low : Nat := 0
  rest : List Word := []
deriving DecidableEq, Repr

/-! ### Root of trust, keys, joint hoops (chapter 17) -/

/-- A mailbox request that waits for the RTP (R385): the port, the context and the address of its block. -/
structure RtpReq where
  port : Nat := 0
  ctx : Nat := 0
  addr : Nat := 0
deriving DecidableEq, Repr

/-- An authorisation nonce (R410, R411): the hoop it is for, its bytes, when it was drawn, whether it is used. -/
structure Nonce where
  hoop : Nat := 0
  bytes : List Byte := []
  time : Nat := 0
  used : Bool := false
deriving DecidableEq, Repr

/-- A staged two-party record (R411 Table 15): code, nonce, SHA-384 of the parameters, and the signer numbers whose two
signatures verified. -/
structure AuthRec where
  code : Nat := 0
  nonce : List Byte := []
  params : List Byte := []
  signers : List Nat := []
  newKeys : List Byte := []
deriving DecidableEq, Repr

/-- A release-policy entry (R415 Table 16). -/
structure PolicyEntry where
  kind : Nat := 0
  downer : Nat := 0
  skey : Nat := 0
  dkey : Nat := 0
deriving DecidableEq, Repr

/-- The security policy of a hoop (R410 to R415): owners (index, ECDSA key, ML-DSA key), release policy, approvals
(owner index, measurement), consent flags, the staged record. -/
structure HoopSec where
  owners : List (Nat × List Byte × List Byte) := []
  policy : List PolicyEntry := []
  approvals : List (Nat × List Byte) := []
  consent : Nat := 0
  record : Option AuthRec := none
deriving DecidableEq, Repr

/-- Stages of an SPDM connection or session (R394, R395). -/
inductive SpdmStage where
  | none | exchanged | finished | kem
deriving DecidableEq, Repr

/-- One secured SPDM session (R394, R395): its stage, whether it runs over DOE or MCTP, its data secret, the requester's leaf
key, and the hoop and owner index it is bound to. -/
structure SpdmSession where
  stage : SpdmStage := .none
  mctp : Bool := false
  secret : List Byte := []
  leaf : List Byte := []
  bound : Option (Nat × Nat) := Option.none
  port : Nat := 0
deriving DecidableEq, Repr

/-- A slot that an import reserves until KEY_DELIVER (R398): when KEY_CREATE ran, its request, and what it asked for. -/
structure AwaitKey where
  slot : Nat := 0
  resp : Nat := 0
  time : Nat := 0
  req : RtpReq := {}
  hoop : Nat := 0
  usage : Nat := 0
  owner : Nat := 0
  limit : Nat := 0
deriving DecidableEq, Repr

/-- A link pairing in progress (R405): the port, the local slot and both pairing ids, the peer, when it was asked for, the request that asked,
the ephemeral seeds, and the peer's offer when the peer encapsulates. -/
structure PairWait where
  linkPort : Nat := 0
  slot : Nat := 0
  pairing : Nat := 0
  peerPairing : Nat := 0
  peerSerial : Nat := 0
  time : Nat := 0
  req : RtpReq := {}
  ecSeed : List Byte := []
  kemSeed : List Byte := []
  offer : Option KeyxMsg := none
deriving DecidableEq, Repr

/-- The security domain (R384 to R418): the RTP's queues and cores, the DRBG's health-test times, operator keys and
measurements taken at boot, nonces, per-hoop policy, SPDM sessions, cipher queue heads. -/
structure Sec where
  reqs : List RtpReq := []
  rrVf : Nat := 0
  coreA : Bool := false
  /-- Core A restarts until this fabric time (R387). -/
  restartEnd : Nat := 0
  coreB : Bool := false
  restarts : Nat := 0
  lastRestart : Option Nat := none
  fails : List Nat := []
  seeded : Bool := false
  operEc : List Byte := []
  operPq : List Byte := []
  mRom : List Byte := []
  mFw : List Byte := []
  mDarn : List Byte := []
  mOper : List Byte := []
  nonces : List Nonce := []
  hoops : Table HoopSec := []
  sessions : Table SpdmSession := []
  negotiated : List Nat := []
  awaiting : List AwaitKey := []
  pairs : List PairWait := []
  /-- Offers of peers that came before the local request: port and message (R405). -/
  offers : List (Nat × KeyxMsg) := []
  cipherDecided : Table Nat := []
deriving DecidableEq, Repr

/-- The battery domain (R388, R389, R470, R506): kept while VBAT holds. -/
structure Battery where
  vbat : Bool := true
  osc : Bool := false
  root : Option (List Byte) := none
  bootCount : Nat := 0
  bclk : Nat := 0
  tamperLog : Table (Nat × Nat) := []
  tamperHead : Nat := 0
  trips : Nat := 0
deriving DecidableEq, Repr

/-! ### Life cycle and debug (chapter 18) -/

/-- A debug certificate's grant in force, the hoops whose records it consumed, the legacy challenge, the scan connection and the next place of the trace buffer (R428 to R435). -/
structure Debug where
  rights : Nat := 0
  scope : Nat := 0
  legacy : Bool := false
  rmaCert : Bool := false
  recorded : Nat := 0
  chal : List Byte := []
  chalTime : Nat := 0
  chalValid : Bool := false
  /-- A transition closed the rights of a state that needs no certificate (R425); hoops over which they ended (R435). -/
  openClosed : Bool := false
  ended : Nat := 0
  scan : Bool := false
  traceHead : Nat := 0
deriving DecidableEq, Repr

/-- The life-cycle state latched at the last reset (R423), by its code of R419 Table 1. -/
structure LcLatch where
  inForce : Nat := 0
  senseErr : Bool := false
deriving DecidableEq, Repr

/-! ### Faults and the always-on domain (chapters 11, 19, 20) -/

/-- The halt record (R249 Table 10). -/
structure HaltRec where
  valid : Bool := false
  cause : Nat := 0
  wher : Nat := 0
  multi : Bool := false
  addr : Nat := 0
  key : Nat := 0
  client : Nat := 0
  boot : Nat := 0
  time : Nat := 0
deriving DecidableEq, Repr

/-- A fault record or RAS log entry (R452 Table 10). -/
structure LogEntry where
  cause : Nat := 0
  cls : Nat := 0
  status : Nat := 0
  unit : Nat := 0
  unum : Nat := 0
  pc : Nat := 0
  opc : Nat := 0
  hoop : Nat := 0xFF
  ctx : Nat := 0xFFFF
  tracker : Nat := 0xFFFF
  addr : Nat := 0
  time : Nat := 0
deriving DecidableEq, Repr

/-- The RAS log: a ring of 256 entries (R450), the next entry and the entries written. -/
structure RasLog where
  entries : Table LogEntry := []
  head : Nat := 0
  written : Nat := 0
deriving DecidableEq, Repr

/-- The boot attempt in progress or last ended (R461, R469): its step (0: none runs), ns it has taken so far, its trigger and profile, the 16-bit ledger entry
of each step, the steps that ran their alternative, the ports that failed and were skipped. -/
structure BootRec where
  step : Nat := 0
  elapsed : Nat := 0
  trigger : Nat := 0
  cold : Bool := true
  steps : Table Nat := []
  alt : Nat := 0
  portFail : Nat := 0
  skip : Nat := 0
  failStep : Nat := 0
deriving DecidableEq, Repr

/-- What the memory self-test of the last cold attempt retired, which a warm attempt applies again (R522): tiles whose crock fails, larder lines of each
slice, darners, tree-cache ways. -/
structure MbistRec where
  crocks : List Nat := []
  larder : List Nat := []
  darners : List Nat := []
  ways : Nat := 0
deriving DecidableEq, Repr

/-- The always-on domain (R458 to R473, R500 to R507): what it keeps across a start, the attempt in progress, pins and holds. -/
structure AlwaysOn where
  aonUp : Bool := true
  halted : Bool := false
  halt : HaltRec := {}
  ready : Bool := false
  safe : Bool := false
  pcieUp : Bool := false
  slotB : Bool := false
  romOnly : Bool := false
  logErr : Bool := false
  noOpcfg : Bool := false
  attempt : Nat := 0
  boot : BootRec := {}
  /-- Failed attempts of the series, and what the next attempt does in place of a failed step (R462, R463). -/
  series : Nat := 0
  altFw : Bool := false
  altHbm : Bool := false
  skipPorts : Nat := 0
  laneAlt : Nat := 0
  retryDue : Bool := false
  /-- The last four ledger records, the latest first (R469). -/
  ledger : List (List Byte) := []
  /-- HBM training results and the retired-page list (R460, R467). -/
  trained : Bool := false
  retired : List Nat := []
  mbist : MbistRec := {}
  /-- A start that waits for the reset pins, the power-good inputs or the temperature: its trigger and whether its profile is cold (R458, R514). -/
  due : Option (Nat × Bool) := some (0, true)
  warmPending : Bool := false
  seqErr : Bool := false
  tripHold : Bool := false
  svnRunning : Nat := 0
  sysRstLow : Bool := true
  perstLow : Bool := true
  /-- Rank of rising of the power-good inputs, 1 to 5; unlisted: low (R502). -/
  pg : Table Nat := []
  /-- Acaunel and Ethernet ports that the operator configuration enables (R466). -/
  portsOp : Nat := 0
  ethOp : Nat := 0
  /-- A flash operation that waits for a boot step's use of the flash (R472). -/
  flashWait : Option Nat := none
  /-- The management straps sampled: I3C mode, address (R507); packets that wait for the bus (R508). -/
  i3c : Bool := false
  mgmtAddr : Nat := 0x58
  mgmtQ : List (Nat × List Byte) := []
deriving DecidableEq, Repr

/-! ### Tiles (chapters 4 and 5) -/

/-- An active loop: remaining passes, first and last-plus-one instruction of the body (R104, R120). -/
structure LoopEnt where
  left : Nat := 0
  start : Nat := 0
  stop : Nat := 0
deriving DecidableEq, Repr

/-- A bound handoff view: record, receive queue, ring slot, shelf offset (R126). -/
structure ViewB where
  record : Nat := 0
  queue : Nat := 0
  ring : Nat := 0
  addr : Nat := 0
deriving DecidableEq, Repr

/-- An instruction issued and not yet retired (R112, R61): lane (0 matrix, 1 vector, 2 movement, 3 matrix and vector), word, count,
token, contributions, the handoff credit it returns (queue, ring slot), the entry it posts (tile, queue, ring slot, tag, length),
cellar bytes, and whether a block escalated. -/
structure Flight where
  lane : Nat := 0
  word : Nat := 0
  pc : Nat := 0
  count : Nat := 0
  tset : Option Nat := none
  sats : List SatPart := []
  lsts : List LstPart := []
  credit : Option (Nat × Nat) := none
  post : Option (Nat × Nat × Nat × Nat × Nat) := none
  rd : Nat := 0
  wr : Nat := 0
  escalated : Bool := false
deriving DecidableEq, Repr

/-- One slot of a tile: the resident context, its shelf units in increasing number, its state of R104 Table 1 and its instructions in flight. -/
structure Slot where
  valid : Bool := false
  ctx : Nat := 0
  hoop : Nat := 0
  units : List Nat := []
  instrs : Nat := 0
  records : Nat := 0
  pc : Nat := 0
  xs : Table Nat := []
  step : Nat := 0
  /-- Bit j: token j released. -/
  tokens : Nat := 0xFF
  loops : List LoopEnt := []
  views : List ViewB := []
  running : Option Nat := none
  flight : List Flight := []
  parked : Bool := false
  suspended : Option Nat := none
  halted : Bool := false
deriving DecidableEq, Repr

/-- A receive queue (R99, R100): the slot that holds it, its ring, the ring slots without credit, and the visible entries (ring slot, tag,
length), oldest first. -/
structure RecvQ where
  owner : Option Nat := none
  slots : Nat := 0
  size : Nat := 0
  off : Nat := 0
  taken : List Nat := []
  posted : List (Nat × Nat × Nat) := []
deriving DecidableEq, Repr

/-- A logical tile: service and stand-in, slots, owning slot plus 1 of each unit, units retired by an uncorrectable error, receive
queues, health figures (R101), the physical tile serving it, and its attic reserve (R454, R455). -/
structure Tile where
  out : Bool := false
  standin : Bool := false
  slots : Table Slot := []
  owner : Table Nat := []
  retired : List Nat := []
  queues : Table RecvQ := []
  rate : Nat := 65536
  cohort : Nat := 65536
  winNom : Nat := 0
  winElapsed : Nat := 0
  /-- Physical column plus 1 of the tile of the row that serves it; 0: its own column. -/
  phys : Nat := 0
  /-- Logical arrays moved to a spare array (physical array), and arrays using their spare column. -/
  arrMap : Table Nat := []
  colUsed : Table Bool := []
  spareArrays : Nat := 2
  /-- Replay cycles in all, apart from the counter that software may write (R296 Table 4). -/
  replays : Nat := 0
  armed : Bool := false
  holding : Bool := false
  /-- Lane of a tile in exclusive mode: slot plus 1 that it runs, and lanes whose turn of 500 µs is over (R289). -/
  exclCur : Table Nat := []
  exclDue : List Nat := []
deriving DecidableEq, Repr

/-! ### Darners, update fences, model cache (chapters 8 and 9) -/

/-- `DARN_F_STATE.STATE` (R191 Table 7). -/
inductive FenceState where
  | free | idle | updating | incomplete | lost
deriving DecidableEq, Repr

/-- An update fence (R183, R184): its context, `FENCE_STEP`, the STEP recorded, the first uncommitted strip, the trackers that hold it
for reading and the commands waiting on it in acceptance order (tracker, is a STEP), the STEP that runs, and the estimate. -/
structure Fence where
  state : FenceState := .free
  ctx : Nat := 0
  hoop : Nat := 0
  step : Nat := 0
  listAddr : Nat := 0
  listCount : Nat := 0
  updStep : Nat := 0
  cursor : Nat := 0
  readers : List Nat := []
  waiting : List (Nat × Bool) := []
  running : Option Nat := none
  est : Nat := 0
deriving DecidableEq, Repr

/-- One darner: out of service after an idle SRAM error (R180). -/
structure Darner where
  out : Bool := false
deriving DecidableEq, Repr

/-- A model-cache entry (R192, R208 Table 5): pages as (PPN, key, generation), the commands that hold it and the context that fills it. -/
structure McEntry where
  assigned : Bool := false
  ctx : Nat := 0
  hoop : Nat := 0
  model : Nat := 0
  vaddr : Nat := 0
  pages : List (Nat × Nat × Nat) := []
  resident : Bool := false
  filling : Bool := false
  pinned : Bool := false
  unpinPend : Bool := false
  dropping : Bool := false
  holders : List Nat := []
  stamp : Nat := 0
  filler : Nat := 0
deriving DecidableEq, Repr

/-! ### Acaunel links (chapter 14) -/

/-- `ALNK_STS`[2:0]. -/
inductive PortState where
  | disabled | training | vc0Only | active | down
deriving DecidableEq, Repr

/-- A pairing by its local id, its receive and its transmit entry together (R320): local key slot, the generation that each direction carries, the
peer's pairing id, the base secret, the phases, the next `RCTR`, and the last `RCTR` accepted in the receive phase. -/
structure Pairing where
  valid : Bool := false
  slot : Nat := 0
  txGen : Nat := 0
  rxGen : Nat := 0
  peer : Nat := 0
  base : List Byte := []
  txPhase : Nat := 0
  rctr : Nat := 0
  rxPhase : Nat := 0
  rxLast : Option Nat := none
deriving DecidableEq, Repr

/-- What a data or control flit carries; its acknowledgement and credits are filled in when it is sent. -/
inductive TxBody where
  | ctl (code : Nat) (fields : List Nat)
  | data (share vc : Nat) (rstart : Bool) (roff : Nat) (payload : List Byte)
deriving DecidableEq, Repr

/-- A flit in the retry buffer (R314). -/
structure TxUnit where
  seq : Nat
  body : TxBody
deriving DecidableEq, Repr

/-- Records that wait in a (share, VC) stream, oldest first, and the bytes of the first already sent. -/
structure TxStream where
  records : List (List Byte) := []
  off : Nat := 0
deriving DecidableEq, Repr

/-- The receive buffer of a stream: bytes not yet taken by an engine, and of each flit that still holds some of them, how many. -/
structure RxStream where
  bytes : List Byte := []
  fills : List Nat := []
deriving DecidableEq, Repr

/-- One Acaunel port (R307 to R323, R332 to R336). -/
structure Port where
  state : PortState := .disabled
  /-- A retrain of R309 is in progress, and the state it returns to was `ACTIVE`. -/
  retraining : Bool := false
  wasActive : Bool := false
  leader : Bool := false
  x4 : Bool := false
  slow : Bool := false
  mismatch : Bool := false
  spareUsed : Bool := false
  good : Nat := 0
  lmap : Nat := 0x76543210
  peerSerial : Nat := 0
  peerPort : Nat := 0
  peerPrio : Nat := 0
  hoplat : Nat := 0
  rate : Nat := 65536
  txSeq : Nat := 0
  retry : List TxUnit := []
  /-- Control messages that wait to be sent. -/
  ctlq : List (Nat × List Nat) := []
  replays : Nat := 0
  rxNext : Nat := 0
  rxFailing : Bool := false
  tx : Table TxStream := []
  /-- Flits of each stream sent and not yet credited back. -/
  used : Table Nat := []
  rx : Table RxStream := []
  /-- Tables in force: owner nibbles of the 256 positions, hoop nibbles of the shares, enables (R316). -/
  slots : Nat := 2 ^ 1024 - 1
  shareHoop : Nat := 0
  shareEn : Nat := 0
  peerCrc : Nat := 0
  swapPending : Bool := false
  swapFailed : Bool := false
  peerStaged : Option Nat := none
  pairs : Table Pairing := []
  tagFails : List Nat := []
  creditTmo : Option Nat := none
  slotMode : Bool := false
  suspended : Bool := false
  drift : Bool := false
  trim : Int := 0
  lastOfs : Int := 0
  resume : Bool := false
  /-- Frames of the last two slots: slot, group, header bytes 16 to 31, payload (R334). -/
  kept : List (Nat × Nat × List Byte × List Byte) := []
  /-- Slots in which frames were discarded lately, and accepted frames in a row beyond ±4 ns (R335). -/
  landings : List Nat := []
  driftRun : Nat := 0
  /-- Schedule banks in force and staged: entry n is group + 256 when valid. -/
  sched : Table Nat := []
  schedStaged : Table Nat := []
  /-- What the peer last said of itself: its time base locked, the epoch it has published (R331, R333). -/
  peerLocked : Bool := false
  peerPub : Option Nat := none
  /-- The device's epoch when the port last reached `VC0_ONLY` by a training that was no retrain: data need a publication since (R331). -/
  upEpoch : Nat := 0
deriving DecidableEq, Repr

/-- A discovery probe slot (R330): 0 idle, 1 pending, 2 replied, 3 failed. -/
structure Probe where
  state : Nat := 0
  status : Nat := 0
  epoch : Nat := 0
  since : Nat := 0
  reply : List Nat := []
deriving DecidableEq, Repr

/-- `PICOT_TSTS`[1:0]. -/
inductive TimeState where
  | free | locking | locked | holdover
deriving DecidableEq, Repr

/-- Discovery, publication and the election of the grandmaster (R325 to R331). Offsets are in 1/256 ns. -/
structure Fabric where
  epoch : Nat := 0
  published : Option Nat := none
  probes : Table Probe := []
  time : TimeState := .free
  gm : Bool := false
  far : Bool := false
  hops : Nat := 0
  upstream : Nat := 0
  gmSerial : Nat := 0
  gmPrio : Nat := 0
  known : Bool := false
  offset : Int := 0
  good : Nat := 0
  heard : Nat := 0
  joined : Bool := false
  /-- The schedule swap armed (R333). -/
  swapAt : Option Nat := none
deriving DecidableEq, Repr

/-! ### Collective groups (chapter 15) -/

/-- `SHUT_G_STS`[1:0]. -/
inductive GroupState where
  | free | active | fenced
deriving DecidableEq, Repr

/-- A record held in a group's buffer: instance or tag word `TGT`, engine, payload. -/
structure Held where
  tgt : Nat
  engine : Nat
  payload : List Byte
deriving DecidableEq, Repr

/-- A ring operation as the shuttle carries it (R342): of a COLLECTIVE command, or of the checkpoint engine (`internal`: its source bytes). -/
structure CollOp where
  op : Nat := 0
  red : Nat := 0
  rnd : Nat := 0
  root : Nat := 0
  count : Nat := 0
  src : Nat := 0
  dst : Nat := 0
  first : Nat := 0
  segs : Nat := 0
  start : Nat := 0
  internal : Option (List Byte) := none
deriving DecidableEq, Repr

/-- Progress of one pass of a ring operation: the chunk and record expected next, the bytes gathered of that chunk, the chunk sent next, and
the chunks ready before their turn (none: failed). -/
structure PassSt where
  rxChunk : Nat := 0
  rxSeg : Nat := 0
  rxBytes : List Byte := []
  txChunk : Nat := 0
  ready : List (Nat × Option (List Byte)) := []
deriving DecidableEq, Repr

/-- A picot frame that waits for its slot (R333, R334): the earliest slot, whether it is a resend that takes exactly that slot, header bytes 16 to
31, payload. -/
structure Launch where
  slot : Nat
  resend : Bool := false
  head : List Byte
  payload : List Byte
deriving DecidableEq, Repr

/-- One group slot (R338 to R342): its geometry, lease, instance counter, the operation that runs, the records held, and its progress. -/
structure CGroup where
  state : GroupState := .free
  ctx : Nat := 0
  hoop : Nat := 0
  cls : Nat := 0
  picot : Bool := false
  n : Nat := 0
  rank : Nat := 0
  next : Nat := 0
  prev : Nat := 0
  peerSlot : Nat := 0
  sched : Nat := 0
  key : Nat := 0
  gen : Nat := 0
  timeout : Nat := 0
  lease : Nat := 0
  renewed : Nat := 0
  inst : Nat := 0
  running : Option Nat := none
  begun : Bool := false
  co : CollOp := {}
  lastRx : Nat := 0
  held : List Held := []
  pass0 : PassSt := {}
  pass1 : PassSt := {}
  /-- Cursor, chunks good past it, chunks failed, bytes in good chunks, and the status so far, of the running operation. -/
  cursor : Nat := 0
  good : List Nat := []
  failed : List Nat := []
  goodBytes : Nat := 0
  status : Nat := 0
  /-- Chunks received by an operation of the checkpoint engine. -/
  got : Table (List Byte) := []
  /-- Handoff credits held by tag and count, oldest first (R357). -/
  credits : List (Nat × Nat) := []
  /-- Picot: the source in the picot buffer, and the frames that wait for a slot. -/
  picotSrc : Option (List Byte) := none
  launches : List Launch := []
deriving DecidableEq, Repr


/-! ### Storage and checkpoints (chapter 16) -/

/-- `STOR_S_STS`[1:0]. -/
inductive SessState where
  | closed | opening | opened | down
deriving DecidableEq, Repr

/-- One NVMe-oF session (R361): its block's fields, the namespace's logarithmic LBA size and block count, and when Keep Alive was last sent. -/
structure Session where
  state : SessState := .closed
  port : Nat := 0
  ioq : Nat := 0
  depth : Nat := 0
  nsid : Nat := 0
  kato : Nat := 0
  target : List Byte := []
  lba : Nat := 0
  blocks : Nat := 0
  lastKa : Nat := 0
deriving DecidableEq, Repr

/-- An I/O in progress under its rkey window (R362): the command, the file of the command and which of its chunks it serves, by order of issue, what it moves (0 data, 1 tag
area, 2 flush), the piece of the chunk or tag area (`off`, `len`), where it lies on the namespace, the bytes a target has delivered, the Acaunel
port of a relayed I/O, and for an I/O performed for a neighbour its port, the pairing its request came under plus 1 times 16, and the
neighbour's number of it (R368). `live` is the rkey window open. -/
structure StorIo where
  live : Bool := false
  trk : Nat := 0
  file : Nat := 0
  chunk : Nat := 0
  kind : Nat := 0
  write : Bool := false
  session : Nat := 0
  lba : Nat := 0
  off : Nat := 0
  len : Nat := 0
  got : List Byte := []
  issued : Nat := 0
  relay : Option Nat := none
  peer : Option (Nat × Nat) := none
deriving DecidableEq, Repr

/-- A file that a command moves: where its descriptor lies, and its fields (R363 Table 3); an extent is a session, an LBA count, a start LBA. -/
structure StorFile where
  addr : Nat := 0
  key : Nat := 0
  gen : Nat := 0
  fileId : Nat := 0
  nonce : Nat := 0
  length : Nat := 0
  extents : List (Nat × Nat × Nat) := []
deriving DecidableEq, Repr

/-- What a storage or checkpoint command has done so far: its phase, the file under way, the next chunk of it to be issued and those finished, the files it moves, the plan (`CID`, rank) and the shard entries gathered, digests of
local shards, the manifest's plaintext, chunks read for a RESTORE (file × 2^32 + chunk), and the status so far. -/
structure Capture where
  live : Bool := false
  phase : Nat := 0
  file : Nat := 0
  next : Nat := 0
  done : List Nat := []
  bad : List Nat := []
  goodBytes : Nat := 0
  files : List StorFile := []
  plan : List (Nat × Nat) := []
  locals : List (List Byte) := []
  entries : List (List Byte) := []
  manifest : List Byte := []
  kept : Table (List Byte) := []
  /-- How the ring operation it asked the shuttle for ended: status and chunks. -/
  result : Option (Nat × Table (List Byte)) := none
  status : Nat := 0
  step : Nat := 0
  written : Bool := false
  /-- Chunks of the file under way, which of them a RESTORE needs, its tag area under way, and each file's status so far. -/
  total : Nat := 0
  todo : List Nat := []
  area : Bool := false
  sts : Table Nat := []
deriving DecidableEq, Repr

/-- The trigger of an update fence (R370): since when the timer counts, whether it has fired, and whether a capture, a copy-out or a restore runs. -/
structure Trigger where
  since : Nat := 0
  fired : Bool := false
  lastStep : Nat := 0
deriving DecidableEq, Repr

/-- A relay request of a neighbour whose data is still arriving on a port (R368). -/
structure RelayIn where
  head : List Byte := []
  data : List Byte := []
deriving DecidableEq, Repr



/-! ### Test (chapter 23) -/

/-- A lane under test (R518, R519): its `TEST_LCTL`, whether its checker is locked, its counts, and the status of the last write of its control. -/
structure LaneTest where
  ctl : Nat := 0
  lock : Bool := false
  errs : Nat := 0
  bits : Nat := 0
  last : Nat := 0
deriving DecidableEq, Repr

/-- The test access port (R526): its instruction, and the boundary register's cells. -/
structure Tap where
  ir : Nat := 1
  cells : Nat := 0
deriving DecidableEq, Repr

/-! ### The device -/

/-- Temperatures and the safe clock (R299, R300, R513, R514): readings and maxima by sensor, samples in a row above the trip, whether the safe
clock is in force and since when, its time in the present interval, the interval's start and number, emergencies, and since when every
junction sensor reads at or below 95 °C. -/
structure Therm where
  temps : Table Nat := []
  maxes : Table Nat := []
  beyond : Table Nat := []
  safe : Bool := false
  safeSince : Nat := 0
  safeAcc : Nat := 0
  intStart : Nat := 0
  intNo : Nat := 0
  emergencies : Nat := 0
  coolSince : Option Nat := none
deriving DecidableEq, Repr

/-- Everything the device holds outside its fuses. A table that lists nothing is at its reset value. -/
structure Dev where
  /-- The MODEL's own counter, applied to the opaque free values (log entry 2). -/
  freeCtr : Nat := 0
  /-- The MODEL's record of what has left the block, newest first (log entry 3). -/
  out : List Emit := []
  /-- Fabric time base, ns (R325). -/
  now : Nat := 0
  /-- The register file: key `rk page instance offset`; unlisted, a register holds its reset value. -/
  regs : Table Word := []
  /-- Read latches, one per port and page (R484). -/
  latches : Table Latch := []
  /-- Staged words of wide writes, per port (R485). -/
  stagedWords : Table (Option Word) := []
  /-- Cellar bytes by physical address (plaintext; R235 ciphertext never leaves the package). -/
  cellar : List Host.Cell := []
  /-- Host memory, the outside world's, kept so that DMA and rings can be followed (log entry 9). -/
  hostMem : List Host.Cell := []
  /-- Group blocks by PA[38:14] (R237). -/
  groups : Table Group := []
  /-- Page ownership entries by PPN (R212). -/
  pot : Table Pot := []
  funcs : Table Func := []
  ctxs : Table Ctx := []
  queues : Table Queue := []
  events : Table Event := []
  cmds : Table Cmd := []
  hoops : Table Hoop := []
  dmaCh : Table DmaChannel := []
  keys : Table KeySlot := []
  cmdSeq : Nat := 0
  /-- Pantry bytes: tile × 2^22 + unit × 2^16 + byte (R78). -/
  pantry : List Host.Cell := []
  tiles : Table Tile := []
  sats : Table Entry := []
  lsts : Table Entry := []
  fences : Table Fence := []
  darners : Table Darner := []
  mc : Table McEntry := []
  /-- Lookup counter of a hoop (R196). -/
  mcLookups : Table Nat := []
  sec : Sec := {}
  batt : Battery := {}
  dbg : Debug := {}
  lc : LcLatch := {}
  ras : RasLog := {}
  aon : AlwaysOn := {}
  /-- Pages queued for retirement (R244, R456). -/
  retireQ : List Nat := []
  therm : Therm := {}
  /-- Segments carried so far by the DMA engine, and at which of them a context (hoop × 4096 + context) was last served (R224). -/
  dmaTurns : Nat := 0
  dmaTurn : Table Nat := []
  /-- SR-IOV: VF Enable and NumVFs of the PF (R254, R255). -/
  vfEnable : Bool := false
  numVfs : Nat := 0
  /-- The link IDE stream is Insecure (R254). -/
  linkInsecure : Bool := false
  /-- DOE Error of the PF's mailbox (R254). -/
  doeError : Bool := false
  ports : Table Port := []
  fab : Fabric := {}
  groupTab : Table CGroup := []
  sessions : Table Session := []
  /-- I/Os by rkey, and the next rkey of the counter (R362). -/
  ios : Table StorIo := []
  rkeyNext : Nat := 0
  captures : Table Capture := []
  triggers : Table Trigger := []
  relayIn : Table RelayIn := []
  ethUp : Nat := 0
  /-- Lanes by kind × 4096 + port × 256 + lane: 0 Acaunel, 1 Ethernet, 2 PCIe (R519). -/
  laneTests : Table LaneTest := []
  tap : Tap := {}
  /-- The boot flash; an unlisted byte reads 0xFF, erased (R471, log entry 9). -/
  flash : List Host.Cell := []
  /-- Larder lines of the slice that lost most, and tree-cache ways, retired by self-test (R522). -/
  larderOut : Nat := 0
  wayOut : Nat := 0
deriving DecidableEq, Repr

/-! ### Fuses, faults, refusals, the machine -/

/-- The one-time-programmable fuses (R421 to R427, R465). -/
structure Fuses where
  /-- Life-cycle words W1 to W6, 128 bits each, at index 0 to 5 (R421). -/
  words : Table Nat := []
  /-- The rollback floor's 64-bit fuse word (R465). -/
  svnWord : Nat := 0
  /-- The device serial (R494). -/
  serial : Nat := 0
  /-- SHA-384 of the RTP ROM (R461 step 3). -/
  romDigest : List Byte := List.replicate 48 0
  /-- V_OP in mV, fused, between 625 and 825 (R500). -/
  vop : Nat := 750
deriving DecidableEq, Repr

/-- Reasons the machine stops with a fault. -/
inductive Fault where
  /-- Raised by CELLAR_READ, CELLAR_WRITE and CELLAR_PARTIAL_WRITE for a physical address outside the usable region:
  no request from outside the device reaches it (R210). Safe: the machine stops. -/
  | noSuchAddress (pa : Nat)
deriving DecidableEq, Repr

/-- Reasons an instruction has no meaning. -/
inductive Refusal where
  /-- Raised by an arm of `exec` whose command is not modelled yet. Safe: the machine stops. -/
  | notModelled (mnemonic : String)
deriving DecidableEq, Repr

/-- The machine: the commands that wait, first in first out; the fuses; the device. -/
structure State where
  pending : List Instr := []
  fuses : Fuses := {}
  dev : Dev := {}
deriving DecidableEq, Repr

/-- The machine right after reset: the always-on domain has just left its power-on reset (R458), no boot attempt has
run, so the core holds no hoop, no context and no key, and every register holds its Reset column. -/
def State.reset : State := {}

end Sys2Proof.Machine
end

