-- ==== Sys2Proof/Machine/Status.lean ====
section
/-! DEFINITION. The status codes of R10 (Table 3) and the choice of one code among several (R11, R12). -/
namespace Sys2Proof.Machine

/-- A 16-bit status code (R10, Table 3). -/
inductive Status where
  | ok | partialDone
  | rejectNoCapacity | loaderReject | badDescriptor | notPinned
  | pageFault | accessDenied | keyRevoked | keyExhausted
  | contextAborted | hoopReset | promiseWithdrawn
  | groupPartitioned | groupTimeout | linkDown | epochStale
  | integrityHalt | uncorrectableMemory
  | precisionEscalated | saturationLimit
  | shardDigestMismatch | manifestIncomplete | resliceUnaligned
  | rtpBusy | authRequired | lcInvalid
deriving DecidableEq, Repr

/-- The code of R10, Table 3. -/
def Status.code : Status → Nat
  | .ok => 0x0000
  | .partialDone => 0x0001
  | .rejectNoCapacity => 0x0101
  | .loaderReject => 0x0102
  | .badDescriptor => 0x0103
  | .notPinned => 0x0104
  | .pageFault => 0x0201
  | .accessDenied => 0x0202
  | .keyRevoked => 0x0203
  | .keyExhausted => 0x0204
  | .contextAborted => 0x0301
  | .hoopReset => 0x0302
  | .promiseWithdrawn => 0x0303
  | .groupPartitioned => 0x0401
  | .groupTimeout => 0x0402
  | .linkDown => 0x0403
  | .epochStale => 0x0404
  | .integrityHalt => 0x0501
  | .uncorrectableMemory => 0x0502
  | .precisionEscalated => 0x0601
  | .saturationLimit => 0x0602
  | .shardDigestMismatch => 0x0701
  | .manifestIncomplete => 0x0702
  | .resliceUnaligned => 0x0703
  | .rtpBusy => 0x0801
  | .authRequired => 0x0802
  | .lcInvalid => 0x0803

/-- The success codes: `OK`, `PROMISE_WITHDRAWN`, `PRECISION_ESCALATED` (R11). -/
def stSuccess (c : Nat) : Bool := c == 0x0000 || c == 0x0303 || c == 0x0601

/-- How a success code ranks in R12: `PROMISE_WITHDRAWN` over `PRECISION_ESCALATED` over `OK`. -/
def stRank (c : Nat) : Nat := if c == 0x0303 then 2 else if c == 0x0601 then 1 else 0

/-- The single code that two applying codes report (R12). -/
def stCombine (a b : Nat) : Nat :=
  match stSuccess a, stSuccess b with
  | true, true => if stRank a < stRank b then b else a
  | true, false => b
  | false, true => a
  | false, false => max a b

/-- The code that a list of applying codes reports (R12); none applying: `OK`. -/
def stAll (l : List Status) : Nat := l.foldl (fun a s => stCombine a s.code) 0

end Sys2Proof.Machine
end

