-- ==== Sys2Proof/Machine/Ops.lean ====
section
/-! DEFINITION. The named operations over the register file, the error logs, the interrupts and the tables of objects,
through which every meaning reads and writes the device. -/
namespace Sys2Proof.Machine

/-! ### Ports (R474, Table 1) -/

/-- Port ID of the PF. -/
def portPf : Nat := 0x00
/-- Port ID of the RTP. -/
def portRtp : Nat := 0x40
/-- Port ID of the BMC. -/
def portBmc : Nat := 0x41
/-- Port ID of the JTAG register path. -/
def portJtag : Nat := 0x42
/-- Port ID of error-log entries that hardware raises. -/
def portDevice : Nat := 0x7F

/-- The port is a function's: the PF or a VF. -/
def portIsFunc (p : Nat) : Bool := decide (p ≤ 63)

/-- The port exists (R474, Table 1). -/
def portValid (p : Nat) : Bool := decide (p ≤ 0x42)

/-- The banks that a hardware-raised log entry or a device-wide event reaches: PF, RTP and BMC (R479), the JTAG path with
the BMC (R474). -/
def portsDevice : List Nat := [portPf, portRtp, portBmc, portJtag]

/-! ### The register file -/

/-- The bank index of a port inside the key space of instances. -/
def bankBase : Nat := 0x80000

/-- Key of a register: page, instance (or bank of a port), offset. -/
def rk (page idx off : Nat) : Nat := (page * 0x100000 + idx) * 0x10000 + off

/-- `BLK_ID` of a page (R475): 0x0100 plus the index of the block's first page, the instance, the pages of the block. -/
def blkId (p : Nat) : Nat :=
  let first := if p == 0x003 then 0x002 else if 0x020 ≤ p && p ≤ 0x027 then 0x020
    else if 0x060 ≤ p && p ≤ 0x06F then 0x060 else if 0x100 ≤ p && p ≤ 0x13F then 0x100 else p
  let count := if first == 0x002 then 2 else if first == 0x020 then 8 else if first == 0x060 then 16
    else if first == 0x100 then 64 else 1
  let inst := if first == 0x100 then (p - first) / 4 else p - first
  (0x0100 + first) + inst * 0x10000 + count * 0x1000000

/-- Bytes divided by 4 of the registers in use from offset `lo` to below `hi` of a page (R477). -/
def blkCap (p lo hi : Nat) : Nat :=
  ((pageMap p).filter (fun r => decide (lo ≤ r.off) && decide (r.off < hi))).foldl (fun a r => max a (r.off + 4 - lo)) 0 / 4

/-- Source clock, destination clock, unit and kinds of a crossing (R490 Table 11, coded as `CLK_X_ID`, R494). -/
def clkXId (i : Nat) : Nat :=
  let mk := fun (s d u k : Nat) => s + d * 0x10 + u * 0x100 + k * 0x10000
  if i ≤ 103 then mk 0 1 i 7
  else if i ≤ 111 then mk 0 1 (i - 104) 7
  else if i ≤ 119 then mk 1 2 (i - 112) 3
  else if i ≤ 135 then mk 1 3 (i - 120) 7
  else if i ≤ 137 then mk 1 4 (i - 136) 7
  else if i == 138 then mk 1 5 0 7
  else if i == 139 then mk 1 6 0 7
  else if i == 140 then mk 7 1 0 5
  else if i == 141 then mk 7 5 0 5
  else if i == 142 then mk 7 6 0 5
  else if i == 143 then mk 9 7 0 5
  else if i == 144 then mk 8 7 0 5
  else 0

/-- Nominal energy coefficients, pJ (R297 Table 5); the spec gives the calibrated values per device (log entry 6). -/
def nominalEc (off : Nat) : Nat :=
  match off with
  | 0x1020 => 4100
  | 0x1024 => 600
  | 0x1028 => 500
  | 0x102C => 4000
  | 0x1030 => 26
  | 0x1034 => 34
  | 0x1038 => 90
  | 0x103C => 50
  | _ => 0

/-- The reset value of a register: the Reset column, the per-page and per-crossing values of R475 and R490, and the nominal
values of log entry 6 where the column says "per device". -/
def regReset (page idx off : Nat) : Word :=
  match regDef page off with
  | none => 0
  | some r =>
    if off == 0x0000 then BitVec.ofNat 32 (blkId page)
    else if off == 0x0008 then BitVec.ofNat 32 (blkCap page 0x100 0x1000)
    else if off == 0x000C then BitVec.ofNat 32 (blkCap page 0x1000 0x10000)
    else if off == 0x0034 then BitVec.ofNat 32 (pageSelMax page)
    else if page == pgClk && off == 0x0100 then BitVec.ofNat 32 (clkXId idx)
    else if page == pgSched && 0x1020 ≤ off && off ≤ 0x103C then BitVec.ofNat 32 (nominalEc off)
    else BitVec.ofNat 32 r.reset

/-- Reset value by key. -/
def regDflt (k : Nat) : Word := regReset (k / 0x1000000000) (k / 0x10000 % 0x100000) (k % 0x10000)

/-- A register's word. -/
def Dev.reg (d : Dev) (page idx off : Nat) : Word := tabGet regDflt d.regs (rk page idx off)

/-- The register's word as a number. -/
def Dev.regN (d : Dev) (page idx off : Nat) : Nat := (d.reg page idx off).toNat

/-- A register's word replaced. -/
def Dev.setReg (d : Dev) (page idx off : Nat) (v : Word) : Dev :=
  { d with regs := tabPut regDflt d.regs (rk page idx off) v }

/-- A register's word replaced, by its number modulo 2^32. -/
def Dev.setRegN (d : Dev) (page idx off : Nat) (v : Nat) : Dev := d.setReg page idx off (BitVec.ofNat 32 v)

/-- Instance index of a port's bank. -/
def bank (port : Nat) : Nat := bankBase + port

/-- A banked register's word, as a number. -/
def Dev.bankN (d : Dev) (page port off : Nat) : Nat := d.regN page (bank port) off

/-- A banked register replaced. -/
def Dev.setBankN (d : Dev) (page port off v : Nat) : Dev := d.setRegN page (bank port) off v

/-- A 64-bit pair: low word at `off`, high word at `off + 4` (R4). -/
def Dev.reg64 (d : Dev) (page idx off : Nat) : Nat := d.regN page idx off + 2 ^ 32 * d.regN page idx (off + 4)

/-- A 64-bit pair replaced. -/
def Dev.setReg64 (d : Dev) (page idx off v : Nat) : Dev :=
  (d.setRegN page idx off (v % 2 ^ 32)).setRegN page idx (off + 4) (v / 2 ^ 32 % 2 ^ 32)

/-- Bits of a register set (a sticky flag raised). -/
def Dev.orReg (d : Dev) (page idx off m : Nat) : Dev := d.setRegN page idx off (d.regN page idx off ||| m)

/-- Bits of a register cleared. -/
def Dev.clrReg (d : Dev) (page idx off m : Nat) : Dev :=
  d.setReg page idx off (d.reg page idx off &&& ~~~ (BitVec.ofNat 32 m))

/-- A read-clear counter raised by `n`, held at 0xFFFF_FFFF (R488). -/
def Dev.bumpRc (d : Dev) (page idx off n : Nat) : Dev := d.setRegN page idx off (satAdd 32 (d.regN page idx off) n)

/-- A 64-bit counter raised by `n`, wrapping modulo 2^64 and setting overflow bit `ovf` of the flag register (R8, R486). -/
def Dev.bump64 (d : Dev) (page idx off n flagOff ovf : Nat) : Dev :=
  let v := d.reg64 page idx off + n
  let d := d.setReg64 page idx off (v % 2 ^ 64)
  if v < 2 ^ 64 then d else d.orReg page idx flagOff (2 ^ ovf)

/-! ### Time, free values, outputs -/

/-- Fabric time carried by a command: the time base never steps back here. -/
def Dev.at (d : Dev) (t : Nat) : Dev := { d with now := max d.now t }

/-- Something leaves the block. -/
def Dev.emit (d : Dev) (e : Emit) : Dev := { d with out := e :: d.out }

/-- The next free value, a 64-bit number nothing constrains (log entry 2). -/
def Dev.freeVal (d : Dev) : Nat := (Config.freeWord d.freeCtr).toNat

/-- The counter of free values stepped on. -/
def Dev.tick (d : Dev) : Dev := { d with freeCtr := d.freeCtr + 1 }

/-- `n` fresh free bytes (a random draw), and the counter after them. -/
def Dev.freeBytes (d : Dev) (n : Nat) : List Byte :=
  (List.range n).map (fun i => BitVec.ofNat 8 ((Config.freeWord (d.freeCtr + i)).toNat))

/-- The counter stepped on by `n`. -/
def Dev.ticks (d : Dev) (n : Nat) : Dev := { d with freeCtr := d.freeCtr + n }

/-! ### Interrupts (R480) -/

/-- Every page in use. -/
def allPages : List Nat :=
  [0x000, 0x001, 0x002, 0x003, 0x004, 0x005, 0x006, 0x007, 0x010, 0x011, 0x018] ++
  (List.range 8).map (· + 0x020) ++
  [0x028, 0x029, 0x02A, 0x030, 0x031, 0x032, 0x040, 0x041, 0x042, 0x043, 0x048, 0x049,
   0x050, 0x051, 0x052, 0x053, 0x054, 0x058, 0x059, 0x05A, 0x05B, 0x05C, 0x05D] ++
  (List.range 16).map (· + 0x060)

/-- Some enabled event of some page is pending in the port's banks. -/
def Dev.intPending (d : Dev) (port : Nat) : Bool :=
  allPages.any (fun p => (d.bankN p port 0x0018 &&& d.bankN p port 0x001C) != 0)

/-- The interrupt of a port's bank: MSI-X vector 0 of a function, the RTP's own, the BMC's in-band one (R480). -/
def Dev.raisePort (d : Dev) (port : Nat) : Dev :=
  if portIsFunc port then d.emit (.msix port 0)
  else if port == portRtp then d.emit .rtpIrq
  else if port == portBmc then d.emit .bmcIrq
  else d

/-- Run `f`, and raise the port's interrupt when its enabled pending bits go from none to some (R480). -/
def Dev.withInt (d : Dev) (port : Nat) (f : Dev → Dev) : Dev :=
  let was := d.intPending port
  let d := f d
  if !was && d.intPending port then d.raisePort port else d

/-- An event sets bit `b` of a page's `BLK_INT_STS` in one port's bank. -/
def Dev.eventAt (d : Dev) (page b port : Nat) : Dev :=
  d.withInt port (fun d => d.orReg page (bank port) 0x0018 (2 ^ b))

/-- An event sets its bit in the bank of every port that sees the instance (R480). -/
def Dev.event (d : Dev) (page b : Nat) (ports : List Nat) : Dev := ports.foldl (fun d p => d.eventAt page b p) d

/-! ### Error logs (R479) -/

/-- Reasons of R479, Table 7. -/
inductive Reason where
  | width | locked | notVisible | selRange | value | busy | port | peerReset | malformed | hwEvent
deriving DecidableEq, Repr

/-- Code of a reason (R479, Table 7). -/
def Reason.code : Reason → Nat
  | .width => 1 | .locked => 2 | .notVisible => 3 | .selRange => 4 | .value => 5
  | .busy => 6 | .port => 7 | .peerReset => 8 | .malformed => 9 | .hwEvent => 10

/-- An error-log entry as its two words (R479, Table 6). -/
def errEntry (page off : Nat) (r : Reason) (port data : Nat) : Nat × Nat :=
  (off % 2 ^ 16 + page % 2 ^ 10 * 2 ^ 16 + r.code * 2 ^ 26, port % 2 ^ 8 + data % 2 ^ 24 * 2 ^ 8)

/-- Write an entry into the log of one bank: the ring of eight, the head, and `ERRLOG_NEW` (R477, R479). -/
def Dev.logEntry (d : Dev) (page bankPort : Nat) (e : Nat × Nat) : Dev :=
  let head := d.bankN page bankPort 0x0080
  let i := head % 8
  let n := (head / 256 + 1) % 2 ^ 24
  let d := d.setBankN page bankPort (0x0040 + 8 * i) e.1
  let d := d.setBankN page bankPort (0x0044 + 8 * i) e.2
  let d := d.setBankN page bankPort 0x0080 ((i + 1) % 8 + n * 256)
  d.orReg page (bank bankPort) 0x0014 8

/-- An entry of a page in its own log. -/
def Dev.logAt (d : Dev) (page bankPort off : Nat) (r : Reason) (port data : Nat) : Dev :=
  d.logEntry page bankPort (errEntry page off r port data)

/-- The entry of an access that a rule turned away, in the bank of the port that made it (R479). -/
def Dev.logErr (d : Dev) (port page off : Nat) (r : Reason) (data : Nat) : Dev := d.logAt page port off r port data

/-- An entry that hardware raises, in the banks of the PF, RTP and BMC ports (R479). -/
def Dev.logHw (d : Dev) (page off : Nat) (r : Reason) (data : Nat) : Dev :=
  portsDevice.foldl (fun d p => d.logAt page p off r portDevice data) d

/-! ### Objects -/

/-- What an unlisted PPN's ownership entry reads as. -/
def potDflt (_ : Nat) : Pot := {}
/-- An unlisted group block: every granule zero-mapped (R467). -/
def groupDflt (_ : Nat) : Group := {}
/-- An unlisted function. -/
def funcDflt (_ : Nat) : Func := {}
/-- An unlisted context: FREE. -/
def ctxDflt (_ : Nat) : Ctx := {}
/-- An unlisted queue. -/
def queueDflt (_ : Nat) : Queue := {}
/-- An unlisted event. -/
def eventDflt (_ : Nat) : Event := {}
/-- An unlisted tracker: free. -/
def cmdDflt (_ : Nat) : Cmd := {}
/-- An unlisted hoop: FREE. -/
def hoopDflt (_ : Nat) : Hoop := {}
/-- An unlisted DMA channel: idle. -/
def dmaDflt (_ : Nat) : DmaChannel := {}
/-- An unlisted key slot: EMPTY. -/
def keyDflt (_ : Nat) : KeySlot := {}
/-- Zero for every unlisted number. -/
def natDflt (_ : Nat) : Nat := 0

def Dev.potOf (d : Dev) (ppn : Nat) : Pot := tabGet potDflt d.pot ppn
def Dev.setPot (d : Dev) (ppn : Nat) (x : Pot) : Dev := { d with pot := tabPut potDflt d.pot ppn x }
def Dev.group (d : Dev) (g : Nat) : Group := tabGet groupDflt d.groups g
def Dev.setGroup (d : Dev) (g : Nat) (x : Group) : Dev := { d with groups := tabPut groupDflt d.groups g x }
def Dev.func (d : Dev) (f : Nat) : Func := tabGet funcDflt d.funcs f
def Dev.setFunc (d : Dev) (f : Nat) (x : Func) : Dev := { d with funcs := tabPut funcDflt d.funcs f x }
def Dev.ctx (d : Dev) (c : Nat) : Ctx := tabGet ctxDflt d.ctxs c
def Dev.setCtx (d : Dev) (c : Nat) (x : Ctx) : Dev := { d with ctxs := tabPut ctxDflt d.ctxs c x }
def Dev.queue (d : Dev) (q : Nat) : Queue := tabGet queueDflt d.queues q
def Dev.setQueue (d : Dev) (q : Nat) (x : Queue) : Dev := { d with queues := tabPut queueDflt d.queues q x }
def Dev.evt (d : Dev) (e : Nat) : Event := tabGet eventDflt d.events e
def Dev.setEvt (d : Dev) (e : Nat) (x : Event) : Dev := { d with events := tabPut eventDflt d.events e x }
def Dev.cmd (d : Dev) (t : Nat) : Cmd := tabGet cmdDflt d.cmds t
def Dev.setCmd (d : Dev) (t : Nat) (x : Cmd) : Dev := { d with cmds := tabPut cmdDflt d.cmds t x }
def Dev.hoop (d : Dev) (h : Nat) : Hoop := tabGet hoopDflt d.hoops h
def Dev.setHoop (d : Dev) (h : Nat) (x : Hoop) : Dev := { d with hoops := tabPut hoopDflt d.hoops h x }
def Dev.channel (d : Dev) (n : Nat) : DmaChannel := tabGet dmaDflt d.dmaCh n
def Dev.setChannel (d : Dev) (n : Nat) (x : DmaChannel) : Dev := { d with dmaCh := tabPut dmaDflt d.dmaCh n x }
def Dev.key (d : Dev) (k : Nat) : KeySlot := tabGet keyDflt d.keys k
def Dev.setKey (d : Dev) (k : Nat) (x : KeySlot) : Dev := { d with keys := tabPut keyDflt d.keys k x }

/-- An unlisted tile: in service, holding nothing. -/
def tileDflt (_ : Nat) : Tile := {}
/-- An unlisted slot of a tile: free. -/
def slotDflt (_ : Nat) : Slot := {}
/-- An unlisted receive queue: free. -/
def recvDflt (_ : Nat) : RecvQ := {}
/-- An unlisted saturation or layer-statistics entry: free. -/
def entryDflt (_ : Nat) : Entry := {}
/-- An unlisted update fence: FREE. -/
def fenceDflt (_ : Nat) : Fence := {}
/-- An unlisted darner: in service. -/
def darnerDflt (_ : Nat) : Darner := {}
/-- An unlisted model-cache entry: free. -/
def mcDflt (_ : Nat) : McEntry := {}

def Dev.tile (d : Dev) (t : Nat) : Tile := tabGet tileDflt d.tiles t
def Dev.setTile (d : Dev) (t : Nat) (x : Tile) : Dev := { d with tiles := tabPut tileDflt d.tiles t x }
def Tile.slot (x : Tile) (k : Nat) : Slot := tabGet slotDflt x.slots k
def Tile.setSlot (x : Tile) (k : Nat) (s : Slot) : Tile := { x with slots := tabPut slotDflt x.slots k s }
def Dev.slot (d : Dev) (t k : Nat) : Slot := (d.tile t).slot k
def Dev.setSlot (d : Dev) (t k : Nat) (s : Slot) : Dev := d.setTile t ((d.tile t).setSlot k s)
def Tile.recvq (x : Tile) (q : Nat) : RecvQ := tabGet recvDflt x.queues q
def Tile.setRecvq (x : Tile) (q : Nat) (r : RecvQ) : Tile := { x with queues := tabPut recvDflt x.queues q r }
def Dev.sat (d : Dev) (e : Nat) : Entry := tabGet entryDflt d.sats e
def Dev.setSat (d : Dev) (e : Nat) (x : Entry) : Dev := { d with sats := tabPut entryDflt d.sats e x }
def Dev.lst (d : Dev) (e : Nat) : Entry := tabGet entryDflt d.lsts e
def Dev.setLst (d : Dev) (e : Nat) (x : Entry) : Dev := { d with lsts := tabPut entryDflt d.lsts e x }
def Dev.fence (d : Dev) (f : Nat) : Fence := tabGet fenceDflt d.fences f
def Dev.setFence (d : Dev) (f : Nat) (x : Fence) : Dev := { d with fences := tabPut fenceDflt d.fences f x }
def Dev.darner (d : Dev) (n : Nat) : Darner := tabGet darnerDflt d.darners n
def Dev.setDarner (d : Dev) (n : Nat) (x : Darner) : Dev := { d with darners := tabPut darnerDflt d.darners n x }
def Dev.mce (d : Dev) (e : Nat) : McEntry := tabGet mcDflt d.mc e
def Dev.setMce (d : Dev) (e : Nat) (x : McEntry) : Dev := { d with mc := tabPut mcDflt d.mc e x }

/-- The ports that see an object of a function under R65: the function's own and the RTP's. -/
def portsOf (func : Nat) : List Nat := [func, portRtp]

/-! ### Operation registers -/

/-- The state after a write that starts an operation: the register keeps the code written, the status register the outcome,
`BUSY` clear again (R261). `f` answers the status and the device after the operation; an operation that fails changes nothing. -/
def Dev.runOp (d : Dev) (port page opOff stsOff : Nat) (data : Nat) (accepted : Bool) (f : Dev → Status × Dev) : Dev :=
  if !accepted then d.logErr port page opOff .port data
  else if bit (d.bankN page port stsOff) 16 then d.logErr port page opOff .busy data
  else
    let d := d.setBankN page port opOff data
    let r := f d
    let d := if stSuccess r.1.code then r.2 else d
    d.setBankN page port stsOff r.1.code

end Sys2Proof.Machine
end

