-- ==== Sys2Proof/Machine/Halt.lean ====
section
/-! DEFINITION. The RAS log (R450), the device halt (R248, R249, R438) and the rule that a halted or not yet started
device runs no engine. -/
namespace Sys2Proof.Machine

/-- The core runs: boot has reached READY and the device is not halted (R248, R461). -/
def Dev.live (d : Dev) : Bool := d.aon.ready && !d.aon.halted

/-- The core is out of reset and not halted: it runs, is in safe mode, or boots. -/
def Dev.coreOn (d : Dev) : Bool := !d.aon.halted && (d.aon.ready || d.aon.safe || d.aon.boot.step != 0)

/-- What an engine does while the core runs; nothing otherwise. -/
def Dev.whenLive (d : Dev) (f : Dev → Dev) : Dev := if d.live then f d else d

/-- What the always-on domain serves, while it runs (R458). -/
def Dev.whenAon (d : Dev) (f : Dev → Dev) : Dev := if d.aon.aonUp then f d else d

/-- Unit kind code of a client in a log entry (R452 Table 10). -/
def Client.code : Client → Nat
  | .tile => 0 | .dma => 1 | .darner => 2 | .shuttle => 3 | .storage => 4 | .host => 5 | .internal => 6

/-- An unlisted log entry. -/
def logDflt (_ : Nat) : LogEntry := {}

/-- An entry written into the RAS log (R450), and the affected hoop's last cause (R451). -/
def Dev.rasLog (d : Dev) (e : LogEntry) : Dev :=
  let e := { e with time := d.now }
  let r := d.ras
  let d := { d with ras := { entries := tabPut logDflt r.entries r.head e, head := (r.head + 1) % 256, written := (r.written + 1) % 2 ^ 24 } }
  if e.hoop < 16 then d.setRegN pgRas e.hoop 0x0114 (e.cause % 256 + e.cls % 4 * 256) else d

/-- Every key of the cupboard destroyed, the slots' attributes kept (R248 step 5): secrets, deck and previous keys. -/
def Dev.zeroizeKeys (d : Dev) : Dev :=
  { d with keys := (d.keys.map (fun e => (e.1, { e.2 with base := 0, deckReady := false, prevKept := false }))).filter (fun e => e.2 ≠ keyDflt e.1) }

/-- Halt record fields of a cause (R249; from cause 0x10 up `WHERE` holds the sub-code and `ADDR` is zero, R438). -/
def haltRecord (d : Dev) (cause wher addr key client : Nat) : HaltRec :=
  { valid := true, cause := cause, wher := wher % 64, multi := false, addr := if 0x10 ≤ cause then 0 else addr % 2 ^ 32,
    key := if 0x10 ≤ cause then 0 else key, client := if 0x10 ≤ cause then 0 else client, boot := d.batt.bootCount, time := d.now }

/-- Every port that is not disabled is electrically idle (R248 step 6). -/
def portsDown (t : Table Port) : Table Port := t.map (fun e => if e.2.state = PortState.disabled then e else (e.1, { e.2 with state := PortState.down }))

/-- The device halts (R248). The first cause is recorded; a later one only sets `MULTI`. Engines stop because `live` is
false from here on; every key and the tree cache are zeroized; links go down; HALT_N goes low. -/
def Dev.halt (d : Dev) (cause wher addr key client : Nat) : Dev :=
  if d.aon.halted then { d with aon := { d.aon with halt := { d.aon.halt with multi := true } } }
  else
    let rec' := haltRecord d cause wher addr key client
    let d := d.rasLog { cause := cause, cls := 2, status := Status.integrityHalt.code, unit := 10, addr := addr }
    let d := d.zeroizeKeys
    let d := { d with ports := portsDown d.ports, ethUp := 0 }
    { d with aon := { d.aon with halted := true, halt := rec' } }

end Sys2Proof.Machine
end

