-- ==== Sys2Proof/Machine/Mem.lean ====
section
/-! DEFINITION. The cellar as every engine reaches it: physical addresses (R209, R210), page ownership (R212), keys on
requests (R242, R402), the write and zero rules of the protection path (R246, R247, R250 to R252), translation
(R214 to R216) and host windows (R265). -/
namespace Sys2Proof.Machine

/-! ### Physical addresses -/

/-- Usable pages of the device (R210). -/
def usablePages : Nat := 0x7A0000

/-- First byte past the usable region (R210). -/
def usableEnd : Nat := 0x7A00000000

/-- Stack of a physical address (R209 Table 1). -/
def paStack (pa : Nat) : Nat := fld pa 18 16

/-- Group key of a physical address: PA[38:14] (R234). -/
def paGroup (pa : Nat) : Nat := fld pa 38 14

/-- Granule of its group: PA[13:8] (R234). -/
def paGran (pa : Nat) : Nat := fld pa 13 8

/-- Group index within the stack's group-block array (R237). -/
def groupIndex (pa : Nat) : Nat := fld pa 38 19 * 4 + fld pa 15 14

/-- Counter block of AES block `j` of a granule (R235 Table 1). -/
def counterBlock (typ major minor addr stack j : Nat) : Nat :=
  typ * 2 ^ 120 + major % 2 ^ 56 * 2 ^ 64 + minor % 2 ^ 8 * 2 ^ 56 + addr % 2 ^ 31 * 2 ^ 25 + stack % 8 * 2 ^ 22 + j % 16

/-- The granule is zero-mapped: it reads as zeros (R244). -/
def Dev.granZero (d : Dev) (pa : Nat) : Bool := !bit (d.group (paGroup pa)).written (paGran pa)

/-- The granule is poisoned (R244). -/
def Dev.granPoisoned (d : Dev) (pa : Nat) : Bool := bit (d.group (paGroup pa)).poison (paGran pa)

/-- Minor of a granule. -/
def Group.minor (g : Group) (i : Nat) : Nat := tabGet natDflt g.minors i

/-- Number of granules of a group that are neither zero-mapped nor poisoned. -/
def Group.liveCount (g : Group) : Nat := ((List.range 64).filter (fun i => bit g.written i && !bit g.poison i)).length

/-- A group rewritten under an incremented major, its minors 0 (R246 step 2, R250, R251). -/
def Group.bumpMajor (g : Group) : Group := { g with major := g.major + 1, minors := [] }

/-! ### Keys (R242, R251, R252, R399 to R402) -/

/-- Usage code of memory slots (R398 Table 7). -/
def useMem : Nat := 1
/-- Usage code of link slots. -/
def useLink : Nat := 2
/-- Usage code of file slots. -/
def useFile : Nat := 3
/-- Usage code of cipher-engine slots. -/
def useCiph : Nat := 4
/-- Usage code of signing slots. -/
def useSign : Nat := 5

/-- Why a request may not use a slot: not the hoop's, of another usage, empty or slot 0 (`ACCESS_DENIED`); draining, or a stale
generation (`KEY_REVOKED`) (R16, R216, R402). -/
def Dev.keyCheck (d : Dev) (hoop usage key gen : Nat) : Option Status :=
  let k := d.key key
  if key = 0 ∨ k.state = .empty ∨ k.hoop ≠ hoop ∨ k.usage ≠ usage then some .accessDenied
  else if k.state = .draining ∨ k.gen ≠ gen then some .keyRevoked
  else none

/-- Uses per phase after which a memory key changes (R251). -/
def memLimit : Nat := 2 ^ 40

/-- The limit of a slot per phase (R398 Table 7); 0 for none. -/
def KeySlot.phaseLimit (k : KeySlot) : Nat :=
  if k.usage = useMem then memLimit
  else if k.usage = useLink ∨ k.usage = useFile then 2 ^ 32
  else if k.usage = useCiph then k.limit
  else 0

/-- The slot moves to its deck phase (R400): from phase 255 it is exhausted; a memory slot flips its epoch and starts the
sweep of R251. The new deck is derived later (DECK_DERIVE). -/
def KeySlot.nextPhase (k : KeySlot) : KeySlot :=
  if k.phase = 255 then { k with state := .exhausted }
  else if k.usage = useMem then
    { k with phase := k.phase + 1, uses := 0, deckReady := false, epoch := !k.epoch, sweeping := true, sweepCur := 0, prevKept := true }
  else { k with phase := k.phase + 1, uses := 0, deckReady := false, counter := 0, prevKept := true }

/-- `KEYS_FLAGS` bits of a phase change or of a limit met without a deck: `PHASE_EVT`, `DECK_LATE`, `EXH_EVT` (R404). -/
def Dev.keyFlag (d : Dev) (key b : Nat) : Dev := d.orReg pgKeys key 0x0118 (2 ^ b)

/-- The phase change that hardware makes at the moment the limit is reached, where a deck is ready and no sweep runs
(R251, R400); `DECK_LATE` where none is. -/
def Dev.keyAtLimit (d : Dev) (key : Nat) : Dev :=
  let k := d.key key
  if k.phaseLimit = 0 ∨ k.uses < k.phaseLimit ∨ k.state ≠ .active then d
  else if k.phase = 255 then (d.setKey key k.nextPhase).keyFlag key 2
  else if !k.deckReady then d.keyFlag key 1
  else if k.sweeping then d
  else (d.setKey key k.nextPhase).keyFlag key 0

/-- `n` uses of a slot counted (R246, R398). -/
def Dev.keyUse (d : Dev) (key n : Nat) : Dev :=
  let k := d.key key
  (d.setKey key { k with uses := k.uses + n }).keyAtLimit key

/-- A memory key takes no further encryption: exhausted, or its limit met with no deck or a sweep still running (R252, R399). -/
def Dev.keySpent (d : Dev) (key : Nat) : Bool :=
  let k := d.key key
  k.state == .exhausted || (decide (k.phaseLimit ≠ 0) && decide (k.phaseLimit ≤ k.uses))

/-! ### The write path of a granule (R246, R247, R251) -/

/-- The tree counter a metadata write would pass: `COUNTER_WRAP` (R240). -/
def majorWraps (g : Group) : Bool := decide (2 ^ 56 ≤ g.major + 1)

/-- Sweep a group not yet of the slot's epoch, before it is written (R251). -/
def Dev.sweepGroup (d : Dev) (g key : Nat) : Dev :=
  let k := d.key key
  let b := d.group g
  if k.sweeping && b.epoch != k.epoch then
    (d.setGroup g { b.bumpMajor with epoch := k.epoch }).keyUse key b.liveCount
  else if b.epoch != k.epoch then d.setGroup g { b with epoch := k.epoch }
  else d

/-- MENC page, `off` and flags of the unit of a stack. -/
def Dev.mencBump (d : Dev) (stack off n : Nat) : Dev := d.bump64 pgMenc stack off n 0x0130 0

/-- One granule written whole or in part: `bytes` at `pa`, inside one granule. A partial write of a poisoned granule is not
performed (R247); a spent key refuses (R252); a minor of 255 rewrites the group (R246); a counter that would wrap halts (R240). -/
def Dev.granWrite (d : Dev) (key pa : Nat) (bytes : List Byte) : Dev × Status :=
  let g := paGroup pa
  let i := paGran pa
  let stack := paStack pa
  if bytes.length < 256 && d.granPoisoned pa then (d, .uncorrectableMemory)
  else if d.keySpent key then (d, .keyExhausted)
  else
    let d := d.sweepGroup g key
    let b := d.group g
    if b.minor i = 255 && majorWraps b then (d.halt 0x04 stack (fld pa 38 8) (key + (d.key key).gen * 4096) 6, .integrityHalt)
    else
      let beyond := b.minor i = 255
      let others := { b with written := b.written &&& (2 ^ 64 - 1 - 2 ^ i) }.liveCount
      let b' := if beyond then b.bumpMajor else { b with minors := tabPut natDflt b.minors i (b.minor i + 1) }
      let b' := { b' with written := b'.written ||| 2 ^ i, poison := if bit b'.poison i then b'.poison - 2 ^ i else b'.poison }
      let d := d.setGroup g b'
      let d := d.keyUse key (if beyond then others + 1 else 1)
      let d := if beyond then d.mencBump stack 0x011C 1 else d
      let d := { d with cellar := memWrite d.cellar pa bytes }
      (d.bump64 (pgCel + stack) 0 0x1020 bytes.length 0x102C 0, .ok)

/-- Bytes cut at granule boundaries: address and bytes of each piece. -/
def granPieces : Nat → Nat → List Byte → List (Nat × List Byte)
  | 0, _, _ => []
  | fuel + 1, pa, bs =>
    if bs.isEmpty then [] else
    let n := 256 - pa % 256
    (pa, bs.take n) :: granPieces fuel (pa + n) (bs.drop n)

/-- Physical bytes written granule by granule; stops at the first refusal. -/
def Dev.physWrite (d : Dev) (key pa : Nat) (bytes : List Byte) : Dev × Status :=
  (granPieces (bytes.length / 256 + 2) pa bytes).foldl
    (fun r p => if r.2 = .ok then r.1.granWrite key p.1 p.2 else r) (d, .ok)

/-- Some granule of a physical range is poisoned. -/
def Dev.anyPoison (d : Dev) (pa n : Nat) : Bool :=
  (List.range (cdiv (pa % 256 + n) 256)).any (fun j => d.granPoisoned ((pa / 256 + j) * 256))

/-- A page zeroed through its group blocks (R250): zero bits set, poison cleared, majors incremented, minors 0; bytes read 0. -/
def Dev.zeroPage (d : Dev) (ppn : Nat) : Dev :=
  let d := (List.range 4).foldl (fun d j =>
    let g := ppn * 4 + j
    let b := d.group g
    d.setGroup g { b.bumpMajor with written := 0, poison := 0 }) d
  { d with cellar := memZero d.cellar (ppn * 65536) 65536 }

/-! ### Translation (R214 to R216) -/

/-- How a translation ends (R216). -/
inductive Xlat where
  | ok (pa key gen : Nat) (pinned : Bool)
  | notMapped (level : Nat)
  | fail (st : Status)
  | malformed
deriving DecidableEq, Repr

/-- A table entry's 64 bits at a physical address. -/
def Dev.pte (d : Dev) (pa : Nat) : Nat := memNat d.cellar pa 8

/-- The entry breaks the form of R215: a reserved bit set, the level rule broken, or a page outside the usable region. -/
def pteBad (level e : Nat) : Bool :=
  fld e 15 5 != 0 || fld e 47 39 != 0 || decide (usablePages ≤ fld e 38 16) ||
  (level == 0 && bit e 4) || (level == 2 && !bit e 4) ||
  (level == 1 && bit e 4 && fld e 28 16 != 0) || (!bit e 4 && fld e 63 48 != 0)

/-- Permission and key checks of a leaf (R216). -/
def Dev.leafCheck (d : Dev) (hoop e pa : Nat) (write : Bool) : Xlat :=
  if (!write && !bit e 1) || (write && !bit e 2) then .fail .accessDenied
  else
    match d.keyCheck hoop useMem (fld e 59 48) (fld e 63 60) with
    | some st => .fail st
    | none => .ok pa (fld e 59 48) (fld e 63 60) (bit e 3)

/-- The translation of R216. -/
def Dev.translate (d : Dev) (c va : Nat) (write : Bool) : Xlat :=
  let x := d.ctx c
  if va / 2 ^ 48 ≠ 0 then .fail .accessDenied
  else
    let e0 := d.pte (x.root * 65536 + fld va 47 42 * 8)
    if !bit e0 0 then .notMapped 0 else if pteBad 0 e0 then .malformed else
    let e1 := d.pte (fld e0 38 16 * 65536 + fld va 41 29 * 8)
    if !bit e1 0 then .notMapped 1 else if pteBad 1 e1 then .malformed else
    if bit e1 4 then d.leafCheck x.hoop e1 (fld e1 38 29 * 2 ^ 29 + fld va 28 0) write
    else
      let e2 := d.pte (fld e1 38 16 * 65536 + fld va 28 16 * 8)
      if !bit e2 0 then .notMapped 2 else if pteBad 2 e2 then .malformed else
      d.leafCheck x.hoop e2 (fld e2 38 16 * 65536 + fld va 15 0) write

/-- A virtual range cut at page boundaries: start and length of each piece. -/
def vaPieces : Nat → Nat → Nat → List (Nat × Nat)
  | 0, _, _ => []
  | fuel + 1, va, n =>
    if n = 0 then [] else
    let k := min n (65536 - va % 65536)
    (va, k) :: vaPieces fuel (va + k) (n - k)

/-- The pieces of a range. -/
def pieces (va n : Nat) : List (Nat × Nat) := vaPieces (n / 65536 + 2) va n

/-- How an access of a range ends: the physical pieces, a page not mapped (its address and level), a status, or a malformed entry. -/
inductive Reach where
  | ok (parts : List (Nat × Nat × Nat))
  | notMapped (va level : Nat)
  | fail (st : Status) (va : Nat)
  | malformed (va : Nat)
deriving DecidableEq, Repr

/-- Every page of a range translated, lowest first: physical address, length and key of each piece (R216). -/
def Dev.reachFrom (d : Dev) (c : Nat) (write : Bool) : List (Nat × Nat) → Reach
  | [] => .ok []
  | (va, n) :: r =>
    match d.translate c va write with
    | .ok pa key _ _ =>
      match d.reachFrom c write r with
      | .ok ps => .ok ((pa, n, key) :: ps)
      | x => x
    | .notMapped l => .notMapped va l
    | .fail st => .fail st va
    | .malformed => .malformed va

/-- Every page of `[va, va + n)` translated for the access. -/
def Dev.reach (d : Dev) (c va n : Nat) (write : Bool) : Reach := d.reachFrom c write (pieces va n)

/-- The status of a range that an access without a client of its own reaches (R530): none when every page translates. -/
def Reach.status : Reach → Option Status
  | .ok _ => none
  | .notMapped _ _ => some .pageFault
  | .fail st _ => some st
  | .malformed _ => some .accessDenied

/-- A malformed entry found by a walk is logged by hardware in the MMU page (R215). -/
def Dev.noteReach (d : Dev) : Reach → Dev
  | .malformed _ => d.logHw pgMmu 0 .malformed 0
  | _ => d

/-- Accounting counter `n` (0 to 13, the order of R301 Table 7) of a context raised by base units. -/
def Dev.charge (d : Dev) (c n amount : Nat) : Dev :=
  let x := d.ctx c
  if amount = 0 ∨ x.state = .free then d
  else d.setCtx c { x with acct := tabPut natDflt x.acct n (tabGet natDflt x.acct n + amount) }

/-- Energy of events added to the accounting counter (R301, `ACCT_EN`), in pJ. -/
def Dev.chargeEnergy (d : Dev) (c pj : Nat) : Dev := d.charge c 13 pj

/-- Energy coefficient, pJ, by its number in R297 Table 5: 0 matrix, 1 vector, 2 movement, 3 darner, 4 cellar, 5 Acaunel, 6 storage, 7 host. -/
def Dev.ec (d : Dev) (n : Nat) : Nat := d.regN pgSched 0 (0x1020 + 4 * n)

/-- Energy that a command caused, pJ (R297). -/
def Dev.cmdEnergy (d : Dev) (trk pj : Nat) : Dev :=
  let m := d.cmd trk
  if m.live then (d.setCmd trk { m with measured := m.measured + pj }).chargeEnergy m.ctx pj else d

/-- The bytes of physical pieces. -/
def Dev.physRead (d : Dev) (parts : List (Nat × Nat × Nat)) : List Byte :=
  parts.flatMap (fun p => memRead d.cellar p.1 p.2.1)

/-- Some piece is poisoned. -/
def Dev.partsPoisoned (d : Dev) (parts : List (Nat × Nat × Nat)) : Bool := parts.any (fun p => d.anyPoison p.1 p.2.1)

/-- What a read of a virtual range answers. -/
inductive RdAns where
  | data (bs : List Byte)
  | notMapped (va level : Nat)
  | fail (st : Status)
deriving DecidableEq, Repr

/-- A read of `n` bytes of a context's space: its bytes, or why not. -/
def Dev.readVa (d : Dev) (c va n : Nat) : RdAns :=
  match d.reach c va n false with
  | .ok ps => if d.partsPoisoned ps then .fail .uncorrectableMemory else .data (d.physRead ps)
  | .notMapped a l => .notMapped a l
  | .fail st _ => .fail st
  | .malformed _ => .fail .accessDenied

/-- The status of a read that awaits no answer (R530). -/
def RdAns.status : RdAns → Option Status
  | .data _ => none
  | .notMapped _ _ => some .pageFault
  | .fail st => some st

/-- The bytes of a read, none of them when it failed. -/
def RdAns.bytes : RdAns → List Byte
  | .data bs => bs
  | _ => []

/-- Bytes stored into physical pieces, in order; stops at the first refusal of the cellar unit. -/
def Dev.putParts (d : Dev) : List (Nat × Nat × Nat) → List Byte → Dev × Status
  | [], _ => (d, .ok)
  | (pa, n, key) :: r, bs =>
    match d.physWrite key pa (bs.take n) with
    | (d, .ok) => d.putParts r (bs.drop n)
    | x => x

/-- A write of bytes into a context's space; every page is translated before a byte moves (R115). -/
def Dev.writeVa (d : Dev) (c va : Nat) (bs : List Byte) : Dev × Option Status :=
  match d.reach c va bs.length true with
  | .ok ps => match d.putParts ps bs with
    | (d, .ok) => (d, none)
    | (d, st) => (d, some st)
  | r => (d.noteReach r, r.status)

/-! ### Host memory (R265) -/

/-- A host range lies wholly inside one valid window of the context that grants the access. -/
def Dev.hostOk (d : Dev) (c addr n : Nat) (write : Bool) : Bool :=
  (d.ctx c).windows.any (fun e =>
    decide (0 < e.2.pages) && decide (e.2.base ≤ addr) && decide (addr + n ≤ e.2.base + e.2.pages * 4096) &&
    (if write then e.2.w else e.2.r))

/-- Bytes of host memory. -/
def Dev.hostRead (d : Dev) (addr n : Nat) : List Byte := memRead d.hostMem addr n

/-- Bytes stored to host memory. -/
def Dev.hostWrite (d : Dev) (addr : Nat) (bs : List Byte) : Dev := { d with hostMem := memWrite d.hostMem addr bs }

/-- A read for a ring, in the host or in the context's cellar space (R266): none when the access fails. -/
def Dev.ringRead (d : Dev) (host : Bool) (c addr n : Nat) : Option (List Byte) :=
  if host then (if d.hostOk c addr n false then some (d.hostRead addr n) else none)
  else match d.readVa c addr n with
    | .data bs => some bs
    | _ => none

/-- A write for a ring: none when the access fails. -/
def Dev.ringWrite (d : Dev) (host : Bool) (c addr : Nat) (bs : List Byte) : Option Dev :=
  if host then (if d.hostOk c addr bs.length true then some (d.hostWrite addr bs) else none)
  else match d.writeVa c addr bs with
    | (d, none) => some d
    | _ => none

end Sys2Proof.Machine
end

