-- ==== Sys2Proof/Machine/Holds.lean ====
section
/-! DEFINITION. What a command holds while it runs: read holds on update fences (R184) and holds on model-cache entries (R196,
R202), and their release. -/
namespace Sys2Proof.Machine

/-- An accepted class G command not yet completed, other than `trk`, names the model in the hoop (R202). -/
def Dev.namedByG (d : Dev) (trk hoop model : Nat) : Bool :=
  d.cmds.any (fun e => e.1 != trk && e.2.live && e.2.hoop == hoop && decide (bytesNat e.2.desc 1 1 % 4 = 0) && e.2.lookup.contains model)

/-- An update fence without the command: as a reader, as a waiter and as the STEP that runs. -/
def Fence.drop (f : Fence) (trk : Nat) : Fence :=
  { f with readers := f.readers.filter (· != trk), waiting := f.waiting.filter (·.1 != trk),
           running := if f.running = some trk then none else f.running }

/-- A model-cache entry without the command's hold: a dropped entry is freed with its last hold, a deferred UNPIN takes effect
with the last class G command that names the entry (R194, R202). -/
def Dev.mcRelease (d : Dev) (e : McEntry) (trk : Nat) : McEntry :=
  let e := { e with holders := e.holders.filter (· != trk) }
  if e.dropping && e.holders.isEmpty then {}
  else if e.unpinPend && !d.namedByG trk e.hoop e.model then { e with unpinPend := false, pinned := false }
  else e

/-- Every fence rewritten. -/
def Dev.mapFences (d : Dev) (f : Nat → Fence → Fence) : Dev :=
  (d.fences.map (·.1)).foldl (fun d k => d.setFence k (f k (d.fence k))) d

/-- Every model-cache entry rewritten. -/
def Dev.mapMc (d : Dev) (f : Nat → McEntry → McEntry) : Dev :=
  (d.mc.map (·.1)).foldl (fun d k => d.setMce k (f k (d.mce k))) d

/-- Fence holds and model-cache holds of a command released (R184, R196). -/
def Dev.releaseHolds (d : Dev) (trk : Nat) : Dev :=
  let d := d.mapFences (fun _ f => f.drop trk)
  d.mapMc (fun _ e => d.mcRelease e trk)

/-- A model-cache entry dropped (R194, R195): unregistered at once, its lines held until its holds reach zero. -/
def Dev.mcDrop (d : Dev) (k : Nat) : Dev :=
  let e := d.mce k
  if !e.assigned then d
  else if e.holders.isEmpty && !e.filling then d.setMce k {} else d.setMce k { e with dropping := true }

/-- Every entry that satisfies `p` dropped. -/
def Dev.mcDropAll (d : Dev) (p : McEntry → Bool) : Dev :=
  (tabKeys (fun _ e => e.assigned && p e) d.mc).foldl Dev.mcDrop d

/-- Entries with a page of the given PPN dropped: an invalidation, a scrub or a retirement (R195). -/
def Dev.mcDropPage (d : Dev) (ppn : Nat) : Dev := d.mcDropAll (fun e => e.pages.any (fun p => p.1 == ppn))

/-- Entries under a key slot that drains or changes its generation dropped (R195). -/
def Dev.mcDropKey (d : Dev) (key : Nat) : Dev := d.mcDropAll (fun e => e.pages.any (fun p => p.2.1 == key))

end Sys2Proof.Machine
end

