-- ==== Sys2Proof/Machine/Commands.lean ====
section
/-! DEFINITION. Commands of a queue (R266 to R275, R293 to R297): the descriptor's fields, signals, the energy bucket, the
withdrawal of a promise, and the finishing of a command. -/
namespace Sys2Proof.Machine

/-! ### The descriptor (R271 Table 6) -/

/-- Field of a command's descriptor: bytes `[off, off + n)`. -/
def Cmd.df (m : Cmd) (off n : Nat) : Nat := bytesNat m.desc off n

/-- `TYPE`. -/
def Cmd.typ (m : Cmd) : Nat := m.df 0 1
/-- Service class: 0 G, 1 S, 2 B. -/
def Cmd.cls (m : Cmd) : Nat := fld (m.df 1 1) 1 0
/-- `EVAL`. -/
def Cmd.eval (m : Cmd) : Bool := bit (m.df 1 1) 2
/-- `HOLD`. -/
def Cmd.hold (m : Cmd) : Bool := bit (m.df 1 1) 3
/-- `IRQ`. -/
def Cmd.irq (m : Cmd) : Bool := bit (m.df 1 1) 4
/-- `FENCE`. -/
def Cmd.fence (m : Cmd) : Nat := m.df 2 2
/-- `ENTRY`. -/
def Cmd.entry (m : Cmd) : Nat := m.df 4 2
/-- `NMODEL`. -/
def Cmd.nmodel (m : Cmd) : Nat := m.df 6 1
/-- `DEPS`. -/
def Cmd.deps (m : Cmd) : Nat := m.df 7 1
/-- `STEP`. -/
def Cmd.stepOp (m : Cmd) : Nat := m.df 8 4
/-- `TAG`. -/
def Cmd.tag (m : Cmd) : Nat := m.df 12 4
/-- `ARG`. -/
def Cmd.arg (m : Cmd) : Nat := m.df 16 8
/-- `ARG2`. -/
def Cmd.arg2 (m : Cmd) : Nat := m.df 24 8

/-- Type codes of R271 Table 7. -/
def tyExec : Nat := 0x01
def tyLoad : Nat := 0x02
def tyUnload : Nat := 0x03
def tyUpdate : Nat := 0x04
def tyDma : Nat := 0x05
def tyMmu : Nat := 0x06
def tyCache : Nat := 0x07
def tyCollective : Nat := 0x08
def tyStorage : Nat := 0x09
def tyCheckpoint : Nat := 0x0A
def tySignal : Nat := 0x0B

/-- Field of the block that `ARG` names, read at decision (R268, R272). -/
def Cmd.bf (m : Cmd) (off n : Nat) : Nat := bytesNat m.block off n

/-- The commands of a context that are accepted and not completed. -/
def Dev.cmdsOf (d : Dev) (p : Cmd → Bool) : List Nat := tabKeys (fun _ m => m.live && p m) d.cmds

/-- Something that changes a live command. -/
def Dev.updCmd (d : Dev) (trk : Nat) (f : Cmd → Cmd) : Dev :=
  let m := d.cmd trk
  if m.live then d.setCmd trk (f m) else d

/-- A further status applies to a command (R12). -/
def Dev.cmdStatus (d : Dev) (trk : Nat) (st : Status) : Dev :=
  d.updCmd trk (fun m => { m with status := stCombine m.status st.code })

/-- The command's work has ended; its completion follows (R270). -/
def Dev.finish (d : Dev) (trk : Nat) (st : Status) : Dev :=
  d.updCmd trk (fun m => { m with status := stCombine m.status st.code, stage := .finished })

/-! ### Timeline events (R275) -/

/-- Signalling `v`: the value becomes the greater; a signal below it only sets `BACKWARD` (R275). -/
def Dev.signalEvt (d : Dev) (e v : Nat) : Dev :=
  let x := d.evt e
  if !x.valid then d
  else if v < x.value then d.orReg pgEvt e 0x0114 1
  else d.setEvt e { x with value := v }

/-- The event may be used by the context: its own, or shared in its hoop (R274). -/
def Dev.evtUsable (d : Dev) (c e : Nat) : Bool :=
  let x := d.evt e
  x.valid && (x.ctx == c || (x.shared && x.hoop == (d.ctx c).hoop))

/-! ### Energy (R297) -/

/-- Depth of a hoop's bucket: the power cap times 10 ms, in µJ (R297). -/
def Hoop.depth (h : Hoop) : Int := (h.inForce.power : Int) * 10000

/-- The bucket refilled up to the present fabric time, in whole µJ, never above its depth (R297). -/
def Hoop.refill (h : Hoop) (now : Nat) : Hoop :=
  let t := h.inForce.power * (now - h.refillNs) + h.refillRem
  { h with energy := min h.depth (h.energy + ((t / 1000 : Nat) : Int)), refillNs := max now h.refillNs, refillRem := t % 1000 }

/-- The hoop's bucket brought up to now. -/
def Dev.refillHoop (d : Dev) (h : Nat) : Dev :=
  if (d.hoop h).state = .free then d else d.setHoop h ((d.hoop h).refill d.now)

/-- At completion the charge is replaced by the energy used, rounded up to whole µJ, never above the depth (R297). -/
def Hoop.settle (h : Hoop) (estimate measuredPj : Nat) : Hoop :=
  { h with energy := min h.depth (h.energy + (estimate : Int) - (cdiv measuredPj 1000000 : Nat)) }

/-! ### Priced work (R293, R294) -/

/-- The sum over resources. -/
def tabSum (t : Table Nat) : Nat := t.foldl (fun a e => a + e.2) 0

/-- Each resource's sum raised by a command's price. -/
def pricesAdd (t p : Table Nat) : Table Nat :=
  p.foldl (fun t e => tabPut natDflt t e.1 (tabGet natDflt t e.1 + e.2)) t

/-- Each resource's sum lowered by a command's price. -/
def pricesSub (t p : Table Nat) : Table Nat :=
  p.foldl (fun t e => tabPut natDflt t e.1 (tabGet natDflt t e.1 - e.2)) t

/-- A completed command's prices leave the accepted sum, and the released sum if it was released (R293). -/
def Hoop.drop (h : Hoop) (m : Cmd) : Hoop :=
  { h with accepted := pricesSub h.accepted m.prices,
           released := if m.released then pricesSub h.released m.prices else h.released }

/-! ### Withdrawal (R296) -/

/-- Causes of R296 Table 4. -/
def wFault : Nat := 0x1
def wThermal : Nat := 0x2
def wStandin : Nat := 0x3
def wReplay : Nat := 0x4
def wMacRetry : Nat := 0x5
def wPicot : Nat := 0x6
def wLanes : Nat := 0x7
def wDarner : Nat := 0x8
def wMiss : Nat := 0xF

/-- The first event withdraws a class G command's promise: its cause, and `HOOP_WITHDRAWN` (R296). -/
def Dev.withdraw (d : Dev) (trk cause : Nat) : Dev :=
  let m := d.cmd trk
  if m.live && m.cls == 0 && m.cause == 0 then
    (d.setCmd trk { m with cause := cause }).bumpRc pgHoop m.hoop 0x0170 1
  else d

/-- Withdraw every class G command not yet completed that satisfies `p`. -/
def Dev.withdrawAll (d : Dev) (cause : Nat) (p : Cmd → Bool) : Dev :=
  (d.cmdsOf p).foldl (fun d t => d.withdraw t cause) d

/-- A deadline that has passed with no withdrawal: cause MISS, counted for the hoop and logged as 0x80 (R295, R296). -/
def Dev.missDeadline (d : Dev) (trk : Nat) : Dev :=
  let m := d.cmd trk
  if m.live && m.cls == 0 && m.released && m.cause == 0 && decide (m.deadline < d.now) then
    let d := d.withdraw trk wMiss
    let d := d.bumpRc pgRas m.hoop 0x0110 1
    d.rasLog { cause := 0x80, cls := 3, status := Status.promiseWithdrawn.code, hoop := m.hoop, ctx := m.ctx, tracker := trk }
  else d

/-! ### Completion (R270) -/

/-- A completion record (R270 Table 4); `kind` is 1 for `REJECT` and 2 for `DONE`. -/
def cplRecord (q : Queue) (status kind seq tag trk : Nat) : List Byte :=
  let phase := 1 - (seq / 2 ^ q.log2) % 2
  toBytes 2 status ++ toBytes 1 (phase + kind * 2) ++ toBytes 1 0 ++ toBytes 4 seq ++ toBytes 4 tag ++ toBytes 2 trk ++ toBytes 2 0

/-- Write a completion record in slot s mod size of the queue's completion ring; a record that cannot be written is dropped, with
`CPL_ERR`, and the queue enters ERROR (R270). -/
def Dev.writeCpl (d : Dev) (qn status kind seq tag trk : Nat) : Dev :=
  let q := d.queue qn
  let a := q.cpl + 16 * (seq % 2 ^ q.log2)
  match d.ringWrite q.cplHost q.ctx a (cplRecord q status kind seq tag trk) with
  | some d => d.setQueue qn { d.queue qn with done := ((d.queue qn).done + 1) % 2 ^ 32 }
  | none => (d.setQueue qn { q with error := true }).orReg pgQue qn 0x012C 8

/-- The queue's MSI-X vector, sent to the function of its context. -/
def Dev.queueIrq (d : Dev) (qn : Nat) : Dev := d.emit (.msix (d.ctx (d.queue qn).ctx).func (d.queue qn).vec)

/-- The status a command's completion reports: what applies to it, with `PROMISE_WITHDRAWN` where its promise was withdrawn (R12, R296). -/
def Cmd.finalStatus (m : Cmd) (st : Nat) : Nat :=
  let s := stCombine m.status st
  if m.cause = 0 then s else stCombine s Status.promiseWithdrawn.code

/-- An accepted command finishes (R270): a late deadline is a miss; on a success code the signal event is signalled; the record
is written unless `silent`; MSI-X follows `IRQ`; the prices, the energy charge, the holds and the tracker are given back. -/
def Dev.complete (d : Dev) (trk st : Nat) (silent : Bool) : Dev :=
  let m := d.cmd trk
  if !m.live then d
  else
    let d := d.missDeadline trk
    let m := d.cmd trk
    let s := m.finalStatus st
    let d := if stSuccess s && bit m.deps 2 then d.signalEvt (m.df 36 2) (m.df 56 8) else d
    let d := if silent then d else d.writeCpl m.queue s 2 m.seq m.tag trk
    let d := if !silent && m.irq then d.queueIrq m.queue else d
    let d := d.releaseHolds trk
    let d := d.refillHoop m.hoop
    let h := d.hoop m.hoop
    let d := if h.state = .free then d else d.setHoop m.hoop ((h.drop m).settle m.estimate m.measured)
    d.setCmd trk {}

/-- A rejection: the record with `KIND` = `REJECT`, the count, and MSI-X under `IRQ` (R268). -/
def Dev.reject (d : Dev) (qn seq : Nat) (desc : List Byte) (st : Nat) : Dev :=
  let d := d.writeCpl qn st 1 seq (bytesNat desc 12 4) 0xFFFF
  let d := d.bumpRc pgQue qn 0x0130 1
  if bit (bytesNat desc 1 1) 4 then d.queueIrq qn else d

/-- The lowest free in-flight tracker (R23); which free tracker the device takes is not stated (log entry 11). -/
def Dev.freeTracker (d : Dev) : Option Nat := lowestFrom (fun t => !(d.cmd t).live) 0 (min 65536 (d.cmds.length + 1))

end Sys2Proof.Machine
end

