-- ==== Sys2Proof/Machine/DmaBlock.lean ====
section
/-! DEFINITION. The DMA block (R225 Table 9), its segments (R227), the work estimate (R226), the release policy of a joint hoop
(R415) and the result record of a DMA command (R228 Table 10), with how a DMA command that stops leaves it. -/
namespace Sys2Proof.Machine

/-! ### The block -/

/-- `OP`: 1 COPY, 2 TRANSPOSE, 3 FILL. -/
def Cmd.dop (m : Cmd) : Nat := m.bf 0 2
/-- Source space: 0 cellar, 1 host, 2 none. -/
def Cmd.dSrcSp (m : Cmd) : Nat := fld (m.bf 2 1) 1 0
/-- Destination space: 0 cellar, 1 host. -/
def Cmd.dDstSp (m : Cmd) : Nat := fld (m.bf 2 1) 3 2
/-- `ESIZE`. -/
def Cmd.dEsize (m : Cmd) : Nat := m.bf 3 1
/-- `SRC`. -/
def Cmd.dSrc (m : Cmd) : Nat := m.bf 8 8
/-- `DST`. -/
def Cmd.dDst (m : Cmd) : Nat := m.bf 16 8
/-- `ROWS`. -/
def Cmd.dRows (m : Cmd) : Nat := m.bf 24 4
/-- `ROW_BYTES`. -/
def Cmd.dRowB (m : Cmd) : Nat := m.bf 28 4
/-- `SRC_PITCH`. -/
def Cmd.dSrcP (m : Cmd) : Nat := m.bf 32 8
/-- `DST_PITCH`. -/
def Cmd.dDstP (m : Cmd) : Nat := m.bf 40 8
/-- `RESULT`. -/
def Cmd.dResult (m : Cmd) : Nat := m.bf 48 8
/-- Bytes moved in all. -/
def Cmd.dTotal (m : Cmd) : Nat := m.dRows * m.dRowB
/-- Destination rows and the bytes of each (R225). -/
def Cmd.dShape (m : Cmd) : Nat × Nat := if m.dop = 2 then (m.dRowB / m.dEsize, m.dRows * m.dEsize) else (m.dRows, m.dRowB)
/-- Bytes from the first to the last byte of the source. -/
def Cmd.dSrcSpan (m : Cmd) : Nat := (m.dRows - 1) * m.dSrcP + m.dRowB
/-- Bytes from the first to the last byte of the destination. -/
def Cmd.dDstSpan (m : Cmd) : Nat := (m.dShape.1 - 1) * m.dDstP + m.dShape.2
/-- Segments of the command (R227). -/
def Cmd.dSegs (m : Cmd) : Nat := cdiv m.dTotal 65536

/-- Two ranges of addresses meet. -/
def rangesMeet (a n b k : Nat) : Bool := decide (a < b + k) && decide (b < a + n)

/-- A cellar range that leaves the 48-bit space (R214). -/
def vaBad (a n : Nat) : Bool := decide (2 ^ 48 < a + n)

/-- The block breaks R225 or R214. -/
def Cmd.dmaBad (m : Cmd) : Bool :=
  m.block.length != 64 || m.dop == 0 || decide (3 < m.dop) || fld (m.bf 2 1) 7 4 != 0 || m.bf 4 4 != 0 || m.bf 56 8 != 0 ||
  m.dSrcSp == 3 || decide (1 < m.dDstSp) || (m.dSrcSp == 2) != (m.dop == 3) || (m.dSrcSp == 1 && m.dDstSp == 1) ||
  m.dRows == 0 || decide (2 ^ 24 < m.dRows) || m.dTotal == 0 || decide (2 ^ 32 < m.dTotal) ||
  m.dResult % 256 != 0 || vaBad m.dResult (32 + cdiv m.dSegs 8) ||
  (if m.dop = 2 then !(m.dEsize == 1 || m.dEsize == 2 || m.dEsize == 4) || m.dSrc % m.dEsize != 0 || m.dDst % m.dEsize != 0 ||
      m.dSrcP % m.dEsize != 0 || m.dDstP % m.dEsize != 0 || m.dRowB % m.dEsize != 0
    else m.dEsize != 0) ||
  (m.dop == 3 && (m.dRowB % 4 != 0 || decide (2 ^ 32 ≤ m.dSrc) || m.dSrcP != 0)) ||
  (m.dop != 3 && decide (1 < m.dRows) && decide (m.dSrcP < m.dRowB)) ||
  (decide (1 < m.dShape.1) && decide (m.dDstP < m.dShape.2)) ||
  (m.dSrcSp == 0 && vaBad m.dSrc m.dSrcSpan) || (m.dDstSp == 0 && vaBad m.dDst m.dDstSpan) ||
  (m.dSrcSp == 0 && m.dDstSp == 0 && rangesMeet m.dSrc m.dSrcSpan m.dDst m.dDstSpan)

/-- The work estimate, NCLK cycles (R226). -/
def Cmd.dmaEst (m : Cmd) : Nat :=
  96 + cdiv m.dTotal (if m.dSrcSp = 1 ∨ m.dDstSp = 1 then 75 else if m.dop = 2 then 128 else 256)

/-- The bytes `[p, hi)` of the destination stream: destination, source, length, and byte of the row (R225, R227). -/
def Cmd.dPieces (m : Cmd) : Nat → Nat → Nat → List (Nat × Nat × Nat × Nat)
  | 0, _, _ => []
  | fuel + 1, p, hi =>
    if hi ≤ p then [] else
    let len := m.dShape.2
    let c := p / len
    let j := p % len
    if m.dop = 2 then
      (m.dDst + c * m.dDstP + j, m.dSrc + j / m.dEsize * m.dSrcP + c * m.dEsize, m.dEsize, 0) :: m.dPieces fuel (p + m.dEsize) hi
    else
      let n := min (len - j) (hi - p)
      (m.dDst + c * m.dDstP + j, m.dSrc + c * m.dSrcP + j, n, j) :: m.dPieces fuel (p + n) hi

/-- The pieces of segment `i`. -/
def Cmd.dSeg (m : Cmd) (i : Nat) : List (Nat × Nat × Nat × Nat) := m.dPieces 65536 (i * 65536) (min ((i + 1) * 65536) m.dTotal)

/-- Bytes of segment `i`. -/
def Cmd.dSegBytes (m : Cmd) (i : Nat) : Nat := min ((i + 1) * 65536) m.dTotal - i * 65536

/-- Source pieces as page pieces. -/
def dSrcPages (ps : List (Nat × Nat × Nat × Nat)) : List (Nat × Nat) := ps.flatMap (fun p => pieces p.2.1 p.2.2.1)
/-- Destination pieces as page pieces. -/
def dDstPages (ps : List (Nat × Nat × Nat × Nat)) : List (Nat × Nat) := ps.flatMap (fun p => pieces p.1 p.2.2.1)

/-- The FILL pattern across pieces: `SRC`[7:0] at the first byte of each row (R225). -/
def Cmd.dFill (m : Cmd) (ps : List (Nat × Nat × Nat × Nat)) : List Byte :=
  ps.flatMap (fun p => (List.range p.2.2.1).map (fun j => BitVec.ofNat 8 (m.dSrc >>> (8 * ((p.2.2.2 + j) % 4)))))

/-! ### Data leaving a joint hoop (R415) -/

/-- Kinds of R415 Table 16. -/
def relHost : Nat := 1
def relFile : Nat := 2
def relLink : Nat := 3
def relCipher : Nat := 4
def relStats : Nat := 5

/-- The security policy of a hoop. -/
def Dev.hoopSec (d : Dev) (h : Nat) : HoopSec := tabGet (fun _ => ({} : HoopSec)) d.sec.hoops h

/-- The security policy of a hoop replaced. -/
def Dev.setHoopSec (d : Dev) (h : Nat) (x : HoopSec) : Dev :=
  { d with sec := { d.sec with hoops := tabPut (fun _ => ({} : HoopSec)) d.sec.hoops h x } }

/-- A page of a source may leave the hoop: any page of a hoop that is not joint; of a joint hoop, one that an entry of the release
policy covers (R415). -/
def Dev.mayLeave (d : Dev) (h kind skey dkey downer : Nat) : Bool :=
  !(d.hoop h).joint || (d.hoopSec h).policy.any (fun e => e.kind == kind && e.skey == skey && e.dkey == dkey && e.downer == downer)

/-! ### The result record (R228) -/

/-- Bytes of good segments. -/
def Cmd.dGood (m : Cmd) : Nat := m.dTotal - m.failed.foldl (fun a i => a + m.dSegBytes i) 0

/-- The result record. -/
def Cmd.dRecord (m : Cmd) (st : Nat) : List Byte :=
  toBytes 2 st ++ toBytes 2 0 ++ toBytes 4 m.dSegs ++ toBytes 4 m.failed.length ++ toBytes 4 m.cursor ++ toBytes 8 m.dGood ++ toBytes 8 0 ++
  (List.range (cdiv m.dSegs 8)).map (fun b => BitVec.ofNat 8 ((List.range 8).foldl (fun a j => a + b2n (m.failed.contains (8 * b + j)) * 2 ^ j) 0))

/-- The pages of the result record have been translated. -/
def Cmd.dRecReady (m : Cmd) : Bool := m.scratch.headD 0 == 1

/-- The record written at `RESULT`; nothing where its pages were never translated (R228). -/
def Dev.dmaRecord (d : Dev) (trk : Nat) (st : Status) : Dev :=
  let m := d.cmd trk
  if m.live && m.typ == tyDma && m.dRecReady && m.stage != .finished then (d.writeVa m.ctx m.dResult (m.dRecord (m.finalStatus st.code))).1 else d

/-- Destination bytes of a failed segment: free values wherever the destination translates (R228, log entry 2). -/
def Dev.dmaUndef (d : Dev) (m : Cmd) (i : Nat) : Dev :=
  (m.dSeg i).foldl (fun d p =>
    let bs := d.freeBytes p.2.2.1
    let d := d.ticks p.2.2.1
    if m.dDstSp = 1 then (if d.hostOk m.ctx p.1 p.2.2.1 true then d.hostWrite p.1 bs else d)
    else (d.writeVa m.ctx p.1 bs).1) d

/-- A DMA command stops with a status: the cursor and every later segment are failed, their bytes undefined, and the record written (R229). -/
def Dev.dmaStop (d : Dev) (trk : Nat) (st : Status) : Dev :=
  let m := d.cmd trk
  if m.live && m.typ == tyDma && m.dRecReady && m.stage != .finished then
    let later := (List.range (m.dSegs - m.cursor)).map (· + m.cursor)
    let d := later.foldl (fun d i => d.dmaUndef m i) d
    (d.updCmd trk (fun m => { m with failed := m.failed ++ later })).dmaRecord trk st
  else d

end Sys2Proof.Machine
end

