-- ==== Sys2Proof/Machine/Numeric.lean ====
section
/-! DEFINITION. Number formats (chapter 2): the element and scale formats, exact values, the three roundings, conversions,
FP32 arithmetic and the transcendental functions (R26 to R39, R97, R131). -/
namespace Sys2Proof.Machine

/-! ### Formats (R26, R29, R30) -/

/-- The format codes of R26, Table 1. -/
inductive Fmt where
  | fp32 | bf16 | fp16 | e4m3 | e5m2 | e3m2 | e2m3 | e2m1 | int32 | int8 | int4 | int2 | tri | ue8m0 | ue4m3 | reserved
deriving DecidableEq, Repr

/-- The format that a 4-bit code names. -/
def Fmt.ofCode (c : Nat) : Fmt :=
  match c with
  | 0x0 => .fp32 | 0x1 => .bf16 | 0x2 => .fp16 | 0x3 => .e4m3 | 0x4 => .e5m2 | 0x5 => .e3m2 | 0x6 => .e2m3
  | 0x7 => .e2m1 | 0x8 => .int32 | 0x9 => .int8 | 0xA => .int4 | 0xB => .int2 | 0xC => .tri | 0xD => .ue8m0
  | 0xE => .ue4m3 | _ => .reserved

/-- Parameters of a floating-point format: mantissa bits, bias, storage bits, the greatest finite magnitude code, the infinity
and the canonical NaN codes (R29 Table 2, R30 Table 3). -/
structure FloatPar where
  p : Nat
  bias : Nat
  bits : Nat
  top : Nat
  inf : Option Nat
  nan : Option Nat
deriving DecidableEq, Repr

/-- binary32. -/
def parF32 : FloatPar := { p := 23, bias := 127, bits := 32, top := 0x7F7FFFFF, inf := some 0x7F800000, nan := some 0x7FC00000 }

/-- E4M3: also the magnitudes of UE4M3 (R32). -/
def parE4M3 : FloatPar := { p := 3, bias := 7, bits := 8, top := 0x7E, inf := none, nan := some 0x7F }

/-- The parameters of a floating-point element format. -/
def Fmt.float : Fmt → Option FloatPar
  | .fp32 => some parF32
  | .bf16 => some { p := 7, bias := 127, bits := 16, top := 0x7F7F, inf := some 0x7F80, nan := some 0x7FC0 }
  | .fp16 => some { p := 10, bias := 15, bits := 16, top := 0x7BFF, inf := some 0x7C00, nan := some 0x7E00 }
  | .e4m3 => some parE4M3
  | .e5m2 => some { p := 2, bias := 15, bits := 8, top := 0x7B, inf := some 0x7C, nan := some 0x7E }
  | .e3m2 => some { p := 2, bias := 3, bits := 6, top := 0x1F, inf := none, nan := none }
  | .e2m3 => some { p := 3, bias := 1, bits := 6, top := 0x1F, inf := none, nan := none }
  | .e2m1 => some { p := 1, bias := 1, bits := 4, top := 0x7, inf := none, nan := none }
  | _ => none

/-- Storage bits of an element; 0 where five trits share a byte. -/
def Fmt.bits : Fmt → Nat
  | .fp32 | .int32 => 32
  | .bf16 | .fp16 => 16
  | .e4m3 | .e5m2 | .int8 | .ue8m0 | .ue4m3 => 8
  | .e3m2 | .e2m3 => 6
  | .e2m1 | .int4 => 4
  | .int2 => 2
  | .tri | .reserved => 0

/-- Width of an integer format. -/
def Fmt.intBits : Fmt → Option Nat
  | .int32 => some 32 | .int8 => some 8 | .int4 => some 4 | .int2 => some 2
  | _ => none

/-! ### Exact values (R35) -/

/-- An exact rational: sign, numerator, denominator (not 0). Zero keeps its sign. -/
structure Ex where
  neg : Bool := false
  num : Nat := 0
  den : Nat := 1
deriving DecidableEq, Repr

/-- A decoded value. -/
inductive Val where
  | nan
  | inf (neg : Bool)
  | fin (x : Ex)
deriving DecidableEq, Repr

/-- Plus zero. -/
def Val.zero : Val := .fin {}

/-- ± m × 2^e. -/
def exScaled (neg : Bool) (m : Nat) (e : Int) : Ex := { neg := neg, num := m * 2 ^ e.toNat, den := 2 ^ (-e).toNat }

/-- An integer. -/
def exInt (x : Int) : Ex := { neg := decide (x < 0), num := x.natAbs }

/-- The exact sum; a zero sum is −0 only when both terms are negative (IEEE 754, R31). -/
def Ex.add (a b : Ex) : Ex :=
  let mk := fun (x y d : Nat) =>
    if a.neg == b.neg then { neg := a.neg, num := x + y, den := d : Ex }
    else if x = y then { neg := false, num := 0, den := 1 }
    else if y < x then { neg := a.neg, num := x - y, den := d }
    else { neg := b.neg, num := y - x, den := d }
  if a.den % b.den = 0 then mk a.num (b.num * (a.den / b.den)) a.den
  else if b.den % a.den = 0 then mk (a.num * (b.den / a.den)) b.num b.den
  else mk (a.num * b.den) (b.num * a.den) (a.den * b.den)

/-- The exact product. -/
def Ex.mul (a b : Ex) : Ex := { neg := a.neg != b.neg, num := a.num * b.num, den := a.den * b.den }

/-- The exact quotient; the divisor is not 0. -/
def Ex.div (a b : Ex) : Ex := { neg := a.neg != b.neg, num := a.num * b.den, den := a.den * b.num }

/-- Magnitudes compared: |a| < |b|. -/
def Ex.absLt (a b : Ex) : Bool := decide (a.num * b.den < b.num * a.den)

/-- Signed comparison a < b; zeros equal. -/
def Ex.lt (a b : Ex) : Bool :=
  if a.num = 0 && b.num = 0 then false
  else match a.neg, b.neg with
    | false, false => a.absLt b
    | true, true => b.absLt a
    | true, false => true
    | false, true => false

/-- floor(log2(num/den)) of a positive rational. -/
def ratLog2 (num den : Nat) : Int :=
  let k : Int := (Nat.log2 num : Int) - (Nat.log2 den : Int)
  if den * 2 ^ k.toNat ≤ num * 2 ^ (-k).toNat then k else k - 1

/-! ### Rounding (R34, R35, R36) -/

/-- A rounding mode; stochastic rounding with the 16 random bits of the element. -/
inductive RMode where
  | rne
  | rz
  | sr (r : Nat)
deriving DecidableEq, Repr

/-- The reproducible generator (R36). -/
def srBits (tid step idx : Nat) : Nat :=
  let k := tid % 2 ^ 32 * 2 ^ 32 + step % 2 ^ 32
  let z := (idx % 2 ^ 48) ^^^ k
  let z := ((z ^^^ (z >>> 29)) * 0xB7E151628AED2A6B) % 2 ^ 64
  let z := z ^^^ k
  let z := ((z ^^^ (z >>> 32)) * 0x9E6C63D0676A9A99) % 2 ^ 64
  let z := ((z ^^^ (z >>> 29)) * 0xE7037ED1A0B428DB) % 2 ^ 64
  z >>> 48

/-- A mode field's rounding for one element: 0 RNE, 1 RZ, 2 SR (R34 Table 4). -/
def rmode (code tid step idx : Nat) : RMode :=
  match code with
  | 0 => .rne
  | 1 => .rz
  | _ => .sr (srBits tid step idx)

/-- Round up: the fraction is rem/d above an integer `lo` of units in the last place (R35). -/
def RMode.up (m : RMode) (lo rem d : Nat) : Bool :=
  match m with
  | .rne => decide (d < 2 * rem) || (decide (2 * rem = d) && decide (lo % 2 = 1))
  | .rz => false
  | .sr r => decide (rem ≠ 0) && decide (65536 ≤ rem * 65536 / d + r)

/-- |x| in units of 2^u: whole units, remainder, divisor. -/
def Ex.inUnits (x : Ex) (u : Int) : Nat × Nat × Nat :=
  let n := x.num * 2 ^ (-u).toNat
  let d := x.den * 2 ^ u.toNat
  (n / d, n % d, d)

/-- Exponent of the unit in the last place of |x| (R35). -/
def FloatPar.ulp (f : FloatPar) (x : Ex) : Int :=
  max (ratLog2 x.num x.den) (1 - (f.bias : Int)) - (f.p : Int)

/-- Magnitude code of |x| rounded with unbounded exponent range: codes of a format rise with their values. -/
def FloatPar.round (f : FloatPar) (m : RMode) (x : Ex) : Nat :=
  if x.num = 0 then 0
  else
    let u := f.ulp x
    let q := x.inUnits u
    (u - (1 - (f.bias : Int) - (f.p : Int))).toNat * 2 ^ f.p + (q.1 + b2n (m.up q.1 q.2.1 q.2.2))

/-- The smallest magnitude code whose value is not less than |x| (`round_up`, R44). -/
def FloatPar.roundUp (f : FloatPar) (x : Ex) : Nat :=
  if x.num = 0 then 0
  else
    let u := f.ulp x
    let q := x.inUnits u
    (u - (1 - (f.bias : Int) - (f.p : Int))).toNat * 2 ^ f.p + (q.1 + b2n (decide (q.2.1 ≠ 0)))

/-- The exact value of a finite magnitude code. -/
def FloatPar.value (f : FloatPar) (neg : Bool) (code : Nat) : Ex :=
  let e := code / 2 ^ f.p
  let m := code % 2 ^ f.p
  if e = 0 then exScaled neg m (1 - (f.bias : Int) - (f.p : Int))
  else exScaled neg (2 ^ f.p + m) ((e : Int) - (f.bias : Int) - (f.p : Int))

/-- A floating-point encoding decoded (R29, R30). -/
def FloatPar.decode (f : FloatPar) (code : Nat) : Val :=
  let neg := bit code (f.bits - 1)
  let mag := code % 2 ^ (f.bits - 1)
  if mag ≤ f.top then .fin (f.value neg mag)
  else if f.inf = some mag then .inf neg
  else .nan

/-- An element of a format decoded; integers are two's complement (R29, R32, R33). -/
def Fmt.decode (f : Fmt) (code : Nat) : Val :=
  match f.float with
  | some p => p.decode code
  | none =>
    match f with
    | .ue8m0 => if code = 255 then .nan else .fin (exScaled false 1 ((code : Int) - 127))
    | .ue4m3 => if 0x7F ≤ code then .nan else parE4M3.decode code
    | .tri => .fin (exInt ((code : Int) - 1))
    | .reserved => .nan
    | .int32 => .fin (exInt (sint 32 code))
    | .int8 => .fin (exInt (sint 8 code))
    | .int4 => .fin (exInt (sint 4 code))
    | .int2 => .fin (exInt (sint 2 code))
    | _ => .nan

/-- The sign bit of a format put on a magnitude. -/
def FloatPar.sign (f : FloatPar) (neg : Bool) (mag : Nat) : Nat := mag + b2n neg * 2 ^ (f.bits - 1)

/-! ### Conversions (R37, R38) -/

/-- An integer range: minimum and maximum of a format of `w` bits, or −1 and +1 of a trit. -/
def Fmt.intRange (f : Fmt) : Int × Int :=
  match f.intBits with
  | some w => (-(2 ^ (w - 1) : Int), 2 ^ (w - 1) - 1)
  | none => (-1, 1)

/-- |x| rounded to an integer, its sign kept. -/
def Ex.toInt (x : Ex) (m : RMode) : Int :=
  let q := x.inUnits 0
  let k : Int := ((q.1 + b2n (m.up q.1 q.2.1 q.2.2) : Nat) : Int)
  if x.neg then -k else k

/-- Code of an integer value in an integer format; a trit code is its value plus 1. -/
def Fmt.intCode (f : Fmt) (k : Int) : Nat :=
  match f.intBits with
  | some w => unsint w k
  | none => (k + 1).toNat

/-- A conversion to a floating-point target: code, and whether it is a saturation event (R38 Table 5). -/
def FloatPar.convert (f : FloatPar) (m : RMode) : Val → Nat × Bool
  | .nan => match f.nan with
    | some c => (c, false)
    | none => (0, true)
  | .inf neg => match f.inf with
    | some c => (f.sign neg c, false)
    | none => (f.sign neg f.top, true)
  | .fin x =>
    let c := f.round m x
    if c ≤ f.top then (f.sign x.neg c, false) else (f.sign x.neg f.top, true)

/-- A conversion into an element format: code and saturation event (R38 Table 5). -/
def Fmt.convert (f : Fmt) (m : RMode) (v : Val) : Nat × Bool :=
  match f.float with
  | some p => p.convert m v
  | none =>
    let r := f.intRange
    match v with
    | .nan => (f.intCode 0, true)
    | .inf neg => (f.intCode (if neg then r.1 else r.2), true)
    | .fin x =>
      let k := x.toInt m
      if k < r.1 then (f.intCode r.1, true) else if r.2 < k then (f.intCode r.2, true) else (f.intCode k, false)

/-- A conversion whose saturation is decided on the exact quotient (R38: composite elements, moments, gradient terms). -/
def Fmt.convertExact (f : Fmt) (m : RMode) (x : Ex) : Nat × Bool :=
  let top : Ex := match f.float with
    | some p => p.value false p.top
    | none => exInt f.intRange.2
  ((f.convert m (.fin x)).1, top.absLt x)

/-! ### FP32 arithmetic (R39) -/

/-- An arithmetic result rounded to FP32: overflow gives infinity under RNE, the greatest finite value under RZ; no event. -/
def f32Round (m : RMode) : Val → Nat
  | .nan => 0x7FC00000
  | .inf neg => parF32.sign neg 0x7F800000
  | .fin x =>
    let c := parF32.round m x
    if c ≤ parF32.top then parF32.sign x.neg c
    else if m = .rz then parF32.sign x.neg parF32.top
    else parF32.sign x.neg 0x7F800000

/-- An FP32 encoding decoded. -/
def f32 (c : Nat) : Val := parF32.decode c

/-- A sum of values, exact. -/
def Val.add : Val → Val → Val
  | .nan, _ => .nan
  | _, .nan => .nan
  | .inf a, .inf b => if a = b then .inf a else .nan
  | .inf a, .fin _ => .inf a
  | .fin _, .inf b => .inf b
  | .fin a, .fin b => .fin (a.add b)

/-- A product of values, exact. -/
def Val.mul : Val → Val → Val
  | .nan, _ => .nan
  | _, .nan => .nan
  | .inf a, .inf b => .inf (a != b)
  | .inf a, .fin b => if b.num = 0 then .nan else .inf (a != b.neg)
  | .fin a, .inf b => if a.num = 0 then .nan else .inf (a.neg != b)
  | .fin a, .fin b => .fin (a.mul b)

/-- A quotient of values, exact. -/
def Val.div : Val → Val → Val
  | .nan, _ => .nan
  | _, .nan => .nan
  | .inf _, .inf _ => .nan
  | .inf a, .fin b => .inf (a != b.neg)
  | .fin a, .inf b => .fin { neg := a.neg != b }
  | .fin a, .fin b => if b.num = 0 then (if a.num = 0 then .nan else .inf (a.neg != b.neg)) else .fin (a.div b)

/-- The sign flipped. -/
def Val.negate : Val → Val
  | .nan => .nan
  | .inf a => .inf (!a)
  | .fin x => .fin { x with neg := !x.neg }

/-- The magnitude. -/
def Val.abs : Val → Val
  | .nan => .nan
  | .inf _ => .inf false
  | .fin x => .fin { x with neg := false }

/-- a < b, false when either is NaN. -/
def Val.lt : Val → Val → Bool
  | .nan, _ => false
  | _, .nan => false
  | .inf a, .inf b => a && !b
  | .inf a, .fin _ => a
  | .fin _, .inf b => !b
  | .fin a, .fin b => a.lt b

/-- a + b in FP32 with RNE. -/
def fAdd (a b : Nat) : Nat := f32Round .rne ((f32 a).add (f32 b))
/-- a − b in FP32 with RNE. -/
def fSub (a b : Nat) : Nat := f32Round .rne ((f32 a).add (f32 b).negate)
/-- a × b in FP32 with RNE. -/
def fMul (a b : Nat) : Nat := f32Round .rne ((f32 a).mul (f32 b))
/-- a ÷ b in FP32 with RNE. -/
def fDiv (a b : Nat) : Nat := f32Round .rne ((f32 a).div (f32 b))
/-- a × b + c rounded once. -/
def fFma (a b c : Nat) : Nat := f32Round .rne (((f32 a).mul (f32 b)).add (f32 c))
/-- The sign flipped. -/
def fNeg (a : Nat) : Nat := f32Round .rne (f32 a).negate
/-- The magnitude. -/
def fAbs (a : Nat) : Nat := f32Round .rne (f32 a).abs

/-- The encoding is a NaN. -/
def fIsNan (a : Nat) : Bool := f32 a == .nan
/-- The value is finite. -/
def Val.isFin : Val → Bool
  | .fin _ => true
  | _ => false
/-- −0. -/
def negZero : Nat := 0x80000000

/-- `VEW` `MAX`: NaN if either is NaN; +0 above −0 (R130). -/
def fMax (a b : Nat) : Nat :=
  if fIsNan a || fIsNan b then 0x7FC00000
  else if (f32 a).lt (f32 b) then b
  else if (f32 b).lt (f32 a) then a
  else if a = negZero then b else a

/-- `VEW` `MIN`: NaN if either is NaN; −0 below +0 (R130). -/
def fMin (a b : Nat) : Nat :=
  if fIsNan a || fIsNan b then 0x7FC00000
  else if (f32 a).lt (f32 b) then a
  else if (f32 b).lt (f32 a) then b
  else if b = negZero then b else a

/-- The canonical encoding of an FP32 value read. -/
def fCanon (a : Nat) : Nat := f32Round .rne (f32 a)

/-! ### The transcendental unit (R97) -/

/-- Integer square root, bit by bit from bit `fuel` down: the greatest r with r² ≤ n. -/
def isqrtFrom (n : Nat) : Nat → Nat → Nat
  | 0, r => if (r + 1) * (r + 1) ≤ n then r + 1 else r
  | fuel + 1, r =>
    let c := r + 2 ^ (fuel + 1)
    isqrtFrom n fuel (if c * c ≤ n then c else r)

/-- Integer square root. -/
def isqrt (n : Nat) : Nat := isqrtFrom n (Nat.log2 n / 2 + 1) 0

/-- A positive real given as a lower bound of `w` fractional bits: as an exact value with half a unit more unless exact, which rounds
as the real does whenever no rounding boundary lies within a unit (log entry 12). -/
def sticky (neg : Bool) (lo : Nat) (exact : Bool) (w : Nat) : Ex :=
  { neg := neg, num := 2 * lo + b2n (!exact), den := 2 ^ (w + 1) }

/-- Square root of a positive rational. -/
def exSqrt (x : Ex) : Ex :=
  let e := ratLog2 x.num x.den
  let w := (160 - e / 2).toNat
  let n := x.num * 2 ^ (2 * w) / x.den
  let r := isqrt n
  sticky false r (decide (r * r * x.den = x.num * 2 ^ (2 * w))) w

/-- floor(ln 2 × 2^256). -/
def ln2Fix : Nat := 0xb17217f7d1cf79abc9e3b39803f2f6af40f343267298b62d8a0d175b8baafa2b

/-- Terms of the exponential series, from the k-th up, in units of 2^-256. -/
def expSeries (t : Nat) : Nat → Nat → Nat → Nat
  | 0, _, acc => acc
  | fuel + 1, k, acc => expSeries t fuel (k + 1) (2 ^ 256 + t * acc / (2 ^ 256) / (81 - k))

/-- 2^f for a fraction f = n/2^256, in units of 2^-256, by Horner's form of the series of exp(f ln 2). -/
def exp2Frac (n : Nat) : Nat := expSeries (n * ln2Fix / 2 ^ 256) 80 1 (2 ^ 256)

/-- Bits of log2 of y in [1, 2), y in units of 2^-512, `fuel` bits after the `acc` found. -/
def log2Bits : Nat → Nat → Nat → Nat
  | 0, _, acc => acc
  | fuel + 1, y, acc =>
    let z := y * y / 2 ^ 512
    if 2 ^ 513 ≤ z then log2Bits fuel (z / 2) (2 * acc + 1) else log2Bits fuel z (2 * acc)

/-- Reciprocal (R97 Table 9). -/
def tRcp (a : Nat) : Nat :=
  match f32 a with
  | .nan => 0x7FC00000
  | .inf n => parF32.sign n 0
  | .fin x => if x.num = 0 then parF32.sign x.neg 0x7F800000 else f32Round .rne (.fin { neg := x.neg, num := x.den, den := x.num })

/-- Square root (R97 Table 9). -/
def tSqrt (a : Nat) : Nat :=
  match f32 a with
  | .nan => 0x7FC00000
  | .inf n => if n then 0x7FC00000 else 0x7F800000
  | .fin x => if x.num = 0 then parF32.sign x.neg 0 else if x.neg then 0x7FC00000 else f32Round .rne (.fin (exSqrt x))

/-- Reciprocal square root (R97 Table 9). -/
def tRsqrt (a : Nat) : Nat :=
  match f32 a with
  | .nan => 0x7FC00000
  | .inf n => if n then 0x7FC00000 else 0
  | .fin x =>
    if x.num = 0 then parF32.sign x.neg 0x7F800000 else if x.neg then 0x7FC00000
    else f32Round .rne (.fin (exSqrt { num := x.den, den := x.num }))

/-- exp2 of a finite value whose magnitude is below 2^8. -/
def exp2Small (x : Ex) : Nat :=
  let i : Int := if x.neg then -(cdiv x.num x.den : Nat) else (x.num / x.den : Nat)
  let n : Nat := if x.neg then (cdiv x.num x.den * x.den - x.num) * 2 ^ 256 / x.den else (x.num % x.den) * 2 ^ 256 / x.den
  let exact := decide (x.num % x.den = 0)
  let m := sticky false (exp2Frac n) exact 256
  f32Round .rne (.fin { m with num := m.num * 2 ^ i.toNat, den := m.den * 2 ^ (-i).toNat })

/-- exp2 (R97 Table 9). -/
def tExp2 (a : Nat) : Nat :=
  match f32 a with
  | .nan => 0x7FC00000
  | .inf n => if n then 0 else 0x7F800000
  | .fin x =>
    if x.num / x.den < 256 then exp2Small x
    else if x.neg then 0 else 0x7F800000

/-- log2 (R97 Table 9). -/
def tLog2 (a : Nat) : Nat :=
  match f32 a with
  | .nan => 0x7FC00000
  | .inf n => if n then 0x7FC00000 else 0x7F800000
  | .fin x =>
    if x.num = 0 then 0xFF800000 else if x.neg then 0x7FC00000
    else
      let e := ratLog2 x.num x.den
      let y := x.num * 2 ^ (512 + (-e).toNat) / (x.den * 2 ^ e.toNat)
      let f := log2Bits 200 y 0
      let t : Int := e * 2 ^ 200 + (f : Int)
      let exact := decide (y = 2 ^ 512)
      let n : Int := 2 * t + (b2n (!exact) : Int)
      f32Round .rne (.fin { neg := decide (n < 0), num := n.natAbs, den := 2 ^ 201 })

/-! ### Compound functions (R131) -/

/-- log2 e. -/
def cL2E : Nat := 0x3FB8AA3B
/-- 1.0. -/
def fOne : Nat := 0x3F800000
/-- `EXP`. -/
def vExp (a : Nat) : Nat := tExp2 (fMul a cL2E)
/-- `SIGMOID`. -/
def vSigmoid (a : Nat) : Nat := tRcp (fAdd fOne (tExp2 (fNeg (fMul a cL2E))))
/-- `TANH`. -/
def vTanh (a : Nat) : Nat := fFma 0x40000000 (vSigmoid (fMul 0x40000000 a)) 0xBF800000
/-- `SILU`. -/
def vSilu (a : Nat) : Nat := fMul a (vSigmoid a)
/-- `GELUT`. -/
def vGelut (a : Nat) : Nat :=
  fMul (fMul 0x3F000000 a) (fAdd fOne (vTanh (fMul (fMul a 0x3F4C422A) (fFma 0x3D372713 (fMul a a) fOne))))

/-! ### Accumulation (R70) -/

/-- The exact sum of a group of products: an exact zero is +0, NaN and infinities as R70 says. -/
def groupSum (ps : List Val) : Val :=
  match ps.foldl Val.add (.fin {}) with
  | .fin x => if x.num = 0 then .zero else .fin x
  | v => v

/-- The accumulation of R70 over the products in increasing K, groups of `g`, from the FP32 value `c`. -/
def accumulate (g : Nat) : Nat → Nat → List Val → Nat
  | 0, acc, _ => acc
  | fuel + 1, acc, ps =>
    if ps.isEmpty then acc
    else accumulate g fuel (fAdd acc (f32Round .rne (groupSum (ps.take g)))) (ps.drop g)

/-- R70 from `c`. -/
def acc70 (g c : Nat) (ps : List Val) : Nat := accumulate g (ps.length + 1) c ps

end Sys2Proof.Machine
end

