-- ==== Sys2Proof/Machine/Blocks.lean ====
section
/-! DEFINITION. Block-scaled composites and their scales (R40 to R48), the packing of elements (R28, R33) and the randomized
Hadamard rotation (R49 to R53). -/
namespace Sys2Proof.Machine

/-! ### Block modes (R40, R41) -/

/-- Block-mode codes of R40, Table 6. -/
inductive BMode where
  | none | mx32 | nb16 | nb64 | reserved
deriving DecidableEq, Repr

/-- The block mode that a 3-bit code names. -/
def BMode.ofCode (c : Nat) : BMode :=
  match c with
  | 0 => .none | 1 => .mx32 | 2 => .nb16 | 3 => .nb64 | _ => .reserved

/-- Elements of a block along the blocked dimension. -/
def BMode.len : BMode → Nat
  | .mx32 => 32 | .nb16 => 4 | .nb64 => 64 | _ => 1

/-- Legal pairs of block mode and element format (R40 Table 7). -/
def legalComposite (b : BMode) (f : Fmt) : Bool :=
  match b, f with
  | .none, .reserved => false
  | .none, .ue8m0 => false
  | .none, .ue4m3 => false
  | .none, _ => true
  | .mx32, .e4m3 | .mx32, .e5m2 | .mx32, .e3m2 | .mx32, .e2m3 | .mx32, .e2m1 | .mx32, .int8 => true
  | .nb16, .e2m1 => true
  | .nb64, .tri => true
  | _, _ => false

/-- Bytes that `n` consecutive elements of a format take (R28, R33). -/
def Fmt.rowBytes (f : Fmt) (n : Nat) : Nat :=
  match f with
  | .fp32 | .int32 => 4 * n
  | .bf16 | .fp16 => 2 * n
  | .e4m3 | .e5m2 | .int8 | .ue8m0 | .ue4m3 => n
  | .e2m1 | .int4 => cdiv n 2
  | .e3m2 | .e2m3 => 3 * cdiv n 4
  | .int2 => cdiv n 4
  | .tri => cdiv n 5
  | .reserved => 0

/-- Bytes of `n` elements along the blocked dimension: an NBT block of 64 trits takes 13 bytes (R41). -/
def elemBytes (b : BMode) (f : Fmt) (n : Nat) : Nat :=
  match b with
  | .nb64 => n / 64 * 13 + f.rowBytes (n % 64)
  | _ => f.rowBytes n

/-- Byte offset and bit position of element `i` of a row: offset, bytes of its group, shift (R28). A trit's shift is its digit. -/
def elemPlace (b : BMode) (f : Fmt) (i : Nat) : Nat × Nat × Nat :=
  match f with
  | .fp32 | .int32 => (4 * i, 4, 0)
  | .bf16 | .fp16 => (2 * i, 2, 0)
  | .e4m3 | .e5m2 | .int8 | .ue8m0 | .ue4m3 => (i, 1, 0)
  | .e2m1 | .int4 => (i / 2, 1, i % 2 * 4)
  | .e3m2 | .e2m3 => (i / 4 * 3, 3, i % 4 * 6)
  | .int2 => (i / 4, 1, i % 4 * 2)
  | .tri => if b = .nb64 then (i / 64 * 13 + i % 64 / 5, 1, i % 64 % 5) else (i / 5, 1, i % 5)
  | .reserved => (0, 0, 0)

/-- The element code inside the group's number `w`. An invalid TRI byte holds zero trits (R33). -/
def elemCode (f : Fmt) (w shift : Nat) : Nat :=
  match f with
  | .tri => if 243 ≤ w then 1 else w / 3 ^ shift % 3
  | _ => (w >>> shift) % 2 ^ f.bits

/-- The group's number with one element replaced; an invalid TRI byte counts as five zero trits. -/
def elemPut (f : Fmt) (w shift code : Nat) : Nat :=
  match f with
  | .tri =>
    let w := if 243 ≤ w then 121 else w
    w - w / 3 ^ shift % 3 * 3 ^ shift + code % 3 * 3 ^ shift
  | _ => setFld w (shift + f.bits - 1) shift code

/-- A zero-valued element. -/
def Fmt.zeroCode : Fmt → Nat
  | .tri => 1
  | _ => 0

/-! ### Decoding composites (R42) -/

/-- The FP32 value of an element: its code, its block scale code, and the tensor scale. -/
def decodeElem (b : BMode) (f : Fmt) (code scale ts : Nat) : Nat :=
  let e := f.decode code
  match b with
  | .mx32 =>
    let s := Fmt.ue8m0.decode scale
    let e := if f = .int8 then e.mul (.fin (exScaled false 1 (-6))) else e
    f32Round .rne (e.mul s)
  | .nb16 => fMul (f32Round .rne (e.mul (Fmt.ue4m3.decode scale))) ts
  | .nb64 => f32Round .rne (e.mul (Fmt.ue4m3.decode scale))
  | _ => f32Round .rne e

/-! ### Quantizing a block (R43 to R47) -/

/-- What a block quantizes to: scale code, element codes, saturation events. -/
structure QBlock where
  scale : Nat := 0
  codes : List Nat := []
  events : Nat := 0
deriving DecidableEq, Repr

/-- The largest magnitude of a block, +0 for none; the values are finite. -/
def amaxOf (vs : List Ex) : Ex := vs.foldl (fun a v => if a.absLt v then { v with neg := false } else a) {}

/-- emax of an MX element (R43). -/
def emaxOf : Fmt → Int
  | .e4m3 => 8 | .e5m2 => 15 | .e3m2 => 4 | .e2m3 => 2 | .e2m1 => 2 | _ => 0

/-- The finite values of a block, none if one is not finite. -/
def allFin : List Val → Option (List Ex)
  | [] => some []
  | .fin x :: r => match allFin r with
    | some xs => some (x :: xs)
    | none => none
  | _ => none

/-- Codes and events of quotients rounded with one mode each. -/
def quantAll (f : Fmt) (qs : List (Ex × RMode)) : List Nat × Nat :=
  let rs := qs.map (fun q => f.convertExact q.2 q.1)
  (rs.map (·.1), (rs.filter (·.2)).length)

/-- An MX32 block (R43). -/
def quantMx (f : Fmt) (vs : List (Ex × RMode)) : QBlock :=
  let a := amaxOf (vs.map (·.1))
  let e : Nat := if a.num = 0 then 0 else (min (max (ratLog2 a.num a.den - emaxOf f) (-127)) 127 + 127).toNat
  let s := exScaled false 1 ((e : Int) - 127 - (if f = .int8 then 6 else 0))
  if a.num = 0 then { scale := 0, codes := vs.map (fun _ => 0) }
  else
    let r := quantAll f (vs.map (fun v => (v.1.div s, v.2)))
    { scale := e, codes := r.1, events := r.2 }

/-- An NBF4 block under tensor scale `ts`, an FP32 code of a positive finite value (R44). -/
def quantNb (ts : Nat) (vs : List (Ex × RMode)) : QBlock :=
  match f32 ts with
  | .fin t =>
    let a := amaxOf (vs.map (·.1))
    let sb := min (parE4M3.roundUp (a.div (t.mul (exInt 6)))) parE4M3.top
    if sb = 0 then { scale := 0, codes := vs.map (fun _ => 0) }
    else
      let s := (parE4M3.value false sb).mul t
      let r := quantAll .e2m1 (vs.map (fun v => (v.1.div s, v.2)))
      { scale := sb, codes := r.1, events := r.2 }
  | _ => { scale := 0x7F, codes := vs.map (fun _ => 0) }

/-- An NBT block: the scale is the mean magnitude (R45). -/
def quantNbt (vs : List (Ex × RMode)) : QBlock :=
  let sum := vs.foldl (fun s v => fAdd s (f32Round .rne (.fin { v.1 with neg := false }))) 0
  let mean := fDiv sum (f32Round .rne (.fin (exInt vs.length)))
  let big := match f32 mean with
    | .fin x => (exInt 448).absLt x
    | _ => true
  let sb := if big then parE4M3.top else (match f32 mean with
    | .fin x => min (parE4M3.round .rne x) parE4M3.top
    | _ => parE4M3.top)
  let s := parE4M3.value false sb
  { scale := sb, events := b2n big,
    codes := vs.map (fun v => if sb = 0 then 1 else (Fmt.tri.convert v.2 (.fin (v.1.div s))).1) }

/-- A block quantized to a composite; a block with a non-finite value is written as NaN scale and zeros (R46). -/
def quantBlock (b : BMode) (f : Fmt) (ts : Nat) (vs : List (Val × RMode)) : QBlock :=
  match allFin (vs.map (·.1)) with
  | none => { scale := if b = .mx32 then 0xFF else 0x7F, codes := vs.map (fun _ => f.zeroCode), events := 1 }
  | some xs =>
    let ps := xs.zip (vs.map (·.2))
    match b with
    | .mx32 => quantMx f ps
    | .nb16 => if f32 ts = .nan then { scale := 0x7F, codes := vs.map (fun _ => 0), events := 1 } else quantNb ts ps
    | .nb64 => quantNbt ps
    | _ => {}

/-- The NBF4 tensor scale that the device computes from the values of a whole tensor (R44, R46). -/
def tensorScale (vs : List Val) : Nat :=
  match allFin vs with
  | none => 0x7FC00000
  | some xs =>
    let a := amaxOf xs
    if a.num = 0 then fOne else parF32.roundUp (a.div (exInt 2688))

/-- A supplied tensor scale is a positive finite normal FP32 value (R44). -/
def tsSupplied (ts : Nat) : Bool := decide (0x00800000 ≤ ts) && decide (ts ≤ 0x7F7FFFFF)

/-! ### Rotation (R49 to R53) -/

/-- log2 of the rotation size of a size code, 0 for NONE (R49 Table 2). -/
def rotL (code : Nat) : Nat := if code = 0 then 0 else code + 3

/-- Rotation size. -/
def rotN (code : Nat) : Nat := if code = 0 then 1 else 2 ^ (code + 3)

/-- d(k) is −1 (R51). -/
def rotSign (seed step k : Nat) (stepMode : Bool) : Bool :=
  bit (srBits seed (if stepMode then step else 0xFFFFFFFF) k) 15

/-- One stage of the butterflies of R52: pairs at distance `h`. -/
def butterfly (h : Nat) (x : List Nat) : List Nat :=
  (List.range x.length).map (fun i =>
    if (i / h) % 2 = 0 then fAdd (x.getD i 0) (x.getD (i + h) 0) else fSub (x.getD (i - h) 0) (x.getD i 0))

/-- The Hadamard transform of a group of 2^l values. -/
def hadamard : Nat → Nat → List Nat → List Nat
  | 0, _, x => x
  | l + 1, h, x => hadamard l (2 * h) (butterfly h x)

/-- A group of values at global K positions `k0`, `k0 + 1`, … rotated (R52). -/
def rotGroup (code seed step k0 : Nat) (stepMode : Bool) (x : List Nat) : List Nat :=
  hadamard (rotL code) 1 ((List.range x.length).map (fun i =>
    let v := x.getD i 0
    if rotSign seed step (k0 + i) stepMode then fNeg v else fCanon v))

/-- A line of values along K rotated group by group; `k0` is a multiple of the size (R50). -/
def rotLine (code seed step : Nat) (stepMode : Bool) : Nat → Nat → List Nat → List Nat
  | 0, _, _ => []
  | fuel + 1, k0, xs =>
    if xs.isEmpty then []
    else rotGroup code seed step k0 stepMode (xs.take (rotN code)) ++ rotLine code seed step stepMode fuel (k0 + rotN code) (xs.drop (rotN code))

/-- A line of values along K under a rotation. -/
def rotateLine (code seed step k0 : Nat) (stepMode : Bool) (xs : List Nat) : List Nat :=
  if code = 0 then xs.map fCanon else rotLine code seed step stepMode (xs.length + 1) k0 xs

/-- Undo on the output path: 2^-l in FP32 with RNE (R53). -/
def unrotate (code acc : Nat) : Nat :=
  if code = 0 then acc else f32Round .rne ((f32 acc).mul (.fin (exScaled false 1 (-(rotL code : Int)))))

end Sys2Proof.Machine
end

