-- ==== Sys2Proof/Machine/Flags.lean ====
section
/-! DEFINITION. The saturation table and the layer statistics: what an instruction or a darner strip delivers to an entry, and the
flags a delivery raises (R60 to R63, R187 to R189). -/
namespace Sys2Proof.Machine

/-! ### Saturation entries (R59 to R63) -/

/-- The largest magnitude kept by an entry: a NaN stays, NaN arrives as the canonical NaN, else the greater magnitude (R62). -/
def amaxKeep (old new : Nat) : Nat :=
  if fIsNan old then old else if fIsNan new then 0x7FC00000 else max old (new % 2 ^ 31)

/-- The magnitude of a value as `SAT_AMAX` holds it. -/
def amaxCode (c : Nat) : Nat := if fIsNan c then 0x7FC00000 else c % 2 ^ 31

/-- The largest magnitude of a list of FP32 values. -/
def amaxOfCodes (cs : List Nat) : Nat := cs.foldl (fun a c => amaxKeep a (amaxCode c)) 0

/-- One contribution delivered to a saturation entry as one update (R60, R61): counts, amax, overflow flags, and the limit test of R63.
Answers whether the limit was found exceeded. -/
def Dev.deliverSat (d : Dev) (p : SatPart) : Dev × Bool :=
  let e := p.entry
  let d := d.bump64 pgNum e 0x0108 p.count 0x011C 0
  let d := d.bump64 pgNum e 0x0110 p.elems 0x011C 1
  let d := d.setRegN pgNum e 0x0118 (amaxKeep (d.regN pgNum e 0x0118) p.amax)
  let d := d.bump64 pgNum e 0x0128 p.esc 0x011C 2
  let d := d.bump64 pgNum e 0x0130 p.exam 0x011C 2
  if bit (d.regN pgNum e 0x0100) 0 && decide (d.reg64 pgNum e 0x0120 < d.reg64 pgNum e 0x0108) then
    (d.orReg pgNum e 0x011C 0x10, true)
  else (d, false)

/-- Contributions of one retirement to saturation entries; a limit found exceeded fails the command that made it (R63). -/
def Dev.deliverSats (d : Dev) (trk : Option Nat) (ps : List SatPart) : Dev :=
  ps.foldl (fun d p =>
    let r := d.deliverSat p
    if r.2 then (match trk with
      | some t => r.1.cmdStatus t .saturationLimit
      | none => r.1) else r.1) d

/-! ### Layer-statistics entries (R187 to R189) -/

/-- `SHIFT` of an entry, signed. -/
def Dev.lstShift (d : Dev) (e : Nat) : Int := sint 8 (d.regN pgLst e 0x0100)

/-- floor(x² × 2^(64 − SHIFT)). -/
def sqFixed (x : Ex) (shift : Int) : Nat :=
  let e : Int := 64 - shift
  x.num * x.num * 2 ^ e.toNat / (x.den * x.den * 2 ^ (-e).toNat)

/-- One value added to a contribution (R187). -/
def LstPart.addVal (p : LstPart) (shift : Int) (c : Nat) : LstPart :=
  match f32 c with
  | .nan => { p with nan := true, count := p.count + 1 }
  | .inf _ => { p with inf := true, amax := amaxKeep p.amax 0x7F800000, count := p.count + 1 }
  | .fin x => { p with acc := p.acc + sqFixed x shift, amax := amaxKeep p.amax (amaxCode c), count := p.count + 1 }

/-- The contribution of a list of FP32 values to entry `e`, with `sat` saturation events. -/
def Dev.lstPart (d : Dev) (e sat : Nat) (cs : List Nat) : LstPart :=
  cs.foldl (fun p c => p.addVal (d.lstShift e) c) { entry := e, sat := sat }

/-- The 128-bit accumulator. -/
def Dev.lstAcc (d : Dev) (e : Nat) : Nat :=
  d.reg64 pgLst e 0x0120 + 2 ^ 64 * d.reg64 pgLst e 0x0128

/-- The accumulator replaced. -/
def Dev.setLstAcc (d : Dev) (e v : Nat) : Dev :=
  (d.setReg64 pgLst e 0x0120 (v % 2 ^ 64)).setReg64 pgLst e 0x0128 (v / 2 ^ 64 % 2 ^ 64)

/-- One contribution delivered to a layer-statistics entry as one update (R187). -/
def Dev.deliverLst (d : Dev) (p : LstPart) : Dev :=
  let e := p.entry
  let a := d.lstAcc e + p.acc
  let beyond := p.inf || decide (2 ^ 128 ≤ a)
  let d := d.setLstAcc e (if beyond then 2 ^ 128 - 1 else a)
  let d := if beyond then d.orReg pgLst e 0x0130 1 else d
  let d := if p.nan then d.orReg pgLst e 0x0130 0x10 else d
  let d := d.setRegN pgLst e 0x010C (amaxKeep (d.regN pgLst e 0x010C) (if p.nan then 0x7FC00000 else p.amax))
  let d := d.bump64 pgLst e 0x0110 p.count 0x0130 1
  d.bump64 pgLst e 0x0118 p.sat 0x0130 2

/-- Contributions delivered in turn. -/
def Dev.deliverLsts (d : Dev) (ps : List LstPart) : Dev := ps.foldl Dev.deliverLst d

/-- The entries that saturation entry `e` feeds (R188). -/
def Dev.lstFed (d : Dev) (e : Nat) : List Nat :=
  tabKeys (fun k x => x.assigned && bit (d.regN pgLst k 0x0100) 20 && decide (wfld (d.reg pgLst k 0x0100) 19 8 = e)) d.lsts

/-- `LST_SUMSQ` (R189). -/
def Dev.lstSumsq (d : Dev) (e : Nat) : Nat :=
  let fl := d.regN pgLst e 0x0130
  if bit fl 4 then 0x7FC00000 else if bit fl 0 then 0x7F800000
  else
    let s : Int := d.lstShift e - 64
    f32Round .rne (.fin { num := d.lstAcc e * 2 ^ s.toNat, den := 2 ^ (-s).toNat })

end Sys2Proof.Machine
end

