-- ==== Sys2Proof/Machine/Operands.lean ====
section
/-! DEFINITION. The operands of tile instructions: shelves (R78), offset pairs (R105), operand records (R107 to R110), element and
scale addresses, decoded elements, and slices written with their packing and padding (R28, R41, R42, R47). -/
namespace Sys2Proof.Machine

/-! ### Shelves (R78) -/

/-- Pantry address of a shelf offset: bits [21:16] select the shelf's n-th unit. -/
def shelfPa (t : Nat) (sl : Slot) (off : Nat) : Nat := t * 2 ^ 22 + sl.units.getD (off / 65536) 0 * 65536 + off % 65536

/-- Bytes of a shelf. -/
def Dev.shelfRead (d : Dev) (t : Nat) (sl : Slot) (off n : Nat) : List Byte :=
  (List.range n).map (fun i => memGet d.pantry (shelfPa t sl (off + i)))

/-- One shelf byte stored. -/
def Dev.shelfPut (d : Dev) (t : Nat) (sl : Slot) (off : Nat) (b : Byte) : Dev :=
  { d with pantry := memPut d.pantry (shelfPa t sl off) b }

/-- Bytes stored from a shelf offset up. -/
def Dev.shelfWrite (d : Dev) (t : Nat) (sl : Slot) : Nat → List Byte → Dev
  | _, [] => d
  | off, b :: r => (d.shelfPut t sl off b).shelfWrite t sl (off + 1) r

/-- Bytes of a shelf in all. -/
def Slot.size (sl : Slot) : Nat := 65536 * sl.units.length

/-- A range of shelf offsets lies inside the shelf (R81). -/
def Slot.holds (sl : Slot) (off : Int) (n : Nat) : Bool := decide (0 ≤ off) && decide (off + n ≤ sl.size)

/-! ### Offset pairs (R104, R105) -/

/-- An x register; x0 reads zero. -/
def Slot.x (sl : Slot) (i : Nat) : Nat := if i = 0 then 0 else tabGet natDflt sl.xs i

/-- Low half of an offset pair, signed. -/
def Slot.xlo (sl : Slot) (i : Nat) : Int := sint 32 (sl.x i)

/-- High half of an offset pair, signed. -/
def Slot.xhi (sl : Slot) (i : Nat) : Int := sint 32 (sl.x i / 2 ^ 32)

/-- The register is dynamic: x8 to x15 (R106). -/
def xDynamic (i : Nat) : Bool := decide (8 ≤ i)

/-! ### Operand records (R108) -/

/-- An operand record of R108, Table 2. -/
structure ORec where
  addr : Nat := 0
  scaleAddr : Nat := 0
  shadowAddr : Nat := 0
  shscaleAddr : Nat := 0
  auxAddr : Nat := 0
  tsAddr : Nat := 0
  rows : Nat := 0
  cols : Nat := 0
  pitch : Nat := 0
  scalePitch : Nat := 0
  flags : Nat := 0
  tensor : Nat := 0
  rotSeed : Nat := 0
  tscale : Nat := 0
  grow : Nat := 0
  gcol : Nat := 0
  gcols : Nat := 0
deriving DecidableEq, Repr

/-- The record that 128 bytes hold. -/
def ORec.ofBytes (bs : List Byte) : ORec :=
  { addr := bytesNat bs 0 8, scaleAddr := bytesNat bs 8 8, shadowAddr := bytesNat bs 16 8, shscaleAddr := bytesNat bs 24 8,
    auxAddr := bytesNat bs 32 8, tsAddr := bytesNat bs 40 8, rows := bytesNat bs 48 4, cols := bytesNat bs 52 4,
    pitch := bytesNat bs 56 4, scalePitch := bytesNat bs 60 4, flags := bytesNat bs 64 4, tensor := bytesNat bs 68 4,
    rotSeed := bytesNat bs 72 4, tscale := bytesNat bs 76 4, grow := bytesNat bs 80 8, gcol := bytesNat bs 88 8,
    gcols := bytesNat bs 96 8 }

/-- `FMT`. -/
def ORec.fmt (r : ORec) : Fmt := Fmt.ofCode (fld r.flags 3 0)
/-- `BMODE`. -/
def ORec.bmode (r : ORec) : BMode := BMode.ofCode (fld r.flags 6 4)
/-- `SPACE`: a cellar record. -/
def ORec.cellar (r : ORec) : Bool := bit r.flags 7
/-- `SHADOW`. -/
def ORec.shadow (r : ORec) : Bool := bit r.flags 8
/-- `KDIM`: blocked and rotated along rows. -/
def ORec.kdim (r : ORec) : Bool := bit r.flags 9
/-- `TRANSPOSED`. -/
def ORec.transposed (r : ORec) : Bool := bit r.flags 10
/-- `ROT`. -/
def ORec.rot (r : ORec) : Nat := fld r.flags 13 11
/-- `STEP_MODE`. -/
def ORec.stepMode (r : ORec) : Bool := bit r.flags 14
/-- `RND`. -/
def ORec.rnd (r : ORec) : Nat := fld r.flags 16 15
/-- `SAT_EN`. -/
def ORec.satEn (r : ORec) : Bool := bit r.flags 17
/-- `SAT_ENTRY`. -/
def ORec.satEntry (r : ORec) : Nat := fld r.flags 29 18
/-- `TSCOMP`. -/
def ORec.tscomp (r : ORec) : Bool := bit r.flags 30
/-- `VALID`. -/
def ORec.valid (r : ORec) : Bool := bit r.flags 31

/-- Bytes of the code region before the records (R107). -/
def Slot.tableOff (sl : Slot) : Nat := 16 * sl.instrs

/-- Record `i` of the operand table in the shelf's code region; a bound view's `ADDR` is its ring slot's offset (R126). -/
def Dev.orec (d : Dev) (t : Nat) (sl : Slot) (i : Nat) : ORec :=
  let r := ORec.ofBytes (d.shelfRead t sl (sl.tableOff + 128 * i) 128)
  match sl.views.find? (fun v => v.record == i) with
  | some v => { r with addr := v.addr }
  | none => r

/-- The E4M3 shadow of a record as a record of its own (R56); rows at twice the 4-bit pitch, scales at the record's pitch for
MXFP4 and packed for NBF4 (log entry 13). -/
def ORec.asShadow (r : ORec) : ORec :=
  { r with addr := r.shadowAddr, scaleAddr := r.shscaleAddr, pitch := 2 * r.pitch,
           scalePitch := if r.bmode = .mx32 then r.scalePitch else if r.kdim then r.cols else cdiv r.cols 32,
           flags := 0x3 + 0x10 + fld r.flags 9 9 * 2 ^ 9 }

/-! ### Addresses of elements and scales (R108 to R110) -/

/-- Elements of a row far above any offset, a multiple of every packing group. -/
def packBase : Nat := 960 * 2 ^ 40

/-- Byte offset, group bytes and shift of element `i` of a line, for a signed index. -/
def elemPlaceI (b : BMode) (f : Fmt) (i : Int) : Int × Nat × Nat :=
  let p := elemPlace b f (i + packBase).toNat
  ((p.1 : Int) - ((elemPlace b f packBase).1 : Int), p.2.1, p.2.2)

/-- The block mode that decides packing along a line: NBT blocks are 13 bytes where blocked along the line (R41). -/
def ORec.packMode (r : ORec) : BMode := if r.kdim != r.transposed then .none else r.bmode

/-- Address, group bytes and shift of element (r, c). -/
def ORec.place (o : ORec) (r c : Int) : Int × Nat × Nat :=
  let line := if o.transposed then c else r
  let p := elemPlaceI o.packMode o.fmt (if o.transposed then r else c)
  ((o.addr : Int) + line * o.pitch + p.1, p.2.1, p.2.2)

/-- Address of the scale of element (r, c) (R109). -/
def ORec.scalePlace (o : ORec) (r c : Int) : Int :=
  if o.bmode = .nb16 then (o.scaleAddr : Int) + r / 4 * o.scalePitch + c / 4
  else if o.kdim then (o.scaleAddr : Int) + r / (o.bmode.len : Int) * o.scalePitch + c
  else (o.scaleAddr : Int) + r * o.scalePitch + c / (o.bmode.len : Int)

/-- Global row of a row. -/
def ORec.gr (o : ORec) (r : Int) : Nat := ((o.grow : Int) + r).toNat
/-- Global column of a column. -/
def ORec.gc (o : ORec) (c : Int) : Nat := ((o.gcol : Int) + c).toNat

/-- Global index of element (r, c), the element index of R36 (R109). -/
def ORec.gidx (o : ORec) (r c : Int) : Nat := (((o.grow : Int) + r) * o.gcols + ((o.gcol : Int) + c)).toNat

/-- Global K position of element (r, c) (R109). -/
def ORec.gk (o : ORec) (r c : Int) : Nat := if o.kdim then o.gr r else o.gc c

/-- A slice of a record: first row and column after the shifts, rows and columns. -/
structure Slice where
  op : ORec := {}
  r0 : Int := 0
  c0 : Int := 0
  rows : Nat := 0
  cols : Nat := 0
deriving DecidableEq, Repr

/-- Byte spans of the elements of a slice, one per line: address and length. -/
def Slice.spans (s : Slice) : List (Int × Nat) :=
  let lines := if s.op.transposed then s.cols else s.rows
  let n := if s.op.transposed then s.rows else s.cols
  if n = 0 then [] else
  (List.range lines).map (fun (i : Nat) =>
    let a := if s.op.transposed then s.op.place s.r0 (s.c0 + i) else s.op.place (s.r0 + i) s.c0
    let z := if s.op.transposed then s.op.place (s.r0 + n - 1) (s.c0 + i) else s.op.place (s.r0 + i) (s.c0 + n - 1)
    (a.1, (z.1 + z.2.1 - a.1).toNat))

/-- Byte spans of the scales of a slice. -/
def Slice.scaleSpans (s : Slice) : List (Int × Nat) :=
  if s.op.bmode = .none || s.rows = 0 || s.cols = 0 then [] else
  let rstep : Nat := if s.op.bmode = .nb16 then 4 else if s.op.kdim then s.op.bmode.len else 1
  (List.range (cdiv s.rows rstep)).map (fun (i : Nat) =>
    let r := s.r0 + i * rstep
    let a := s.op.scalePlace r s.c0
    let z := s.op.scalePlace r (s.c0 + s.cols - 1)
    (a, (z + 1 - a).toNat))

/-- Adjacent spans joined into contiguous runs. -/
def joinSpans (l : List (Int × Nat)) : List (Int × Nat) :=
  l.foldr (fun x acc => match acc with
    | (b, m) :: r => if x.1 + x.2 = b then (x.1, x.2 + m) :: r else x :: acc
    | [] => [x]) []

/-- The block alignment of a slice's origin (R110). -/
def Slice.aligned (s : Slice) : Bool :=
  match s.op.bmode with
  | .none => true
  | .nb16 => decide (s.r0 % 4 = 0) && decide (s.c0 % 4 = 0)
  | b => if s.op.kdim then decide (s.r0 % (b.len : Int) = 0) else decide (s.c0 % (b.len : Int) = 0)

/-- The rotation alignment of a slice's K origin (R50). -/
def Slice.rotAligned (s : Slice) : Bool := decide (s.op.gk s.r0 s.c0 % rotN s.op.rot = 0)

/-- Every byte of a shelf slice, scales included, lies inside the shelf (R81). -/
def Slice.inShelf (s : Slice) (sl : Slot) : Bool :=
  s.op.cellar || ((s.spans ++ s.scaleSpans).all (fun p => sl.holds p.1 p.2))

/-! ### Reading elements -/

/-- Bytes of an operand at an address of its record's space. -/
def Dev.opBytes (d : Dev) (t : Nat) (sl : Slot) (cellar : Bool) (a : Int) (n : Nat) : List Byte :=
  if cellar then (d.readVa sl.ctx a.toNat n).bytes else d.shelfRead t sl a.toNat n

/-- Element code (r, c) of a record. -/
def Dev.elem (d : Dev) (t : Nat) (sl : Slot) (o : ORec) (r c : Int) : Nat :=
  let p := o.place r c
  elemCode o.fmt (ofBytes (d.opBytes t sl o.cellar p.1 p.2.1)) p.2.2

/-- Scale code of element (r, c). -/
def Dev.scaleAt (d : Dev) (t : Nat) (sl : Slot) (o : ORec) (r c : Int) : Nat :=
  if o.bmode = .none then 0 else ofBytes (d.opBytes t sl o.cellar (o.scalePlace r c) 1)

/-- The tensor scale of an NB16 record: supplied, or read at `TS_ADDR` where `TSCALE` is +0 (R108). -/
def Dev.tsAt (d : Dev) (t : Nat) (sl : Slot) (o : ORec) : Nat :=
  if o.bmode ≠ .nb16 then 0 else if o.tscale ≠ 0 then o.tscale else ofBytes (d.opBytes t sl o.cellar o.tsAddr 4)

/-- Element (r, c) decoded to FP32 (R37, R42). -/
def Dev.elemF (d : Dev) (t : Nat) (sl : Slot) (o : ORec) (r c : Int) : Nat :=
  decodeElem o.bmode o.fmt (d.elem t sl o r c) (d.scaleAt t sl o r c) (d.tsAt t sl o)

/-- Element (r, c) as the arrays take it: its exact decoded value (R42, R70). -/
def Dev.elemV (d : Dev) (t : Nat) (sl : Slot) (o : ORec) (r c : Int) : Val := f32 (d.elemF t sl o r c)

/-- Invalid TRI bytes in the elements of a slice: each counts one saturation event against the operand (R33). -/
def Dev.badTrits (d : Dev) (t : Nat) (sl : Slot) (s : Slice) : Nat :=
  if s.op.fmt ≠ .tri then 0
  else ((s.spans.flatMap (fun p => d.opBytes t sl s.op.cellar p.1 p.2)).filter (fun b => decide (243 ≤ b.toNat))).length

/-! ### Writing a slice of element codes -/

/-- Bytes of a line with one element replaced. -/
def putElem (f : Fmt) (bs : List Byte) (p : Int × Nat × Nat) (base : Int) (code : Nat) : List Byte :=
  let off := (p.1 - base).toNat
  let g := ofBytes ((bs.drop off).take p.2.1)
  bs.take off ++ toBytes p.2.1 (elemPut f g p.2.2 code) ++ bs.drop (off + p.2.1)

/-- Elements after index `i` in the same packing group, zeroed at the end of a tensor (R28). -/
def groupTail (f : Fmt) (i : Nat) : Nat :=
  let g := match f with
    | .e2m1 | .int4 => 2 | .e3m2 | .e2m3 => 4 | .int2 => 4 | .tri => 5 | _ => 1
  (g - 1) - i % g

/-- The bytes of a line of a slice with its codes put in: codes at columns `c0`, `c0 + 1`, … of row `r` (rows of a transposed record run
along the line), the rest of the last group zeroed where the line ends there. Answers the first byte's address and the bytes. -/
def Dev.lineImage (d : Dev) (t : Nat) (sl : Slot) (o : ORec) (r c0 : Int) (codes : List Nat) : Int × List Byte :=
  let n := codes.length
  let at' := fun (i : Int) => if o.transposed then o.place (r + i) c0 else o.place r (c0 + i)
  let a := at' 0
  let z := at' (n - 1)
  let base := a.1
  let bs := d.opBytes t sl o.cellar base (z.1 + z.2.1 - base).toNat
  let last := (if o.transposed then r else c0) + n - 1
  let ends := decide ((if o.transposed then o.rows else o.cols : Int) ≤ last + 1) || o.bmode ≠ .none
  let li := if o.packMode = .nb64 then (last % 64).toNat else (last + packBase).toNat
  let pads := if ends then groupTail o.fmt li else 0
  let bs := ((List.range n).zip codes).foldl (fun bs e => putElem o.fmt bs (at' e.1) base e.2) bs
  (base, (List.range pads).foldl (fun bs i =>
    putElem o.fmt bs (z.1, z.2.1, match o.fmt with
      | .tri => z.2.2 + 1 + i
      | f => z.2.2 + f.bits * (1 + i)) base o.fmt.zeroCode) bs)

/-- One shelf line of a slice written. -/
def Dev.putLine (d : Dev) (t : Nat) (sl : Slot) (o : ORec) (r c0 : Int) (codes : List Nat) : Dev :=
  if codes.isEmpty then d else
  let im := d.lineImage t sl o r c0 codes
  d.shelfWrite t sl im.1.toNat im.2

/-- A whole slice of codes written line by line; `codes r` gives the codes of row `r`. -/
def Dev.putSlice (d : Dev) (t : Nat) (sl : Slot) (s : Slice) (code : Nat → Nat → Nat) : Dev :=
  if s.op.transposed then
    (List.range s.cols).foldl (fun d (j : Nat) => d.putLine t sl s.op s.r0 (s.c0 + j) ((List.range s.rows).map (fun i => code i j))) d
  else
    (List.range s.rows).foldl (fun d (i : Nat) => d.putLine t sl s.op (s.r0 + i) s.c0 ((List.range s.cols).map (fun j => code i j))) d

/-- One byte of a scale array written. -/
def Dev.putScale (d : Dev) (t : Nat) (sl : Slot) (o : ORec) (r c : Int) (v : Nat) : Dev :=
  d.shelfPut t sl (o.scalePlace r c).toNat (BitVec.ofNat 8 v)

/-! ### Quantizing a slice into a record (R43 to R47, R54, R57) -/

/-- Blocks of a slice as lists of coordinates inside it. -/
def Slice.blocks (s : Slice) : List (List (Nat × Nat)) :=
  match s.op.bmode with
  | .nb16 =>
    (List.range (cdiv s.rows 4)).flatMap (fun i => (List.range (cdiv s.cols 4)).map (fun j =>
      (List.range (min 4 (s.rows - 4 * i))).flatMap (fun a => (List.range (min 4 (s.cols - 4 * j))).map (fun b => (4 * i + a, 4 * j + b)))))
  | b =>
    let n := b.len
    if s.op.kdim then
      (List.range (cdiv s.rows n)).flatMap (fun i => (List.range s.cols).map (fun j =>
        (List.range (min n (s.rows - n * i))).map (fun a => (n * i + a, j))))
    else
      (List.range s.rows).flatMap (fun i => (List.range (cdiv s.cols n)).map (fun j =>
        (List.range (min n (s.cols - n * j))).map (fun a => (i, n * j + a))))

/-- What quantizing a slice gives: element codes by coordinates, scale codes by first coordinate of the block, events per coordinate of
the first element of each block. -/
structure QSlice where
  codes : Table Nat := []
  scales : List ((Nat × Nat) × Nat) := []
  events : List ((Nat × Nat) × Nat) := []
deriving DecidableEq, Repr

/-- Coordinates inside a slice as one number. -/
def Slice.ix (s : Slice) (i j : Nat) : Nat := i * s.cols + j

/-- The rounding mode of element (i, j) of a slice: `RND`, generator inputs by R36 and R109. -/
def Slice.mode (s : Slice) (step i j : Nat) : RMode := rmode s.op.rnd s.op.tensor step (s.op.gidx (s.r0 + i) (s.c0 + j))

/-- FP32 values of a slice quantized to the record's format; `ts` is the tensor scale of an NB16 record, `val i j` the FP32 code,
`mode i j` the rounding. -/
def Slice.quant (s : Slice) (ts : Nat) (val : Nat → Nat → Nat) (mode : Nat → Nat → RMode) : QSlice :=
  if s.op.bmode = .none then
    (List.range s.rows).foldl (fun q i => (List.range s.cols).foldl (fun q j =>
      let r := s.op.fmt.convert (mode i j) (f32 (val i j))
      { q with codes := tabPut natDflt q.codes (s.ix i j) r.1,
               events := if r.2 then ((i, j), 1) :: q.events else q.events }) q) {}
  else
    s.blocks.foldl (fun q b =>
      match b with
      | [] => q
      | h :: _ =>
        let r := quantBlock s.op.bmode s.op.fmt ts (b.map (fun p => (f32 (val p.1 p.2), mode p.1 p.2)))
        { codes := (b.zip r.codes).foldl (fun t e => tabPut natDflt t (s.ix e.1.1 e.1.2) e.2) q.codes,
          scales := (h, r.scale) :: q.scales,
          events := if r.events = 0 then q.events else (h, r.events) :: q.events }) {}

/-- Saturation events of a quantized slice. -/
def QSlice.count (q : QSlice) : Nat := q.events.foldl (fun a e => a + e.2) 0

/-- A quantized slice stored in the shelf: elements, then scales. -/
def Dev.putQuant (d : Dev) (t : Nat) (sl : Slot) (s : Slice) (q : QSlice) : Dev :=
  let d := d.putSlice t sl s (fun i j => tabGet natDflt q.codes (s.ix i j))
  q.scales.foldl (fun d e => d.putScale t sl s.op (s.r0 + e.1.1) (s.c0 + e.1.2) e.2) d

end Sys2Proof.Machine
end

