-- ==== Sys2Proof/Machine/Fences.lean ====
section
/-! DEFINITION. Parameter records, update blocks and strips (R168, R173, R174, R178), and how a STEP that stops leaves its fence
(R181, R184). -/
namespace Sys2Proof.Machine

/-! ### The update block (R174 Table 3) -/

/-- `OP`: 1 FOLD, 2 SCAN, 3 STEP. -/
def Cmd.uop (m : Cmd) : Nat := m.bf 0 2
/-- `FENCE`. -/
def Cmd.ufence (m : Cmd) : Nat := m.bf 2 2
/-- `STEP`. -/
def Cmd.ustep (m : Cmd) : Nat := m.bf 4 4
/-- `LIST_ADDR`. -/
def Cmd.ulist (m : Cmd) : Nat := m.bf 8 8
/-- `LIST_COUNT`. -/
def Cmd.ucount (m : Cmd) : Nat := m.bf 16 4
/-- `FLAGS`. -/
def Cmd.uflags (m : Cmd) : Nat := m.bf 20 4
/-- Hyperparameter number `i`, from `LR` on. -/
def Cmd.hyper (m : Cmd) (i : Nat) : Nat := m.bf (24 + 4 * i) 4

/-! ### The parameter record (R173 Table 2) -/

/-- A parameter record. -/
structure PRec where
  addr : Nat := 0
  rule : Nat := 0
  cfmt : Nat := 0
  crot : Nat := 0
  rflags : Nat := 0
  ctid : Nat := 0
  gtid : Nat := 0
  rows : Nat := 0
  cols : Nat := 0
  seed : Nat := 0
  grow : Nat := 0
  gcol : Nat := 0
  gcols : Nat := 0
  master : Nat := 0
  cmp : Nat := 0
  cmpScale : Nat := 0
  csSt : Nat := 0
  csNext : Nat := 0
  gq : Nat := 0
  ge : Nat := 0
  gs : Nat := 0
  mAddr : Nat := 0
  mScale : Nat := 0
  rAddr : Nat := 0
  rScale : Nat := 0
  mSt : Nat := 0
  mNext : Nat := 0
  rSt : Nat := 0
  rNext : Nat := 0
  gf : Nat := 0
  aux : Nat := 0
  csAmax : Nat := 0
  mAmax : Nat := 0
  rAmax : Nat := 0
  lstW : Nat := 0xFFFF
  lstG : Nat := 0xFFFF
  lstU : Nat := 0xFFFF
  sat : Nat := 0xFFFF
  stepDone : Nat := 0
deriving DecidableEq, Repr

/-- The record that 256 bytes at `a` hold. -/
def PRec.ofBytes (a : Nat) (bs : List Byte) : PRec :=
  { addr := a, rule := bytesNat bs 8 1, cfmt := bytesNat bs 9 1, crot := bytesNat bs 10 1, rflags := bytesNat bs 11 1,
    ctid := bytesNat bs 12 4, gtid := bytesNat bs 16 4, rows := bytesNat bs 20 4, cols := bytesNat bs 24 4, seed := bytesNat bs 28 4,
    grow := bytesNat bs 32 8, gcol := bytesNat bs 40 8, gcols := bytesNat bs 48 8, master := bytesNat bs 56 8,
    cmp := bytesNat bs 64 8, cmpScale := bytesNat bs 72 8, csSt := bytesNat bs 80 4, csNext := bytesNat bs 84 4,
    gq := bytesNat bs 88 8, ge := bytesNat bs 96 8, gs := bytesNat bs 104 8, mAddr := bytesNat bs 112 8, mScale := bytesNat bs 120 8,
    rAddr := bytesNat bs 128 8, rScale := bytesNat bs 136 8, mSt := bytesNat bs 144 4, mNext := bytesNat bs 148 4,
    rSt := bytesNat bs 152 4, rNext := bytesNat bs 156 4, gf := bytesNat bs 160 8, aux := bytesNat bs 168 8,
    csAmax := bytesNat bs 176 4, mAmax := bytesNat bs 180 4, rAmax := bytesNat bs 184 4, lstW := bytesNat bs 188 2,
    lstG := bytesNat bs 190 2, lstU := bytesNat bs 192 2, sat := bytesNat bs 194 2, stepDone := bytesNat bs 196 4 }

/-- Compute format. -/
def PRec.fmt (r : PRec) : Fmt := Fmt.ofCode (fld r.cfmt 3 0)
/-- Compute block mode. -/
def PRec.bmode (r : PRec) : BMode := BMode.ofCode (fld r.cfmt 6 4)
/-- Rotation size code. -/
def PRec.rot (r : PRec) : Nat := fld r.crot 2 0
/-- Step-mode bit of the rotation. -/
def PRec.stepMode (r : PRec) : Bool := bit r.crot 3
/-- The rule uses M: every rule does (R176 Table 4). -/
def PRec.usesM (_ : PRec) : Bool := true
/-- The rule uses R: ADAMW. -/
def PRec.usesR (r : PRec) : Bool := r.rule == 2

/-- Rows of a strip: max(32, n) (R178). -/
def PRec.band (r : PRec) : Nat := max 32 (rotN r.rot)
/-- Column groups of 32. -/
def PRec.groupsOf (r : PRec) : Nat := cdiv r.cols 32
/-- Strips of the record (R178). -/
def PRec.strips (r : PRec) : Nat := cdiv r.rows r.band * r.groupsOf

/-- Virtual address of the i-th record of the command's list. -/
def Dev.recAddr (d : Dev) (m : Cmd) (i : Nat) : Nat := ofBytes (d.readVa m.ctx (m.ulist + 8 * i) 8).bytes

/-- The i-th record of the command's list. -/
def Dev.prec (d : Dev) (m : Cmd) (i : Nat) : PRec :=
  let a := d.recAddr m i
  PRec.ofBytes a (d.readVa m.ctx a 256).bytes

/-- Record index and strip within the record of strip `i`: the strips of the records in list order (R178). -/
def stripFrom (counts : List Nat) (k i : Nat) : Nat × Nat :=
  match counts with
  | [] => (k, i)
  | n :: r => if i < n then (k, i) else stripFrom r (k + 1) (i - n)

/-- Strip counts of the records. -/
def Dev.stripCounts (d : Dev) (m : Cmd) : List Nat := (List.range m.ucount).map (fun i => (d.prec m i).strips)

/-- Strips of the whole command. -/
def Dev.stripTotal (d : Dev) (m : Cmd) : Nat := (d.stripCounts m).foldl (· + ·) 0

/-- A row length rounded up to 256 bytes. -/
def pitch256 (n : Nat) : Nat := roundUp n 256

/-- A strip of a record: rows, columns, first and last of the record. -/
structure StripG where
  r0 : Nat := 0
  nr : Nat := 0
  c0 : Nat := 0
  nc : Nat := 0
  first : Bool := false
  last : Bool := false
deriving DecidableEq, Repr

/-- Runs of `w` bytes for each row of a strip in an array of pitch `p`, starting `off` bytes into the row. -/
def rowRuns (base p off w r0 nr : Nat) : List (Nat × Nat) := (List.range nr).map (fun i => (base + (r0 + i) * p + off, w))

/-- Byte array rows. -/
def PRec.byteRuns (r : PRec) (base : Nat) (g : StripG) : List (Nat × Nat) := rowRuns base (pitch256 r.cols) g.c0 g.nc g.r0 g.nr
/-- Scales of 32-column blocks. -/
def PRec.blockRuns (r : PRec) (base : Nat) (g : StripG) : List (Nat × Nat) :=
  rowRuns base (pitch256 (cdiv r.cols 32)) (g.c0 / 32) (cdiv g.nc 32) g.r0 g.nr
/-- The gradient pair's regions. -/
def PRec.pairRuns (r : PRec) (g : StripG) : List (Nat × Nat) := r.byteRuns r.gq g ++ r.byteRuns r.ge g ++ r.blockRuns r.gs g

/-! ### Gradient pairs (R169, R170) -/

/-- An element of a gradient pair decoded. -/
def pairValue (gc ec sc : Nat) : Nat :=
  f32Round .rne ((Fmt.ue8m0.decode sc).mul ((Fmt.e4m3.decode gc).add ((Fmt.e4m3.decode ec).mul (.fin (exScaled false 1 (-3))))))

/-- A block of values written as a pair: scale, G, E, saturation events. -/
def pairBlock (vs : List (Nat × RMode)) : Nat × List Nat × List Nat × Nat :=
  match allFin (vs.map (fun v => f32 v.1)) with
  | none => (0xFF, vs.map (fun _ => 0), vs.map (fun _ => 0), 1)
  | some xs =>
    let q := quantMx .e4m3 (xs.zip (vs.map (·.2)))
    let s := exScaled false 1 ((q.scale : Int) - 127)
    let es := (xs.zip q.codes).map (fun p =>
      match Fmt.e4m3.decode p.2 with
      | .fin g => Fmt.e4m3.convertExact .rne ((exInt 8).mul ((p.1.div s).add { g with neg := !g.neg }))
      | _ => (0, false))
    (q.scale, q.codes, es.map (·.1), q.events + (es.filter (·.2)).length)

/-! ### CAPTUREs of a fence (R370, R371) -/

/-- `OP`: 1 READ, 2 WRITE, 3 FLUSH; of a CHECKPOINT: 1 CAPTURE, 2 COPYOUT, 3 RESTORE. -/
def Cmd.sop (m : Cmd) : Nat := m.bf 0 2
/-- `FENCE`. -/
def Cmd.kFence (m : Cmd) : Nat := m.bf 4 2
/-- What command `trk` has done. -/
def Dev.cap (d : Dev) (trk : Nat) : Capture := tabGet (fun _ => ({} : Capture)) d.captures trk
/-- What command `trk` has done, replaced. -/
def Dev.setCap (d : Dev) (trk : Nat) (x : Capture) : Dev := { d with captures := tabPut (fun _ => ({} : Capture)) d.captures trk x }
/-- The trigger of a fence. -/
def Dev.trig (d : Dev) (f : Nat) : Trigger := tabGet (fun _ => ({} : Trigger)) d.triggers f
/-- The trigger of a fence replaced. -/
def Dev.setTrig (d : Dev) (f : Nat) (x : Trigger) : Dev := { d with triggers := tabPut (fun _ => ({} : Trigger)) d.triggers f x }

/-- A CAPTURE is over with a status code: the fence's registers, and its trigger may fire again (R370, R383 Table 12). -/
def Dev.captureOver (d : Dev) (trk st : Nat) : Dev :=
  let m := d.cmd trk
  if m.typ = tyCheckpoint ∧ m.sop = 1 then
    let d := d.setRegN pgCkpt m.kFence 0x0114 st
    let d := if st = 0 then d.bumpRc pgCkpt m.kFence 0x0118 1 else d
    d.setTrig m.kFence { d.trig m.kFence with fired := false }
  else d

/-- The read holds that wait on a fence end with `CONTEXT_ABORTED`, CAPTUREs and all (R184, R371). -/
def Dev.abortHolds (d : Dev) (f : Fence) : Dev :=
  (f.waiting.filter (fun w => !w.2)).foldl (fun d w => ((d.captureOver w.1 Status.contextAborted.code).setCap w.1 {}).finish w.1 .contextAborted) d

/-! ### A STEP that stops (R181, R184) -/

/-- The running maxima of the record in progress, as the command holds them: `CS_AMAX`, `M_AMAX`, `R_AMAX`. -/
def maximaBytes (m : Cmd) : List Byte :=
  toBytes 4 (m.scratch.getD 0 0) ++ toBytes 4 (m.scratch.getD 1 0) ++ toBytes 4 (m.scratch.getD 2 0)

/-- A STEP in progress stops at a strip boundary: its fence enters INCOMPLETE with the first uncommitted strip, and the record partly done
receives its running maxima. -/
def Dev.stopStep (d : Dev) (trk : Nat) : Dev :=
  let m := d.cmd trk
  let f := d.fence m.ufence
  if m.live && m.typ == tyUpdate && m.uop == 3 && f.running == some trk then
    let p := stripFrom (d.stripCounts m) 0 m.cursor
    let d := if p.2 = 0 then d else (d.writeVa m.ctx (d.recAddr m p.1 + 176) (maximaBytes m)).1
    let d := d.setFence m.ufence { f with state := .incomplete, cursor := m.cursor, running := none }
    -- a read hold waiting behind a STEP that stops completes with `CONTEXT_ABORTED`
    d.abortHolds f
  else d

/-- A dropped write of a committed strip: the fence enters LOST (R181, R448). -/
def Dev.loseFence (d : Dev) (f : Nat) : Dev :=
  let x := d.fence f
  if x.state = .updating ∨ x.state = .incomplete then d.setFence f { x with state := .lost } else d

end Sys2Proof.Machine
end

