-- ==== Sys2Proof/Machine/Crypto.lean ====
section
/-! DEFINITION. The cryptographic constructions of the spec over the block functions of `Config`: HMAC-SHA-384, the KDF in counter mode
(R392), AES-256-GCM (R319, R407), and the checks of flits and tables (CRC-32C, CRC-32). -/
namespace Sys2Proof.Machine

/-- A number as `n` bytes, most significant first. -/
def beBytes (n v : Nat) : List Byte := (toBytes n v).reverse

/-- The number that bytes hold, most significant first. -/
def beNat (bs : List Byte) : Nat := ofBytes bs.reverse

/-- SHA-384 as its 48 bytes. -/
def digest (bs : List Byte) : List Byte := (toBytes 48 (Config.sha384 bs).toNat).reverse

/-- ASCII bytes of a label. -/
def ascii (s : String) : List Byte := s.toList.map (fun c => BitVec.ofNat 8 c.toNat)

/-- Bytes padded with zeros to a length. -/
def padTo (n : Nat) (bs : List Byte) : List Byte := bs ++ List.replicate (n - bs.length) 0

/-- HMAC-SHA-384. -/
def hmac384 (k m : List Byte) : List Byte :=
  let k := padTo 128 (if 128 < k.length then digest k else k)
  digest (k.map (· ^^^ 0x5C) ++ digest (k.map (· ^^^ 0x36) ++ m))

/-- The first `bits` bits of the KDF of R392, as bytes. -/
def kdf (k : List Byte) (label : String) (ctx : List Byte) (bits : Nat) : List Byte :=
  ((List.range (cdiv bits 384)).flatMap (fun i => hmac384 k (beBytes 4 (i + 1) ++ ascii label ++ [0] ++ ctx ++ beBytes 4 bits))).take (bits / 8)

/-! ### AES-256-GCM -/

/-- The product of two blocks in the field of GHASH. -/
def gfMul (x y : Nat) : Nat :=
  ((List.range 128).foldl (fun (a : Nat × Nat) i =>
    let z := if bit x (127 - i) then a.1 ^^^ a.2 else a.1
    (z, if bit a.2 0 then (a.2 >>> 1) ^^^ (0xE1 <<< 120) else a.2 >>> 1)) (0, y)).1

/-- 16-byte blocks of a string, the last padded with zeros. -/
def blocks16 : Nat → List Byte → List Nat
  | 0, _ => []
  | f + 1, bs => if bs.isEmpty then [] else beNat (padTo 16 (bs.take 16)) :: blocks16 f (bs.drop 16)

/-- GHASH of associated data and ciphertext. -/
def ghash (h : Nat) (aad ct : List Byte) : Nat :=
  (blocks16 (aad.length + 1) aad ++ blocks16 (ct.length + 1) ct ++ [aad.length * 8 * 2 ^ 64 + ct.length * 8]).foldl (fun y b => gfMul (y ^^^ b) h) 0

/-- The key stream of a 96-bit IV, from counter 2 on. -/
def gcmStream (key iv n : Nat) : List Byte :=
  ((List.range (cdiv n 16)).flatMap (fun i => beBytes 16 (Config.aes256 key (iv * 2 ^ 32 + i + 2)).toNat)).take n

/-- Bytes combined with the key stream: encryption and decryption alike. -/
def gcmCrypt (key iv : Nat) (bs : List Byte) : List Byte := (bs.zip (gcmStream key iv bs.length)).map (fun p => p.1 ^^^ p.2)

/-- The 16-byte tag of associated data and ciphertext. -/
def gcmTag (key iv : Nat) (aad ct : List Byte) : List Byte :=
  beBytes 16 (ghash (Config.aes256 key 0).toNat aad ct ^^^ (Config.aes256 key (iv * 2 ^ 32 + 1)).toNat)

/-! ### Cyclic redundancy checks -/

/-- One byte into a reflected CRC of 32 bits. -/
def crcByte (poly c : Nat) (b : Byte) : Nat :=
  (List.range 8).foldl (fun c _ => if bit c 0 then (c >>> 1) ^^^ poly else c >>> 1) (c ^^^ b.toNat)

/-- A reflected CRC of 32 bits with the usual initial and final complement. -/
def crcOf (poly : Nat) (bs : List Byte) : Nat := bs.foldl (crcByte poly) 0xFFFFFFFF ^^^ 0xFFFFFFFF

/-- CRC-32C of a flit (R313). -/
def crc32c (bs : List Byte) : Nat := crcOf 0x82F63B78 bs

/-- CRC-32 of share tables (R317). -/
def crc32 (bs : List Byte) : Nat := crcOf 0xEDB88320 bs

end Sys2Proof.Machine
end

