-- ==== Sys2Proof/Machine/Links.lean ====
section
/-! DEFINITION. Acaunel ports as every sender and receiver uses them: flits, retry, credits and share streams (R312 to R317), control
messages and the discovery epoch (R324, R327), pairings and sealed records (R319 to R322). -/
namespace Sys2Proof.Machine

/-- Port `p`. -/
def Dev.lk (d : Dev) (p : Nat) : Port := tabGet (fun _ => ({} : Port)) d.ports p
/-- Port `p` replaced. -/
def Dev.setLk (d : Dev) (p : Nat) (x : Port) : Dev := { d with ports := tabPut (fun _ => ({} : Port)) d.ports p x }
/-- Port `p` changed. -/
def Dev.updLk (d : Dev) (p : Nat) (f : Port → Port) : Dev := d.setLk p (f (d.lk p))

/-- A bit of `ALNK_FLAGS`. -/
def Dev.lkFlag (d : Dev) (p b : Nat) : Dev := d.orReg pgAlnk p 0x0128 (2 ^ b)

/-- The port carries VC0 traffic. -/
def Port.vc0 (x : Port) : Bool := x.state == .vc0Only || x.state == .active

/-- Streams are keyed by share and virtual channel. -/
def streamKey (share vc : Nat) : Nat := share * 8 + vc

/-! ### Shares and credits (R316, R317) -/

/-- Owner of a position of the frame. -/
def Port.owner (x : Port) (i : Nat) : Nat := fld x.slots (4 * i + 3) (4 * i)

/-- Positions of a share in a frame. -/
def Port.positions (x : Port) (share : Nat) : Nat := ((List.range 256).filter (fun i => x.owner i == share)).length

/-- Flits of the receive buffer that a share has: of the pool, what the shares leave. -/
def Port.shareBuf (x : Port) (share : Nat) : Nat :=
  if share = 15 then 4032 - (List.range 15).foldl (fun a s => a + 4032 * x.positions s / 256) 0
  else 4032 * x.positions share / 256

/-- Credits of a (share, VC) stream: an equal part of the share's flits for VC2 to VC7, the remainder for VC7. -/
def Port.streamBuf (x : Port) (share vc : Nat) : Nat :=
  let b := x.shareBuf share
  if vc = 7 then b - 5 * (b / 6) else b / 6

/-- The enabled share of a hoop on the port. -/
def Port.shareOf (x : Port) (hoop : Nat) : Option Nat :=
  lowest 15 (fun s => bit x.shareEn s && decide (fld x.shareHoop (4 * s + 3) (4 * s) = hoop))

/-- The share a hoop sends under: its own, else the pool. A sealed hoop with no share has no position: its records wait (share 16 + hoop). -/
def Dev.sendShare (d : Dev) (p hoop : Nat) : Nat :=
  match (d.lk p).shareOf hoop with
  | some s => s
  | none => if (d.hoop hoop).isSealed then 16 + hoop else 15

/-- Positions a hoop holds on a port. -/
def Dev.hoopPositions (d : Dev) (p hoop : Nat) : Nat :=
  match (d.lk p).shareOf hoop with
  | some s => (d.lk p).positions s
  | none => 0

/-! ### Flits (R313) -/

/-- A flit's 256 bytes. -/
def flitBytes (typ vc share : Nat) (rstart : Bool) (roff fill seq ack : Nat) (nak : Bool) (crShare crVc crCount : Nat) (payload : List Byte) : List Byte :=
  let h := typ + vc * 2 ^ 2 + share * 2 ^ 5 + b2n rstart * 2 ^ 9 + roff * 2 ^ 10 + fill * 2 ^ 18 + seq * 2 ^ 26 + ack * 2 ^ 38 +
    b2n nak * 2 ^ 50 + crShare * 2 ^ 51 + crVc * 2 ^ 55 + crCount * 2 ^ 58
  let b := toBytes 12 h ++ padTo 240 payload
  b ++ toBytes 4 (crc32c b)

/-- The last sequence number received good. -/
def Port.ack (x : Port) : Nat := (x.rxNext + 4095) % 4096

/-- An idle flit: an acknowledgement, a `NAK`, or credits returned. -/
def Dev.sendIdle (d : Dev) (p : Nat) (nak : Bool) (crShare crVc crCount : Nat) : Dev :=
  let x := d.lk p
  if x.vc0 then d.emit (.flit p (flitBytes 0 0 0 false 0 0 x.txSeq x.ack nak crShare crVc crCount [])) else d

/-- A flit of the retry buffer put on the line. -/
def Dev.putUnit (d : Dev) (p : Nat) (u : TxUnit) : Dev :=
  match u.body with
  | .ctl code fields => d.emit (.link p code fields)
  | .data share vc rs ro pay => d.emit (.flit p (flitBytes 1 vc share rs ro (pay.length - 1) u.seq (d.lk p).ack false 0 0 0 pay))

/-- A new flit takes the next sequence number and a place in the retry buffer (R314). -/
def Dev.sendUnit (d : Dev) (p : Nat) (b : TxBody) : Dev :=
  let x := d.lk p
  let u : TxUnit := { seq := x.txSeq, body := b }
  (d.setLk p { x with txSeq := (x.txSeq + 1) % 4096, retry := x.retry ++ [u] }).putUnit p u

/-- Bytes of a stream that wait. -/
def TxStream.left (s : TxStream) : List Byte := (s.records.flatMap id).drop s.off

/-- Offset in the next flit at which a record begins, if one does. -/
def TxStream.start (s : TxStream) : Option Nat :=
  match s.records with
  | [] => none
  | r :: rest => if s.off = 0 then some 0 else if r.length - s.off < 240 ∧ !rest.isEmpty then some (r.length - s.off) else none

/-- The stream after `n` more bytes are sent. -/
def TxStream.advance (s : TxStream) : Nat → TxStream
  | 0 => s
  | n + 1 =>
    match s.records with
    | [] => s
    | r :: rest => if s.off + 1 = r.length then ({ records := rest, off := 0 } : TxStream).advance n else ({ s with off := s.off + 1 } : TxStream).advance n

/-- A stream that has something to send and a credit for it. -/
def Port.readyStream (x : Port) : Option Nat :=
  (x.tx.find? (fun e => !e.2.records.isEmpty && decide (e.1 < 128) && decide (tabGet natDflt x.used e.1 < x.streamBuf (e.1 / 8) (e.1 % 8)))).map (·.1)

/-- One data flit of a stream is sent. -/
def Dev.sendData (d : Dev) (p key : Nat) : Dev :=
  let x := d.lk p
  let st := tabGet (fun _ => ({} : TxStream)) x.tx key
  let pay := st.left.take 240
  let d := d.setLk p { x with tx := tabPut (fun _ => ({} : TxStream)) x.tx key (st.advance pay.length),
                              used := tabPut natDflt x.used key (tabGet natDflt x.used key + 1) }
  let d := d.sendUnit p (.data (key / 8) (key % 8) st.start.isSome (st.start.getD 0) pay)
  d.bump64 pgAlnk p 0x0130 1 0x0128 0

/-- What waits is sent while the retry buffer and the credits allow: control messages first, then the streams (R314, R315, R317). How
flits of different streams interleave in time is not modelled. -/
def Dev.pump (d : Dev) (p : Nat) : Nat → Dev
  | 0 => d
  | n + 1 =>
    let x := d.lk p
    if !x.vc0 || decide (512 ≤ x.retry.length) then d
    else match x.ctlq with
      | c :: r => ((d.setLk p { x with ctlq := r }).sendUnit p (.ctl c.1 c.2)).pump p n
      | [] =>
        if x.state != .active then d
        else match x.readyStream with
          | none => d
          | some k => (d.sendData p k).pump p n

/-- The retry buffer's depth bounds what one event can send. -/
def Dev.pumpPort (d : Dev) (p : Nat) : Dev := d.pump p 513

/-- A control message queued on a port and sent as soon as it may be (R324). -/
def Dev.sendCtl (d : Dev) (p code : Nat) (fields : List Nat) : Dev :=
  let x := d.lk p
  if x.vc0 then (d.setLk p { x with ctlq := x.ctlq ++ [(code, fields)] }).pumpPort p else d

/-- Codes of R324 Table 5. -/
def ctlSync : Nat := 1
def ctlAnnounce : Nat := 2
def ctlTopo : Nat := 3
def ctlProbe : Nat := 4
def ctlReply : Nat := 5
def ctlUnpair : Nat := 6
def ctlKeyx : Nat := 7
def ctlSwap : Nat := 8
def ctlGuard : Nat := 9
def ctlDrift : Nat := 10
def ctlPicot : Nat := 11

/-- A message flooded on every port that carries VC0, but one (16: no exception). -/
def Dev.flood (d : Dev) (but code : Nat) (fields : List Nat) : Dev :=
  ((List.range 16).filter (· != but)).foldl (fun d p => d.sendCtl p code fields) d

/-! ### Discovery (R327, R330) -/

/-- A change of the device's epoch while probes are pending completes every one with `EPOCH_STALE` and sets `TOPO_CHANGED` (R330). -/
def Dev.staleProbes (d : Dev) : Dev :=
  let ps := d.fab.probes
  if ps.any (fun e => e.2.state == 1) then
    ({ d with fab := { d.fab with probes := ps.map (fun (e : Nat × Probe) => if e.2.state = 1 then (e.1, { e.2 with state := 3, status := Status.epochStale.code }) else e) } }).orReg pgAlnk 0 0x1028 1
  else d

/-- A port reached `VC0_ONLY` or went `DOWN`: the epoch rises by 1 and `TOPO_CHANGE` is flooded, with its hop count (R324, R327). -/
def Dev.bumpEpoch (d : Dev) : Dev :=
  let e := (d.fab.epoch + 1) % 2 ^ 32
  ({ d with fab := { d.fab with epoch := e } }.staleProbes).flood 16 ctlTopo [e, 1]

/-! ### Retry (R314) -/

/-- Flits up to a sequence number leave the retry buffer. -/
def ackUnits (ack : Nat) : List TxUnit → List TxUnit
  | [] => []
  | u :: r => if (ack + 4096 - u.seq) % 4096 < 2048 then ackUnits ack r else u :: r

/-- The port retrains on its lanes (R309): flits wait and are not lost. -/
def Dev.retrain (d : Dev) (p : Nat) : Dev :=
  let x := d.lk p
  if x.vc0 then d.setLk p { x with state := .training, retraining := true, wasActive := x.state == .active, replays := 0 } else d

/-- Every flit of the retry buffer sent again in order, with its sequence number; the sixteenth replay of a flit starts the retrain. -/
def Dev.replayFlits (d : Dev) (p : Nat) : Dev :=
  let x := d.lk p
  if x.retry.isEmpty || !x.vc0 then d
  else
    let d := d.setLk p { x with replays := x.replays + 1 }
    let d := x.retry.foldl (fun d u => d.putUnit p u) d
    let d := d.bump64 pgAlnk p 0x0140 x.retry.length 0x0128 0
    if 16 ≤ x.replays + 1 then d.retrain p else d

/-! ### Pairings (R320 to R322) -/

/-- What an unlisted pairing reads as: empty. -/
def pairDflt (_ : Nat) : Pairing := {}

/-- The transmit entry that serves a key index and generation on a port. -/
def Port.txPair (x : Port) (key gen : Nat) : Option Nat :=
  (tabKeys (fun _ e => e.valid && e.slot == key && e.txGen == gen) x.pairs).head?

/-- The link key of a phase (R392 Table 4). -/
def Pairing.key (e : Pairing) (phase : Nat) : Nat := beNat (kdf e.base "HT-LINK" (beBytes 1 phase) 256)
/-- The salt of a phase. -/
def Pairing.salt (e : Pairing) (phase : Nat) : List Byte := kdf e.base "HT-SALT" (beBytes 1 phase) 64

/-- The IV of a record: the salt, then the record counter, little-endian (R319, log entry 35). -/
def Pairing.iv (e : Pairing) (phase rctr : Nat) : Nat := beNat (e.salt phase ++ toBytes 4 rctr)

/-- The pairing's next send may use its phase, or moves to the deck phase, which must have been derived (R322, R400). -/
def Dev.pairNext (d : Dev) (e : Pairing) : Option Pairing :=
  let k := d.key e.slot
  if e.rctr < 2 ^ 32 then some e
  else if e.txPhase = 255 then none
  else if e.txPhase < k.phase ∨ k.deckReady then some { e with txPhase := e.txPhase + 1, rctr := 0 }
  else none

/-- The uses of a link slot in its phase: the greatest count of its pairings; a pairing that enters a new phase takes the slot with it. -/
def Dev.linkUse (d : Dev) (e : Pairing) : Dev :=
  let k := d.key e.slot
  if k.phase < e.txPhase then (d.setKey e.slot { k with phase := e.txPhase, uses := e.rctr, deckReady := false }).keyFlag e.slot 0
  else if e.txPhase = k.phase then
    let d := d.setKey e.slot { k with uses := max k.uses e.rctr, state := if e.txPhase = 255 ∧ 2 ^ 32 ≤ e.rctr then .exhausted else k.state }
    if e.txPhase = 255 ∧ 2 ^ 32 ≤ e.rctr then d.keyFlag e.slot 2
    else if 2 ^ 32 ≤ e.rctr ∧ !k.deckReady then d.keyFlag e.slot 1 else d
  else d

/-- Why a send under a key fails on a port (R320, R322, R402), or the pairing that carries it: its id and its entry for this record. -/
def Dev.txEntry (d : Dev) (p hoop key gen : Nat) : Except Status (Nat × Pairing) :=
  let x := d.lk p
  if x.state != .active && !x.retraining then .error .linkDown
  else match d.keyCheck hoop useLink key gen with
    | some st => .error st
    | none => match x.txPair key gen with
      | none => .error .accessDenied
      | some i => match d.pairNext (tabGet pairDflt x.pairs i) with
        | none => .error .keyExhausted
        | some e => .ok (i, e)

/-- A record's header (R319 Table 4). -/
def recordHeader (e : Pairing) (engine tgt len : Nat) : List Byte :=
  toBytes 2 (e.peer + e.txGen * 4096) ++ toBytes 1 (e.txPhase % 2) ++ toBytes 1 engine ++ toBytes 4 e.rctr ++ toBytes 2 (len - 1) ++ toBytes 6 tgt

/-- A record sealed: header, ciphertext, tag. -/
def sealRecord (e : Pairing) (engine tgt : Nat) (pay : List Byte) : List Byte :=
  let h := recordHeader e engine tgt pay.length
  let iv := e.iv e.txPhase e.rctr
  let ct := gcmCrypt (e.key e.txPhase) iv pay
  h ++ ct ++ gcmTag (e.key e.txPhase) iv h ct

/-- A record queued in its stream (R315, R319): the hoop's share, the virtual channel, engine, target, payload. -/
def Dev.sendRecord (d : Dev) (p hoop key gen vc engine tgt : Nat) (pay : List Byte) : Dev × Option Status :=
  match d.txEntry p hoop key gen with
  | .error st => (d, some st)
  | .ok (i, e) =>
    let x := d.lk p
    let k := streamKey (d.sendShare p hoop) vc
    let st := tabGet (fun _ => ({} : TxStream)) x.tx k
    let d := d.setLk p { x with pairs := tabPut pairDflt x.pairs i { e with rctr := e.rctr + 1 },
                                tx := tabPut (fun _ => ({} : TxStream)) x.tx k { st with records := st.records ++ [sealRecord e engine tgt pay] } }
    ((d.linkUse { e with rctr := e.rctr + 1 }).pumpPort p, none)

/-- Records of at most 4,096 bytes queued in order, the target of record `i` given by `tgt i`. -/
def Dev.sendRecords (d : Dev) (p hoop key gen vc engine : Nat) (tgt : Nat → Nat) (pay : List Byte) : Dev × Option Status :=
  (List.range (cdiv pay.length 4096)).foldl (fun r i =>
    match r.2 with
    | some st => (r.1, some st)
    | none => r.1.sendRecord p hoop key gen vc engine (tgt i) ((pay.drop (4096 * i)).take 4096)) (d, none)

/-- A key slot drains (R321): every pairing entry of the slot takes the next generation, and the peer is told. -/
def Dev.unpairKey (d : Dev) (key : Nat) : Dev :=
  (List.range 16).foldl (fun d p =>
    (tabKeys (fun _ e => e.valid && e.slot == key) (d.lk p).pairs).foldl (fun d i =>
      let x := d.lk p
      let e := tabGet pairDflt x.pairs i
      let g := (e.txGen + 1) % 16
      (d.setLk p { x with pairs := tabPut pairDflt x.pairs i { e with txGen := g, rxGen := g } }).sendCtl p ctlUnpair [e.peer, g]) d) d

/-! ### Receiving (R314, R317, R321) -/

/-- Bytes taken by an engine from a stream's buffer: the flits emptied. -/
def eatFills : Nat → List Nat → List Nat × Nat
  | _, [] => ([], 0)
  | n, f :: r => if n < f then ((f - n) :: r, 0) else
    let e := eatFills (n - f) r
    (e.1, e.2 + 1)

/-- The first whole record of a stream. -/
def RxStream.record (s : RxStream) : Option (List Byte) :=
  if s.bytes.length < 16 then none
  else
    let n := 33 + bytesNat s.bytes 8 2
    if s.bytes.length < n then none else some (s.bytes.take n)

/-- The receive buffer of a stream. -/
def Port.rxStream (x : Port) (share vc : Nat) : RxStream := tabGet (fun _ => ({} : RxStream)) x.rx (streamKey share vc)

/-- A record leaves the receive buffer, and the credits of the flits it empties go back (R317). -/
def Dev.takeRecord (d : Dev) (p share vc n : Nat) : Dev :=
  let x := d.lk p
  let s := x.rxStream share vc
  let e := eatFills n s.fills
  let d := d.setLk p { x with rx := tabPut (fun _ => ({} : RxStream)) x.rx (streamKey share vc) { bytes := s.bytes.drop n, fills := e.1 } }
  if e.2 = 0 then d else d.sendIdle p false share vc (min e.2 255)

/-- How a record is judged (R321). -/
inductive RecordCheck where
  | stale
  | counter
  | tag
  | good (pairing : Nat) (e : Pairing) (payload : List Byte)
deriving DecidableEq, Repr

/-- The checks of R321 and R322: pairing and generation, record counter in its phase, tag. -/
def Port.checkRecord (x : Port) (r : List Byte) : RecordCheck :=
  let id := bytesNat r 0 2 % 4096
  let gen := bytesNat r 0 2 / 4096
  let e := tabGet pairDflt x.pairs id
  if 1024 ≤ id ∨ !e.valid ∨ e.rxGen ≠ gen then .stale
  else
    let same := decide (bytesNat r 2 1 % 2 = e.rxPhase % 2)
    let c := bytesNat r 4 4
    let beyond := match e.rxLast with
      | none => true
      | some l => decide (l < c)
    if same && !beyond then .counter
    else
      let ph := if same then e.rxPhase else e.rxPhase + 1
      let iv := e.iv ph c
      let h := r.take 16
      let ct := (r.drop 16).take (r.length - 32)
      if ph < 256 ∧ gcmTag (e.key ph) iv h ct = r.drop (r.length - 16) then
        .good id { e with rxPhase := ph, rxLast := some c } (gcmCrypt (e.key ph) iv ct)
      else .tag

/-! ### Lanes under test (R519) -/

/-- Key of a lane in the table of lanes under test. -/
def laneKey (kind port lane : Nat) : Nat := kind * 4096 + port * 256 + lane

/-- A lane is under test: a generator, a checker or a loopback is on. -/
def LaneTest.active (t : LaneTest) : Bool := t.ctl % 4 != 0 && (bit t.ctl 2 || bit t.ctl 3) || fld t.ctl 6 4 != 0

/-- Every generator and loopback of a port stops; the counts are kept, and `LANE_STOPPED` is set where one was active (R519). -/
def Dev.stopLanes (d : Dev) (kind p : Nat) : Dev :=
  let mine := fun (k : Nat) => k / 256 == kind * 16 + p
  let on := d.laneTests.any (fun e => mine e.1 && e.2.active)
  let d := { d with laneTests := d.laneTests.map (fun (e : Nat × LaneTest) => if mine e.1 then (e.1, { e.2 with ctl := 0, lock := false }) else e) }
  let d := { d with laneTests := d.laneTests.filter (fun e => decide (e.2 ≠ ({} : LaneTest))) }
  if on then d.orReg pgTest 0 0x1030 2 else d

end Sys2Proof.Machine
end

