-- ==== Sys2Proof/Machine/CollBlock.lean ====
section
/-! DEFINITION. The collective block (R342 Table 3), chunks and where their bytes lie (R343 to R347), the result record (R349), and how a
collective that stops leaves its group (R348, R352). -/
namespace Sys2Proof.Machine

/-- Group slot `k`. -/
def Dev.grp (d : Dev) (k : Nat) : CGroup := tabGet (fun _ => ({} : CGroup)) d.groupTab k
/-- Group slot `k` replaced. -/
def Dev.setGrp (d : Dev) (k : Nat) (x : CGroup) : Dev := { d with groupTab := tabPut (fun _ => ({} : CGroup)) d.groupTab k x }
/-- Group slot `k` changed. -/
def Dev.updGrp (d : Dev) (k : Nat) (f : CGroup → CGroup) : Dev := d.setGrp k (f (d.grp k))

/-! ### The block -/

/-- `OP` (R343 Table 4). -/
def Cmd.xcop (m : Cmd) : Nat := m.bf 0 2
/-- `GID`. -/
def Cmd.xcgid (m : Cmd) : Nat := m.bf 2 1
/-- Reduction: 0 SUM, 1 MAX, 2 MIN, 3 ISUM. -/
def Cmd.xcred (m : Cmd) : Nat := fld (m.bf 3 1) 1 0
/-- `RND`. -/
def Cmd.xcrnd (m : Cmd) : Nat := fld (m.bf 3 1) 3 2
/-- `ROOT`. -/
def Cmd.xcroot (m : Cmd) : Nat := m.bf 4 4
/-- `SRC`. -/
def Cmd.xcsrc (m : Cmd) : Nat := m.bf 8 8
/-- `DST`. -/
def Cmd.xcdst (m : Cmd) : Nat := m.bf 16 8
/-- `COUNT`. -/
def Cmd.xccount (m : Cmd) : Nat := m.bf 24 8
/-- `CHUNK_FIRST`. -/
def Cmd.xcfirst (m : Cmd) : Nat := m.bf 32 4
/-- `CHUNK_COUNT`. -/
def Cmd.xcchunks (m : Cmd) : Nat := m.bf 36 4
/-- `RESULT`. -/
def Cmd.xcresult (m : Cmd) : Nat := m.bf 40 8
/-- `START_NS`. -/
def Cmd.xcstart (m : Cmd) : Nat := m.bf 48 8

/-! ### Records of ALLREDUCE_PAIR (R346) -/

/-- The records of a list in memory. -/
def Dev.pairRecs (d : Dev) (c list n : Nat) : List PRec :=
  (List.range n).map (fun i =>
    let a := ofBytes (d.readVa c (list + 8 * i) 8).bytes
    PRec.ofBytes a (d.readVa c a 256).bytes)

/-- Blocks of a record in the stream. -/
def PRec.pairBlocks (r : PRec) : Nat := r.rows * r.groupsOf

/-- Record and strip of one row that block `b` of the stream is: row `b / groups`, columns of group `b mod groups`. -/
def blockAt (rs : List PRec) (b : Nat) : PRec × StripG :=
  let p := stripFrom (rs.map PRec.pairBlocks) 0 b
  let r := rs.getD p.1 {}
  let c := p.2 % r.groupsOf * 32
  (r, { r0 := p.2 / r.groupsOf, nr := 1, c0 := c, nc := min 32 (r.cols - c) })

/-! ### Chunks (R343, R344) -/

/-- Units of a chunk: FP32 elements, blocks, or bytes. -/
def unitsPerChunk (op : Nat) : Nat := if op = 1 ∨ op = 3 then 16384 else if op = 2 then 512 else 65536

/-- Units in all: of one rank for ALLGATHER. -/
def Dev.collUnits (d : Dev) (c : Nat) (o : CollOp) : Nat :=
  if o.op = 2 then ((d.pairRecs c o.src o.count).map PRec.pairBlocks).foldl (· + ·) 0 else o.count

/-- Chunks of one rank's part (ALLGATHER), or of the whole. -/
def Dev.collPart (d : Dev) (c : Nat) (o : CollOp) : Nat := cdiv (d.collUnits c o) (unitsPerChunk o.op)

/-- C, the chunks of the whole operation (R343). -/
def Dev.collChunks (d : Dev) (c n : Nat) (o : CollOp) : Nat := if o.op = 4 then n * d.collPart c o else d.collPart c o

/-- Chunk `i` of a part: its units. -/
def Dev.chunkUnits (d : Dev) (c : Nat) (o : CollOp) (i : Nat) : Nat :=
  let j := if o.op = 4 then i % d.collPart c o else i
  min (unitsPerChunk o.op) (d.collUnits c o - unitsPerChunk o.op * j)

/-- The rank that owns a chunk, from which the second pass starts (R344). -/
def Dev.chunkHome (d : Dev) (g : CGroup) (i : Nat) : Nat :=
  if g.co.op = 4 then i / d.collPart g.ctx g.co else if g.co.op = 5 then g.co.root % 4096 else i % g.n

/-- The rank that first sends a chunk of the reduction pass (R345). -/
def CGroup.chunkFirst (g : CGroup) (i : Nat) : Nat := (i % g.n + 1) % g.n

/-- The operation has a reduction pass. -/
def CollOp.reduces (o : CollOp) : Bool := o.op == 1 || o.op == 2 || o.op == 3
/-- The operation has a second pass. -/
def CollOp.spreads (o : CollOp) : Bool := o.op != 3

/-- This rank sends chunk `i` in pass `p`. -/
def Dev.sendsIn (d : Dev) (g : CGroup) (p i : Nat) : Bool :=
  if p = 0 then g.co.reduces && d.chunkHome g i != g.rank else g.co.spreads && (g.rank + 1) % g.n != d.chunkHome g i

/-- This rank receives chunk `i` in pass `p`. -/
def Dev.receivesIn (d : Dev) (g : CGroup) (p i : Nat) : Bool :=
  if p = 0 then g.co.reduces && g.chunkFirst i != g.rank else g.co.spreads && d.chunkHome g i != g.rank

/-- The wire form of a chunk in a pass is the stored pair rather than FP32 (R347): `fromFirst` for the first send. -/
def CollOp.pairForm (o : CollOp) (p : Nat) (fromFirst : Bool) : Bool := o.op == 2 && (p == 1 || fromFirst)

/-- Bytes of a chunk of `u` units on the wire. -/
def CollOp.wireLen (o : CollOp) (pair : Bool) (u : Nat) : Nat :=
  if o.op = 2 then (if pair then 65 * u else 128 * u) else if o.op = 1 ∨ o.op = 3 then 4 * u else u

/-! ### Where the bytes lie -/

/-- G, E and scale runs of the blocks of a chunk. -/
def pairRunsOf (rs : List PRec) (b0 n : Nat) : List (Nat × Nat) × List (Nat × Nat) × List (Nat × Nat) :=
  let bs := (List.range n).map (fun i => blockAt rs (b0 + i))
  (bs.flatMap (fun b => b.1.byteRuns b.1.gq b.2), bs.flatMap (fun b => b.1.byteRuns b.1.ge b.2), bs.flatMap (fun b => b.1.blockRuns b.1.gs b.2))

/-- Source bytes of chunk `i`: runs of address and length. -/
def Dev.chunkSrc (d : Dev) (g : CGroup) (i : Nat) : List (Nat × Nat) :=
  let o := g.co
  let u := d.chunkUnits g.ctx o i
  if o.op = 2 then
    let r := pairRunsOf (d.pairRecs g.ctx o.src o.count) (512 * i) u
    r.1 ++ r.2.1 ++ r.2.2
  else if o.op = 4 then [(o.src + 65536 * (i % d.collPart g.ctx o), u)]
  else [(o.src + 65536 * i, o.wireLen false u)]

/-- Destination bytes of chunk `i` at this rank, none where it writes nothing (R348). -/
def Dev.chunkDst (d : Dev) (g : CGroup) (i : Nat) : List (Nat × Nat) :=
  let o := g.co
  let u := d.chunkUnits g.ctx o i
  if o.op = 2 then
    let r := pairRunsOf (d.pairRecs g.ctx o.dst o.count) (512 * i) u
    r.1 ++ r.2.1 ++ r.2.2
  else if o.op = 3 then (if d.chunkHome g i = g.rank then [(o.dst + 65536 * (i / g.n), 4 * u)] else [])
  else if o.op = 4 then [(o.dst + d.chunkHome g i * o.count + 65536 * (i % d.collPart g.ctx o), u)]
  else if o.op = 5 ∧ o.dst = 0 ∧ g.rank = o.root % 4096 then []
  else [(o.dst + 65536 * i, o.wireLen false u)]

/-- This rank counts chunk `i` as its own: it writes it, or is the root of a BROADCAST that only sends (R348). -/
def Dev.chunkMine (d : Dev) (g : CGroup) (i : Nat) : Bool := if g.co.op = 3 then d.chunkHome g i == g.rank else true

/-! ### Good and failed chunks (R348) -/

/-- Destination bytes of a failed chunk: free values wherever they translate (log entry 2). -/
def Dev.chunkUndef (d : Dev) (g : CGroup) (i : Nat) : Dev :=
  if g.co.internal.isSome then d
  else (d.chunkDst g i).foldl (fun d r => ((d.writeVa g.ctx r.1 (d.freeBytes r.2)).1).ticks r.2) d

/-- The cursor passes chunks that are good, or not this rank's. -/
def Dev.passCursor (d : Dev) (g : CGroup) : Nat → CGroup
  | 0 => g
  | n + 1 =>
    if g.cursor < g.co.first + g.co.segs ∧ (g.good.contains g.cursor ∨ !d.chunkMine g g.cursor) then
      d.passCursor { g with cursor := g.cursor + 1, good := g.good.filter (· != g.cursor) } n
    else g

/-- Chunk `i` is good at this rank. -/
def Dev.chunkGood (d : Dev) (k i : Nat) : Dev :=
  let g := d.grp k
  let n := if g.co.internal.isSome then 0 else ((d.chunkDst g i).map (·.2)).foldl (· + ·) 0
  let g := { g with good := if g.good.contains i then g.good else g.good ++ [i], goodBytes := g.goodBytes + n }
  d.setGrp k (d.passCursor g (g.co.segs + 1))

/-- Chunk `i` fails at this rank with a status. -/
def Dev.chunkFail (d : Dev) (k i : Nat) (st : Status) : Dev :=
  let g := d.grp k
  let d := d.setGrp k { g with status := stCombine g.status st.code, failed := if g.failed.contains i then g.failed else g.failed ++ [i] }
  if g.failed.contains i then d else d.chunkUndef g i

/-! ### The result record (R349) -/

/-- A result record in the layout of R228 Table 10: status, segments, failed segments relative to the first, cursor, bytes good. -/
def resultRecord (st segs : Nat) (failed : List Nat) (cursor bytes : Nat) : List Byte :=
  toBytes 2 st ++ toBytes 2 0 ++ toBytes 4 segs ++ toBytes 4 failed.length ++ toBytes 4 cursor ++ toBytes 8 bytes ++ toBytes 8 0 ++
  (List.range (cdiv segs 8)).map (fun b => BitVec.ofNat 8 ((List.range 8).foldl (fun a j => a + b2n (failed.contains (8 * b + j)) * 2 ^ j) 0))

/-- The operation of a group that its command's block describes. -/
def Dev.collOf (d : Dev) (m : Cmd) : CollOp :=
  let o : CollOp := { op := m.xcop, red := m.xcred, rnd := m.xcrnd, root := m.xcroot, count := m.xccount, src := m.xcsrc, dst := m.xcdst, first := m.xcfirst, start := m.xcstart }
  let n := (d.grp m.xcgid).n
  { o with segs := if m.xcop = 6 then 1 else if m.xcchunks = 0 then d.collChunks m.ctx n o - m.xcfirst else m.xcchunks }

/-- A handoff command: XSEND or XRECV. -/
def Cmd.handoff (m : Cmd) : Bool := m.xcop == 7 || m.xcop == 8

/-- 64 KiB segments of a handoff (R357). -/
def Cmd.hSegs (m : Cmd) : Nat := cdiv m.xccount 65536

/-- The record of a collective command written at `RESULT`: of the running one from its group, of a handoff from the command. -/
def Dev.collRecord (d : Dev) (trk st : Nat) : Dev :=
  let m := d.cmd trk
  let g := d.grp m.xcgid
  let r := if m.handoff then
      resultRecord (m.finalStatus st) m.hSegs m.failed m.cursor
        (min m.xccount (65536 * m.hSegs) - m.failed.foldl (fun a i => a + (min ((i + 1) * 65536) m.xccount - i * 65536)) 0)
    else if g.running = some trk then
      resultRecord (m.finalStatus st) g.co.segs (g.failed.map (· - g.co.first)) (g.cursor - g.co.first) g.goodBytes
    else
      let n := (d.collOf m).segs
      resultRecord (m.finalStatus st) n (List.range n) 0 0
  (d.writeVa m.ctx m.xcresult r).1

/-- The group of an operation is idle again: its next command takes the next instance number (R341). -/
def CGroup.idle (g : CGroup) : CGroup :=
  { g with running := none, begun := false, co := {}, inst := (g.inst + 1) % 4096, pass0 := {}, pass1 := {}, cursor := 0, good := [], failed := [],
           goodBytes := 0, status := 0, got := [], picotSrc := none }

/-- A collective command ends with a status (R348, R349): the cursor and every later chunk are failed, the record is written, and the group is
idle; the completion follows. -/
def Dev.collStop (d : Dev) (trk : Nat) (st : Status) : Dev :=
  let m := d.cmd trk
  if !(m.live && m.typ == tyCollective && m.stage != .finished) then d
  else
    let g := d.grp m.xcgid
    if m.handoff then
      let d := d.updCmd trk (fun m => { m with failed := m.failed ++ (List.range (m.hSegs - m.cursor)).map (· + m.cursor) })
      d.collRecord trk st.code
    else if g.running = some trk then
      let later := (List.range (g.co.first + g.co.segs - g.cursor)).map (· + g.cursor)
      let d := later.foldl (fun d i => d.chunkFail m.xcgid i st) d
      let d := d.updCmd trk (fun m => { m with status := stCombine m.status (d.grp m.xcgid).status })
      (d.collRecord trk st.code).updGrp m.xcgid CGroup.idle
    else d.collRecord trk st.code

/-- A context that owns a fenced group is held: no command of it is released and none of its tile instructions issues (R340). -/
def Dev.ctxHeld (d : Dev) (c : Nat) : Bool := d.groupTab.any (fun e => e.2.state == .fenced && e.2.ctx == c)

/-- The shuttle stops for the contexts that satisfy `p`: no further record or frame, and records held are dropped (R352). -/
def Dev.stopShuttle (d : Dev) (p : Nat → Bool) : Dev :=
  (tabKeys (fun _ g => g.state != .free && p g.ctx) d.groupTab).foldl (fun d k =>
    d.updGrp k (fun g => if g.running.isSome then { g.idle with held := [], credits := [], launches := [] } else { g with held := [], credits := [], launches := [] })) d

/-- The shuttle stops for the commands that satisfy `p`: the groups that run them are idle (R352). -/
def Dev.stopRunning (d : Dev) (p : Cmd → Bool) : Dev :=
  (tabKeys (fun _ g => match g.running with
    | some t => p (d.cmd t)
    | none => false) d.groupTab).foldl (fun d k => d.updGrp k CGroup.idle) d

/-- The groups that satisfy `p` of their context and hoop are freed. -/
def Dev.freeGroups (d : Dev) (p : Nat → Nat → Bool) : Dev :=
  (tabKeys (fun _ g => g.state != .free && p g.ctx g.hoop) d.groupTab).foldl (fun d k => d.setGrp k {}) d

end Sys2Proof.Machine
end

