-- ==== Sys2Proof/Machine/StorBlock.lean ====
section
/-! DEFINITION. The storage block (R366 Table 4), the CHECKPOINT block and its shard entries (R373), file descriptors and where a file lies on
storage (R363 to R365), and how a storage or checkpoint command that stops leaves its I/Os and its result record (R367, R369). -/
namespace Sys2Proof.Machine

/-! ### The storage block -/

/-- `RELAY`. -/
def Cmd.srelay (m : Cmd) : Nat := m.bf 2 1
/-- `FILE`. -/
def Cmd.sfile (m : Cmd) : Nat := m.bf 8 8
/-- `CHUNK_FIRST`. -/
def Cmd.sfirst (m : Cmd) : Nat := m.bf 16 4
/-- `CHUNK_COUNT`. -/
def Cmd.scount (m : Cmd) : Nat := m.bf 20 4
/-- `LENGTH`. -/
def Cmd.slen (m : Cmd) : Nat := m.bf 24 8
/-- `BUF`. -/
def Cmd.sbuf (m : Cmd) : Nat := m.bf 32 8
/-- `RESULT`, of a storage or a checkpoint block. -/
def Cmd.sresult (m : Cmd) : Nat := m.bf 40 8

/-- A reserved field of the storage block is not zero, or a stated range is broken (R366). -/
def Cmd.storBad (m : Cmd) : Bool :=
  m.block.length != 64 || m.sop == 0 || decide (3 < m.sop) || fld m.srelay 6 4 != 0 || (!bit m.srelay 7 && m.srelay != 0) || m.bf 3 5 != 0 ||
  m.bf 48 16 != 0 || m.sfile % 64 != 0 || m.sresult % 256 != 0 ||
  (m.sop == 1 && m.scount == 0) || (m.sop == 2 && (m.slen == 0 || decide (2 ^ 40 < m.slen)))

/-- Chunks of a storage command. -/
def Cmd.sChunks (m : Cmd) : Nat := if m.sop = 1 then m.scount else if m.sop = 2 then cdiv m.slen 65536 else 1

/-! ### The CHECKPOINT block (R373) -/

/-- `ARMED`. -/
def Cmd.kArmed (m : Cmd) : Bool := bit (m.bf 2 1) 0
/-- `FORCE`. -/
def Cmd.kForce (m : Cmd) : Bool := bit (m.bf 2 1) 1
/-- `VERIFY`. -/
def Cmd.kVerify (m : Cmd) : Bool := bit (m.bf 2 1) 2
/-- `GID`. -/
def Cmd.kGid (m : Cmd) : Nat := m.bf 3 1
/-- `NSHARD`. -/
def Cmd.kShards (m : Cmd) : Nat := m.bf 6 2
/-- `CKPT_ID`. -/
def Cmd.kId (m : Cmd) : Nat := m.bf 8 8
/-- `MANIFEST`. -/
def Cmd.kManifest (m : Cmd) : Nat := m.bf 16 8
/-- `STAGE`. -/
def Cmd.kStage (m : Cmd) : Nat := m.bf 24 8
/-- `STAGE_LEN`. -/
def Cmd.kStageLen (m : Cmd) : Nat := m.bf 32 8
/-- `FILES`. -/
def Cmd.kFiles (m : Cmd) : Nat := m.bf 48 8
/-- `NFILES`. -/
def Cmd.kNfiles (m : Cmd) : Nat := m.bf 56 4
/-- `CID` of shard entry `j` (R373 Table 7). -/
def Cmd.kCid (m : Cmd) (j : Nat) : Nat := m.bf (128 + 64 * j) 8
/-- `SOURCE`. -/
def Cmd.kSource (m : Cmd) (j : Nat) : Nat := m.bf (136 + 64 * j) 8
/-- `KIND`: 0 parameter, 1 plain tensor. -/
def Cmd.kKind (m : Cmd) (j : Nat) : Nat := m.bf (144 + 64 * j) 1
/-- `FILE`. -/
def Cmd.kFile (m : Cmd) (j : Nat) : Nat := m.bf (152 + 64 * j) 8

/-- A stated range or a reserved field of the CHECKPOINT block is broken (R373). -/
def Cmd.ckptBad (m : Cmd) : Bool :=
  m.block.length != 128 + 64 * m.kShards || m.sop == 0 || decide (3 < m.sop) || fld (m.bf 2 1) 7 3 != 0 || m.kShards == 0 || decide (64 < m.kShards) ||
  decide (1023 < m.kFence) || m.sresult % 256 != 0 || m.bf 60 68 != 0 || (m.sop == 3 && (m.kNfiles == 0 || decide (65536 < m.kNfiles))) ||
  (List.range m.kShards).any (fun j => decide (1 < m.kKind j) || m.bf (145 + 64 * j) 7 != 0 || m.bf (160 + 64 * j) 32 != 0)

/-! ### Files (R363 to R365) -/

/-- Chunks of a file. -/
def StorFile.chunks (f : StorFile) : Nat := cdiv f.length 65536

/-- Plaintext bytes of chunk `i`. -/
def StorFile.chunkLen (f : StorFile) (i : Nat) : Nat := min 65536 (f.length - 65536 * i)

/-- Bytes of the tag area. -/
def StorFile.tagLen (f : StorFile) : Nat := roundUp (64 + 16 * f.chunks) 4096

/-- The descriptor that bytes hold. -/
def fileOf (a : Nat) (bs : List Byte) : StorFile :=
  { addr := a, key := bytesNat bs 4 2 % 4096, gen := bytesNat bs 4 2 / 4096, fileId := bytesNat bs 8 8, nonce := bytesNat bs 16 8,
    length := bytesNat bs 24 8,
    extents := (List.range (bytesNat bs 6 2)).map (fun e => (bytesNat bs (64 + 16 * e) 1, bytesNat bs (68 + 16 * e) 4, bytesNat bs (72 + 16 * e) 8)) }

/-- The descriptor at an address of a context's space. -/
def Dev.readFile (d : Dev) (c a : Nat) : StorFile :=
  let n := bytesNat (d.readVa c a 64).bytes 6 2
  fileOf a (d.readVa c a (64 + 16 * n)).bytes

/-- Session `s`. -/
def Dev.sess (d : Dev) (s : Nat) : Session := tabGet (fun _ => ({} : Session)) d.sessions s
/-- Session `s` replaced. -/
def Dev.setSess (d : Dev) (s : Nat) (x : Session) : Dev := { d with sessions := tabPut (fun _ => ({} : Session)) d.sessions s x }

/-- Logarithm of the LBA size of an extent's session; of a neighbour's, which the device cannot read, 12 (log entry 40). -/
def Dev.extLba (d : Dev) (relay : Bool) (s : Nat) : Nat := if relay then 12 else (d.sess s).lba

/-- Bytes that an extent maps. -/
def Dev.extBytes (d : Dev) (relay : Bool) (e : Nat × Nat × Nat) : Nat := e.2.1 * 2 ^ d.extLba relay e.1

/-- Why a descriptor is invalid (R363): magic, reserved fields, extents, coverage of the file's data and tag areas. With a relay the sessions are the
neighbour's, and only the form is checked. -/
def Dev.fileBad (d : Dev) (relay : Bool) (raw : List Byte) (f : StorFile) : Bool :=
  let n := bytesNat raw 6 2
  raw.length < 64 || raw.take 4 != ascii "FDSC" || n == 0 || bytesNat raw 32 32 != 0 || f.addr % 64 != 0 ||
  (List.range n).any (fun e => bytesNat raw (65 + 16 * e) 3 != 0) ||
  f.extents.any (fun e => decide (63 < e.1) || e.2.1 == 0 || (!relay && ((d.sess e.1).state != .opened || d.extBytes relay e % 4096 != 0 || decide ((d.sess e.1).blocks < e.2.2 + e.2.1)))) ||
  (decide ((f.extents.map (d.extBytes relay)).foldl (· + ·) 0 < 65536 * f.chunks + f.tagLen))

/-- Where `len` bytes of a file from byte `off` lie: session, start LBA, offset within the range, bytes; whole LBAs, cut at extents. -/
def Dev.filePieces (d : Dev) (relay : Bool) : List (Nat × Nat × Nat) → Nat → Nat → Nat → List (Nat × Nat × Nat × Nat)
  | [], _, _, _ => []
  | e :: r, off, len, done =>
    let n := d.extBytes relay e
    if len = 0 then []
    else if n ≤ off then d.filePieces relay r (off - n) len done
    else
      let k := min len (n - off)
      (e.1, e.2.2 + off / 2 ^ d.extLba relay e.1, done, k) :: d.filePieces relay r 0 (len - k) (done + k)

/-! ### A command in progress -/

/-- What command `trk` has done, changed. -/
def Dev.updCap (d : Dev) (trk : Nat) (f : Capture → Capture) : Dev := d.setCap trk (f (d.cap trk))

/-- The I/O of an rkey. -/
def Dev.io (d : Dev) (r : Nat) : StorIo := tabGet (fun _ => ({} : StorIo)) d.ios r
/-- The I/O of an rkey replaced. -/
def Dev.setIo (d : Dev) (r : Nat) (x : StorIo) : Dev := { d with ios := tabPut (fun _ => ({} : StorIo)) d.ios r x }

/-- The command is of the storage engine. -/
def Cmd.storing (m : Cmd) : Bool := m.typ == tyStorage || m.typ == tyCheckpoint

/-- I/Os of the commands that satisfy `p` closed with their rkey windows (R369). -/
def Dev.closeIos (d : Dev) (p : Nat → Bool) : Dev := { d with ios := d.ios.filter (fun e => !(e.2.peer.isNone && p e.2.trk)) }

/-- The result record of a storage or checkpoint command (R367): segments are chunks, or shards. -/
def Dev.storRecord (d : Dev) (trk st : Nat) : Dev :=
  let m := d.cmd trk
  let segs := if m.typ = tyStorage then m.sChunks else m.kShards
  (d.writeVa m.ctx m.sresult (resultRecord (m.finalStatus st) segs m.failed m.cursor (d.cap trk).goodBytes)).1

/-- Destination bytes of a READ chunk that failed: free values (log entry 2). -/
def Dev.readUndef (d : Dev) (m : Cmd) (f : StorFile) (i : Nat) : Dev :=
  if m.typ = tyStorage ∧ m.sop = 1 then
    let n := f.chunkLen (m.sfirst + i)
    ((d.writeVa m.ctx (m.sbuf + 65536 * i) (d.freeBytes n)).1).ticks n
  else d

/-- A RESTORE that stops after writing has begun leaves its fence `INCOMPLETE` (R382); any hold is given back at completion. -/
def Dev.restoreStop (d : Dev) (trk : Nat) : Dev :=
  let m := d.cmd trk
  if m.typ = tyCheckpoint ∧ m.sop = 3 then
    let f := d.fence m.kFence
    if f.running = some trk ∧ (d.cap trk).written then
      (d.setFence m.kFence { f with state := .incomplete, running := none }).abortHolds f
    else if f.running = some trk then d.setFence m.kFence { f with running := none, state := if f.state = .updating then .idle else f.state }
    else d
  else d

/-! ### Checkpoint triggers (R370, R371) -/

/-- A CAPTURE starts: its read hold on the fence is accepted now, in the fence's order; the timer counts from here (R370, R371). -/
def Dev.captureStart (d : Dev) (trk : Nat) : Dev :=
  let m := d.cmd trk
  let f := d.fence m.kFence
  let d := d.setFence m.kFence { f with waiting := f.waiting ++ [(trk, false)] }
  let d := d.setTrig m.kFence { d.trig m.kFence with since := d.now, lastStep := f.step }
  let d := d.setRegN pgCkpt m.kFence 0x010C f.step
  d.updCap trk (fun c => { c with live := true, phase := 1 })

/-- The armed CAPTUREs released on a fence that have not started, the oldest release first. -/
def Dev.armedOn (d : Dev) (f : Nat) : List Nat :=
  (d.cmdsOf (fun m => m.typ == tyCheckpoint && m.sop == 1 && m.kArmed && m.released && m.stage == .running && m.kFence == f)).filter (fun t => (d.cap t).phase == 0)

/-- The release that comes first. -/
def Dev.oldest (d : Dev) : List Nat → Option Nat
  | [] => none
  | t :: r => match d.oldest r with
    | none => some t
    | some u => if (d.cmd t).relOrder ≤ (d.cmd u).relOrder then some t else some u

/-- The trigger of a fence fires: it starts the oldest armed CAPTURE, or sets `MISSED`; a firing while it is already fired merges (R370). -/
def Dev.fireTrigger (d : Dev) (f : Nat) : Dev :=
  let t := d.trig f
  if t.fired then d
  else match d.oldest (d.armedOn f) with
    | none => d.orReg pgCkpt f 0x011C 1
    | some k => (d.setTrig f { t with fired := true }).captureStart k

/-- A STEP has completed on a fence: its step trigger fires N steps past the last capture (R370). -/
def Dev.stepTrigger (d : Dev) (f step : Nat) : Dev :=
  let n := d.regN pgCkpt f 0x0104
  if n ≠ 0 ∧ (d.trig f).lastStep + n ≤ step then d.fireTrigger f else d

/-- The group that runs a ring operation of a checkpoint is idle again when the checkpoint ends. -/
def Dev.ckptGroup (d : Dev) (trk : Nat) : Dev :=
  let m := d.cmd trk
  if m.typ = tyCheckpoint ∧ (d.grp m.kGid).running = some trk then d.updGrp m.kGid CGroup.idle else d

/-- A storage or checkpoint command ends with a status: the cursor and every later chunk are failed and the record is written,
except with `CONTEXT_ABORTED` (R367, R371). -/
def Dev.storStop (d : Dev) (trk : Nat) (st : Status) : Dev :=
  let m := d.cmd trk
  if !(m.live && m.storing && m.stage != .finished) then d
  else
    let d := d.restoreStop trk
    let segs := if m.typ = tyStorage then m.sChunks else m.kShards
    let later := ((List.range (segs - m.cursor)).map (· + m.cursor)).filter (fun i => !m.failed.contains i)
    let f := (d.cap trk).files.headD {}
    let d := later.foldl (fun d i => d.readUndef m f i) d
    let d := d.updCmd trk (fun m => { m with failed := m.failed ++ later })
    ((((if st = .contextAborted then d else d.storRecord trk st.code) : Dev).captureOver trk (m.finalStatus st.code)).ckptGroup trk |>.closeIos (· == trk)).setCap trk {}

/-- The storage engine issues nothing more for the commands that satisfy `p` and closes their windows; no record is written (R369). A CAPTURE that
had started is over (R370). -/
def Dev.stopStorage (d : Dev) (p : Cmd → Bool) : Dev :=
  (d.cmdsOf (fun m => m.storing && p m)).foldl (fun d t =>
    let d := d.restoreStop t
    let d := if (d.cap t).live then d.captureOver t Status.contextAborted.code else d
    (d.closeIos (· == t)).setCap t {}) d

end Sys2Proof.Machine
end

