-- ==== Sys2Proof/Machine/Stops.lean ====
section
/-! DEFINITION. How engines stop for a context or a hoop: the result record that a command of each engine leaves (R228, R349, R367), the
shuttle and the storage engine; and the debug rights: what is in force, what it reaches, and how rights over a hoop end (R420, R428, R429, R435). -/
namespace Sys2Proof.Machine

/-- A command ends with a status other than `CONTEXT_ABORTED` while its engine holds it: the result record of its type. -/
def Dev.stopRecord (d : Dev) (trk : Nat) (st : Status) : Dev :=
  let m := d.cmd trk
  if m.typ = tyDma then d.dmaStop trk st
  else if m.typ = tyCollective then (if m.released then d.collStop trk st else d)
  else if m.storing then (if m.released then d.storStop trk st else d)
  else d

/-! ### Life-cycle states (R419 Table 1) -/

def lcBlank : Nat := 0x0
def lcTestUnlocked : Nat := 0x1
def lcTestLocked : Nat := 0x2
def lcManufactured : Nat := 0x3
def lcSecured : Nat := 0x4
def lcRma : Nat := 0x5
def lcScrapped : Nat := 0x6
def lcInvalid : Nat := 0xF

/-- Every right is open without a certificate in the state (R420 Table 2). -/
def lcOpen (lc : Nat) : Bool := lc == lcBlank || lc == lcTestUnlocked || lc == lcRma

/-- No right opens in the state. -/
def lcShut (lc : Nat) : Bool := lc == lcScrapped || lc == lcInvalid

/-! ### Debug rights (R428, R429) -/

/-- The rights of a state without certificate are open: until a transition closes them (R425). -/
def Dev.dbgOpen (d : Dev) : Bool := lcOpen d.lc.inForce && !d.dbg.openClosed

/-- Rights in force: bits 0 to 4 of R428 Table 5. -/
def Dev.dbgRights (d : Dev) : Nat := if lcShut d.lc.inForce then 0 else if d.dbgOpen then 0x1F else d.dbg.rights

/-- Scope in force; in an open state every hoop but those whose rights a reset or DESTROY ended (R435). -/
def Dev.dbgScope (d : Dev) : Nat := if lcShut d.lc.inForce then 0 else if d.dbgOpen then 0xFFFF ^^^ d.dbg.ended else d.dbg.scope

/-- A right reaches the contexts of a hoop (R429): in force, in scope, consented, and in SECURED granted with that hoop's record. -/
def Dev.dbgReaches (d : Dev) (right h : Nat) : Bool :=
  bit d.dbgRights right && bit d.dbgScope h && (decide (3 < right) || bit (d.hoopSec h).consent right) &&
  (d.lc.inForce != lcSecured || bit d.dbg.recorded h)

/-- Halted lanes of hoops that tile halt no longer reaches resume (R433, R435). -/
def Dev.dbgSettle (d : Dev) : Dev :=
  { d with tiles := d.tiles.map (fun (e : Nat × Tile) => (e.1, { e.2 with slots := e.2.slots.map (fun (f : Nat × Slot) =>
      (f.1, if f.2.halted && !d.dbgReaches 2 f.2.hoop then { f.2 with halted := false } else f.2)) })) }

/-- Debug rights over a hoop end (R435, R444). -/
def Dev.endDebugOf (d : Dev) (h : Nat) : Dev :=
  let off := fun (x : Nat) => if bit x h then x - 2 ^ h else x
  let x := d.dbg
  Dev.dbgSettle { d with dbg := { x with scope := off x.scope, recorded := off x.recorded, ended := if bit x.ended h then x.ended else x.ended + 2 ^ h } }

/-- Every right in force ends (R435); an RMA certificate stays in force until the next reset (R431). -/
def Dev.endDebug (d : Dev) : Dev :=
  Dev.dbgSettle { d with dbg := { d.dbg with rights := 0, scope := 0, recorded := 0, legacy := false, openClosed := true } }

end Sys2Proof.Machine
end

