-- ==== Sys2Proof/Machine/Tables.lean ====
section
/-! DEFINITION. The page tables of a context as a whole (R214, R215): its table pages, its leaves, and their teardown (R279 step 10). -/
namespace Sys2Proof.Machine

/-- Valid entries of a table page: index and entry. -/
def Dev.tableEntries (d : Dev) (ppn n : Nat) : List (Nat × Nat) :=
  ((List.range n).map (fun i => (i, d.pte (ppn * 65536 + 8 * i)))).filter (fun e => bit e.2 0)

/-- PPN of a table entry. -/
def pteN (e : Nat) : Nat := fld e 38 16

/-- Level-1 table pages of a context. -/
def Dev.tables1 (d : Dev) (c : Nat) : List Nat := (d.tableEntries (d.ctx c).root 64).map (fun e => pteN e.2)

/-- Level-2 table pages. -/
def Dev.tables2 (d : Dev) (c : Nat) : List Nat :=
  (d.tables1 c).flatMap (fun p => ((d.tableEntries p 8192).filter (fun e => !bit e.2 4)).map (fun e => pteN e.2))

/-- Every leaf of a context: first PPN and pages mapped. -/
def Dev.leaves (d : Dev) (c : Nat) : List (Nat × Nat) :=
  (d.tables1 c).flatMap (fun p => ((d.tableEntries p 8192).filter (fun e => bit e.2 4)).map (fun e => (pteN e.2, 8192))) ++
  (d.tables2 c).flatMap (fun p => (d.tableEntries p 8192).map (fun e => (pteN e.2, 1)))

/-- `MAPS` of a page lowered by one. -/
def Dev.unmapPage (d : Dev) (ppn : Nat) : Dev :=
  let x := d.potOf ppn
  if x.maps = 0 ∨ x.maps = 4095 then d else d.setPot ppn { x with maps := x.maps - 1 }

/-- `MAPS` of `n` pages lowered by one. -/
def Dev.unmapPages (d : Dev) (ppn n : Nat) : Dev := foldUpto n (fun d i => d.unmapPage (ppn + i)) d

/-- A table page zeroed and returned to its hoop (R219). -/
def Dev.returnTable (d : Dev) (ppn : Nat) : Dev :=
  let d := d.zeroPage ppn
  d.setPot ppn { d.potOf ppn with bound := false, key := 0, maps := 0 }

/-- Every leaf cleared, `MAPS` decremented, the table pages zeroed and returned (R279 step 10). -/
def Dev.dropTables (d : Dev) (c : Nat) : Dev :=
  let ls := d.leaves c
  let ts := d.tables2 c ++ d.tables1 c ++ [(d.ctx c).root]
  let d := ls.foldl (fun d e => d.unmapPages e.1 e.2) d
  ts.foldl Dev.returnTable d

end Sys2Proof.Machine
end

