-- ==== Sys2Proof/Machine/Teardown.lean ====
section
/-! DEFINITION. Taking a context's work down: sampling (R441, R442), the context reset (R443), the hoop reset (R444), destruction
(R279), and the class C and class P faults that start them (R437, R439). -/
namespace Sys2Proof.Machine

/-! ### Records -/

/-- A fault record or log entry as its 32 bytes (R452 Table 10). -/
def LogEntry.bytes (e : LogEntry) : List Byte :=
  toBytes 1 e.cause ++ toBytes 1 e.cls ++ toBytes 2 e.status ++ toBytes 1 e.unit ++ toBytes 1 e.unum ++ toBytes 2 e.pc ++
  toBytes 1 e.opc ++ toBytes 1 e.hoop ++ toBytes 2 e.ctx ++ toBytes 4 e.tracker ++ toBytes 8 e.addr ++ toBytes 8 e.time

/-- Slots that a context holds: tile and slot, in increasing tile number. -/
def Dev.slotsOf (d : Dev) (c : Nat) : List (Nat × Nat) :=
  d.tiles.flatMap (fun e => (tabKeys (fun _ s => s.valid && s.ctx == c) e.2.slots).map (fun k => (e.1, k)))

/-- The word in flight on a lane, zero where none. -/
def Slot.laneWord (s : Slot) (lane : Nat) : Nat :=
  match s.flight.find? (fun f => f.lane == lane || (f.lane == 3 && lane != 2)) with
  | some f => f.word
  | none => 0

/-- Lanes that hold issued work, and the movement lane's parking, as `LANES` has them. -/
def Slot.lanes (s : Slot) : Nat :=
  (List.range 3).foldl (fun a l => a + b2n (s.flight.any (fun f => f.lane == l || (f.lane == 3 && l != 2))) * 2 ^ l) 0 +
  b2n s.parked * 32

/-- A loop as its 8 bytes. -/
def LoopEnt.bytes (l : LoopEnt) : List Byte := toBytes 2 l.left ++ toBytes 2 l.start ++ toBytes 2 l.stop ++ toBytes 2 0

/-- A tile record of a sample (R442 Table 5). -/
def Dev.tileRecord (d : Dev) (t k : Nat) : List Byte :=
  let s := d.slot t k
  toBytes 2 t ++ toBytes 1 k ++ toBytes 1 s.units.length ++ toBytes 2 s.pc ++ toBytes 2 0 ++
  (List.range 15).flatMap (fun i => toBytes 8 (s.x (i + 1))) ++ toBytes 4 s.step ++ toBytes 1 s.tokens ++
  toBytes 1 s.loops.length ++ toBytes 2 0 ++ (List.range 4).flatMap (fun i => (s.loops.getD i {}).bytes) ++
  toBytes 16 (s.laneWord 0) ++ toBytes 16 (s.laneWord 1) ++ toBytes 16 (s.laneWord 2) ++ toBytes 1 s.lanes ++ toBytes 295 0 ++
  d.shelfRead t s 0 32768 ++ d.shelfRead t s (s.size - 32768) 32768

/-- The magic of a sample: ASCII "HTDIAGSM", little-endian. -/
def sampleMagic : Nat := 0x4D53474149445448

/-- The sample's header (R442 Table 4). -/
def Dev.sampleHeader (d : Dev) (c cause status tiles : Nat) (trunc : Bool) (frec : List Byte) : List Byte :=
  toBytes 8 sampleMagic ++ toBytes 4 0x10000 ++ toBytes 2 c ++ toBytes 1 (d.ctx c).hoop ++ toBytes 1 cause ++
  toBytes 2 status ++ toBytes 2 tiles ++ toBytes 4 (b2n trunc) ++ toBytes 8 d.now ++ frec.take 32 ++
  toBytes (32 - frec.length) 0 ++ toBytes 192 0

/-- Bytes written page piece by page piece, stopping at the first that fails; answers whether one failed. -/
def Dev.samplePut (d : Dev) (c : Nat) : List (Nat × List Byte) → Dev × Bool
  | [] => (d, false)
  | (va, bs) :: r =>
    match d.writeVa c va bs with
    | (d, none) => d.samplePut c r
    | (d, some _) => (d, true)

/-- Bytes cut at page boundaries. -/
def pagePieces (va : Nat) (bs : List Byte) : List (Nat × List Byte) :=
  (pieces va bs.length).map (fun p => (p.1, (bs.drop (p.1 - va)).take p.2))

/-- The context's sample written into its diagnostic buffer (R441, R442). -/
def Dev.sample (d : Dev) (c cause status : Nat) : Dev :=
  let x := d.ctx c
  let len := d.regN pgDiag c 0x010C % 2 ^ 17 * 65536
  let base := d.reg64 pgDiag c 0x0104
  let en := bit (d.regN pgDiag c 0x0100) 0
  let slots := d.slotsOf c
  let fit := if 256 ≤ len then (len - 256) / 66048 else 0
  let n := min slots.length fit
  let trunc := decide (n < slots.length) || decide (len < 256)
  let frec := x.lastFault.getD []
  let head := d.sampleHeader c cause status n trunc frec
  let parts := pagePieces base (head.take len) ++
    ((List.range n).zip slots).flatMap (fun e => pagePieces (base + 256 + 66048 * e.1) (d.tileRecord e.2.1 e.2.2))
  let r := if en then d.samplePut c parts else (d, true)
  let d := r.1
  let x := d.ctx c
  d.setCtx c { x with sampleValid := en && !r.2, sampleTrunc := trunc, sampleNoBuf := r.2, sampleTiles := if en then n else 0,
                      samples := (x.samples + 1) % 2 ^ 16 }

/-! ### Stopping and releasing a context's work -/

/-- DMA channels carry nothing more for the context (R230). -/
def Dev.stopDma (d : Dev) (p : Cmd → Bool) : Dev :=
  (tabKeys (fun _ ch => ch.busy && p (d.cmd ch.tracker)) d.dmaCh).foldl (fun d n => d.setChannel n {}) d

/-- Darners stop at a strip boundary; a STEP in progress leaves its fence INCOMPLETE (R181). -/
def Dev.stopDarners (d : Dev) (p : Cmd → Bool) : Dev := (d.cmdsOf p).foldl Dev.stopStep d

/-- Every tile lane abandons the context's issued instructions; parked handoffs are freed. -/
def Dev.abandon (d : Dev) (c : Nat) : Dev :=
  (d.slotsOf c).foldl (fun d e => d.setSlot e.1 e.2 { d.slot e.1 e.2 with flight := [], parked := false, suspended := none }) d

/-- A unit of a tile zeroed and free (R79). -/
def Dev.freeUnit (d : Dev) (t u : Nat) : Dev :=
  let d := { d with pantry := memZero d.pantry (t * 2 ^ 22 + u * 65536) 65536 }
  d.setTile t { d.tile t with owner := tabPut natDflt (d.tile t).owner u 0 }

/-- A slot released: units zeroed, receive queues and the slot free (R79). -/
def Dev.freeSlot (d : Dev) (t k : Nat) : Dev :=
  let s := d.slot t k
  let d := s.units.foldl (fun d u => d.freeUnit t u) d
  let x := d.tile t
  d.setTile t { x.setSlot k {} with queues := x.queues.filter (fun e => e.2.owner != some k) }

/-- Shelves, receive queues, saturation and layer-statistics entries released; pricking unloaded. -/
def Dev.freePricking (d : Dev) (c : Nat) : Dev :=
  let d := (d.slotsOf c).foldl (fun d e => d.freeSlot e.1 e.2) d
  let d := { d with sats := d.sats.filter (fun e => !(e.2.assigned && e.2.ctx == c)), lsts := d.lsts.filter (fun e => !(e.2.assigned && e.2.ctx == c)) }
  d.setCtx c { d.ctx c with pricking := none }

/-- Every command that satisfies `p` completes with a status, in tracker order. -/
def Dev.completeAll (d : Dev) (p : Cmd → Bool) (st : Status) (silent : Bool) : Dev :=
  (d.cmdsOf p).foldl (fun d t => d.complete t st.code silent) d

/-- Fault records discarded. -/
def Dev.clearFaults (d : Dev) (c : Nat) : Dev := d.setCtx c { d.ctx c with faults := [] }

/-! ### Context reset (R443) -/

/-- Steps 2 to 6 of R443 Table 6: work stopped, sample written. -/
def Dev.stopCtx (d : Dev) (c cause status : Nat) : Dev :=
  let d := d.stopDma (fun m => m.ctx == c)
  let d := (d.stopShuttle (· == c)).stopStorage (fun m => m.ctx == c)
  let d := d.stopDarners (fun m => m.ctx == c)
  let d := d.sample c cause status
  d.abandon c

/-- A context reset (R443 Table 6): `trk` is the command that took the fault, with its status. -/
def Dev.resetCtx (d : Dev) (c cause : Nat) (trk : Option Nat) (st : Status) : Dev :=
  if (d.ctx c).state ≠ .active then d
  else
    let d := d.stopCtx c cause st.code
    let d := match trk with
      | some t => if (d.cmd t).live && (d.cmd t).ctx == c then d.complete t st.code false else d
      | none => d
    let d := d.completeAll (fun m => m.ctx == c) .contextAborted false
    let d := d.freePricking c
    let d := d.clearFaults c
    d.bumpRc pgRas (d.ctx c).hoop 0x0100 1

/-- What a fault names: unit kind and number, PC, opcode, address. -/
structure FaultInfo where
  unit : Nat := 0
  unum : Nat := 0
  pc : Nat := 0
  opc : Nat := 0
  addr : Nat := 0
deriving DecidableEq, Repr

/-- The log entry of a fault. -/
def Dev.faultEntry (d : Dev) (cause cls : Nat) (st : Status) (c : Nat) (trk : Option Nat) (i : FaultInfo) : LogEntry :=
  { cause := cause, cls := cls, status := st.code, unit := i.unit, unum := i.unum, pc := i.pc, opc := i.opc,
    hoop := (d.ctx c).hoop, ctx := c, tracker := trk.getD 0xFFFF, addr := i.addr, time := d.now }

/-- A class C fault (R437): logged, recorded with the context, and the context reset; a context not ACTIVE only logs it (R439). -/
def Dev.classC (d : Dev) (c : Nat) (trk : Option Nat) (cause : Nat) (st : Status) (i : FaultInfo) : Dev :=
  let e := d.faultEntry cause 0 st c trk i
  let d := d.rasLog e
  let d := d.setCtx c { d.ctx c with lastFault := some e.bytes }
  d.resetCtx c cause trk st

/-! ### Hoop reset (R444) -/

/-- Contexts of a hoop that satisfy `p`, in increasing number. -/
def Dev.ctxsOf (d : Dev) (p : Ctx → Bool) : List Nat := tabKeys (fun _ x => x.state != .free && p x) d.ctxs

/-- The hoop-wide state that a hoop reset loses: groups, cache entries, approvals, debug rights, priced sums (R444 step 6). -/
def Dev.clearHoopWide (d : Dev) (h : Nat) : Dev :=
  let d := d.freeGroups (fun _ hoop => hoop == h)
  let d := d.mcDropAll (fun e => e.hoop == h)
  let d := d.setHoopSec h { d.hoopSec h with approvals := [] }
  let d := d.endDebugOf h
  let x := d.hoop h
  let d := if x.state = .free then d else d.setHoop h { x with accepted := [], released := [] }
  d.bumpRc pgRas h 0x0104 1

/-- A hoop reset (R444 Table 7): `trk` is the command that read the failing granule. -/
def Dev.resetHoop (d : Dev) (h cause : Nat) (trk : Option Nat) : Dev :=
  if (d.hoop h).state = .free then d
  else
    let cs := d.ctxsOf (fun x => x.state == .active && x.hoop == h)
    let d := cs.foldl (fun d c => (d.stopDma (fun m => m.ctx == c)).stopDarners (fun m => m.ctx == c)) d
    let d := cs.foldl (fun d c => (d.sample c cause Status.hoopReset.code).abandon c) d
    let d := match trk with
      | some t => if (d.cmd t).live then d.complete t Status.uncorrectableMemory.code false else d
      | none => d
    -- a DMA, collective or storage command that a hoop reset ends writes its result record (R228, R349, R367)
    let d := cs.foldl (fun d c => (d.cmdsOf (fun m => m.ctx == c)).foldl (fun d t => d.stopRecord t .hoopReset) d) d
    let d := cs.foldl (fun d c => (d.stopShuttle (· == c)).stopStorage (fun m => m.ctx == c)) d
    let d := cs.foldl (fun d c => d.completeAll (fun m => m.ctx == c) .hoopReset false) d
    let d := cs.foldl (fun d c => (d.freePricking c).clearFaults c) d
    d.clearHoopWide h

/-- A class P fault of a hoop (R437): logged, counted, and the hoop reset. -/
def Dev.classP (d : Dev) (h c : Nat) (trk : Option Nat) (cause : Nat) (i : FaultInfo) (reader : Option Nat) : Dev :=
  let e := { d.faultEntry cause 1 (if reader.isSome then .uncorrectableMemory else .hoopReset) c trk i with hoop := h }
  let d := d.rasLog e
  let d := d.setCtx c { d.ctx c with lastFault := some e.bytes }
  let d := if 0x60 ≤ cause && cause ≤ 0x62 then d.bumpRc pgRas h 0x010C 1 else d
  d.resetHoop h cause reader

/-! ### Destruction (R279, R281) -/

/-- An event destroyed: every command waiting on it completes with `BAD_DESCRIPTOR` (R281). -/
def Dev.destroyEvent (d : Dev) (e : Nat) : Dev :=
  let waits := fun (m : Cmd) => m.stage == .waiting &&
    ((bit m.deps 0 && m.df 32 2 == e && decide ((d.evt e).value < m.df 40 8)) || (bit m.deps 1 && m.df 34 2 == e && decide ((d.evt e).value < m.df 48 8)))
  let d := d.completeAll waits .badDescriptor false
  d.setEvt e {}

/-- A queue's commands aborted without records, and the queue free (R281). -/
def Dev.destroyQueue (d : Dev) (q : Nat) : Dev :=
  let p := fun (m : Cmd) => m.queue == q
  let d := (d.stopDma p).stopRunning p
  let d := (d.stopDarners p).stopStorage p
  let d := d.completeAll p .contextAborted true
  let d := d.setQueue q {}
  [0x0128, 0x012C, 0x0130].foldl (fun d o => d.setRegN pgQue q o 0) d

/-- The descriptor of sequence number `seq` as the device has it: none where the fetch fails (R267, R268). -/
def Dev.fetchDesc (d : Dev) (qn seq : Nat) : Option (List Byte) :=
  let q := d.queue qn
  if q.push then q.pushed.head? else d.ringRead q.ringHost q.ctx (q.ring + 64 * (seq % 2 ^ q.log2)) 64

/-- Descriptors not yet decided, at most `n` of them, rejected with a status in sequence order (R279 step 1). -/
def Dev.rejectUndecided (d : Dev) (qn : Nat) (st : Status) : Nat → Dev
  | 0 => d
  | n + 1 =>
    let q := d.queue qn
    if !q.valid || q.error || q.decided == q.tail then d
    else match d.fetchDesc qn q.decided with
      | none => d
      | some desc =>
        let d := d.setQueue qn { q with decided := (q.decided + 1) % 2 ^ 32, pushed := q.pushed.tail }
        (d.reject qn q.decided desc st.code).rejectUndecided qn st n

/-- Queues of a context. -/
def Dev.queuesOf (d : Dev) (c : Nat) : List Nat := tabKeys (fun _ q => q.valid && q.ctx == c) d.queues

/-- Requests of the cipher queues of a context end, with no record written (R408). -/
def Dev.dropCipher (d : Dev) (c : Nat) : Dev :=
  (List.range 16).foldl (fun d h =>
    if fld (d.regN (pgCiphu + h) 0 0x1000) 23 12 = c then
      { d with sec := { d.sec with cipherDecided := tabPut natDflt d.sec.cipherDecided h (d.regN (pgCiphu + h) 0 0x1014) } }
    else d) d

/-- A context destroyed up to the fabric drain (R279 Table 13). -/
def Dev.destroyCtx (d : Dev) (c : Nat) : Dev :=
  if (d.ctx c).state ≠ .active then d
  else
    let d := (d.queuesOf c).foldl (fun d q => d.rejectUndecided q .contextAborted (2 ^ (d.queue q).log2)) d
    let d := d.setCtx c { d.ctx c with state := .destroying }
    let d := (d.stopDma (fun m => m.ctx == c)).stopShuttle (· == c)
    let d := (d.stopDarners (fun m => m.ctx == c)).stopStorage (fun m => m.ctx == c)
    let d := d.abandon c
    let d := d.completeAll (fun m => m.ctx == c) .contextAborted false
    let d := d.freeGroups (fun ctx _ => ctx == c)
    let d := d.freePricking c
    let d := d.mapFences (fun _ f => if f.state != .free && f.ctx == c then {} else f)
    let d := d.clearFaults c
    let d := (tabKeys (fun _ e => e.valid && e.ctx == c) d.events).foldl Dev.destroyEvent d
    let d := (d.queuesOf c).foldl Dev.destroyQueue d
    let d := d.mcDropAll (fun e => e.ctx == c)
    let d := (d.dropTables c).dropCipher c
    d.setCtx c { d.ctx c with state := .draining, windows := [] }

/-- Every context of the functions that satisfy `p` destroyed (R255). -/
def Dev.destroyOf (d : Dev) (p : Nat → Bool) : Dev :=
  (d.ctxsOf (fun x => x.state == .active && p x.func)).foldl Dev.destroyCtx d

end Sys2Proof.Machine
end

