-- ==== Sys2Proof/Machine/Faulting.lean ====
section
/-! DEFINITION. Page faults and their records (R222, R223), the causes of class C faults (R436), and the byte counts of a cellar access. -/
namespace Sys2Proof.Machine

/-- Cause code of a class C status (R436): 0x40 access denied, 0x41 page fault, 0x42 key revoked, 0x43 bad descriptor. -/
def causeOf : Status → Nat
  | .accessDenied => 0x40
  | .pageFault => 0x41
  | .keyRevoked => 0x42
  | _ => 0x43

/-- An unlisted fault record. -/
def faultDflt (_ : Nat) : FaultRec := {}

/-- Fault records of a context. -/
def faultRecords : Nat := 16

/-- A page fault recorded (R222): the lowest record not pending is taken, bit 0 of the MMU page raised in the banks of the ports that see
the context; with every record pending the command ends with `PAGE_FAULT`, class C, and `FAULT_DROP` is set. -/
def Dev.pageFault (d : Dev) (c trk : Nat) (client : Client) (unit va : Nat) (write : Bool) (level : Nat) (i : FaultInfo) : Dev × Option Nat :=
  match lowest faultRecords (fun n => !(tabGet faultDflt (d.ctx c).faults n).pending) with
  | some n =>
    let x := d.ctx c
    let f : FaultRec := { va := va, write := write, level := level, pending := true, client := client, unit := unit, tracker := trk, time := d.now }
    ((d.setCtx c { x with faults := tabPut faultDflt x.faults n f }).event pgMmu 0 (portsOf x.func), some n)
  | none => ((d.orReg pgMmu c 0x0138 4).classC c (some trk) (causeOf .pageFault) .pageFault i, none)

/-- Bytes read counted at the units of their stacks (`CEL_RD`, R233). -/
def Dev.celRead (d : Dev) (parts : List (Nat × Nat × Nat)) : Dev :=
  parts.foldl (fun d p => d.bump64 (pgCel + paStack p.1) 0 0x1018 p.2.1 0x102C 0) d

/-- A page queued for retirement (R456), once. -/
def Dev.queueRetire (d : Dev) (ppn : Nat) : Dev := if d.retireQ.contains ppn then d else { d with retireQ := d.retireQ ++ [ppn] }

/-- Every page of the pieces that holds a poisoned granule the pieces reach is queued for retirement. -/
def Dev.retirePoisoned (d : Dev) (parts : List (Nat × Nat × Nat)) : Dev :=
  parts.foldl (fun d p => if d.anyPoison p.1 p.2.1 then d.queueRetire (p.1 / 65536) else d) d

/-- Granules that a contiguous range touches (R151). -/
def granules (a n : Nat) : Nat := if n = 0 then 0 else (a + n - 1) / 256 - a / 256 + 1

/-- Granules of a range that it does not wholly cover (R151). -/
def partialGranules (a n : Nat) : Nat :=
  if n = 0 then 0
  else if granules a n = 1 then b2n (!(a % 256 = 0 && n = 256))
  else b2n (a % 256 ≠ 0) + b2n ((a + n) % 256 ≠ 0)

/-- Functions of a hoop other than the PF (R284). -/
def Dev.vfsOf (d : Dev) (h : Nat) : List Nat :=
  (List.range 64).filter (fun f => decide (1 ≤ f) && (d.hoop h).state != .free && bit (d.hoop h).inForce.funcs f)

/-- Hoops whose tiles hold logical tile `t`. -/
def Dev.hoopsOfTile (d : Dev) (t : Nat) : List Nat :=
  (List.range 16).filter (fun h => (d.hoop h).state != .free && bit (d.hoop h).inForce.tiles t)

/-- Ports that see a tile's window (R103). -/
def Dev.portsOfTile (d : Dev) (t : Nat) : List Nat := portsDevice ++ ((d.hoopsOfTile t).flatMap d.vfsOf).eraseDups

end Sys2Proof.Machine
end

