-- ==== Sys2Proof/Machine/Isa.lean ====
section
/-! DEFINITION. The Tiosh instruction word (R111 to R133, R155): opcodes, lanes, the registers and records a word names, and the
cycle counts of the lanes (R91, R93, R95, R116). -/
namespace Sys2Proof.Machine

/-! ### Header and opcodes (R111) -/

def opNop : Nat := 0x00
def opSetx : Nat := 0x01
def opAddx : Nat := 0x02
def opLoop : Nat := 0x03
def opFence : Nat := 0x04
def opEnd : Nat := 0x05
def opMma : Nat := 0x10
def opMmg : Nat := 0x11
def opKnot : Nat := 0x12
def opStch : Nat := 0x13
def opAttf : Nat := 0x14
def opAttb : Nat := 0x15
def opLd : Nat := 0x20
def opSt : Nat := 0x21
def opMov : Nat := 0x22
def opLdq : Nat := 0x23
def opWld : Nat := 0x24
def opSend : Nat := 0x25
def opRecv : Nat := 0x26
def opRel : Nat := 0x27
def opVew : Nat := 0x30
def opVred : Nat := 0x31
def opVstat : Nat := 0x32

/-- `OPC`. -/
def iOpc (w : Nat) : Nat := fld w 7 0
/-- `TSET`, when `TSETEN`. -/
def iTset (w : Nat) : Option Nat := if bit w 11 then some (fld w 10 8) else none
/-- `TWAIT`. -/
def iTwait (w : Nat) : Nat := fld w 19 12

/-- Opcodes of R111, Table 5. -/
def iLegal (w : Nat) : Bool :=
  decide (iOpc w ≤ 5) || (decide (0x10 ≤ iOpc w) && decide (iOpc w ≤ 0x15)) || (decide (0x20 ≤ iOpc w) && decide (iOpc w ≤ 0x27)) ||
  (decide (0x30 ≤ iOpc w) && decide (iOpc w ≤ 0x32))

/-- Lane code of an opcode: 0 matrix, 1 vector, 2 movement, 3 matrix and vector (R153), 4 sequencer. -/
def iLane (w : Nat) : Nat :=
  match iOpc w / 16 with
  | 0 => 4
  | 1 => if iOpc w = opAttf ∨ iOpc w = opAttb then 3 else 0
  | 2 => 2
  | _ => 1

/-- Two lane codes share a lane. -/
def lanesMeet (a b : Nat) : Bool := a == b || (a == 3 && decide (b ≤ 1)) || (b == 3 && decide (a ≤ 1))

/-! ### Fields -/

/-- `SRC` of a copy, `A`, `DST` of `VEW` and `VRED`, `REC` of the rest. -/
def iF0 (w : Nat) : Nat := fld w 31 20
/-- `DST` of a copy, `W`, `SA`, `AUXR`. -/
def iF1 (w : Nat) : Nat := fld w 43 32
/-- `O`, `SB`. -/
def iF2 (w : Nat) : Nat := fld w 55 44
/-- `AUX`, `SC`. -/
def iF3 (w : Nat) : Nat := fld w 67 56

/-- The record index "no operand". -/
def noRec : Nat := 0xFFF

/-- `VEW` functions that name b (R130 Table 14). -/
def vewUsesB (fn : Nat) : Bool := (decide (1 ≤ fn) && decide (fn ≤ 6)) || (decide (0x10 ≤ fn) && decide (fn ≤ 0x13))
/-- `VEW` functions that name c. -/
def vewUsesC (fn : Nat) : Bool := fn == 4
/-- `VEW` functions that use the immediate. -/
def vewUsesImm (fn : Nat) : Bool := fn == 9 || fn == 0x0A
/-- Transcendental passes of a `VEW` function; none for a code not in Table 14. -/
def vewT (fn : Nat) : Option Nat :=
  if fn ≤ 0x0A ∨ (0x10 ≤ fn ∧ fn ≤ 0x13) then some 0
  else if (0x20 ≤ fn ∧ fn ≤ 0x24) ∨ fn = 0x28 then some 1
  else if 0x29 ≤ fn ∧ fn ≤ 0x2C then some 2
  else none

/-- The x registers a word names, dynamic or static. -/
def iXregs (w : Nat) : List Nat :=
  match iOpc w with
  | 0x04 => if fld w 21 20 = 2 then [fld w 41 38] else []
  | 0x10 => [fld w 102 99, fld w 106 103]
  | 0x12 => [fld w 102 99, fld w 106 103]
  | 0x13 => [fld w 102 99, fld w 106 103]
  | 0x11 => [fld w 114 111, fld w 118 115]
  | 0x14 => [fld w 76 73, fld w 106 103]
  | 0x15 => [fld w 76 73, fld w 106 103]
  | 0x20 => [fld w 79 76, fld w 83 80]
  | 0x21 => [fld w 79 76, fld w 83 80]
  | 0x22 => [fld w 79 76, fld w 83 80]
  | 0x23 => [fld w 79 76, fld w 83 80]
  | 0x24 => [fld w 79 76, fld w 83 80]
  | 0x25 => [fld w 84 81]
  | 0x26 => if bit w 80 then [] else [fld w 84 81]
  | 0x30 => [fld w 103 100, fld w 107 104] ++ (if vewUsesImm (fld w 113 108) then [fld w 119 116] else [])
  | 0x31 => [fld w 79 76, fld w 83 80]
  | 0x32 => [fld w 81 78, fld w 85 82]
  | _ => []

/-- `ATTF` and `ATTB` auxiliary mask records: `SEG` first, then `BIAS` (R157). -/
def attAux (w : Nat) : List Nat :=
  let seg := bit w 85
  let bias := bit w 86
  (if seg then [iF1 w] else []) ++ (if bias then [if seg then iF1 w + 1 else iF1 w] else [])

/-- The records a word names directly (not those its adapter table names). -/
def iRecs (w : Nat) : List Nat :=
  match iOpc w with
  | 0x10 => [iF0 w, iF1 w, iF2 w]
  | 0x12 => [iF0 w, iF1 w, iF2 w]
  | 0x13 => [iF0 w, iF1 w, iF2 w]
  | 0x11 => [iF0 w] ++ (if bit w 121 then [iF1 w, iF2 w] else []) ++ [iF3 w, iF3 w + 1, iF3 w + 2]
  | 0x14 => (List.range 6).map (iF0 w + ·) ++ attAux w
  | 0x15 => (List.range 12).map (iF0 w + ·) ++ attAux w
  | 0x20 => [iF0 w, iF1 w]
  | 0x21 => [iF0 w, iF1 w]
  | 0x22 => [iF0 w, iF1 w]
  | 0x23 => [iF0 w, iF1 w]
  | 0x24 => [iF0 w, iF1 w]
  | 0x25 => [iF0 w]
  | 0x26 => [iF0 w]
  | 0x27 => [iF0 w]
  | 0x30 => [iF0 w, iF1 w] ++ (if vewUsesB (fld w 113 108) then [iF2 w] else []) ++ (if vewUsesC (fld w 113 108) then [iF3 w] else [])
  | 0x31 => [iF0 w, iF1 w]
  | 0x32 => [iF0 w]
  | _ => []

/-- A `RECV` that binds a view. -/
def isBind (w : Nat) : Bool := iOpc w == opRecv && bit w 80

/-- The word copies from or to the cellar through the page tables: `LD`, `ST`, `WLD`, and an `LDQ` with a cellar source. -/
def iCopies (w : Nat) : Bool := iOpc w == opLd || iOpc w == opSt || iOpc w == opLdq || iOpc w == opWld

/-! ### Array cycles (R85, R89, R91) -/

/-- K_l, N_pass, S, D and M_c of a lace shape (R85 Table 5). -/
structure Shape where
  kl : Nat
  npass : Nat
  s : Nat
  drain : Nat
  mc : Nat
deriving DecidableEq, Repr

/-- The lace shape of a code. -/
def Shape.ofCode (c : Nat) : Shape :=
  match c with
  | 0 => ⟨32, 1024, 1, 28, 64⟩
  | 1 => ⟨64, 512, 1, 48, 128⟩
  | 2 => ⟨128, 128, 2, 88, 512⟩
  | _ => ⟨128, 256, 1, 104, 256⟩

/-- Cycles to complete I issue cycles below 30, one cycle at a time (R91). -/
def rampFrom (i : Nat) : Nat → Nat → Nat → Nat
  | 0, t, _ => t
  | fuel + 1, t, n => if n < i then rampFrom i fuel (t + 1) (if t % 4 < t / 12 + 1 then n + 1 else n) else t

/-- ramp(I) of R91. -/
def ramp (i : Nat) : Nat := if 30 ≤ i then i + 18 else rampFrom i 60 0 0

/-- Rows of chunk `j`. -/
def Shape.chunk (s : Shape) (mv j : Nat) : Nat := min s.mc (mv - j * s.mc)

/-- Valid columns of N slice `n`. -/
def Shape.slice (s : Shape) (nv n : Nat) : Nat := min s.npass (nv - n * s.npass)

/-- The walk of R91 over the units: start time, bank free times; `issues j n` gives the issue cycles of a unit. -/
def arrayWalk (sh : Shape) (mv nv kv : Nat) (issues : Nat → Nat → Nat) : Nat :=
  let units := (List.range (cdiv mv sh.mc)).flatMap (fun j => (List.range (cdiv nv sh.npass)).map (fun n => (j, n)))
  let r := units.foldl (fun (a : Nat × Nat × Nat) (u : Nat × Nat) =>
    let start := max a.1 a.2.1
    let t := start + cdiv kv sh.kl * (sh.kl + ramp (issues u.1 u.2))
    (t, a.2.2, t + sh.drain + cdiv (sh.chunk mv u.1 * sh.slice nv u.2) 256)) (0, 0, 0)
  max r.2.1 r.2.2

/-- array_cycles of R91 at row rate `q`. -/
def arrayCycles (sh : Shape) (mv nv kv q : Nat) : Nat :=
  arrayWalk sh mv nv kv (fun j _ => cdiv (4 * cdiv (sh.chunk mv j) sh.s) q)

/-- knot_cycles of R93. -/
def knotCycles (mv nv kv : Nat) : Nat := cdiv (cdiv mv 4 * cdiv nv 4) 8 * cdiv kv 4 + 12

/-- Groups of eight output blocks in stand-in (R94). -/
def standinGroups (mv nv : Nat) : Nat := cdiv (cdiv mv 4 * cdiv nv 4) 8

/-- Cycles of one group in stand-in. -/
def standinGroup (kv : Nat) : Nat := 4 * cdiv kv 16 + 12

/-- Count of an `MMA` in stand-in: each piece is 16 plus its groups, floor(8,176 ÷ group) groups to a piece (R94, R150). -/
def standinCount (mv nv kv : Nat) : Nat :=
  let g := standinGroups mv nv
  let per := 8176 / standinGroup kv
  if per = 0 then 16 * g + g * standinGroup kv else 16 * cdiv g per + g * standinGroup kv

/-! ### Operand pairs (R84) -/

/-- Kind of an operand: 1 ternary or 2-bit, 2 E2M1 forms, 3 INT4, 4 float of 6 or 8 bits, 5 INT8 or MXINT8, 6 16-bit float, 0 none. -/
def pairKind (b : BMode) (f : Fmt) : Nat :=
  if !legalComposite b f then 0 else
  match f with
  | .tri | .int2 => 1
  | .e2m1 => 2
  | .int4 => 3
  | .e4m3 | .e5m2 | .e3m2 | .e2m3 => 4
  | .int8 => 5
  | .bf16 | .fp16 => 6
  | _ => 0

/-- The row rate q of a pair W, A (R84 Table 4); none where the pair is not listed. -/
def pairRate (wb : BMode) (wf : Fmt) (ab : BMode) (af : Fmt) : Option Nat :=
  let w := pairKind wb wf
  let a := pairKind ab af
  if w = 0 ∨ a = 0 then none
  else if w = 1 ∧ (a = 2 ∨ a = 3) then some 16
  else if w = 2 ∧ a = 2 then some 8
  else if w = 3 ∧ a = 3 then some 8
  else if (w = 2 ∨ w = 4) ∧ (a = 2 ∨ a = 4) then some 4
  else if (w = 5 ∧ (a = 5 ∨ a = 3 ∨ (a = 1 ∧ af = .int2))) ∨ (a = 5 ∧ (w = 1 ∨ w = 3)) then
    (if wb = .nb64 then none else some 4)
  else if w = 6 ∧ (a = 2 ∨ a = 4 ∨ a = 6) then some 1
  else if (w = 2 ∨ w = 4) ∧ a = 6 then some 1
  else none

/-- Stitch rate w of a row rate (R95 Table 8). -/
def stitchRate (q : Nat) : Nat :=
  match q with
  | 16 => 256
  | 8 => 128
  | 4 => 64
  | _ => 16

end Sys2Proof.Machine
end

