-- ==== Sys2Proof/Machine/Trace.lean ====
section
/-! DEFINITION. Trace records (R430). -/
namespace Sys2Proof.Machine

/-- The lowest ACTIVE context of the PF, whose translation serves the trace buffer; the spec names none (log entry 52). -/
def Dev.pfCtx (d : Dev) : Option Nat := (tabKeys (fun _ x => x.state == .active && x.func == 0) d.ctxs).head?

/-- Trace reaches the context: the right, the control register's enable and its context filter. -/
def Dev.traces (d : Dev) (c : Nat) : Bool :=
  let ctl := d.regN pgDbg 0 0x105C
  bit ctl 0 && d.dbgReaches 1 (d.ctx c).hoop && (fld ctl 11 4 == 0 || fld ctl 11 4 == c)

/-- A trace record of 32 bytes: fabric time, unit, context, PC and opcode or tracker, and the two CCLK counts, whose values the model does not
hold (free values, log entry 2). Written at the next place of the trace buffer, or dropped and counted (R430). -/
def Dev.trace (d : Dev) (c unit what : Nat) : Dev :=
  if !d.traces c then d
  else
    let bytes := toBytes 8 d.now ++ toBytes 2 unit ++ toBytes 2 c ++ toBytes 4 what ++ d.freeBytes 16
    let len := d.regN pgDbg 0 0x1058 * 65536
    let at' := d.reg64 pgDbg 0 0x1050 + d.dbg.traceHead
    let drop := d.bumpRc pgDbg 0 0x1060 1
    match d.pfCtx with
    | none => drop
    | some p =>
      if len = 0 then drop
      else match (d.ticks 16).writeVa p at' bytes with
        | (e, none) => { e with dbg := { e.dbg with traceHead := (e.dbg.traceHead + 32) % len } }
        | _ => drop

end Sys2Proof.Machine
end

