-- ==== Sys2Proof/Machine/Sequencer.lean ====
section
/-! DEFINITION. The sequencer (R76, R77, R104 to R122, R287, R289): fetch, when an instruction issues, the checks at issue, program order
and loops, retirement, and the sequencer's own instructions. -/
namespace Sys2Proof.Machine

/-! ### Fetch and issue conditions -/

/-- Instruction `i` of a slot's code region (R107). -/
def Dev.fetchAt (d : Dev) (t : Nat) (s : Slot) (i : Nat) : Nat := ofBytes (d.shelfRead t s (16 * i) 16)

/-- The instruction word at the PC of a slot. -/
def Dev.word (d : Dev) (t k : Nat) : Nat := d.fetchAt t (d.slot t k) (d.slot t k).pc

/-- Record `r` is a view record: some `RECV` of the segment binds it (R126). -/
def Dev.isView (d : Dev) (t : Nat) (s : Slot) (r : Nat) : Bool :=
  (List.range s.instrs).any (fun i => isBind (d.fetchAt t s i) && iF0 (d.fetchAt t s i) == r)

/-- Record `r` is a bound view. -/
def Slot.bound (s : Slot) (r : Nat) : Bool := s.views.any (fun v => v.record == r)

/-- The lane is free of every slot's issued work (R77). -/
def Tile.laneFree (x : Tile) (lane : Nat) : Bool := x.slots.all (fun e => e.2.flight.all (fun f => !lanesMeet f.lane lane))

/-- R113: the word uses a dynamic register or names a bound view. -/
def Slot.quiet (s : Slot) (w : Nat) : Bool := (iXregs w).any xDynamic || (!isBind w && (iRecs w).any s.bound)

/-- The tokens that `TWAIT` names are released (R112). -/
def Slot.tokensOk (s : Slot) (w : Nat) : Bool := iTwait w &&& (0xFF ^^^ s.tokens % 256) == 0

/-- The event a `FENCE` `EVENT` names is not the context's (R118 Table 7). -/
def Dev.fenceForeign (d : Dev) (s : Slot) (w : Nat) : Bool :=
  iOpc w == opFence && fld w 21 20 == 2 && !d.evtUsable s.ctx (fld w 37 22)

/-- What holds a sequencer instruction back: `LANES` and `STORES` (and `END`, R122) wait for every earlier instruction; `EVENT` for its
value (R121). -/
def Dev.fenceOk (d : Dev) (s : Slot) (w : Nat) : Bool :=
  if iOpc w = opEnd then s.flight.isEmpty
  else if iOpc w = opFence then
    (if fld w 21 20 = 2 then d.fenceForeign s w || decide (s.x (fld w 41 38) ≤ (d.evt (fld w 37 22)).value) else s.flight.isEmpty)
  else true

/-- The slot holds a command's work that may go on: resident, running, neither parked, suspended nor halted. -/
def Dev.slotLive (d : Dev) (t k : Nat) : Bool :=
  let s := d.slot t k
  !(d.tile t).out && s.valid && !d.ctxHeld s.ctx && !s.parked && s.suspended.isNone && !s.halted && decide (s.pc < s.instrs) &&
  (match s.running with
   | some trk => (d.cmd trk).live && (d.cmd trk).stage == .running
   | none => false)

/-- The instruction at the PC meets R112, R113 and R121. -/
def Dev.ready (d : Dev) (t k : Nat) : Bool :=
  let s := d.slot t k
  let w := d.word t k
  d.slotLive t k && (iLane w == 4 || (d.tile t).laneFree (iLane w)) && s.tokensOk w && (!s.quiet w || s.flight.isEmpty) && d.fenceOk s w

/-- The command a slot runs. -/
def Dev.runCmd (d : Dev) (t k : Nat) : Cmd := d.cmd ((d.slot t k).running.getD 0)

/-- The work of slot `j` goes before that of slot `k` on a lane: a higher class, or class G work of the same hoop released earlier (R287). -/
def Dev.before (d : Dev) (t j k : Nat) : Bool :=
  let a := d.runCmd t j
  let b := d.runCmd t k
  decide (a.cls < b.cls) || (a.cls == 0 && b.cls == 0 && a.hoop == b.hoop && decide (a.relOrder < b.relOrder))

/-- Lanes of a lane code. -/
def lanesOf (l : Nat) : List Nat := if l = 3 then [0, 1] else if l = 4 then [] else [l]

/-- In exclusive mode the lane stays with the context it runs while that context has a ready instruction on the tile, unless its turn is
over (R289). -/
def Dev.exclBlocked (d : Dev) (t k l : Nat) : Bool :=
  let x := d.tile t
  let cur := tabGet natDflt x.exclCur l
  (d.hoop (d.slot t k).hoop).excl && cur != 0 && cur != k + 1 && !x.exclDue.contains l &&
  (x.slot (cur - 1)).hoop == (d.slot t k).hoop && d.ready t (cur - 1)

/-- The lane's choice at an instruction boundary falls on slot `k` (R287, R289); the turns among equals are the dispatcher's (log entry 14). -/
def Dev.turn (d : Dev) (t k : Nat) : Bool :=
  let l := iLane (d.word t k)
  (lanesOf l).all (fun l => !d.exclBlocked t k l) &&
  (l == 4 || (List.range 16).all (fun j => j == k || !d.ready t j || !lanesMeet (iLane (d.word t j)) l || !d.before t j k))

/-- The instruction at the PC of slot `k` issues now, and is of opcode `op`. -/
def Dev.canIssue (d : Dev) (t k op : Nat) : Bool := d.live && d.ready t k && iOpc (d.word t k) == op && d.turn t k

/-! ### Program order -/

/-- The PC after the last instruction of loop bodies: back to the start while passes remain (R120). -/
def closeLoops (pc : Nat) : List LoopEnt → Nat × List LoopEnt
  | [] => (pc, [])
  | l :: r => if pc = l.stop then (if 1 < l.left then (l.start, { l with left := l.left - 1 } :: r) else closeLoops pc r) else (pc, l :: r)

/-- The next instruction in program order. -/
def Slot.advance (s : Slot) : Slot :=
  let r := closeLoops (s.pc + 1) s.loops
  { s with pc := r.1 % 65536, loops := r.2 }

/-! ### Faults of a slot (R118) -/

/-- A class C fault of the instruction at the PC. -/
def Dev.tileFault (d : Dev) (t k : Nat) (st : Status) (addr : Nat) : Dev :=
  let s := d.slot t k
  d.classC s.ctx s.running (causeOf st) st { unit := Client.tile.code, unum := t, pc := s.pc, opc := iOpc (d.word t k), addr := addr }

/-- A class P fault of the instruction at the PC; `reader` for the command that read a failing cellar granule. -/
def Dev.tileClassP (d : Dev) (t k cause : Nat) (reader : Bool) (addr : Nat) : Dev :=
  let s := d.slot t k
  d.classP s.hoop s.ctx s.running cause { unit := Client.tile.code, unum := t, pc := s.pc, opc := iOpc (d.word t k), addr := addr }
    (if reader then s.running else none)

/-- A page of the instruction's cellar region is not mapped: the fault is recorded and the context suspended on this tile (R118, R222). -/
def Dev.tilePageFault (d : Dev) (t k va : Nat) (write : Bool) (level : Nat) : Dev :=
  let s := d.slot t k
  let i : FaultInfo := { unit := Client.tile.code, unum := t, pc := s.pc, opc := iOpc (d.word t k), addr := va }
  match d.pageFault s.ctx (s.running.getD 0) .tile t va write level i with
  | (d, some n) => d.setSlot t k { d.slot t k with suspended := some n }
  | (d, none) => d

/-- An uncorrectable pantry read (R82): `PANTRY_UE`, class P. -/
def Dev.pantryUe (d : Dev) (t k : Nat) : Dev := (d.orReg pgTile t 0x01A4 0x10).tileClassP t k 0x60 false 0

/-- The entry point that a slot's command runs. -/
def Dev.entryOf (d : Dev) (t k : Nat) : Option PEntry :=
  match (d.ctx (d.slot t k).ctx).pricking with
  | some p => p.entries.find? (fun e => e.id == (d.runCmd t k).entry)
  | none => none

/-- A dynamic register's two halves lie inside the entry's declared bounds (R142). -/
def PEntry.inBounds (e : PEntry) (s : Slot) (i : Nat) : Bool :=
  let b := fun (j : Nat) => e.bounds.getD (4 * (i - 8) + j) 0
  decide (b 0 ≤ s.xlo i) && decide (s.xlo i ≤ b 1) && decide (b 2 ≤ s.xhi i) && decide (s.xhi i ≤ b 3)

/-- Every dynamic register that the word uses lies inside its declared bounds. -/
def Dev.xBoundsOk (d : Dev) (t k : Nat) : Bool :=
  let s := d.slot t k
  ((iXregs (d.word t k)).filter xDynamic).all (fun i => match d.entryOf t k with
    | some e => e.inBounds s i
    | none => true)

/-- A view record that the word names and that is not bound (R118 Table 7). -/
def Dev.unboundView (d : Dev) (t k : Nat) : Bool :=
  let s := d.slot t k
  let w := d.word t k
  !isBind w && (iRecs w).any (fun r => !s.bound r && d.isView t s r)

/-- What the checks that any instruction takes at issue find. -/
def Dev.issueCheck (d : Dev) (t k : Nat) : Option Status :=
  if d.unboundView t k then some .badDescriptor
  else if !d.xBoundsOk t k then some .accessDenied
  else none

/-- What an instruction's issue finds: a class C fault, a page not mapped (R115), a poisoned granule (R244), a handoff wait (R100), or the
device with the instruction's effect and what it holds until it retires. -/
inductive Issued where
  | fault (st : Status) (addr : Nat)
  | notMapped (va level : Nat) (write : Bool)
  | poison (addr : Nat) (parts : List (Nat × Nat × Nat))
  | malformed (addr : Nat)
  | park
  | ok (d : Dev) (f : Flight)

/-- An instruction at its issue. An uncorrectable pantry read (`ue`) is a class P fault and the instruction has no effect. -/
def Dev.issueLane (d : Dev) (t k op : Nat) (ue : Bool) (body : Dev → Nat → Slot → Issued) : Dev :=
  if !d.canIssue t k op then d
  else
    let w := d.word t k
    let s := d.slot t k
    match d.issueCheck t k with
    | some st => d.tileFault t k st 0
    | none =>
      match body d w s with
      | .fault st a => d.tileFault t k st a
      | .malformed a => (d.logHw pgMmu 0 .malformed 0).tileFault t k .accessDenied a
      | .notMapped va level write => d.tilePageFault t k va write level
      | .poison a ps => (d.retirePoisoned ps).tileClassP t k 0x61 true a
      | .park => d.setSlot t k { s with parked := true }
      | .ok e f =>
        if ue then d.pantryUe t k
        else
          let x := e.tile t
          let s := x.slot k
          let f := { f with lane := iLane w, word := w, pc := s.pc, tset := iTset w }
          let s := { s.advance with flight := s.flight ++ [f],
                                    tokens := match iTset w with
                                      | some j => s.tokens &&& (0xFF ^^^ 2 ^ j)
                                      | none => s.tokens }
          let x := { x.setSlot k s with exclCur := (lanesOf (iLane w)).foldl (fun c l => tabPut natDflt c l (k + 1)) x.exclCur,
                                        exclDue := x.exclDue.filter (fun l => !(lanesOf (iLane w)).contains l) }
          e.setTile t x

/-! ### The sequencer's own instructions (R119 to R122) -/

/-- A 64-bit health counter of a tile raised (R101, `CNT_OVF`). -/
def Dev.tileCount (d : Dev) (t off n : Nat) : Dev := d.bump64 pgTile t off n 0x01A4 2

/-- Nominal cycles of a retired instruction (R101). -/
def Dev.nominal (d : Dev) (t n : Nat) : Dev :=
  let d := d.tileCount t 0x0180 n
  d.setTile t { d.tile t with winNom := (d.tile t).winNom + n }

/-- A sequencer instruction: issued and retired in its one cycle. -/
def Dev.issueSeq (d : Dev) (t k op : Nat) (f : Nat → Slot → Slot) : Dev :=
  if d.canIssue t k op then
    match d.issueCheck t k with
    | some st => d.tileFault t k st 0
    | none => if d.fenceForeign (d.slot t k) (d.word t k) then d.tileFault t k .accessDenied 0
      else (d.setSlot t k (f (d.word t k) (d.slot t k))).nominal t 1
  else d

/-- `SETX` on a slot (R119). -/
def Slot.setx (s : Slot) (w : Nat) : Slot :=
  let r := fld w 23 20
  if r = 0 then s.advance else { s.advance with xs := tabPut natDflt s.xs r (fld w 87 24) }

/-- `ADDX` on a slot (R119): each half modulo 2^32. -/
def Slot.addx (s : Slot) (w : Nat) : Slot :=
  let r := fld w 23 20
  let v := (s.x r / 2 ^ 32 + fld w 87 56) % 2 ^ 32 * 2 ^ 32 + (s.x r % 2 ^ 32 + fld w 55 24) % 2 ^ 32
  if r = 0 then s.advance else { s.advance with xs := tabPut natDflt s.xs r v }

/-- `LOOP` on a slot (R120). -/
def Slot.loop (s : Slot) (w : Nat) : Slot :=
  { s with pc := s.pc + 1, loops := { left := fld w 35 20, start := s.pc + 1, stop := s.pc + 1 + fld w 47 36 } :: s.loops }

/-- The command ends on this slot: its issue state is cleared (R122). -/
def Slot.ended (s : Slot) : Slot := { s with running := none, loops := [], tokens := 0xFF, flight := [] }

/-- Some slot still runs the command. -/
def Dev.stillRuns (d : Dev) (trk : Nat) : Bool :=
  d.tiles.any (fun e => e.2.slots.any (fun f => f.2.valid && f.2.running == some trk))

/-- The command has ended on a tile; with the last of its tiles its work is done (R122). -/
def Dev.endCheck (d : Dev) (trk : Nat) : Dev := if d.stillRuns trk then d else d.finish trk .ok

/-! ### Retirement (R61, R100, R101, R112, R116) -/

/-- The oldest instruction of a lane. -/
def Slot.onLane (s : Slot) (lane : Nat) : Option Flight := s.flight.find? (fun f => f.lane == lane)

/-- The flights without the oldest of a lane. -/
def dropLane (lane : Nat) : List Flight → List Flight
  | [] => []
  | f :: r => if f.lane == lane then r else f :: dropLane lane r

/-- A token released, unless a later instruction in flight sets it again (R112). -/
def Slot.release (s : Slot) (tset : Option Nat) : Slot :=
  match tset with
  | none => s
  | some j => if s.flight.any (fun f => f.tset == some j) then s else { s with tokens := s.tokens ||| 2 ^ j }

/-- An entry posted to a receive queue becomes visible (R100). -/
def Dev.postEntry (d : Dev) (p : Nat × Nat × Nat × Nat × Nat) : Dev :=
  let x := d.tile p.1
  let q := x.recvq p.2.1
  d.setTile p.1 (x.setRecvq p.2.1 { q with posted := q.posted ++ [(p.2.2.1, p.2.2.2.1, p.2.2.2.2)] })

/-- A credit returned to the senders of a queue (R100). -/
def Dev.returnCredit (d : Dev) (t : Nat) (c : Nat × Nat) : Dev :=
  let x := d.tile t
  let q := x.recvq c.1
  d.setTile t (x.setRecvq c.1 { q with taken := q.taken.filter (· != c.2) })

/-- Lane cycles and energy of an instruction charged to its context (R297, R301). -/
def Dev.chargeLane (d : Dev) (c trk lane n : Nat) : Dev :=
  (lanesOf lane).foldl (fun d l => (d.charge c l n).cmdEnergy trk (n * d.ec l)) d

/-- Cellar bytes and their energy charged to a command's context. -/
def Dev.chargeCellar (d : Dev) (c trk rd wr : Nat) : Dev :=
  ((d.charge c 7 rd).charge c 8 wr).cmdEnergy trk ((rd + wr) * d.ec 4)

/-- Replay cycles of a tile (R82, R101). -/
def Dev.replay (d : Dev) (t n : Nat) : Dev :=
  if n = 0 then d
  else
    let d := d.tileCount t 0x0190 n
    d.setTile t { d.tile t with replays := (d.tile t).replays + n }

/-- The oldest instruction of a lane of a slot retires: `elapsed` CCLK cycles of the tile's work since the last count, `wait` cycles that it
held its lane beyond its count, `ce` corrected pantry reads (2 cycles of replay each) and `sentinel` cycles of timing replay. -/
def Dev.retire (d : Dev) (t k lane elapsed wait ce sentinel : Nat) : Dev :=
  let s := d.slot t k
  match s.onLane lane, s.running with
  | some f, some trk =>
    let s := { s with flight := dropLane lane s.flight }
    let d := d.setSlot t k (s.release f.tset)
    let d := d.deliverSats (some trk) f.sats
    let d := d.deliverLsts f.lsts
    let d := if f.escalated then d.cmdStatus trk .precisionEscalated else d
    let d := match f.post with
      | some p => d.postEntry p
      | none => d
    let d := match f.credit with
      | some c => d.returnCredit t c
      | none => d
    let re := 2 * ce + sentinel
    let d := d.nominal t f.count
    let d := (d.tileCount t 0x0188 elapsed).replay t re
    let d := d.setTile t { d.tile t with winElapsed := (d.tile t).winElapsed + elapsed }
    let d := d.bumpRc pgTile t 0x0198 ce
    let d := d.bumpRc pgRas s.hoop 0x0108 ce
    let d := d.chargeLane s.ctx trk lane (f.count + wait + re)
    let d := d.chargeCellar s.ctx trk f.rd f.wr
    d.trace s.ctx t (f.pc + 65536 * iOpc f.word)
  | _, _ => d

/-! ### Health windows (R101, R102) -/

/-- A tile is active: a logical tile in service. -/
def Dev.tileActive (d : Dev) (t : Nat) : Bool := decide (t < 96) && !(d.tile t).out

/-- The median by R101: the (floor(k ÷ 2) + 1)-th largest; none of an empty list. -/
def medianRate (l : List Nat) : Option Nat := (sortBy l (fun a b => decide (b ≤ a)))[l.length / 2]?

/-- Cohort rate of a tile (R101). -/
def Dev.cohortOf (d : Dev) (t : Nat) : Nat :=
  let others := (List.range 96).filter (fun n => n != t && d.tileActive n)
  let row := others.filter (fun n => n / 12 == t / 12)
  let rates := fun (l : List Nat) => l.map (fun n => (d.tile n).rate)
  (medianRate (rates (if row.isEmpty then others else row))).getD (d.tile t).cohort

/-- The rate of a window (R101). -/
def Tile.windowRate (x : Tile) : Nat := if x.winElapsed = 0 then x.rate else min 65536 (65536 * x.winNom / x.winElapsed)

/-- The tile flagged slow (R102): `SLOW`, its bit of `TILE_SLOW_MAP`, the tile page's event (bit 0, log entry 15). -/
def Dev.flagSlow (d : Dev) (t : Nat) : Dev :=
  let d := d.orReg pgTile t 0x01A4 1
  let d := d.orReg pgTile 0 (0x1010 + 4 * (t / 32)) (2 ^ (t % 32))
  d.event pgTile 0 (d.portsOfTile t)

/-- A health window of a tile ends. -/
def Dev.healthWindow (d : Dev) (t : Nat) : Dev :=
  if !d.tileActive t then d
  else
    let x := d.tile t
    let d := d.setTile t { x with rate := x.windowRate, winNom := 0, winElapsed := 0 }
    let c := d.cohortOf t
    let d := d.setTile t { d.tile t with cohort := c }
    if (d.tile t).rate * 65536 < c * 58982 then d.flagSlow t else d

end Sys2Proof.Machine
end

