-- ==== Sys2Proof/Machine/Movement.lean ====
section
/-! DEFINITION. The movement lane (R54 to R56, R99, R100, R115, R123 to R126): copies, the quantizing load, the weight load and the
handoff. -/
namespace Sys2Proof.Machine

/-! ### Slices of a copy (R123 Table 9) -/

/-- `ROWS`. -/
def cpRows (w : Nat) : Nat := fld w 59 44
/-- `COLS`. -/
def cpCols (w : Nat) : Nat := fld w 75 60
/-- `TR`. -/
def cpTr (w : Nat) : Bool := bit w 84
/-- `SCL`. -/
def cpScl (w : Nat) : Bool := bit w 85
/-- `TADD`. -/
def cpTadd (w : Nat) : Bool := bit w 86

/-- The source slice. -/
def Dev.cpSrc (d : Dev) (t : Nat) (s : Slot) (w : Nat) : Slice :=
  { op := d.orec t s (iF0 w), r0 := s.xlo (fld w 79 76), c0 := s.xlo (fld w 83 80), rows := cpRows w, cols := cpCols w }

/-- The destination slice: the transpose of the source's extents with `TR`. -/
def Dev.cpDst (d : Dev) (t : Nat) (s : Slot) (w : Nat) : Slice :=
  { op := d.orec t s (iF1 w), r0 := s.xhi (fld w 79 76), c0 := s.xhi (fld w 83 80),
    rows := if cpTr w then cpCols w else cpRows w, cols := if cpTr w then cpRows w else cpCols w }

/-! ### Cellar regions of an instruction (R115) -/

/-- The runs of a cellar slice, joined, in increasing order as they are stored. -/
def Slice.runs (s : Slice) (scales : Bool) : List (Int × Nat) :=
  joinSpans (s.spans ++ (if scales then s.scaleSpans else []))

/-- Every page of the runs translated (R115). -/
def Dev.reachRuns (d : Dev) (c : Nat) (write : Bool) (runs : List (Int × Nat)) : Reach :=
  if runs.any (fun r => decide (r.1 < 0)) then .fail .accessDenied 0
  else d.reachFrom c write (runs.flatMap (fun r => pieces r.1.toNat r.2))

/-- Cellar bytes of the runs as R151 counts them: whole granules. -/
def runBytes (runs : List (Int × Nat)) : Nat := runs.foldl (fun a r => a + 256 * granules r.1.toNat r.2) 0

/-- Bytes of the granules that the runs do not wholly cover (R151). -/
def runPartial (runs : List (Int × Nat)) : Nat := runs.foldl (fun a r => a + 256 * partialGranules r.1.toNat r.2) 0

/-- Continue when the cellar region of a read is translated and readable. -/
def Dev.withReadable (d : Dev) (c : Nat) (runs : List (Int × Nat)) (k : Dev → Issued) : Issued :=
  match d.reachRuns c false runs with
  | .ok ps => if d.partsPoisoned ps then .poison (match ps with
      | p :: _ => p.1
      | [] => 0) ps else k (d.celRead ps)
  | .notMapped va l => .notMapped va l false
  | .fail st va => .fault st va
  | .malformed va => .malformed va

/-! ### Copying (R123) -/

/-- Bytes that a copy moves. -/
def copyBytes (s : Slice) (scl : Bool) : Nat :=
  (s.spans ++ (if scl then s.scaleSpans else [])).foldl (fun a p => a + p.2) 0

/-- copy_body of R123. -/
def copyBody (bytes : Nat) (tr : Bool) : Nat := cdiv bytes (if tr then 256 else 512)

/-- Source element code that lands at (i, j) of the destination slice. -/
def Dev.copyCode (d : Dev) (t : Nat) (s : Slot) (a : Slice) (tr : Bool) (i j : Nat) : Nat :=
  if tr then d.elem t s a.op (a.r0 + j) (a.c0 + i) else d.elem t s a.op (a.r0 + i) (a.c0 + j)

/-- An invalid TRI byte of the source line stays as it is in a copy, which does not decode it. -/
def keepRaw (f : Fmt) (img raw : List Byte) : List Byte :=
  if f ≠ .tri then img
  else (img.zip (raw ++ List.replicate (img.length - raw.length) 0)).map (fun p => if 243 ≤ p.2.toNat then p.2 else p.1)

/-- The lines of a copy: destination address and bytes of each, in increasing line. -/
def Dev.copyLines (d : Dev) (t : Nat) (s : Slot) (a b : Slice) (tr : Bool) : List (Int × List Byte) :=
  let lines := if b.op.transposed then b.cols else b.rows
  let n := if b.op.transposed then b.rows else b.cols
  if n = 0 then [] else
  (List.range lines).map (fun l =>
    let codes := (List.range n).map (fun m => if b.op.transposed then d.copyCode t s a tr m l else d.copyCode t s a tr l m)
    let im := if b.op.transposed then d.lineImage t s b.op b.r0 (b.c0 + l) codes else d.lineImage t s b.op (b.r0 + l) b.c0 codes
    let raw := if tr then [] else match a.spans[l]? with
      | some p => d.opBytes t s a.op.cellar p.1 p.2
      | none => []
    (im.1, keepRaw b.op.fmt im.2 raw))

/-- The scale rows of a copy: destination address and bytes of each. -/
def Dev.copyScales (d : Dev) (t : Nat) (s : Slot) (a b : Slice) : List (Int × List Byte) :=
  (a.scaleSpans.zip b.scaleSpans).map (fun p => (p.2.1, d.opBytes t s a.op.cellar p.1.1 p.1.2))

/-- Byte strings stored into the shelf. -/
def Dev.putShelf (d : Dev) (t : Nat) (s : Slot) (l : List (Int × List Byte)) : Dev :=
  l.foldl (fun d p => d.shelfWrite t s p.1.toNat p.2) d

/-- Clip-tally groups that a slice covers: first and count (R55, R124). -/
def Slice.groups (s : Slice) : Nat × Nat :=
  let n0 := if s.op.kdim then s.c0 else s.r0
  let n := if s.op.kdim then s.cols else s.rows
  let g0 := (n0 / 128).toNat
  (g0, if n = 0 then 0 else ((n0 + n - 1) / 128).toNat + 1 - g0)

/-- Tallies written for the groups of a slice; a record whose `AUX_ADDR` is 0 has no tally array (log entry 16). -/
def Dev.putTallies (d : Dev) (t : Nat) (s : Slot) (b : Slice) (v : Nat → Nat) : Dev :=
  if b.op.auxAddr = 0 then d
  else (List.range b.groups.2).foldl (fun d i => d.shelfWrite t s (b.op.auxAddr + 4 * (b.groups.1 + i)) (toBytes 4 (v (b.groups.1 + i)))) d

/-- The tallies of a slice lie inside the shelf. -/
def Slice.tallyOk (b : Slice) (s : Slot) : Bool :=
  b.op.auxAddr == 0 || s.holds ((b.op.auxAddr + 4 * b.groups.1 : Nat) : Int) (4 * b.groups.2)

/-- The checks of a movement instruction's dynamic offsets (R81, R110). -/
def moveCheck (s : Slot) (a b : Slice) : Option Status :=
  if !a.inShelf s || !b.inShelf s then some .accessDenied
  else if !a.aligned || !b.aligned then some .badDescriptor
  else none

/-- A copy from the cellar or the shelf into the shelf: `LD`, `MOV`, and `WLD` with its tensor scale (R123, R125). -/
def Dev.copyIn (d : Dev) (t : Nat) (w : Nat) (s : Slot) (scl wld : Bool) : Issued :=
  let a := d.cpSrc t s w
  let b := d.cpDst t s w
  let tr := cpTr w && !wld
  if cpRows w = 0 ∨ cpCols w = 0 then .ok d { count := 8 + (if wld then 8 else 0) }
  else match moveCheck s a b with
  | some st => .fault st 0
  | none =>
    let ts := wld && b.op.bmode == .nb16
    let runs := if a.op.cellar then a.runs scl ++ (if ts then [((a.op.tsAddr : Int), 4)] else []) else []
    d.withReadable s.ctx runs (fun d =>
      let e := d.putShelf t s (d.copyLines t s a b tr ++ (if scl then d.copyScales t s a b else []))
      let e := if ts then e.shelfWrite t s b.op.tsAddr (d.opBytes t s a.op.cellar a.op.tsAddr 4) else e
      let e := if a.op.cellar && b.tallyOk s then e.putTallies t s b (fun _ => 0) else e
      .ok e { count := 8 + copyBody (copyBytes a scl) tr + (if wld then 8 else 0), rd := runBytes runs })

/-- Adjacent byte strings joined, in increasing address (R123: a `ST` writes the cellar in increasing address order). -/
def joinBytes (l : List (Int × List Byte)) : List (Int × List Byte) :=
  (sortBy l (fun a b => decide (a.1 ≤ b.1))).foldr (fun x acc => match acc with
    | (b, m) :: r => if x.1 + x.2.length = b then (x.1, x.2 ++ m) :: r else x :: acc
    | [] => [x]) []

/-- Byte strings written into the context's space; a write that the cellar refuses ends them (R247, R252). -/
def Dev.putCellar (d : Dev) (c : Nat) (l : List (Int × List Byte)) : Dev × Option Status :=
  l.foldl (fun r p => match r.2 with
    | none => r.1.writeVa c p.1.toNat p.2
    | some _ => r) (d, none)

/-- Every run lies inside the write ranges of an eval window's block (R205 Table 3, R206). -/
def Cmd.evalAllows (m : Cmd) (runs : List (Int × Nat)) : Bool :=
  !m.eval || runs.all (fun r => (List.range (bytesNat m.block2 2 2)).any (fun i =>
    let base := bytesNat m.block2 (16 + 16 * i) 8
    let len := bytesNat m.block2 (24 + 16 * i) 8
    decide ((base : Int) ≤ r.1) && decide (r.1 + r.2 ≤ ((base + len : Nat) : Int))))

/-- `ST` (R123). A refused write other than a poisoned granule fails the command, and the instruction retires (log entry 17). -/
def Dev.copyOut (d : Dev) (t trk : Nat) (w : Nat) (s : Slot) : Issued :=
  let a := d.cpSrc t s w
  let b := d.cpDst t s w
  if cpRows w = 0 ∨ cpCols w = 0 then .ok d { count := 8 }
  else match moveCheck s a b with
  | some st => .fault st 0
  | none =>
    let runs := b.runs (cpScl w)
    if !(d.cmd trk).evalAllows runs then .fault .accessDenied 0 else
    match d.reachRuns s.ctx true runs with
    | .notMapped va l => .notMapped va l true
    | .fail st va => .fault st va
    | .malformed va => .malformed va
    | .ok ps =>
      match d.putCellar s.ctx (joinBytes (d.copyLines t s a b (cpTr w) ++ (if cpScl w then d.copyScales t s a b else []))) with
      | (_, some .uncorrectableMemory) => .poison (match ps with
          | p :: _ => p.1
          | [] => 0) ps
      | (e, st) =>
        let e := match st with
          | some st => e.cmdStatus trk st
          | none => e
        .ok e { count := 8 + copyBody (copyBytes a (cpScl w)) (cpTr w), rd := runPartial runs, wr := runBytes runs }

/-! ### The quantizing load (R54 to R56, R124) -/

/-- Rows become columns. -/
def transpose (cols : Nat) (rows : List (List Nat)) : List (List Nat) :=
  (List.range cols).map (fun j => rows.map (fun r => r.getD j 0))

/-- A grid's value. -/
def gridAt (g : List (List Nat)) (i j : Nat) : Nat := (g.getD i []).getD j 0

/-- The FP32 values of the load before rotation, by destination coordinates. -/
def Dev.ldqValues (d : Dev) (t : Nat) (s : Slot) (a b : Slice) (tr : Bool) : List (List Nat) :=
  (List.range b.rows).map (fun (i : Nat) => (List.range b.cols).map (fun (j : Nat) =>
    if tr then d.elemF t s a.op (a.r0 + j) (a.c0 + i) else d.elemF t s a.op (a.r0 + i) (a.c0 + j)))

/-- The values rotated along K (R52, global K by R109). -/
def rotateSlice (b : Slice) (step : Nat) (g : List (List Nat)) : List (List Nat) :=
  let k0 := b.op.gk b.r0 b.c0
  if b.op.kdim then transpose b.rows ((transpose b.cols g).map (rotateLine b.op.rot b.op.rotSeed step k0 b.op.stepMode))
  else g.map (rotateLine b.op.rot b.op.rotSeed step k0 b.op.stepMode)

/-- The non-K coordinate of a place of the slice. -/
def Slice.nonK (b : Slice) (p : Nat × Nat) : Int := if b.op.kdim then b.c0 + p.2 else b.r0 + p.1

/-- Saturation events of tally group `g`. -/
def QSlice.tally (q : QSlice) (b : Slice) (g : Nat) : Nat :=
  (q.events.filter (fun e => b.nonK e.1 / 128 == (g : Int))).foldl (fun a e => a + e.2) 0

/-- ldq_body of R124. -/
def ldqBody (n rot : Nat) (tr tscomp : Bool) : Nat :=
  cdiv n 256 * (if tr then 2 else 1) + (if rot = 0 then 0 else 2 * rotL rot + 6) + (if tscomp then cdiv n 256 else 0)

/-- The largest magnitude of a grid (R60, R62). -/
def gridAmax (g : List (List Nat)) : Nat := g.foldl (fun a r => r.foldl (fun a c => amaxKeep a (amaxCode c)) a) 0

/-- The load's effect once its source is readable. -/
def Dev.ldqRun (d : Dev) (t : Nat) (w : Nat) (s : Slot) (a b : Slice) (runs : List (Int × Nat)) : Issued :=
  let o := b.op
  let g := rotateSlice b s.step (d.ldqValues t s a b (cpTr w))
  let nb := o.bmode == .nb16
  let ts := if !nb then 0 else if o.tscomp then tensorScale (g.flatMap (fun r => r.map f32)) else d.tsAt t s o
  if nb && !o.tscomp && !tsSupplied ts then .fault .badDescriptor 0
  else
    let q := b.quant ts (gridAt g) (b.mode s.step)
    let sb : Slice := { b with op := o.asShadow }
    let sq := sb.quant 0 (gridAt g) (fun _ _ => .rne)
    let old := fun (i : Nat) => ofBytes (d.shelfRead t s (o.auxAddr + 4 * i) 4)
    let e := if nb && o.tscomp then d.shelfWrite t s o.tsAddr (toBytes 4 ts) else d
    let e := e.putQuant t s b q
    let e := if o.shadow then e.putQuant t s sb sq else e
    let e := e.putTallies t s b (fun i => satAdd 32 (if cpTadd w then old i else 0) (q.tally b i))
    let sat : SatPart := { entry := o.satEntry, count := q.count + (if o.shadow then sq.count else 0), elems := b.rows * b.cols, amax := gridAmax g }
    .ok e { count := 8 + ldqBody (b.rows * b.cols) o.rot (cpTr w) o.tscomp, sats := if o.satEn then [sat] else [], rd := runBytes runs }

/-- `LDQ` (R124). -/
def Dev.ldq (d : Dev) (t : Nat) (w : Nat) (s : Slot) : Issued :=
  let a := d.cpSrc t s w
  let b := d.cpDst t s w
  let sb : Slice := { b with op := b.op.asShadow }
  if cpRows w = 0 ∨ cpCols w = 0 then .ok d { count := 8 + ldqBody 0 b.op.rot (cpTr w) b.op.tscomp }
  else match moveCheck s a b with
  | some st => .fault st 0
  | none =>
    if (b.op.shadow && !sb.inShelf s) || !b.tallyOk s then .fault .accessDenied 0
    else if !b.rotAligned || (if b.op.kdim then b.c0 else b.r0) % 128 ≠ 0 && b.op.auxAddr ≠ 0 then .fault .badDescriptor 0
    else
      let scl := a.op.bmode != .none
      let ts := a.op.bmode == .nb16 && a.op.tscale == 0
      let runs := if a.op.cellar then a.runs scl ++ (if ts then [((a.op.tsAddr : Int), 4)] else []) else []
      d.withReadable s.ctx runs (fun d => d.ldqRun t w s a b runs)

/-! ### Handoff (R99, R100, R126) -/

/-- Ring slots of a queue without a pending entry or hold: the sender's credits. -/
def RecvQ.freeRing (q : RecvQ) : Option Nat := lowest q.slots (fun i => !q.taken.contains i)

/-- `DTILE`. -/
def hoTile (w : Nat) : Nat := fld w 38 32
/-- `QUEUE`. -/
def hoQueue (w : Nat) : Nat := fld w 42 39
/-- `TAG`. -/
def hoTag (w : Nat) : Nat := fld w 58 43
/-- `LEN`. -/
def hoLen (w : Nat) : Nat := fld w 79 59

/-- Shelf offset that `REC` and `XB` name. -/
def Dev.hoOff (d : Dev) (t : Nat) (s : Slot) (w : Nat) : Int := ((d.orec t s (iF0 w)).addr : Int) + s.xlo (fld w 84 81)

/-- The check of a handoff's dynamic byte offset: inside the shelf, a multiple of 256. -/
def Dev.hoCheck (d : Dev) (t : Nat) (s : Slot) (w n : Nat) : Option Status :=
  if !s.holds (d.hoOff t s w) n then some .accessDenied
  else if s.xlo (fld w 84 81) % 256 ≠ 0 then some .badDescriptor
  else none

/-- The oldest visible entry with the tag. -/
def RecvQ.find (q : RecvQ) (tag : Nat) : Option (Nat × Nat × Nat) := q.posted.find? (fun e => e.2.1 == tag)

/-- The queue without an entry, its ring slot still taken. -/
def RecvQ.take (q : RecvQ) (ring : Nat) : RecvQ := { q with posted := q.posted.filter (fun e => e.1 != ring) }

/-- `SEND` (R126): with no credit the shelf parks; else the payload lands in a ring slot of the receiver's shelf and its entry is posted at
retirement. The ring slot taken is the lowest free one (log entry 18). -/
def Dev.send (d : Dev) (t : Nat) (w : Nat) (s : Slot) : Issued :=
  match d.hoCheck t s w (hoLen w) with
  | some st => .fault st 0
  | none =>
    let q := (d.tile (hoTile w)).recvq (hoQueue w)
    match q.owner, q.freeRing with
    | some rk', some i =>
      let payload := d.shelfRead t s (d.hoOff t s w).toNat (hoLen w)
      let e := d.shelfWrite (hoTile w) (d.slot (hoTile w) rk') (q.off + i * q.size) payload
      let e := e.setTile (hoTile w) ((e.tile (hoTile w)).setRecvq (hoQueue w) { q with taken := q.taken ++ [i] })
      .ok e { count := 8 + cdiv (hoLen w) 512, post := some (hoTile w, hoQueue w, i, hoTag w, hoLen w) }
    | _, _ => .park

/-- The largest `LEN` that any sender of the context names for a queue of a tile (R126). -/
def Dev.maxLen (d : Dev) (c t q : Nat) : Nat :=
  (d.slotsOf c).foldl (fun m e =>
    let s := d.slot e.1 e.2
    (List.range s.instrs).foldl (fun m i =>
      let w := d.fetchAt e.1 s i
      if iOpc w = opSend ∧ hoTile w = t ∧ hoQueue w = q then max m (hoLen w) else m) m) 0

/-- `RECV` (R126): parks with no matching entry; `COPY` copies the entry and returns the credit at retirement, `BIND` binds the ring slot to
the view record and holds the credit. -/
def Dev.recv (d : Dev) (t k : Nat) (w : Nat) (s : Slot) : Issued :=
  let q := (d.tile t).recvq (hoQueue w)
  match q.find (hoTag w) with
  | none => .park
  | some (i, _, len) =>
    let src := q.off + i * q.size
    if isBind w then
      let e := d.setTile t ((d.tile t).setRecvq (hoQueue w) (q.take i))
      let v : ViewB := { record := iF0 w, queue := hoQueue w, ring := i, addr := src }
      .ok (e.setSlot t k { e.slot t k with views := v :: s.views }) { count := 8 }
    else
      match d.hoCheck t s w len with
      | some st => .fault st 0
      | none =>
        let e := d.shelfWrite t s (d.hoOff t s w).toNat (d.shelfRead t s src len)
        let e := e.setTile t ((e.tile t).setRecvq (hoQueue w) (q.take i))
        .ok e { count := 8 + cdiv (d.maxLen s.ctx t (hoQueue w)) 512, credit := some (hoQueue w, i) }

/-- The views without the newest binding of a record. -/
def dropView (r : Nat) : List ViewB → List ViewB
  | [] => []
  | v :: l => if v.record == r then l else v :: dropView r l

/-- `REL` (R126): the view is unbound, its credit returned at retirement. -/
def Dev.rel (d : Dev) (t k : Nat) (w : Nat) (s : Slot) : Issued :=
  match s.views.find? (fun v => v.record == iF0 w) with
  | none => .fault .badDescriptor 0
  | some v => .ok (d.setSlot t k { s with views := dropView (iF0 w) s.views }) { count := 8, credit := some (v.queue, v.ring) }

/-- A parked handoff may go on: its credit or its entry is there (R100). -/
def Dev.handoffReady (d : Dev) (t k : Nat) : Bool :=
  let s := d.slot t k
  let w := d.word t k
  if iOpc w = opSend then ((d.tile (hoTile w)).recvq (hoQueue w)).freeRing.isSome
  else if iOpc w = opRecv then (((d.tile t).recvq (hoQueue w)).find (hoTag w)).isSome
  else s.parked

/-- A parked shelf leaves its wait (R100). -/
def Dev.unpark (d : Dev) (t k : Nat) : Dev :=
  if (d.slot t k).parked && d.handoffReady t k then d.setSlot t k { d.slot t k with parked := false } else d

end Sys2Proof.Machine
end

