-- ==== Sys2Proof/Machine/Tile.lean ====
section
/-! DEFINITION. The meanings of the sequencer and movement rows of the table, of retirement, handoff waits and health windows
(chapters 4 and 5). -/
namespace Sys2Proof.Machine

/-- A command whose effect is on the device alone. -/
def onDev (s : State) (f : Dev → Dev) : Host.Outcome State Fault Refusal := .next { s with dev := f s.dev }

/-- `NOP` issues (R122). -/
def execNop (tile slot : Nat) (s : State) : Host.Outcome State Fault Refusal :=
  onDev s (fun d => d.issueSeq tile slot opNop (fun _ sl => sl.advance))

/-- `SETX` issues (R119). -/
def execSetx (tile slot : Nat) (s : State) : Host.Outcome State Fault Refusal :=
  onDev s (fun d => d.issueSeq tile slot opSetx (fun w sl => sl.setx w))

/-- `ADDX` issues (R119). -/
def execAddx (tile slot : Nat) (s : State) : Host.Outcome State Fault Refusal :=
  onDev s (fun d => d.issueSeq tile slot opAddx (fun w sl => sl.addx w))

/-- `LOOP` issues (R120). -/
def execLoopIns (tile slot : Nat) (s : State) : Host.Outcome State Fault Refusal :=
  onDev s (fun d => d.issueSeq tile slot opLoop (fun w sl => sl.loop w))

/-- `FENCE` issues once what it waits for holds (R121). -/
def execFence (tile slot : Nat) (s : State) : Host.Outcome State Fault Refusal :=
  onDev s (fun d => d.issueSeq tile slot opFence (fun _ sl => sl.advance))

/-- `END` issues: the command ends on this tile, and with the last tile its work is done (R122). -/
def execTileEnd (tile slot : Nat) (s : State) : Host.Outcome State Fault Refusal :=
  onDev s (fun d =>
    if d.canIssue tile slot opEnd then
      (d.issueSeq tile slot opEnd (fun _ sl => sl.ended)).endCheck ((d.slot tile slot).running.getD 0)
    else d)

/-- `LD` issues (R123); `ue`: an uncorrectable pantry read meets it (R82). -/
def execLd (tile slot : Nat) (ue : Bool) (s : State) : Host.Outcome State Fault Refusal :=
  onDev s (fun d => d.issueLane tile slot opLd ue (fun d w sl => d.copyIn tile w sl (cpScl w) false))

/-- `ST` issues (R123). -/
def execSt (tile slot : Nat) (ue : Bool) (s : State) : Host.Outcome State Fault Refusal :=
  onDev s (fun d => d.issueLane tile slot opSt ue (fun d w sl => d.copyOut tile (sl.running.getD 0) w sl))

/-- `MOV` issues (R123). -/
def execMov (tile slot : Nat) (ue : Bool) (s : State) : Host.Outcome State Fault Refusal :=
  onDev s (fun d => d.issueLane tile slot opMov ue (fun d w sl => d.copyIn tile w sl (cpScl w) false))

/-- `LDQ` issues (R124). -/
def execLdq (tile slot : Nat) (ue : Bool) (s : State) : Host.Outcome State Fault Refusal :=
  onDev s (fun d => d.issueLane tile slot opLdq ue (fun d w sl => d.ldq tile w sl))

/-- `WLD` issues (R125). -/
def execWld (tile slot : Nat) (ue : Bool) (s : State) : Host.Outcome State Fault Refusal :=
  onDev s (fun d => d.issueLane tile slot opWld ue (fun d w sl => d.copyIn tile w sl true true))

/-- `SEND` issues, or parks its shelf (R126, R100). -/
def execSend (tile slot : Nat) (ue : Bool) (s : State) : Host.Outcome State Fault Refusal :=
  onDev s (fun d => d.issueLane tile slot opSend ue (fun d w sl => d.send tile w sl))

/-- `RECV` issues, or parks its shelf (R126, R100). -/
def execRecv (tile slot : Nat) (ue : Bool) (s : State) : Host.Outcome State Fault Refusal :=
  onDev s (fun d => d.issueLane tile slot opRecv ue (fun d w sl => d.recv tile slot w sl))

/-- `REL` issues (R126). -/
def execRel (tile slot : Nat) (s : State) : Host.Outcome State Fault Refusal :=
  onDev s (fun d => d.issueLane tile slot opRel false (fun d w sl => d.rel tile slot w sl))

/-- Every hoop that holds a slot on the tile is reset: a parity error of the tile not attributable to one instruction (R437, cause 0x64). -/
def Dev.tileParity (d : Dev) (t : Nat) : Dev :=
  let hs := ((d.tile t).slots.filter (fun e => e.2.valid)).map (fun e => (e.2.hoop, e.2.ctx))
  hs.foldl (fun d e => if (d.ctx e.2).state = .active then d.classP e.1 e.2 none 0x64 { unit := Client.tile.code, unum := t } none else d) d

/-- The oldest instruction of a lane of a slot retires (R61, R101, R112); `parity`: the tile meets a parity error instead. -/
def execInstructionRetire (tile slot lane elapsed wait ce sentinel : Nat) (parity : Bool) (s : State) : Host.Outcome State Fault Refusal :=
  onDev s (fun d => d.whenLive (fun d => if parity then d.tileParity tile else d.retire tile slot lane elapsed wait ce sentinel))

/-- A parked handoff goes on (R100). -/
def execHandoffUnpark (tile slot : Nat) (s : State) : Host.Outcome State Fault Refusal :=
  onDev s (fun d => d.whenLive (fun d => d.unpark tile slot))

/-- A health window of a tile ends (R101, R102). -/
def execTileHealthWindow (tile : Nat) (s : State) : Host.Outcome State Fault Refusal :=
  onDev s (fun d => d.whenLive (fun d => d.healthWindow tile))

end Sys2Proof.Machine
end

