-- ==== Sys2Proof/Machine/Matrix.lean ====
section
/-! DEFINITION. The matrix lane (R66 to R73, R84 to R95, R127 to R129): the products on the laces, the knot cubes and the stitch path,
precision escalation, the output path (R57), the gathered matmul, and the repair of an array whose pass check fails (R453, R454). -/
namespace Sys2Proof.Machine

/-! ### The output path (R57) -/

/-- What the output path gives: the device with the region written, and the contributions, or a status. -/
inductive OutAns where
  | fault (st : Status)
  | ok (d : Dev) (sats : List SatPart) (lsts : List LstPart)

/-- Steps 3 to 6 of R57 over the step-2 values of a region: quantized, counted and written; layer statistics as R188 states. -/
def Dev.outPath (d : Dev) (t : Nat) (s : Slot) (o : Slice) (g : List (List Nat)) (esc exam : Nat) : OutAns :=
  let nb := o.op.bmode == .nb16
  let ts := d.tsAt t s o.op
  if nb && !tsSupplied ts then .fault .badDescriptor
  else
    let q := o.quant ts (gridAt g) (o.mode s.step)
    let e := d.putQuant t s o q
    let sat : SatPart := { entry := o.op.satEntry, count := q.count, elems := o.rows * o.cols, amax := gridAmax g, esc := esc, exam := exam }
    let lsts := if o.op.satEn then (d.lstFed o.op.satEntry).map (fun k => d.lstPart k q.count (g.flatMap id)) else []
    .ok e (if o.op.satEn then [sat] else []) lsts

/-- Saturation events of the invalid TRI bytes that an operand's slice holds, each counted once against the operand (R33). -/
def Dev.tritParts (d : Dev) (t : Nat) (s : Slot) (x : Slice) : List SatPart :=
  let n := d.badTrits t s x
  if x.op.satEn && n != 0 then [{ entry := x.op.satEntry, count := n }] else []

/-- Something in every place of a grid. -/
def gridOf (rows cols : Nat) (f : Nat → Nat → Nat) : List (List Nat) :=
  (List.range rows).map (fun i => (List.range cols).map (fun j => f i j))

/-! ### Matmul operands (R127 Table 11) -/

/-- `MV`. -/
def mmMv (w : Nat) : Nat := fld w 71 56
/-- `NV`. -/
def mmNv (w : Nat) : Nat := fld w 84 72
/-- `KV`. -/
def mmKv (w : Nat) : Nat := fld w 98 85
/-- `ACC`. -/
def mmAcc (w : Nat) : Bool := bit w 109
/-- `ESCEN`. -/
def mmEsc (w : Nat) : Bool := bit w 110
/-- `T`. -/
def mmT (w : Nat) : Nat := fld w 126 111

/-- The A slice. -/
def Dev.mmA (d : Dev) (t : Nat) (s : Slot) (w : Nat) : Slice :=
  { op := d.orec t s (iF0 w), r0 := s.xlo (fld w 102 99), c0 := s.xlo (fld w 106 103), rows := mmMv w, cols := mmKv w }
/-- The W slice. -/
def Dev.mmW (d : Dev) (t : Nat) (s : Slot) (w : Nat) : Slice :=
  { op := d.orec t s (iF1 w), r0 := s.xhi (fld w 106 103), c0 := 0, rows := mmKv w, cols := mmNv w }
/-- The O slice. -/
def Dev.mmO (d : Dev) (t : Nat) (s : Slot) (w : Nat) : Slice :=
  { op := d.orec t s (iF2 w), r0 := s.xhi (fld w 102 99), c0 := 0, rows := mmMv w, cols := mmNv w }

/-- The slice of an operand's shadow. -/
def Slice.shadow (x : Slice) : Slice := { x with op := x.op.asShadow }

/-- Checks of dynamic offsets of a matmul (R50, R81, R110). -/
def mmCheck (s : Slot) (a w o : Slice) (esc : Bool) : Option Status :=
  let sh := fun (x : Slice) => !esc || !x.op.shadow || x.shadow.inShelf s
  if !a.inShelf s || !w.inShelf s || !o.inShelf s || !sh a || !sh w then some .accessDenied
  else if !a.aligned || !w.aligned || !o.aligned || !a.rotAligned || !w.rotAligned then some .badDescriptor
  else none

/-! ### Escalation (R66 to R69) -/

/-- The tally of group `g` of an operand; an operand with no tally array counts none (log entry 16). -/
def Dev.tallyAt (d : Dev) (t : Nat) (s : Slot) (o : ORec) (g : Nat) : Nat :=
  if o.auxAddr = 0 then 0 else ofBytes (d.shelfRead t s (o.auxAddr + 4 * g) 4)

/-- The sum of the tallies of the groups that hold positions [n0, n0 + n) of the non-K dimension, each once (R67). -/
def Dev.tallySum (d : Dev) (t : Nat) (s : Slot) (o : ORec) (n0 : Int) (n : Nat) : Nat :=
  if n = 0 then 0
  else
    let g0 := (n0 / 128).toNat
    let g1 := ((n0 + n - 1) / 128).toNat
    (List.range (g1 + 1 - g0)).foldl (fun a i => a + d.tallyAt t s o (g0 + i)) 0

/-- The decision of output block (bi, bj) (R67). -/
def Dev.escalates (d : Dev) (t : Nat) (s : Slot) (w : Nat) (a b : Slice) (bi bj : Nat) : Bool :=
  let vr := min 128 (mmMv w - 128 * bi)
  let vc := min 128 (mmNv w - 128 * bj)
  let clips := d.tallySum t s a.op (a.r0 + 128 * bi) vr + d.tallySum t s b.op (b.c0 + 128 * bj) vc
  mmEsc w && decide (mmT w * ((vr + vc) * mmKv w) < clips * 65536)

/-- Decisions of every output block, by block row then block column. -/
def Dev.escMap (d : Dev) (t : Nat) (s : Slot) (w : Nat) (a b : Slice) : List (List Bool) :=
  (List.range (cdiv (mmMv w) 128)).map (fun bi => (List.range (cdiv (mmNv w) 128)).map (fun bj => d.escalates t s w a b bi bj))

/-- Whether the block of element (m, n) escalates. -/
def escAt (e : List (List Bool)) (m n : Nat) : Bool := (e.getD (m / 128) []).getD (n / 128) false

/-- Blocks escalated. -/
def escCount (e : List (List Bool)) : Nat := e.foldl (fun a r => a + (r.filter id).length) 0

/-- The row is issued at q = 4 in N slice [c0, c0 + n): an escalated block covers it there (R68). -/
def rowEsc (e : List (List Bool)) (m c0 n : Nat) : Bool :=
  n != 0 && (List.range ((c0 + n - 1) / 128 + 1 - c0 / 128)).any (fun j => (e.getD (m / 128) []).getD (c0 / 128 + j) false)

/-- Issue cycles of a unit of the actual run: over the streams of its chunk, the larger of r_e + ceil(4 × r_p ÷ q) (R68). -/
def escIssues (sh : Shape) (e : List (List Bool)) (mv nv q j ns : Nat) : Nat :=
  let rows := (List.range (sh.chunk mv j)).map (fun i => j * sh.mc + i)
  (List.range sh.s).foldl (fun best st =>
    let rs := rows.filter (fun m => m % sh.s == st)
    let re := (rs.filter (fun m => rowEsc e m (ns * sh.npass) (sh.slice nv ns))).length
    max best (re + cdiv (4 * (rs.length - re)) q)) 0

/-! ### The products (R70, R127) -/

/-- The accumulator of element (m, n) over K, in groups of `g`, an escalated block with its shadows (R68, R70). -/
def Dev.mmElem (d : Dev) (t : Nat) (s : Slot) (a b o : Slice) (g : Nat) (acc : Bool) (esc : Bool) (m n : Nat) : Nat :=
  let pick := fun (x : Slice) => if esc && x.op.shadow then x.op.asShadow else x.op
  let oa := pick a
  let ob := pick b
  let c := if acc then d.elemF t s o.op (o.r0 + m) (o.c0 + n) else 0
  acc70 g c ((List.range a.cols).map (fun (k : Nat) =>
    (d.elemV t s oa (a.r0 + m) (a.c0 + k)).mul (d.elemV t s ob (b.r0 + k) (b.c0 + n))))

/-- Array cycles of an `MMA` in its actual run (R68, R91, R94). -/
def Dev.mmaCount (d : Dev) (t : Nat) (w : Nat) (a b : Slice) (e : List (List Bool)) : Nat :=
  let sh := Shape.ofCode (fld w 108 107)
  let q := (pairRate b.op.bmode b.op.fmt a.op.bmode a.op.fmt).getD 4
  if (d.tile t).standin then standinCount (mmMv w) (mmNv w) (mmKv w)
  else if mmEsc w then 16 + arrayWalk sh (mmMv w) (mmNv w) (mmKv w) (escIssues sh e (mmMv w) (mmNv w) q)
  else 16 + arrayCycles sh (mmMv w) (mmNv w) (mmKv w) q

/-- stitch_cycles of R95 with the overhead; the 8-bit rate when escalation is enabled (R127). -/
def stchCount (w : Nat) (a b : Slice) : Nat :=
  let q := if mmEsc w then 4 else (pairRate b.op.bmode b.op.fmt a.op.bmode a.op.fmt).getD 4
  16 + cdiv (mmKv w * mmNv w) (stitchRate q) + 24

/-- A matmul on any of the three paths: `g` is the accumulation group, `count` its cycles. -/
def Dev.matmul (d : Dev) (t : Nat) (w : Nat) (s : Slot) (g : Nat) (count : Slice → Slice → List (List Bool) → Nat) : Issued :=
  let a := d.mmA t s w
  let b := d.mmW t s w
  let o := d.mmO t s w
  if mmMv w = 0 ∨ mmNv w = 0 ∨ mmKv w = 0 then .ok d { count := 16 }
  else match mmCheck s a b o (mmEsc w) with
  | some st => .fault st 0
  | none =>
    let e := d.escMap t s w a b
    let y := gridOf (mmMv w) (mmNv w) (fun m n => unrotate a.op.rot (d.mmElem t s a b o g (mmAcc w) (escAt e m n) m n))
    let n := escCount e
    match d.outPath t s o y n (if mmEsc w then cdiv (mmMv w) 128 * cdiv (mmNv w) 128 else 0) with
    | .fault st => .fault st 0
    | .ok d sats lsts =>
      .ok d { count := count a b e, sats := sats ++ d.tritParts t s a ++ d.tritParts t s b, lsts := lsts, escalated := decide (n ≠ 0) }

/-! ### The gathered matmul (R128, R129) -/

/-- `MV`. -/
def mgMv (w : Nat) : Nat := fld w 83 68
/-- `NV`. -/
def mgNv (w : Nat) : Nat := fld w 96 84
/-- `KV`. -/
def mgKv (w : Nat) : Nat := fld w 110 97
/-- `PHASE`. -/
def mgPhase (w : Nat) : Bool := bit w 121
/-- `ACC`. -/
def mgAcc (w : Nat) : Bool := bit w 122

/-- A number of `n` bytes of the adapter table (R128). -/
def Dev.mgTab (d : Dev) (t : Nat) (s : Slot) (w off n : Nat) : Nat :=
  ofBytes (d.shelfRead t s ((d.orec t s (iF3 w + 2)).addr + off) n)

/-- Adapters in the table. -/
def Dev.mgCount (d : Dev) (t : Nat) (s : Slot) (w : Nat) : Nat := d.mgTab t s w 0 1 + 1
/-- r_max. -/
def Dev.mgRmax (d : Dev) (t : Nat) (s : Slot) (w : Nat) : Nat := d.mgTab t s w 1 1 + 1
/-- R_g. -/
def Dev.mgRg (d : Dev) (t : Nat) (s : Slot) (w : Nat) : Nat := d.mgTab t s w 2 1 + 1
/-- First four bytes of entry `a`: U, V and rank. -/
def Dev.mgHead (d : Dev) (t : Nat) (s : Slot) (w a : Nat) : Nat := d.mgTab t s w (16 * (a + 1)) 8
/-- U record of adapter `a`. -/
def Dev.mgU (d : Dev) (t : Nat) (s : Slot) (w a : Nat) : ORec := d.orec t s (fld (d.mgHead t s w a) 11 0)
/-- V record. -/
def Dev.mgV (d : Dev) (t : Nat) (s : Slot) (w a : Nat) : ORec := d.orec t s (fld (d.mgHead t s w a) 23 12)
/-- Rank. -/
def Dev.mgRank (d : Dev) (t : Nat) (s : Slot) (w a : Nat) : Nat := fld (d.mgHead t s w a) 32 24 + 1
/-- scale_a. -/
def Dev.mgScale (d : Dev) (t : Nat) (s : Slot) (w a : Nat) : Nat := d.mgTab t s w (16 * (a + 1) + 8) 4

/-- The index of each valid row. -/
def Dev.mgIndex (d : Dev) (t : Nat) (s : Slot) (w : Nat) : List Nat :=
  let o := d.orec t s (iF3 w + 1)
  (List.range (mgMv w)).map (fun (m : Nat) => ofBytes (d.shelfRead t s ((o.addr : Int) + 2 * (s.xlo (fld w 114 111) + m)).toNat 2))

/-- Maximal runs of equal indexes. -/
def runsOf : List Nat → Nat
  | [] => 0
  | [_] => 1
  | a :: b :: r => (if a = b then 0 else 1) + runsOf (b :: r)

/-- The index scan finds a fault (R129). -/
def Dev.mgBad (d : Dev) (t : Nat) (s : Slot) (w : Nat) : Bool :=
  let ix := d.mgIndex t s w
  ix.any (fun a => a != 0xFFFF && decide (d.mgCount t s w ≤ a)) || decide (d.mgRg t s w < runsOf ix)

/-- The A slice. -/
def Dev.mgA (d : Dev) (t : Nat) (s : Slot) (w : Nat) : Slice :=
  { op := d.orec t s (iF0 w), r0 := s.xlo (fld w 114 111), c0 := s.xlo (fld w 118 115), rows := mgMv w, cols := mgKv w }
/-- The Z slice of `n` columns. -/
def Dev.mgZ (d : Dev) (t : Nat) (s : Slot) (w n : Nat) : Slice :=
  { op := d.orec t s (iF3 w), r0 := s.xlo (fld w 114 111), c0 := 0, rows := mgMv w, cols := n }
/-- The W slice. -/
def Dev.mgW (d : Dev) (t : Nat) (s : Slot) (w : Nat) : Slice :=
  { op := d.orec t s (iF1 w), r0 := s.xhi (fld w 118 115), c0 := 0, rows := mgKv w, cols := mgNv w }
/-- The O slice. -/
def Dev.mgO (d : Dev) (t : Nat) (s : Slot) (w : Nat) : Slice :=
  { op := d.orec t s (iF2 w), r0 := s.xhi (fld w 114 111), c0 := 0, rows := mgMv w, cols := mgNv w }
/-- The U slice of adapter `a`. -/
def Dev.mgUs (d : Dev) (t : Nat) (s : Slot) (w a : Nat) : Slice :=
  { op := d.mgU t s w a, r0 := s.xhi (fld w 118 115), c0 := 0, rows := mgKv w, cols := d.mgRank t s w a }

/-- groups of R129. -/
def Dev.mgGroups (d : Dev) (t : Nat) (s : Slot) (w : Nat) : Nat := cdiv (mgMv w) 8 + d.mgRg t s w - 1

/-- Checks of dynamic offsets of an `MMG`. -/
def Dev.mgCheck (d : Dev) (t : Nat) (s : Slot) (w : Nat) : Option Status :=
  let a := d.mgA t s w
  let z := d.mgZ t s w (d.mgRmax t s w)
  let ix := (d.orec t s (iF3 w + 1)).addr + 2 * s.xlo (fld w 114 111)
  let us := (List.range (d.mgCount t s w)).map (fun i => d.mgUs t s w i)
  let more := if mgPhase w then [d.mgW t s w, d.mgO t s w] else us
  if !(a :: z :: more).all (fun x => x.inShelf s) || !s.holds ix (2 * mgMv w) then some .accessDenied
  else if !(a :: more).all (fun x => x.aligned) || !a.rotAligned then some .badDescriptor
  else if d.mgBad t s w then some .badDescriptor
  else none

/-- Phase 0 of R129: Z of every valid row with an adapter. -/
def Dev.mgDown (d : Dev) (t : Nat) (s : Slot) (w : Nat) : Dev :=
  let a := d.mgA t s w
  let ix := d.mgIndex t s w
  let z := d.mgZ t s w 0
  ((List.range (mgMv w)).zip ix).foldl (fun e p =>
    if p.2 = 0xFFFF then e
    else
      let u := d.mgUs t s w p.2
      let codes := (List.range (d.mgRank t s w p.2)).map (fun (j : Nat) =>
        let c := if mgAcc w then d.elemF t s z.op (z.r0 + p.1) j else 0
        acc70 16 c ((List.range (mgKv w)).map (fun (k : Nat) => (d.elemV t s a.op (a.r0 + p.1) (a.c0 + k)).mul (d.elemV t s u.op (u.r0 + k) j))))
      e.putLine t s z.op (z.r0 + p.1) 0 codes) d

/-- The value y of element (m, n) in phase 1 of R129. -/
def Dev.mgValue (d : Dev) (t : Nat) (s : Slot) (w : Nat) (ix : List Nat) (m n : Nat) : Nat :=
  let a := d.mgA t s w
  let z := d.mgZ t s w 0
  let base := d.mmElem t s a (d.mgW t s w) (d.mgO t s w) 16 (mgAcc w) false m n
  let i := ix.getD m 0xFFFF
  if i = 0xFFFF then base
  else
    let v := d.mgV t s w i
    let tt := acc70 16 0 ((List.range (d.mgRank t s w i)).map (fun (j : Nat) => (d.elemV t s z.op (z.r0 + m) j).mul (d.elemV t s v j n)))
    fAdd base (fMul (d.mgScale t s w i) tt)

/-- Cycles of an `MMG` (R129). -/
def Dev.mgCycles (d : Dev) (t : Nat) (s : Slot) (w : Nat) : Nat :=
  let a := d.mgA t s w
  if mgPhase w then
    let b := d.mgW t s w
    let q := (pairRate b.op.bmode b.op.fmt a.op.bmode a.op.fmt).getD 4
    let base := if (d.tile t).standin then standinCount (mgMv w) (mgNv w) (mgKv w) - 16
      else arrayCycles (Shape.ofCode (fld w 120 119)) (mgMv w) (mgNv w) (mgKv w) q
    16 + cdiv (mgMv w) 256 + base + d.mgGroups t s w * (cdiv (d.mgRmax t s w * mgNv w) 16 + 24)
  else
    let u := d.mgU t s w 0
    let q := (pairRate u.bmode u.fmt a.op.bmode a.op.fmt).getD 4
    16 + cdiv (mgMv w) 256 + d.mgGroups t s w * (cdiv (mgKv w * d.mgRmax t s w) (stitchRate q) + 24)

/-- `MMG` (R129). -/
def Dev.mmg (d : Dev) (t : Nat) (w : Nat) (s : Slot) : Issued :=
  if mgMv w = 0 ∨ mgKv w = 0 ∨ (mgPhase w = true ∧ mgNv w = 0) then .ok d { count := 16 }
  else match d.mgCheck t s w with
  | some st => .fault st 0
  | none =>
    let a := d.mgA t s w
    if mgPhase w then
      let o := d.mgO t s w
      let ix := d.mgIndex t s w
      let y := gridOf (mgMv w) (mgNv w) (fun m n => unrotate a.op.rot (d.mgValue t s w ix m n))
      match d.outPath t s o y 0 0 with
      | .fault st => .fault st 0
      | .ok e sats lsts => .ok e { count := d.mgCycles t s w, sats := sats ++ d.tritParts t s a ++ d.tritParts t s (d.mgW t s w), lsts := lsts }
    else .ok (d.mgDown t s w) { count := d.mgCycles t s w }

/-! ### Pass checks and array repair (R453, R454) -/

/-- The logical array that a physical array serves, if any. -/
def Tile.logicalOf (x : Tile) (a : Nat) : Option Nat := lowest 32 (fun i => tabGet id x.arrMap i == a)

/-- An array of a tile is replaced: its spare column, a spare array of the tile, or stand-in (R454). -/
def Dev.repairArray (d : Dev) (t a : Nat) : Dev :=
  let x := d.tile t
  match x.logicalOf a with
  | none => d
  | some i =>
    if !tabGet (fun _ => false) x.colUsed a then d.setTile t { x with colUsed := tabPut (fun _ => false) x.colUsed a true }
    else if x.spareArrays ≠ 0 then
      d.setTile t { x with arrMap := tabPut id x.arrMap i (34 - x.spareArrays), spareArrays := x.spareArrays - 1 }
    else if x.standin then d
    else
      let d := d.setTile t { x with standin := true }
      let d := d.orReg pgTile t 0x01A4 2
      let d := d.rasLog { cause := 0x88, cls := 3, unit := Client.tile.code, unum := t }
      d.withdrawAll wStandin (fun m => (d.slotsOf m.ctx).any (fun e => e.1 == t))

/-- The pass check of an array fails during an instruction of slot `k` (R453): class P fault 0x63, then the repair, whose cycles are replay. -/
def Dev.passCheckFail (d : Dev) (t k a cycles : Nat) : Dev :=
  let d := d.tileClassP t k 0x63 false a
  (d.repairArray t a).replay t (min cycles 2048)

/-- An instruction of the arrays at its issue: `chk` names the physical array whose pass check fails and the cycles of its repair; in
stand-in no array takes part. -/
def Dev.issueArray (d : Dev) (t k op : Nat) (ue : Bool) (chk : Option (Nat × Nat)) (body : Dev → Nat → Slot → Issued) : Dev :=
  match chk with
  | some c =>
    if d.canIssue t k op && (d.issueCheck t k).isNone && !(d.tile t).standin then
      (match body d (d.word t k) (d.slot t k) with
       | .ok _ _ => d.passCheckFail t k c.1 c.2
       | _ => d.issueLane t k op ue body)
    else d.issueLane t k op ue body
  | none => d.issueLane t k op ue body

/-! ### Meanings -/

/-- `MMA` issues (R127); `ue`: an uncorrectable pantry read; `chk`: a pass check that fails. -/
def execMma (tile slot : Nat) (ue : Bool) (chk : Option (Nat × Nat)) (s : State) : Host.Outcome State Fault Refusal :=
  onDev s (fun d => d.issueArray tile slot opMma ue chk (fun d w sl => d.matmul tile w sl 16 (fun a b e => d.mmaCount tile w a b e)))

/-- `KNOT` issues (R93, R127). -/
def execKnot (tile slot : Nat) (ue : Bool) (s : State) : Host.Outcome State Fault Refusal :=
  onDev s (fun d => d.issueLane tile slot opKnot ue (fun d w sl =>
    d.matmul tile w sl 4 (fun _ _ _ => 16 + knotCycles (mmMv w) (mmNv w) (mmKv w))))

/-- `STCH` issues (R95, R127). -/
def execStch (tile slot : Nat) (ue : Bool) (s : State) : Host.Outcome State Fault Refusal :=
  onDev s (fun d => d.issueLane tile slot opStch ue (fun d w sl => d.matmul tile w sl 16 (fun a b _ => stchCount w a b)))

/-- `MMG` issues (R128, R129). -/
def execMmg (tile slot : Nat) (ue : Bool) (chk : Option (Nat × Nat)) (s : State) : Host.Outcome State Fault Refusal :=
  onDev s (fun d => d.issueArray tile slot opMmg ue chk (fun d w sl => d.mmg tile w sl))

end Sys2Proof.Machine
end

