-- ==== Sys2Proof/Machine/Attn.lean ====
section
/-! DEFINITION. Fused attention (R153 to R165): `ATTF` with its online softmax, `ATTB` with recomputation, masks and cycle counts. -/
namespace Sys2Proof.Machine

/-! ### Fields (R155 Table 2) -/

/-- `MV`. -/
def atMv (w : Nat) : Nat := fld w 51 44
/-- `DH`. -/
def atDh (w : Nat) : Nat := fld w 60 52
/-- `KL`. -/
def atKl (w : Nat) : Nat := fld w 72 61
/-- `XQ`. -/
def atXq (w : Nat) : Nat := fld w 76 73
/-- `LACE`. -/
def atLace (w : Nat) : Shape := Shape.ofCode (fld w 78 77)
/-- `IFMT`. -/
def atIfmt (w : Nat) : Nat := fld w 80 79
/-- `INIT` of `ATTF`, `ACCQ` of `ATTB`. -/
def atInit (w : Nat) : Bool := bit w 81
/-- `FIN` of `ATTF`, `ACCKV` of `ATTB`. -/
def atFin (w : Nat) : Bool := bit w 82
/-- `CAUSAL`. -/
def atCausal (w : Nat) : Bool := bit w 83
/-- `WINDOW`. -/
def atWindow (w : Nat) : Bool := bit w 84
/-- `SEG`. -/
def atSeg (w : Nat) : Bool := bit w 85
/-- `BIAS`. -/
def atBias (w : Nat) : Bool := bit w 86
/-- `WIN`. -/
def atWin (w : Nat) : Nat := fld w 102 87
/-- `GMODE`. -/
def atGmode (w : Nat) : Nat := fld w 108 107
/-- C, an FP32 code (R155). -/
def Slot.atC (s : Slot) (w : Nat) : Nat := s.x (fld w 106 103) % 2 ^ 32
/-- G, an FP32 code. -/
def Slot.atG (s : Slot) (w : Nat) : Nat := s.x (fld w 106 103) / 2 ^ 32
/-- Shift of the query rows. -/
def Slot.atQ (s : Slot) (w : Nat) : Int := s.xlo (atXq w)
/-- Shift of the key index. -/
def Slot.atK (s : Slot) (w : Nat) : Int := s.xhi (atXq w)

/-- Record `i` of the group. -/
def Dev.atRec (d : Dev) (t : Nat) (s : Slot) (w i : Nat) : ORec := d.orec t s (iF0 w + i)
/-- A slice of a record by queries. -/
def Dev.atQs (d : Dev) (t : Nat) (s : Slot) (w i cols : Nat) : Slice :=
  { op := d.atRec t s w i, r0 := s.atQ w, c0 := 0, rows := atMv w, cols := cols }
/-- A slice of a record by keys along rows. -/
def Dev.atKs (d : Dev) (t : Nat) (s : Slot) (w i : Nat) : Slice :=
  { op := d.atRec t s w i, r0 := s.atK w, c0 := 0, rows := atKl w, cols := atDh w }
/-- A slice of a record by keys along columns. -/
def Dev.atKc (d : Dev) (t : Nat) (s : Slot) (w i : Nat) : Slice :=
  { op := d.atRec t s w i, r0 := 0, c0 := s.atK w, rows := atDh w, cols := atKl w }
/-- The `SEG` record. -/
def Dev.atSegRec (d : Dev) (t : Nat) (s : Slot) (w : Nat) : ORec := d.orec t s (iF1 w)
/-- The bias slice. -/
def Dev.atBiasS (d : Dev) (t : Nat) (s : Slot) (w : Nat) : Slice :=
  { op := d.orec t s (if atSeg w then iF1 w + 1 else iF1 w), r0 := s.atQ w, c0 := s.atK w, rows := atMv w, cols := atKl w }

/-! ### Positions and masks (R157) -/

/-- qpos. -/
def Dev.qpos (d : Dev) (t : Nat) (s : Slot) (w i : Nat) : Int := ((d.atRec t s w 0).grow : Int) + s.atQ w + i
/-- The `KT` record: offset 1 in `ATTF`, 2 in `ATTB` (R154 Table 1). -/
def atKtRec (w : Nat) : Nat := if iOpc w = opAttb then 2 else 1
/-- kpos. -/
def Dev.kpos (d : Dev) (t : Nat) (s : Slot) (w j : Nat) : Int := ((d.atRec t s w (atKtRec w)).gcol : Int) + s.atK w + j
/-- seg(p): the element of the `SEG` record at column p − `GCOL_ORIGIN`. -/
def Dev.segOf (d : Dev) (t : Nat) (s : Slot) (w : Nat) (p : Int) : Nat :=
  d.elem t s (d.atSegRec t s w) 0 (p - (d.atSegRec t s w).gcol)

/-- Pair (i, j) is masked (R157 Table 5). -/
def Dev.atMasked (d : Dev) (t : Nat) (s : Slot) (w i j : Nat) : Bool :=
  let q := d.qpos t s w i
  let k := d.kpos t s w j
  (atCausal w && decide (q < k)) || (atWindow w && decide ((atWin w : Int) ≤ q - k)) || (atSeg w && d.segOf t s w q != d.segOf t s w k)

/-- A position is below 2^32, not negative, and inside the `SEG` record when there is one. -/
def Dev.posOk (d : Dev) (t : Nat) (s : Slot) (w : Nat) (p : Int) : Bool :=
  decide (0 ≤ p) && decide (p < 2 ^ 32) &&
  (!atSeg w || (decide (((d.atSegRec t s w).gcol : Int) ≤ p) && decide (p < ((d.atSegRec t s w).gcol + (d.atSegRec t s w).cols : Nat))))

/-- Every position that the instruction reaches is legal. -/
def Dev.positionsOk (d : Dev) (t : Nat) (s : Slot) (w : Nat) : Bool :=
  (atKl w == 0 || (d.posOk t s w (d.kpos t s w 0) && d.posOk t s w (d.kpos t s w (atKl w - 1)))) &&
  d.posOk t s w (d.qpos t s w 0) && d.posOk t s w (d.qpos t s w (atMv w - 1))

/-! ### Quantizing internal operands (R155 Table 3, R158, R162) -/

/-- Format of an `IFMT` code. -/
def ifmt (c : Nat) : BMode × Fmt :=
  match c with
  | 0 => (.mx32, .e4m3)
  | 1 => (.mx32, .e2m1)
  | _ => (.none, .bf16)

/-- Values cut in groups of 32. -/
def chunks32 : Nat → List Nat → List (List Nat)
  | 0, _ => []
  | fuel + 1, xs => if xs.isEmpty then [] else xs.take 32 :: chunks32 fuel (xs.drop 32)

/-- A line of FP32 values quantized to an internal format with RNE: the decoded values and the saturation events. -/
def ifmtLine (c : Nat) (xs : List Nat) : List Nat × Nat :=
  let f := ifmt c
  if f.1 = .none then
    let rs := xs.map (fun x => f.2.convert .rne (f32 x))
    (rs.map (fun r => f32Round .rne (f.2.decode r.1)), (rs.filter (·.2)).length)
  else
    (chunks32 (xs.length + 1) xs).foldl (fun acc b =>
      let q := quantBlock f.1 f.2 0 (b.map (fun x => (f32 x, .rne)))
      (acc.1 ++ q.codes.map (fun k => decodeElem f.1 f.2 k q.scale 0), acc.2 + q.events)) ([], 0)

/-- −Infinity. -/
def fNegInf : Nat := 0xFF800000

/-- Number of key blocks of 128. -/
def atBlocks (w : Nat) : Nat := cdiv (atKl w) 128
/-- Keys of block `b`. -/
def atKb (w b : Nat) : Nat := min 128 (atKl w - 128 * b)

/-- The score t(j) of row `i`, key `j` (R158). -/
def Dev.atScore (d : Dev) (t : Nat) (s : Slot) (w i j : Nat) : Nat :=
  if d.atMasked t s w i j then fNegInf
  else
    let q := d.atQs t s w 0 (atDh w)
    let kt := d.atKc t s w (atKtRec w)
    let raw := acc70 16 0 ((List.range (atDh w)).map (fun (c : Nat) => (d.elemV t s q.op (q.r0 + i) c).mul (d.elemV t s kt.op c (kt.c0 + j))))
    if atBias w then
      let b := d.atBiasS t s w
      fFma raw (s.atC w) (d.elemF t s b.op (b.r0 + i) (b.c0 + j))
    else fMul raw (s.atC w)

/-! ### Forward (R158, R159) -/

/-- The online state of one query row: m, l, O, and the saturation events of its P. -/
structure AttRow where
  m : Nat := fNegInf
  l : Nat := 0
  o : List Nat := []
  sat : Nat := 0
deriving DecidableEq, Repr

/-- One key block applied to a row (R158). -/
def Dev.attfBlock (d : Dev) (t : Nat) (s : Slot) (w i : Nat) (r : AttRow) (b : Nat) : AttRow :=
  let js := (List.range (atKb w b)).map (fun j => 128 * b + j)
  let ts := js.map (fun j => d.atScore t s w i j)
  let mb := ts.foldl fMax fNegInf
  let mn := fMax r.m mb
  if mn = fNegInf then r
  else
    let alpha := tExp2 (fSub r.m mn)
    let ps := (js.zip ts).map (fun e => if d.atMasked t s w i e.1 then 0 else tExp2 (fSub e.2 mn))
    let q := ifmtLine (atIfmt w) ps
    let v := d.atKs t s w 2
    { m := mn, l := fFma alpha r.l (f32Round .rne (groupSum (ps.map f32))), sat := r.sat + q.2,
      o := (List.range (atDh w)).map (fun (c : Nat) =>
        acc70 16 (fMul alpha (r.o.getD c 0)) ((js.zip q.1).map (fun e => (f32 e.2).mul (d.elemV t s v.op (v.r0 + e.1) c)))) }

/-- A row's state at the start (R158). -/
def Dev.attfStart (d : Dev) (t : Nat) (s : Slot) (w i : Nat) : AttRow :=
  if atInit w then { o := List.replicate (atDh w) 0 }
  else
    let a := d.atQs t s w 4 (atDh w)
    let st := d.atQs t s w 5 2
    { m := d.elemF t s st.op (st.r0 + i) 0, l := d.elemF t s st.op (st.r0 + i) 1,
      o := (List.range (atDh w)).map (fun (c : Nat) => d.elemF t s a.op (a.r0 + i) c) }

/-- A row after every key block. -/
def Dev.attfRow (d : Dev) (t : Nat) (s : Slot) (w i : Nat) : AttRow :=
  (List.range (atBlocks w)).foldl (fun r b => d.attfBlock t s w i r b) (d.attfStart t s w i)

/-- The finalized outputs and L of a row (R159). -/
def AttRow.final (r : AttRow) : List Nat × Nat :=
  if r.l = 0 then (r.o.map (fun _ => 0), fNegInf)
  else (r.o.map (fun x => fMul x (tRcp r.l)), fAdd r.m (tLog2 r.l))

/-- Checks of an `ATTF` or `ATTB` at issue (R157, R165). -/
def Dev.atCheck (d : Dev) (t : Nat) (s : Slot) (w : Nat) (xs : List Slice) : Option Status :=
  let bias := if atBias w then [d.atBiasS t s w] else []
  if !(xs ++ bias).all (fun x => x.inShelf s) then some .accessDenied
  else if !xs.all (fun x => x.aligned) || !d.positionsOk t s w then some .badDescriptor
  else none

/-- The operands of an `ATTF`. -/
def Dev.attfOps (d : Dev) (t : Nat) (s : Slot) (w : Nat) : List Slice :=
  [d.atQs t s w 0 (atDh w), d.atKc t s w 1, d.atKs t s w 2, d.atQs t s w 5 2] ++
  (if atFin w then [d.atQs t s w 3 (atDh w)] else []) ++ (if atInit w && atFin w then [] else [d.atQs t s w 4 (atDh w)])

/-- Row rate of a pair of records or formats. -/
def rateOf (wm : BMode) (wf : Fmt) (am : BMode) (af : Fmt) : Nat := (pairRate wm wf am af).getD 4

/-- Array cycles on the tile as it is: on the knot cubes in stand-in (R94). -/
def Dev.tileArray (d : Dev) (t : Nat) (sh : Shape) (mv nv kv q : Nat) : Nat :=
  if (d.tile t).standin then standinCount mv nv kv - 16 else arrayCycles sh mv nv kv q

/-- Count of an `ATTF` (R164). -/
def Dev.attfCount (d : Dev) (t : Nat) (s : Slot) (w : Nat) : Nat :=
  let q := d.atRec t s w 0
  let kt := d.atRec t s w 1
  let v := d.atRec t s w 2
  let p := ifmt (atIfmt w)
  let head := if atInit w then 0 else cdiv (atMv w * atDh w) 256
  let per := (List.range (atBlocks w)).foldl (fun a b =>
    let kb := atKb w b
    a + d.tileArray t (atLace w) (atMv w) kb (atDh w) (rateOf kt.bmode kt.fmt q.bmode q.fmt)
      + cdiv (atMv w * kb) 64 + cdiv (atMv w * kb) 256 + cdiv (atMv w * atDh w) 256 + 24 + (if atBias w then cdiv (atMv w * kb) 256 else 0)
      + d.tileArray t (atLace w) (atMv w) (atDh w) kb (rateOf v.bmode v.fmt p.1 p.2)) 0
  16 + head + per + cdiv (atMv w * atDh w) 256 + 8 + (if atFin w then 2 * cdiv (atMv w) 64 else 0)

/-- Rows of FP32 codes stored into a slice's record. -/
def Dev.putRows (d : Dev) (t : Nat) (s : Slot) (x : Slice) (g : List (List Nat)) : Dev := d.putSlice t s x (gridAt g)

/-- Saturation events of the internal quantizations, delivered to the entry of `STAT` (R158, R162). -/
def statPart (o : ORec) (n : Nat) : List SatPart := if o.satEn then [{ entry := o.satEntry, count := n }] else []

/-- Invalid trits of the operands of a list. -/
def Dev.tritsOf (d : Dev) (t : Nat) (s : Slot) (xs : List Slice) : List SatPart := xs.flatMap (fun x => d.tritParts t s x)

/-- `ATTF` (R158, R159). -/
def Dev.attf (d : Dev) (t : Nat) (w : Nat) (s : Slot) : Issued :=
  if atMv w = 0 ∨ atDh w = 0 then .ok d { count := 16 }
  else match d.atCheck t s w (d.attfOps t s w) with
  | some st => .fault st 0
  | none =>
    let rows := (List.range (atMv w)).map (fun i => d.attfRow t s w i)
    let st := d.atQs t s w 5 2
    let sats := statPart st.op (rows.foldl (fun a r => a + r.sat) 0) ++ d.tritsOf t s (d.attfOps t s w)
    let f : Flight := { count := d.attfCount t s w, sats := sats }
    if atFin w then
      let fs := rows.map AttRow.final
      match d.outPath t s (d.atQs t s w 3 (atDh w)) (fs.map (·.1)) 0 0 with
      | .fault x => .fault x 0
      | .ok e os ls => .ok (e.putRows t s st ((fs.zip rows).map (fun p => [p.1.2, p.2.l]))) { f with sats := os ++ sats, lsts := ls }
    else
      let e := d.putRows t s (d.atQs t s w 4 (atDh w)) (rows.map (fun r => r.o))
      .ok (e.putRows t s st (rows.map (fun r => [r.m, r.l]))) f

/-! ### Backward (R162) -/

/-- p and ds of one pair (R162). -/
def Dev.attbPair (d : Dev) (t : Nat) (s : Slot) (w i j : Nat) : Nat × Nat :=
  let st := d.atQs t s w 7 1
  let de := d.atQs t s w 8 1
  let l := d.elemF t s st.op (st.r0 + i) 0
  let p := if d.atMasked t s w i j then 0 else tExp2 (fSub (d.atScore t s w i j) l)
  let dO := d.atQs t s w 5 (atDh w)
  let vt := d.atKc t s w 4
  let dp := acc70 16 0 ((List.range (atDh w)).map (fun (c : Nat) => (d.elemV t s dO.op (dO.r0 + i) c).mul (d.elemV t s vt.op c (vt.c0 + j))))
  (p, fMul (fMul p (fSub dp (d.elemF t s de.op (de.r0 + i) 0))) (s.atG w))

/-- What the blocks leave: DQ rows, DK rows and DV rows of the keys done, saturation events. -/
structure AttB where
  dq : List (List Nat) := []
  dk : List (List Nat) := []
  dv : List (List Nat) := []
  sat : Nat := 0
deriving DecidableEq, Repr

/-- A row of an accumulated product: over `n` terms, from `c0 c`. -/
def accRow (cols : Nat) (c0 : Nat → Nat) (xs : List Nat) (other : Nat → Nat → Val) : List Nat :=
  (List.range cols).map (fun c => acc70 16 (c0 c) (((List.range xs.length).zip xs).map (fun e => (f32 e.2).mul (other e.1 c))))

/-- One key block of `ATTB`. -/
def Dev.attbBlock (d : Dev) (t : Nat) (s : Slot) (w : Nat) (a : AttB) (b : Nat) : AttB :=
  let js := (List.range (atKb w b)).map (fun j => 128 * b + j)
  let is := List.range (atMv w)
  let ps := is.map (fun i => js.map (fun j => d.attbPair t s w i j))
  let kv := atGmode w != 1
  let dq := atGmode w != 2
  let dow := d.atQs t s w 6 (atDh w)
  let qw := d.atQs t s w 1 (atDh w)
  let k := d.atKs t s w 3
  let cols := (List.range js.length).map (fun n => (ifmtLine (atIfmt w) (ps.map (fun r => (r.getD n (0, 0)).1)), ifmtLine (atIfmt w) (ps.map (fun r => (r.getD n (0, 0)).2))))
  let lines := ps.map (fun r => ifmtLine (atIfmt w) (r.map (·.2)))
  let dvS := d.atKs t s w 11
  let dkS := d.atKs t s w 10
  let prior := fun (x : Slice) (j c : Nat) => if atFin w then d.elemF t s x.op (x.r0 + j) (c : Int) else 0
  let newDv := (js.zip cols).map (fun e => accRow (atDh w) (prior dvS e.1) e.2.1.1 (fun i c => d.elemV t s dow.op (dow.r0 + i) (c : Int)))
  let newDk := (js.zip cols).map (fun e => accRow (atDh w) (prior dkS e.1) e.2.2.1 (fun i c => d.elemV t s qw.op (qw.r0 + i) (c : Int)))
  let newDq := (a.dq.zip lines).map (fun e => accRow (atDh w) (fun c => e.1.getD c 0) e.2.1 (fun n c => d.elemV t s k.op (k.r0 + js.getD n 0) (c : Int)))
  let satKv := cols.foldl (fun x e => x + e.1.2 + e.2.2) 0
  let satQ := lines.foldl (fun x e => x + e.2) 0
  { dq := if dq then newDq else a.dq, dk := if kv then a.dk ++ newDk else a.dk, dv := if kv then a.dv ++ newDv else a.dv,
    sat := a.sat + satKv + satQ }

/-- DQ before the first block (R162). -/
def Dev.attbStart (d : Dev) (t : Nat) (s : Slot) (w : Nat) : AttB :=
  let x := d.atQs t s w 9 (atDh w)
  { dq := gridOf (atMv w) (atDh w) (fun i c => if atInit w then d.elemF t s x.op (x.r0 + i) (c : Int) else 0) }

/-- The operands of an `ATTB` that it reads as products, and those it reads or writes as FP32. -/
def Dev.attbOps (d : Dev) (t : Nat) (s : Slot) (w : Nat) : List Slice :=
  [d.atQs t s w 0 (atDh w), d.atQs t s w 1 (atDh w), d.atKc t s w 2, d.atKs t s w 3, d.atKc t s w 4, d.atQs t s w 5 (atDh w),
   d.atQs t s w 6 (atDh w), d.atQs t s w 7 2, d.atQs t s w 8 1] ++
  (if atGmode w = 2 then [] else [d.atQs t s w 9 (atDh w)]) ++ (if atGmode w = 1 then [] else [d.atKs t s w 10, d.atKs t s w 11])

/-- Count of an `ATTB` (R164). -/
def Dev.attbCount (d : Dev) (t : Nat) (s : Slot) (w : Nat) : Nat :=
  let r := fun i => d.atRec t s w i
  let p := ifmt (atIfmt w)
  let arr := d.tileArray t (atLace w)
  let per := (List.range (atBlocks w)).foldl (fun a b =>
    let kb := atKb w b
    a + arr (atMv w) kb (atDh w) (rateOf (r 2).bmode (r 2).fmt (r 0).bmode (r 0).fmt)
      + arr (atMv w) kb (atDh w) (rateOf (r 4).bmode (r 4).fmt (r 5).bmode (r 5).fmt)
      + cdiv (atMv w * kb) 64 + 3 * cdiv (atMv w * kb) 256 + 24 + (if atBias w then cdiv (atMv w * kb) 256 else 0)
      + (if atGmode w ≠ 1 then arr kb (atDh w) (atMv w) (rateOf (r 6).bmode (r 6).fmt p.1 p.2) + arr kb (atDh w) (atMv w) (rateOf (r 1).bmode (r 1).fmt p.1 p.2) else 0)
      + (if atGmode w ≠ 2 then arr (atMv w) (atDh w) kb (rateOf (r 3).bmode (r 3).fmt p.1 p.2) else 0)) 0
  16 + per + (if atGmode w ≠ 2 then cdiv (atMv w * atDh w) 256 + 8 else 8)

/-- `ATTB` (R162). -/
def Dev.attb (d : Dev) (t : Nat) (w : Nat) (s : Slot) : Issued :=
  if atMv w = 0 ∨ atDh w = 0 then .ok d { count := 16 }
  else match d.atCheck t s w (d.attbOps t s w) with
  | some st => .fault st 0
  | none =>
    let a := (List.range (atBlocks w)).foldl (fun a b => d.attbBlock t s w a b) (d.attbStart t s w)
    let e := if atGmode w = 2 then d else d.putRows t s (d.atQs t s w 9 (atDh w)) a.dq
    let e := if atGmode w = 1 then e else (e.putRows t s (d.atKs t s w 10) a.dk).putRows t s (d.atKs t s w 11) a.dv
    .ok e { count := d.attbCount t s w, sats := statPart (d.atRec t s w 7) a.sat ++ d.tritsOf t s (d.attbOps t s w) }

/-! ### Meanings -/

/-- `ATTF` issues on the matrix and vector lanes (R153, R158). -/
def execAttf (tile slot : Nat) (ue : Bool) (chk : Option (Nat × Nat)) (s : State) : Host.Outcome State Fault Refusal :=
  onDev s (fun d => d.issueArray tile slot opAttf ue chk (fun d w sl => d.attf tile w sl))

/-- `ATTB` issues on the matrix and vector lanes (R153, R162). -/
def execAttb (tile slot : Nat) (ue : Bool) (chk : Option (Nat × Nat)) (s : State) : Host.Outcome State Fault Refusal :=
  onDev s (fun d => d.issueArray tile slot opAttb ue chk (fun d w sl => d.attb tile w sl))

end Sys2Proof.Machine
end

