-- ==== Sys2Proof/Machine/Access.lean ====
section
/-! DEFINITION. Which port sees which object (R65, R232, R261, R474): the rule shared by the operation registers, the selected windows and
every row that names a port. -/
namespace Sys2Proof.Machine

/-- The function or RTP behind a port sees the context (R65). -/
def Dev.seesCtx (d : Dev) (port c : Nat) : Bool :=
  port == portRtp || (portIsFunc port && (d.ctx c).state != .free && (d.ctx c).func == port)

/-- Hoop of a VF: the one it serves; none for the PF, which serves several. -/
def Dev.vfHoop (d : Dev) (f : Nat) : Option Nat := lowest 16 (fun h => (d.hoop h).state != .free && bit (d.hoop h).inForce.funcs f)

/-- A VF port sees what belongs to its own hoop; other ports see every hoop's. -/
def Dev.seesHoop (d : Dev) (port h : Nat) : Bool := !(portIsFunc port && port != portPf) || d.vfHoop port == some h

/-- The instance a port's `BLK_SEL` names on a page. -/
def Dev.sel (d : Dev) (page port : Nat) : Nat := d.bankN page port 0x0030

/-- Key of a word that a port has staged (R485): its own bank, and the register with its instance (log entry 63). -/
def stagedKey (port page i off : Nat) : Nat := port * 2 ^ 52 + rk page i off

/-- No word is staged. -/
def stagedDflt (_ : Nat) : Option Word := none

/-- The word of a wide value that a commit takes: the one the port staged, else the present one (R485). -/
def Dev.stagedOr (d : Dev) (port page i off : Nat) : Nat :=
  match tabGet stagedDflt d.stagedWords (stagedKey port page i off) with
  | some w => w.toNat
  | none => d.regN page i off

/-- A word staged by a port. -/
def Dev.stage (d : Dev) (port page i off v : Nat) : Dev :=
  { d with stagedWords := tabPut stagedDflt d.stagedWords (stagedKey port page i off) (some (BitVec.ofNat 32 v)) }

/-- A staged word is spent by its commit. -/
def Dev.unstage (d : Dev) (port page i off : Nat) : Dev :=
  { d with stagedWords := tabPut stagedDflt d.stagedWords (stagedKey port page i off) none }

/-- Ports that operate the host-facing operation registers: the PF and VF ports (R261). -/
def opPort (port : Nat) : Bool := portIsFunc port

end Sys2Proof.Machine
end

