-- ==== Sys2Proof/Machine/Vector.lean ====
section
/-! DEFINITION. The vector lane (R130 to R133): elementwise functions, reductions and layer-statistics contributions. -/
namespace Sys2Proof.Machine

/-! ### VEW (R130 Tables 13, 14) -/

/-- `ROWS`. -/
def vwRows (w : Nat) : Nat := fld w 83 68
/-- `COLS`. -/
def vwCols (w : Nat) : Nat := fld w 99 84
/-- `FN`. -/
def vwFn (w : Nat) : Nat := fld w 113 108
/-- A slice of a source of `VEW`. -/
def Dev.vwSrc (d : Dev) (t : Nat) (s : Slot) (w r : Nat) (oneRow : Bool) : Slice :=
  { op := d.orec t s r, r0 := s.xlo (fld w 103 100), c0 := s.xlo (fld w 107 104), rows := if oneRow then min 1 (vwRows w) else vwRows w, cols := vwCols w }
/-- The destination slice. -/
def Dev.vwDst (d : Dev) (t : Nat) (s : Slot) (w : Nat) : Slice :=
  { op := d.orec t s (iF0 w), r0 := s.xhi (fld w 103 100), c0 := s.xhi (fld w 107 104), rows := vwRows w, cols := vwCols w }
/-- The immediate, an FP32 code. -/
def Slot.vwImm (s : Slot) (w : Nat) : Nat := s.x (fld w 119 116) % 2 ^ 32

/-- A function of Table 14 on FP32 codes. -/
def vewF (fn a b c imm : Nat) : Nat :=
  match fn with
  | 0x00 => fCanon a
  | 0x01 => fAdd a b
  | 0x02 => fSub a b
  | 0x03 => fMul a b
  | 0x04 => fFma a b c
  | 0x05 => fMax a b
  | 0x06 => fMin a b
  | 0x07 => fAbs a
  | 0x08 => fNeg a
  | 0x09 => fMul a imm
  | 0x0A => fAdd a imm
  | 0x20 => tRcp a
  | 0x21 => tSqrt a
  | 0x22 => tRsqrt a
  | 0x23 => tExp2 a
  | 0x24 => tLog2 a
  | 0x28 => vExp a
  | 0x29 => vSigmoid a
  | 0x2A => vTanh a
  | 0x2B => vSilu a
  | 0x2C => vGelut a
  | _ => 0

/-- The function is one of the integer functions. -/
def vewInt (fn : Nat) : Bool := decide (0x10 ≤ fn) && decide (fn ≤ 0x13)

/-- An integer function of Table 14 on 32-bit words: wraps modulo 2^32. -/
def vewI (fn a b : Nat) : Nat :=
  match fn with
  | 0x10 => (a + b) % 2 ^ 32
  | 0x11 => a &&& b
  | 0x12 => a ||| b
  | _ => a ^^^ b

/-- An element as an INT32: integer sources sign-extended, others converted under R38 with RNE (log entry 19). -/
def Dev.elemI (d : Dev) (t : Nat) (s : Slot) (o : ORec) (r c : Int) : Nat :=
  let code := d.elem t s o r c
  match o.fmt.intBits with
  | some b => unsint 32 (sint b code)
  | none => (Fmt.int32.convert .rne (f32 (d.elemF t s o r c))).1

/-- Source place of a broadcast or full source. -/
def Slice.at' (x : Slice) (oneRow : Bool) (i j : Nat) : Int × Int := (x.r0 + (if oneRow then 0 else i), x.c0 + j)

/-- `VEW` (R130). -/
def Dev.vew (d : Dev) (t : Nat) (w : Nat) (s : Slot) : Issued :=
  let fn := vwFn w
  let a := d.vwSrc t s w (iF1 w) false
  let b := d.vwSrc t s w (iF2 w) (bit w 114)
  let c := d.vwSrc t s w (iF3 w) (bit w 115)
  let o := d.vwDst t s w
  let srcs := [a] ++ (if vewUsesB fn then [b] else []) ++ (if vewUsesC fn then [c] else [])
  let n := vwRows w * vwCols w
  let tt := (vewT fn).getD 0
  let count := 6 + (if tt = 0 then cdiv n 256 else tt * cdiv n 64)
  if n = 0 then .ok d { count := count }
  else if !(o :: srcs).all (fun x => x.inShelf s) then .fault .accessDenied 0
  else if !(o :: srcs).all (fun x => x.aligned) then .fault .badDescriptor 0
  else
    let sats := d.tritsOf t s srcs
    if vewInt fn then
      let g := gridOf (vwRows w) (vwCols w) (fun i j =>
        let pa := a.at' false i j
        let pb := b.at' (bit w 114) i j
        vewI fn (d.elemI t s a.op pa.1 pa.2) (d.elemI t s b.op pb.1 pb.2))
      let conv := fun (x : Nat) => match o.op.fmt with
        | .int32 => x
        | f => (f.convert .rne (.fin (exInt (sint 32 x)))).1
      .ok (d.putSlice t s o (fun i j => conv (gridAt g i j))) { count := count, sats := sats }
    else
      let g := gridOf (vwRows w) (vwCols w) (fun i j =>
        let pa := a.at' false i j
        let pb := b.at' (bit w 114) i j
        let pc := c.at' (bit w 115) i j
        vewF fn (d.elemF t s a.op pa.1 pa.2) (if vewUsesB fn then d.elemF t s b.op pb.1 pb.2 else 0)
          (if vewUsesC fn then d.elemF t s c.op pc.1 pc.2 else 0) (s.vwImm w))
      let q := o.quant 0 (gridAt g) (o.mode s.step)
      let part : SatPart := { entry := o.op.satEntry, count := q.count, elems := n, amax := gridAmax g }
      .ok (d.putQuant t s o q) { count := count, sats := (if o.op.satEn then [part] else []) ++ sats }

/-! ### VRED (R132) -/

/-- `ROWS`. -/
def vrRows (w : Nat) : Nat := fld w 59 44
/-- `COLS`. -/
def vrCols (w : Nat) : Nat := fld w 75 60
/-- `OP`. -/
def vrOp (w : Nat) : Nat := fld w 86 84
/-- `AXIS` = 1: per column. -/
def vrAxis (w : Nat) : Bool := bit w 87

/-- One step of a reduction on an element: op(p, x). -/
def vredStep (op p x : Nat) : Nat :=
  match op with
  | 0 => fAdd p x
  | 1 => fFma x x p
  | 2 => fMax p x
  | 3 => fMax p (fAbs x)
  | _ => fMin p x

/-- op of two partial results: the squares are already taken, so `SUMSQ` adds (log entry 20). -/
def vredJoin (op a b : Nat) : Nat :=
  match op with
  | 0 => fAdd a b
  | 1 => fAdd a b
  | 2 => fMax a b
  | 3 => fMax a b
  | _ => fMin a b

/-- The identity (R132). -/
def vredId (op : Nat) : Nat :=
  match op with
  | 2 => fNegInf
  | 4 => 0x7F800000
  | _ => 0

/-- The halving tree of R132: pairs at distance `h` joined, `h` = 2^fuel going down to 1. -/
def vredTree (op : Nat) : Nat → List Nat → List Nat
  | 0, p => (List.range 1).map (fun i => vredJoin op (p.getD i 0) (p.getD (i + 1) 0))
  | k + 1, p => vredTree op k ((List.range (2 ^ (k + 1))).map (fun i => vredJoin op (p.getD i 0) (p.getD (i + 2 ^ (k + 1)) 0)))

/-- A row reduced over 256 lanes (R132, `AXIS` = 0). -/
def vredRow (op : Nat) (xs : List Nat) : Nat :=
  let lanes := (List.range 256).map (fun l =>
    (List.range (cdiv (xs.length - l) 256)).foldl (fun p k => vredStep op p (xs.getD (l + 256 * k) 0)) (vredId op))
  (vredTree op 7 lanes).headD 0

/-- A column reduced in increasing row order. -/
def vredCol (op : Nat) (xs : List Nat) : Nat := xs.foldl (vredStep op) (vredId op)

/-- The source slice. -/
def Dev.vrSrc (d : Dev) (t : Nat) (s : Slot) (w : Nat) : Slice :=
  { op := d.orec t s (iF1 w), r0 := s.xlo (fld w 79 76), c0 := s.xlo (fld w 83 80), rows := vrRows w, cols := vrCols w }

/-- The destination slice: one column of results, or one row (log entry 20). -/
def Dev.vrDst (d : Dev) (t : Nat) (s : Slot) (w : Nat) : Slice :=
  { op := d.orec t s (iF0 w), r0 := s.xhi (fld w 79 76), c0 := s.xhi (fld w 83 80),
    rows := if vrAxis w then min 1 (vrCols w) else vrRows w, cols := if vrAxis w then vrCols w else min 1 (vrRows w) }

/-- `VRED` (R132). -/
def Dev.vred (d : Dev) (t : Nat) (w : Nat) (s : Slot) : Issued :=
  let a := d.vrSrc t s w
  let o := d.vrDst t s w
  let count := 6 + vrRows w * (cdiv (vrCols w) 256 + (if vrAxis w then 0 else 8))
  if !a.inShelf s || !o.inShelf s then .fault .accessDenied 0
  else if !a.aligned || !o.aligned then .fault .badDescriptor 0
  else
    let x := gridOf (vrRows w) (vrCols w) (fun i j => d.elemF t s a.op (a.r0 + i) (a.c0 + j))
    let res := if vrAxis w then [(transpose (vrCols w) x).map (vredCol (vrOp w))] else x.map (fun r => [vredRow (vrOp w) r])
    let q := o.quant 0 (gridAt res) (o.mode s.step)
    let part : SatPart := { entry := o.op.satEntry, count := q.count, elems := o.rows * o.cols, amax := gridAmax res }
    .ok (d.putQuant t s o q) { count := count, sats := (if o.op.satEn then [part] else []) ++ d.tritsOf t s [a] }

/-! ### VSTAT (R133) -/

/-- The source slice of `VSTAT`. -/
def Dev.vsSrc (d : Dev) (t : Nat) (s : Slot) (w : Nat) : Slice :=
  { op := d.orec t s (iF0 w), r0 := s.xlo (fld w 81 78), c0 := s.xlo (fld w 85 82), rows := fld w 61 46, cols := fld w 77 62 }

/-- `VSTAT` (R133). -/
def Dev.vstat (d : Dev) (t : Nat) (w : Nat) (s : Slot) : Issued :=
  let a := d.vsSrc t s w
  if !a.inShelf s then .fault .accessDenied 0
  else if !a.aligned then .fault .badDescriptor 0
  else
    let g := gridOf a.rows a.cols (fun i j => d.elemF t s a.op (a.r0 + i) (a.c0 + j))
    .ok d { count := 6 + cdiv (a.rows * a.cols) 256, sats := d.tritsOf t s [a], lsts := [d.lstPart (fld w 45 32) 0 (g.flatMap id)] }

/-! ### Meanings -/

/-- `VEW` issues (R130). -/
def execVew (tile slot : Nat) (ue : Bool) (s : State) : Host.Outcome State Fault Refusal :=
  onDev s (fun d => d.issueLane tile slot opVew ue (fun d w sl => d.vew tile w sl))

/-- `VRED` issues (R132). -/
def execVred (tile slot : Nat) (ue : Bool) (s : State) : Host.Outcome State Fault Refusal :=
  onDev s (fun d => d.issueLane tile slot opVred ue (fun d w sl => d.vred tile w sl))

/-- `VSTAT` issues (R133). -/
def execVstat (tile slot : Nat) (ue : Bool) (s : State) : Host.Outcome State Fault Refusal :=
  onDev s (fun d => d.issueLane tile slot opVstat ue (fun d w sl => d.vstat tile w sl))

end Sys2Proof.Machine
end

