-- ==== Sys2Proof/Machine/LoadImage.lean ====
section
/-! DEFINITION. The pricking's image (R134 to R144): header, section table, sections, and the checks of the loader's first step. -/
namespace Sys2Proof.Machine

/-- Where a loader check failed (R148 Table 5). -/
structure Rej where
  code : Nat := 0
  sectNo : Nat := 0xFFFF
  tile : Nat := 0xFFFF
  instr : Nat := 0xFFFFFFFF
  record : Nat := 0xFFFFFFFF
  ordinal : Nat := 0
deriving DecidableEq, Repr

/-- A section-table entry (R135 Table 2). -/
structure Sect where
  typ : Nat := 0
  count : Nat := 0
  off : Nat := 0
  len : Nat := 0
deriving DecidableEq, Repr

/-- A `TILEMAP` entry (R136 Table 3). -/
structure TileMap where
  tile : Nat := 0
  seg : Nat := 0
  units : Nat := 0
  queues : Nat := 0
  stage : Nat := 0
deriving DecidableEq, Repr

/-- A `QUEUES` entry. -/
structure QueueMap where
  tile : Nat := 0
  loc : Nat := 0
  slots : Nat := 0
  size : Nat := 0
  off : Nat := 0
deriving DecidableEq, Repr

/-- A tensor declaration (R141). -/
structure Tens where
  id : Nat := 0
  fmt : Nat := 0
  bmode : Nat := 0
  kdim : Bool := false
  rot : Nat := 0
  stepMode : Bool := false
  stored : Bool := false
  rows : Nat := 0
  cols : Nat := 0
  seed : Nat := 0
deriving DecidableEq, Repr

/-- An entry point: id, tiles with their entry instruction, bounds of x8 to x15 (R142). -/
structure EntryPt where
  id : Nat := 0
  bounds : List Int := []
  tiles : List (Nat × Nat) := []
deriving DecidableEq, Repr

/-- A `KTREES` entry (R143). -/
structure KEnt where
  tree : Nat := 0
  index : Nat := 0
  node : Bool := false
  tile : Nat := 0
  instr : Nat := 0
  left : Nat := 0
  right : Nat := 0
deriving DecidableEq, Repr

/-- A segment: instruction words and operand records, each record with its 128 bytes (R107). -/
structure Segm where
  words : List Nat := []
  recs : List (List Byte) := []
deriving DecidableEq, Repr

/-- A parsed image. -/
structure Image where
  tiles : List TileMap := []
  segs : List Segm := []
  queues : List QueueMap := []
  entries : List EntryPt := []
  tensors : List Tens := []
  cellar : List (Nat × Nat × Nat) := []
  ktrees : List KEnt := []
  stages : List (Nat × Nat) := []
  nsat : Nat := 0
  nlst : Nat := 0
deriving DecidableEq, Repr

/-- A little-endian number of an image. -/
def img (bs : List Byte) (off n : Nat) : Nat := bytesNat bs off n

/-- Bytes [off, off + n) of the image are zero. -/
def imgZero (bs : List Byte) (off n : Nat) : Bool := img bs off n == 0

/-- The magic number "PRICKING", little-endian (R135). -/
def imgMagic : Nat := 0x474E494B43495250

/-- The section table. -/
def imgSects (bs : List Byte) : List Sect :=
  (List.range (min 64 (img bs 24 4))).map (fun i =>
    let a := 256 + 32 * i
    { typ := img bs a 4, count := img bs (a + 4) 4, off := img bs (a + 8) 8, len := img bs (a + 16) 8 })

/-- Records of `n` bytes of a section. -/
def sectItems (bs : List Byte) (s : Sect) (n : Nat) : List (List Byte) :=
  (List.range s.count).map (fun i => (bs.drop (s.off + n * i)).take n)

/-- Items of the sections of a type. -/
def itemsOf (bs : List Byte) (ss : List Sect) (typ n : Nat) : List (List Byte) :=
  (ss.filter (fun s => s.typ == typ)).flatMap (fun s => sectItems bs s n)

/-- A segment at an offset. -/
def segAt (bs : List Byte) (off : Nat) : Segm :=
  let n := img bs off 4
  let m := img bs (off + 4) 4
  { words := (List.range n).map (fun i => img bs (off + 16 + 16 * i) 16),
    recs := (List.range m).map (fun i => (bs.drop (off + 16 + 16 * n + 128 * i)).take 128) }

/-- The 32 bounds of an entry, signed. -/
def boundsAt (bs : List Byte) (off : Nat) : List Int := (List.range 32).map (fun i => sint 32 (img bs (off + 4 * i) 4))

/-- Entry points from an offset on, and the offset past them. -/
def entriesAt (bs : List Byte) : Nat → Nat → List EntryPt × Nat
  | 0, off => ([], off)
  | n + 1, off =>
    let k := img bs (off + 4) 2
    let ts := (List.range k).map (fun i => (img bs (off + 144 + 4 * i) 2, img bs (off + 146 + 4 * i) 2))
    let e : EntryPt := { id := img bs off 4, bounds := boundsAt bs (off + 16), tiles := ts }
    let r := entriesAt bs n (off + 144 + 4 * k)
    (e :: r.1, r.2)

/-- A tensor declaration of 32 bytes. -/
def tensOf (b : List Byte) : Tens :=
  { id := img b 0 4, fmt := fld (img b 4 1) 3 0, bmode := fld (img b 4 1) 6 4, kdim := bit (img b 5 1) 0, rot := fld (img b 5 1) 3 1,
    stepMode := bit (img b 5 1) 4, stored := bit (img b 5 1) 5, rows := img b 8 8, cols := img b 16 8, seed := img b 24 4 }

/-- A tree entry of 16 bytes. -/
def kentOf (b : List Byte) : KEnt :=
  { tree := img b 0 2, index := img b 2 2, node := img b 4 1 == 1, tile := img b 6 2, instr := img b 8 4, left := img b 12 2,
    right := img b 14 2 }

/-- The image parsed. -/
def imgParse (bs : List Byte) : Image :=
  let ss := imgSects bs
  { tiles := (itemsOf bs ss 1 16).map (fun b => { tile := img b 0 2, seg := img b 2 2, units := img b 4 1, queues := img b 5 1, stage := img b 6 2 }),
    segs := (ss.filter (fun s => s.typ == 2)).map (fun s => segAt bs s.off),
    queues := (itemsOf bs ss 3 16).map (fun b => { tile := img b 0 1, loc := img b 1 1, slots := img b 2 1, size := img b 4 4, off := img b 8 4 }),
    entries := (ss.filter (fun s => s.typ == 4)).flatMap (fun s => (entriesAt bs (min s.count 256) s.off).1),
    tensors := (itemsOf bs ss 5 32).map tensOf,
    cellar := (itemsOf bs ss 6 24).map (fun b => (img b 0 8, img b 8 8, img b 16 1)),
    ktrees := (itemsOf bs ss 7 16).map kentOf,
    stages := (itemsOf bs ss 8 16).map (fun b => (img b 0 2, img b 2 12)),
    nsat := (itemsOf bs ss 9 16).foldl (fun a b => a + img b 0 4) 0,
    nlst := (itemsOf bs ss 9 16).foldl (fun a b => a + img b 4 4) 0 }

/-- Bytes that the entries of a section take, by its type; none for a type not in Table 3. -/
def sectBytes (bs : List Byte) (s : Sect) : Option Nat :=
  match s.typ with
  | 1 => some (16 * s.count)
  | 2 => some (16 + 16 * img bs s.off 4 + 128 * img bs (s.off + 4) 4)
  | 3 => some (16 * s.count)
  | 4 => some ((entriesAt bs (min s.count 256) s.off).2 - s.off)
  | 5 => some (32 * s.count)
  | 6 => some (24 * s.count)
  | 7 => some (16 * s.count)
  | 8 => some (16 * s.count)
  | 9 => some (16 * s.count)
  | _ => none

/-- Two sections overlap. -/
def sectsMeet (a b : Sect) : Bool := a.len != 0 && b.len != 0 && decide (a.off < b.off + b.len) && decide (b.off < a.off + a.len)

/-- Some two sections of the list overlap. -/
def anyMeet : List Sect → Bool
  | [] => false
  | a :: r => r.any (sectsMeet a) || anyMeet r

/-- A section leaves the image, lies over the section table, is not aligned to 16 or has a length other than its entries take (R136;
the table and the length, log entry 21). -/
def sectSize (bs : List Byte) (bytes : Nat) (s : Sect) : Bool :=
  decide (bytes < s.off + s.len) || decide (s.off < 256 + 32 * img bs 24 4) || s.off % 16 != 0 || sectBytes bs s != some s.len

/-- Reserved bytes of the entries of a section are not zero. -/
def sectReserved (bs : List Byte) (s : Sect) : Bool :=
  match s.typ with
  | 1 => (sectItems bs s 16).any (fun b => !imgZero b 8 8)
  | 2 => !imgZero bs (s.off + 8) 8
  | 3 => (sectItems bs s 16).any (fun b => !imgZero b 3 1 || !imgZero b 12 4)
  | 4 => (entriesAt bs (min s.count 256) s.off).1.isEmpty ||
      ((List.range s.count).foldl (fun (a : Bool × Nat) _ => (a.1 || !imgZero bs (a.2 + 6) 10, a.2 + 144 + 4 * img bs (a.2 + 4) 2)) (false, s.off)).1
  | 5 => (sectItems bs s 32).any (fun b => !imgZero b 6 2 || !imgZero b 28 4 || bit (img b 4 1) 7 || fld (img b 5 1) 7 6 != 0)
  | 6 => (sectItems bs s 24).any (fun b => !imgZero b 17 7 || fld (img b 16 1) 7 2 != 0)
  | 7 => (sectItems bs s 16).any (fun b => !imgZero b 5 1 || decide (1 < img b 4 1) || (img b 4 1 == 0 && !imgZero b 12 4))
  | 8 => (sectItems bs s 16).any (fun b => !imgZero b 14 2)
  | 9 => (sectItems bs s 16).any (fun b => !imgZero b 8 8)
  | _ => false

/-- Section types broken: count, unknown type, one missing, one repeated (R136); entry ids or tensor ids repeated and a `TILEMAP` segment
that is not there are reported with it (log entry 21). -/
def imgSectsBad (bs : List Byte) : Bool :=
  let n := img bs 24 4
  let ss := imgSects bs
  let im := imgParse bs
  let num := fun (t : Nat) => (ss.filter (fun s => s.typ == t)).length
  n == 0 || decide (64 < n) || ss.any (fun s => s.typ == 0 || decide (9 < s.typ)) || num 1 == 0 || num 4 == 0 || num 2 == 0 ||
  [1, 3, 4, 5, 6, 7, 8, 9].any (fun t => decide (1 < num t)) || (ss.any (fun s => s.typ == 4 && (s.count == 0 || decide (256 < s.count)))) ||
  !(im.entries.map (·.id)).Nodup || !(im.tensors.map (·.id)).Nodup || im.tiles.any (fun t => decide (im.segs.length ≤ t.seg))

/-- Stepping letters that the device's capability table lists as compatible: its own (R24, R25). -/
def steppings : List Nat := [0x41]

/-- The section of a failure of a test of sections: the first that fails it. -/
def firstSect (p : Sect → Bool) (ss : List Sect) : Nat := (ss.findIdx? p).getD 0xFFFF

/-- The checks of step 1, the smallest code first (R147). -/
def imgCheck (bs : List Byte) (len : Nat) (present : Bool) : Option Rej :=
  let ss := imgSects bs
  let bytes := img bs 16 8
  if img bs 0 8 ≠ imgMagic ∨ img bs 8 4 ≠ 0x10000 then some { code := 0x0101 }
  else if bytes ≠ len then some { code := 0x0102 }
  else if ss.any (sectSize bs bytes) && !imgSectsBad bs then some { code := 0x0102, sectNo := firstSect (sectSize bs bytes) ss }
  else if anyMeet ss then some { code := 0x0102 }
  else if !imgZero bs 28 4 || !imgZero bs 40 216 || !imgZero bs 13 3 then some { code := 0x0103 }
  else if (List.range ss.length).any (fun i => !imgZero bs (256 + 32 * i + 24) 8) then some { code := 0x0103 }
  else if ss.any (sectReserved bs) then some { code := 0x0103, sectNo := firstSect (sectReserved bs) ss }
  else if imgSectsBad bs then some { code := 0x0104 }
  else if !steppings.contains (img bs 12 1) then some { code := 0x0105 }
  else if present then some { code := 0x0106 }
  else none

end Sys2Proof.Machine
end

