-- ==== Sys2Proof/Machine/LoadCheck.lean ====
section
/-! DEFINITION. The loader's checks of records and instructions (R107 to R145, R149 Table 6, R156, R157, R166). -/
namespace Sys2Proof.Machine

/-! ### A tile's program -/

/-- What the checks of one tile look at: image, pricking tile, segment, its records, shelf bytes. -/
structure Prog where
  im : Image := {}
  tile : Nat := 0
  words : List Nat := []
  raws : List (List Byte) := []
  recs : List ORec := []
  shelf : Nat := 0
deriving DecidableEq, Repr

/-- Bytes of the code region (R139). -/
def codeBytes (instrs recs : Nat) : Nat := roundUp (16 * instrs + 128 * recs) 256

/-- The program of a `TILEMAP` entry. -/
def progOf (im : Image) (t : TileMap) : Prog :=
  let s := im.segs.getD t.seg {}
  { im := im, tile := t.tile, words := s.words, raws := s.recs, recs := s.recs.map ORec.ofBytes, shelf := 65536 * t.units }

/-- Bytes of its code region. -/
def Prog.code (p : Prog) : Nat := codeBytes p.words.length p.recs.length
/-- A record of it. -/
def Prog.orec (p : Prog) (i : Nat) : ORec := p.recs.getD i {}
/-- The declaration of a record's tensor. -/
def Prog.tens (p : Prog) (r : ORec) : Option Tens := p.im.tensors.find? (fun t => t.id == r.tensor)
/-- A record that some `RECV` binds. -/
def Prog.isView (p : Prog) (r : Nat) : Bool := p.words.any (fun w => isBind w && iF0 w == r)

/-! ### Instruction words (R111, R112, R119 to R121) -/

/-- Fields [hi:lo] of reserved bits of an instruction, apart from the header. -/
def reservedFields (w : Nat) : List (Nat × Nat) :=
  match iOpc w with
  | 0x00 => [(127, 20)]
  | 0x01 => [(127, 88)]
  | 0x02 => [(127, 88)]
  | 0x03 => [(127, 48)]
  | 0x04 => if fld w 21 20 = 2 then [(127, 42)] else [(127, 22)]
  | 0x05 => [(127, 20)]
  | 0x10 => [(127, 127)]
  | 0x11 => [(127, 123)] ++ (if bit w 121 then [] else [(43, 32), (55, 44), (96, 84), (120, 119)])
  | 0x12 => [(127, 127), (108, 107)]
  | 0x13 => [(127, 127), (108, 107)]
  | 0x14 => [(127, 107)]
  | 0x15 => [(127, 109)]
  | 0x20 => [(127, 86)]
  | 0x21 => [(127, 86)]
  | 0x22 => [(127, 86)]
  | 0x23 => [(127, 87), (85, 85)]
  | 0x24 => [(127, 84)]
  | 0x25 => [(127, 85), (80, 80)]
  | 0x26 => [(127, 85), (38, 32), (79, 59)]
  | 0x27 => [(127, 32)]
  | 0x30 => [(127, 120)]
  | 0x31 => [(127, 88)]
  | 0x32 => [(127, 86)]
  | _ => []

/-- A reserved bit is set, or a sequencer instruction uses a token (R111, R112). `ATTF` keeps `GMODE` for its own check. -/
def reservedBad (w : Nat) : Bool :=
  (reservedFields w).any (fun f => (if iOpc w = opAttf then fld w f.1 (max f.2 109) else fld w f.1 f.2) != 0) ||
  (iLane w == 4 && (bit w 11 || fld w 10 8 != 0 || iTwait w != 0))

/-- Ends (last instruction of the body) of the loops open at instruction `i`, innermost first. -/
def openLoops (words : List Nat) : Nat → List Nat
  | 0 => []
  | i + 1 =>
    let open' := (openLoops words i).filter (fun e => decide (i + 1 ≤ e))
    let w := words.getD i 0
    if iOpc w = opLoop then (i + fld w 47 36) :: open' else open'

/-- `LOOP` limits broken at instruction `i` (R120). -/
def loopBad (words : List Nat) (i : Nat) : Bool :=
  let w := words.getD i 0
  let o := openLoops words i
  let last := i + fld w 47 36
  if iOpc w = opLoop then
    fld w 35 20 == 0 || fld w 47 36 == 0 || decide (words.length ≤ last) || o.any (fun e => decide (e < last)) || decide (4 ≤ o.length)
  else iOpc w == opEnd && !o.isEmpty

/-- The codes that the word of instruction `i` breaks on its own. -/
def Prog.wordCodes (p : Prog) (i : Nat) : List Nat :=
  let w := p.words.getD i 0
  (if iLegal w then [] else [0x0303]) ++
  (if reservedBad w then [0x0304] else []) ++
  (if (iOpc w == opSetx || iOpc w == opAddx) && (fld w 23 20 == 0 || decide (8 ≤ fld w 23 20)) then [0x0305] else []) ++
  (if loopBad p.words i then [0x0306] else []) ++
  (if iOpc w == opFence && fld w 21 20 == 3 then [0x0307] else [])

/-! ### Roles of the records an instruction names -/

/-- What an instruction does with a record: its index, the register halves that shift rows and columns (register, high half), extents,
whether it reads, whether it writes, the space it needs (0 shelf, 1 cellar, 2 either), and which parts it touches beside the elements. -/
structure Role where
  idx : Nat := 0
  rsh : Nat × Bool := (0, false)
  csh : Nat × Bool := (0, false)
  rows : Nat := 0
  cols : Nat := 0
  rd : Bool := false
  wr : Bool := false
  space : Nat := 0
  scl : Bool := true
  shad : Bool := false
  tally : Bool := false
  ts : Bool := true
deriving DecidableEq, Repr

/-- Roles of a copy, an `LDQ` or a `WLD`. -/
def copyRoles (w : Nat) : List Role :=
  let op := iOpc w
  let tr := cpTr w
  let wld := op == opWld
  let ldq := op == opLdq
  let scl := wld || ldq || cpScl w
  [{ idx := iF0 w, rsh := (fld w 79 76, false), csh := (fld w 83 80, false), rows := cpRows w, cols := cpCols w, rd := true,
     space := if op = opLd ∨ wld then 1 else if ldq then 2 else 0, scl := scl, ts := wld || ldq },
   { idx := iF1 w, rsh := (fld w 79 76, true), csh := (fld w 83 80, true), rows := if tr then cpCols w else cpRows w,
     cols := if tr then cpRows w else cpCols w, wr := true, rd := ldq && cpTadd w, space := if op = opSt then 1 else 0, scl := scl,
     shad := ldq, tally := ldq || wld || op == opLd, ts := wld || ldq }]

/-- Roles of a matmul. -/
def mmRoles (w : Nat) : List Role :=
  let e := mmEsc w
  [{ idx := iF0 w, rsh := (fld w 102 99, false), csh := (fld w 106 103, false), rows := mmMv w, cols := mmKv w, rd := true, shad := e, tally := e },
   { idx := iF1 w, rsh := (fld w 106 103, true), rows := mmKv w, cols := mmNv w, rd := true, shad := e, tally := e },
   { idx := iF2 w, rsh := (fld w 102 99, true), rows := mmMv w, cols := mmNv w, wr := true, rd := mmAcc w }]

/-- Roles of an `MMG`, apart from what its adapter table names (log entry 22). -/
def Prog.mgRoles (p : Prog) (w : Nat) : List Role :=
  let z := p.orec (iF3 w)
  [{ idx := iF0 w, rsh := (fld w 114 111, false), csh := (fld w 118 115, false), rows := mgMv w, cols := mgKv w, rd := true },
   { idx := iF3 w, rsh := (fld w 114 111, false), rows := mgMv w, cols := z.cols, rd := true, wr := !mgPhase w },
   { idx := iF3 w + 1, rd := true }, { idx := iF3 w + 2, rd := true }] ++
  (if mgPhase w then
    [{ idx := iF1 w, rsh := (fld w 118 115, true), rows := mgKv w, cols := mgNv w, rd := true },
     { idx := iF2 w, rsh := (fld w 114 111, true), rows := mgMv w, cols := mgNv w, wr := true, rd := mgAcc w }] else [])

/-- Roles of an attention instruction. -/
def attRoles (w : Nat) : List Role :=
  let q := fun (i cols : Nat) (rd wr : Bool) => ({ idx := iF0 w + i, rsh := (atXq w, false), rows := atMv w, cols := cols, rd := rd, wr := wr } : Role)
  let kr := fun (i : Nat) (rd wr : Bool) => ({ idx := iF0 w + i, rsh := (atXq w, true), rows := atKl w, cols := atDh w, rd := rd, wr := wr } : Role)
  let kc := fun (i : Nat) => ({ idx := iF0 w + i, csh := (atXq w, true), rows := atDh w, cols := atKl w, rd := true } : Role)
  let aux := (if atSeg w then [({ idx := iF1 w, rd := true } : Role)] else []) ++
    (if atBias w then [({ idx := if atSeg w then iF1 w + 1 else iF1 w, rsh := (atXq w, false), csh := (atXq w, true), rows := atMv w,
                          cols := atKl w, rd := true } : Role)] else [])
  let dh := atDh w
  if iOpc w = opAttf then
    [q 0 dh true false, kc 1, kr 2 true false, q 3 dh false (atFin w), q 4 dh (!atInit w) (!atFin w), q 5 2 (!atInit w) true] ++ aux
  else
    let dq := atGmode w != 2
    let kv := atGmode w != 1
    [q 0 dh true false, q 1 dh true false, kc 2, kr 3 true false, kc 4, q 5 dh true false, q 6 dh true false, q 7 2 true false, q 8 1 true false,
     q 9 dh (dq && atInit w) dq, kr 10 (kv && atFin w) kv, kr 11 (kv && atFin w) kv] ++ aux

/-- Roles of a vector instruction. -/
def vecRoles (w : Nat) : List Role :=
  match iOpc w with
  | 0x30 =>
    let src := fun (i : Nat) (one : Bool) => ({ idx := i, rsh := (fld w 103 100, false), csh := (fld w 107 104, false),
                                                rows := if one then min 1 (vwRows w) else vwRows w, cols := vwCols w, rd := true } : Role)
    [{ idx := iF0 w, rsh := (fld w 103 100, true), csh := (fld w 107 104, true), rows := vwRows w, cols := vwCols w, wr := true }, src (iF1 w) false] ++
    (if vewUsesB (vwFn w) then [src (iF2 w) (bit w 114)] else []) ++ (if vewUsesC (vwFn w) then [src (iF3 w) (bit w 115)] else [])
  | 0x31 =>
    [{ idx := iF0 w, rsh := (fld w 79 76, true), csh := (fld w 83 80, true), rows := if vrAxis w then min 1 (vrCols w) else vrRows w,
       cols := if vrAxis w then vrCols w else min 1 (vrRows w), wr := true },
     { idx := iF1 w, rsh := (fld w 79 76, false), csh := (fld w 83 80, false), rows := vrRows w, cols := vrCols w, rd := true }]
  | _ => [{ idx := iF0 w, rsh := (fld w 81 78, false), csh := (fld w 85 82, false), rows := fld w 61 46, cols := fld w 77 62, rd := true }]

/-- Roles of the records that an instruction names, by slices. -/
def Prog.roles (p : Prog) (w : Nat) : List Role :=
  match iLane w with
  | 0 => if iOpc w = opMmg then p.mgRoles w else mmRoles w
  | 1 => vecRoles w
  | 2 => if iCopies w || iOpc w == opMov then copyRoles w else []
  | 3 => attRoles w
  | _ => []

/-! ### Offsets at an unrolled instruction (R106, R142) -/

/-- The values that a register half takes: its static value, or its declared bounds. -/
def offRange (xs : Table Nat) (bounds : List Int) (h : Nat × Bool) : Int × Int :=
  if h.1 = 0 then (0, 0)
  else if xDynamic h.1 then (bounds.getD (4 * (h.1 - 8) + (if h.2 then 2 else 0)) 0, bounds.getD (4 * (h.1 - 8) + (if h.2 then 3 else 1)) 0)
  else
    let v := sint 32 (if h.2 then tabGet natDflt xs h.1 / 2 ^ 32 else tabGet natDflt xs h.1)
    (v, v)

/-- A byte region an instruction touches: first byte, length, written, in the cellar. -/
structure Span where
  lo : Int := 0
  len : Nat := 0
  wr : Bool := false
  cel : Bool := false
deriving DecidableEq, Repr

/-- Two regions conflict: they share a byte and one is written (R114). -/
def Span.conflicts (a b : Span) : Bool :=
  a.cel == b.cel && (a.wr || b.wr) && decide (a.lo < b.lo + b.len) && decide (b.lo < a.lo + a.len)

/-- The regions of a role at given offsets, with scales, shadow, tallies and tensor scale. -/
def Prog.spansAt (p : Prog) (r : Role) (r0 c0 : Int) : List Span :=
  let o := p.orec r.idx
  if r.rows = 0 ∨ r.cols = 0 then [] else
  let s : Slice := { op := o, r0 := r0, c0 := c0, rows := r.rows, cols := r.cols }
  let sh : Slice := { s with op := o.asShadow }
  let mk := fun (l : List (Int × Nat)) => l.map (fun q => ({ lo := q.1, len := q.2, wr := r.wr, cel := o.cellar } : Span))
  mk s.spans ++ (if r.scl then mk s.scaleSpans else []) ++
  (if r.shad && o.shadow then mk (sh.spans ++ sh.scaleSpans) else []) ++
  (if r.tally && o.auxAddr ≠ 0 && !o.cellar then mk [((o.auxAddr : Int) + 4 * s.groups.1, 4 * s.groups.2)] else []) ++
  (if r.ts && o.bmode == .nb16 && (o.tscale == 0 || o.tscomp) then mk [((o.tsAddr : Int), 4)] else [])

/-- Regions of a handoff instruction: its payload or copy (the ring's own bytes are the queue's). -/
def Prog.hoSpans (p : Prog) (w len : Nat) (xs : Table Nat) (bounds : List Int) : List Span :=
  let off := (offRange xs bounds (fld w 84 81, false)).1
  if iOpc w = opSend then [{ lo := ((p.orec (iF0 w)).addr : Int) + off, len := hoLen w, wr := false }]
  else if iOpc w = opRecv && !isBind w then [{ lo := ((p.orec (iF0 w)).addr : Int) + off, len := len, wr := true }]
  else []

/-! ### Records (R108, R110, R139, R141, R145) -/

/-- Composites and formats that no record may have (R27, R34, R40). -/
def formatBad (r : ORec) : Bool := !legalComposite r.bmode r.fmt || r.rnd == 3

/-- A nonzero reserved field, or a field combination that no record may have. -/
def recordBad (r : ORec) (raw : List Byte) : Bool :=
  !r.valid || !imgZero raw 104 24 || decide (2 ^ 48 ≤ r.gcols) || decide (2 ^ 48 ≤ r.addr) || (!r.cellar && decide (2 ^ 22 ≤ r.addr)) ||
  (r.cellar && r.auxAddr != 0) || (r.tscomp && r.bmode != .nb16) || (r.transposed && (r.bmode != .none || decide (r.fmt.bits < 8)))

/-- Bytes of a row of a record. -/
def ORec.lineBytes (r : ORec) : Nat :=
  if r.transposed then r.rows * (r.fmt.bits / 8)
  else elemBytes r.packMode r.fmt r.cols

/-- Pitch rules of R110. -/
def pitchBad (r : ORec) : Bool :=
  (decide (1 < (if r.transposed then r.cols else r.rows)) && decide (r.pitch < r.lineBytes)) || (r.fmt.bits == 6 && r.pitch % 3 != 0)

/-- The record disagrees with its tensor's declaration, or reaches outside the global shape (R141). -/
def tensBad (r : ORec) (t : Option Tens) : Bool :=
  match t with
  | none => true
  | some t =>
    fld r.flags 3 0 != t.fmt || fld r.flags 6 4 != t.bmode || r.kdim != t.kdim || r.rot != t.rot || r.stepMode != t.stepMode ||
    (r.rot != 0 && r.rotSeed != t.seed) || r.gcols != t.cols || decide (t.rows < r.grow + r.rows) || decide (t.cols < r.gcol + r.cols)

/-- K origin, extent and global length of a record. -/
def kOf (r : ORec) (t : Tens) : Nat × Nat × Nat := if r.kdim then (r.grow, r.rows, t.rows) else (r.gcol, r.cols, t.cols)

/-- Edge rules of a record's K slice (R145). -/
def edgeBad (r : ORec) (t : Option Tens) : Bool :=
  match t with
  | none => false
  | some t =>
    let k := kOf r t
    let b := r.bmode.len
    (r.bmode != .none || r.rot != 0) && (k.1 % b != 0 || (k.2.1 % b != 0 && k.1 + k.2.1 != k.2.2) || k.1 % rotN r.rot != 0 || k.2.1 % rotN r.rot != 0)

/-- The global K length of a rotated tensor is not a multiple of n (R50). -/
def rotLenBad (r : ORec) (t : Option Tens) : Bool :=
  match t with
  | none => false
  | some t => (kOf r t).2.2 % rotN r.rot != 0

/-- Codes that record `i` of the program breaks. -/
def Prog.recCodes (p : Prog) (i : Nat) : List Nat :=
  let r := p.orec i
  let t := p.tens r
  if p.recs.length ≤ i then [0x0401]
  else if recordBad r (p.raws.getD i []) then [0x0401]
  else if formatBad r then [0x0402]
  else if 5 < r.rot then [0x0501]
  else
    let whole : Role := { idx := i, rows := r.rows, cols := r.cols, shad := true, tally := true }
    let sp := if r.cellar || p.isView i then [] else p.spansAt whole 0 0
    (if sp.any (fun s => decide (s.lo < 0) || decide ((p.shelf : Int) < s.lo + s.len)) then [0x0403] else []) ++
    (if sp.any (fun s => decide (s.lo < p.code)) then [0x0302] else []) ++
    (if pitchBad r then [0x0405] else []) ++
    (if tensBad r t then [0x0410] else []) ++
    (if edgeBad r t then [0x0412] else []) ++
    (if r.rot != 0 && rotLenBad r t then [0x0502] else []) ++
    (if r.shadow && !(r.fmt == .e2m1 && (r.bmode == .mx32 || r.bmode == .nb16)) then [0x0506] else []) ++
    (if r.satEn && decide (p.im.nsat ≤ r.satEntry) then [0x020A] else [])

/-! ### Slices (R92, R110, R142, R145) -/

/-- A range of the cellar lies inside the declared ranges with the access (R142). -/
def coveredFrom (ranges : List (Nat × Nat × Nat)) (wr : Bool) : Nat → Int → Int → Bool
  | 0, lo, hi => decide (hi ≤ lo)
  | fuel + 1, lo, hi =>
    if hi ≤ lo then true
    else match ranges.find? (fun r => bit r.2.2 (b2n wr) && decide ((r.1 : Int) ≤ lo) && decide (lo < ((r.1 + r.2.1 : Nat) : Int))) with
      | some r => coveredFrom ranges wr fuel ((r.1 + r.2.1 : Nat) : Int) hi
      | none => false

/-- A cellar region lies inside the image's ranges. -/
def Prog.covered (p : Prog) (s : Span) : Bool := coveredFrom p.im.cellar s.wr (p.im.cellar.length + 1) s.lo (s.lo + s.len)

/-- Codes that a role breaks at an unrolled instruction. -/
def Prog.roleCodes (p : Prog) (r : Role) (xs : Table Nat) (bounds : List Int) : List Nat :=
  let o := p.orec r.idx
  let ro := offRange xs bounds r.rsh
  let co := offRange xs bounds r.csh
  let dynR := xDynamic r.rsh.1
  let dynC := xDynamic r.csh.1
  let b : Nat := o.bmode.len
  let empty := r.rows == 0 || r.cols == 0
  let t := p.tens o
  let k0 := if o.kdim then ro else co
  let kd := if o.kdim then dynR else dynC
  let ke := if o.kdim then r.rows else r.cols
  let ko := if o.kdim then o.grow else o.gcol
  let kg := match t with
    | some t => if o.kdim then t.rows else t.cols
    | none => 0
  (if (r.space == 0 && o.cellar) || (r.space == 1 && !o.cellar) then [0x0406] else []) ++
  (if empty then [] else
    (if (!dynR && (decide (ro.1 < 0) || decide ((o.rows : Int) < ro.1 + r.rows))) || (!dynC && (decide (co.1 < 0) || decide ((o.cols : Int) < co.1 + r.cols)))
      then [0x0404] else []) ++
    (if (o.bmode == .nb16 && ((!dynR && ro.1 % 4 != 0) || (!dynC && co.1 % 4 != 0))) ||
        (o.bmode != .none && o.bmode != .nb16 && !kd && k0.1 % (b : Int) != 0) then [0x0405] else []) ++
    (if o.bmode != .none && ke % b != 0 && (kd || (ko : Int) + k0.1 + ke != kg) then [0x0412] else []) ++
    (if o.rot != 0 && ((!kd && ((ko : Int) + k0.1) % (rotN o.rot : Int) != 0) || ke % rotN o.rot != 0) then [0x0502] else []) ++
    (if r.wr && o.rnd == 2 && (match t with
        | some t => decide (2 ^ 48 < t.rows * t.cols)
        | none => false) then [0x0410] else []) ++
    (if o.cellar && !((p.spansAt r ro.1 co.1 ++ p.spansAt r ro.2 co.2).all p.covered) then [0x0411] else []) ++
    (if r.wr && !o.cellar && (p.spansAt r ro.1 co.1).any (fun s => decide (s.lo < p.code)) && !p.isView r.idx then [0x0302] else []))

/-! ### Rules of each instruction -/

/-- The rotation declarations of two records differ (R53). -/
def rotDiffer (a b : ORec) : Bool := a.rot != b.rot || (a.rot != 0 && (a.rotSeed != b.rotSeed || a.stepMode != b.stepMode))

/-- A record is FP32 and unscaled. -/
def ORec.isF32 (r : ORec) : Bool := r.fmt == .fp32 && r.bmode == .none

/-- Rules of the copies, `LDQ` and `WLD` (R54, R123 to R125). -/
def Prog.copyRules (p : Prog) (w : Nat) (xs : Table Nat) (bounds : List Int) : List Nat :=
  let a := p.orec (iF0 w)
  let b := p.orec (iF1 w)
  let ro := offRange xs bounds (fld w 79 76, true)
  let co := offRange xs bounds (fld w 83 80, true)
  if iOpc w = opLdq then
    let nk := if b.kdim then co.1 else ro.1
    let dyn := xDynamic (if b.kdim then fld w 83 80 else fld w 79 76)
    let rows := if cpTr w then cpCols w else cpRows w
    let cols := if cpTr w then cpRows w else cpCols w
    let whole := match p.tens b with
      | some t => (b.grow : Int) + ro.1 == 0 && (b.gcol : Int) + co.1 == 0 && rows == t.rows && cols == t.cols &&
          !xDynamic (fld w 79 76) && !xDynamic (fld w 83 80)
      | none => false
    (if [Fmt.fp32, .bf16, .fp16, .e4m3, .e5m2].contains a.fmt then [] else [0x0402]) ++
    (if !dyn && nk % 128 != 0 then [0x0509] else []) ++
    (if b.bmode == .nb16 && b.tscomp && !whole then [0x0505] else [])
  else
    (if a.fmt != b.fmt || a.bmode != b.bmode || (cpTr w && iOpc w != opWld && (decide (a.fmt.bits < 8) || a.bmode != .none)) then [0x0407] else []) ++
    (if iOpc w == opWld && (a.kdim != b.kdim || rotDiffer a b || a.rot != b.rot || a.rotSeed != b.rotSeed) then [0x0408] else [])

/-- A format for which no escalation exists (R66). -/
def noEsc (f : Fmt) : Bool := f == .int4 || f == .int2 || f == .tri

/-- Rules of the products A × W of the arrays (R53, R54, R58, R84, R87, R127). -/
def pairRules (a b o : ORec) (acc : Bool) : List Nat :=
  (if a.transposed || b.transposed || o.transposed then [0x040B] else []) ++
  (if acc && !o.isF32 then [0x040C] else []) ++
  (if a.kdim || !b.kdim || (o.bmode != .none && o.kdim) then [0x0504] else []) ++
  (if o.fmt == .int32 then [0x0402] else []) ++
  (if o.bmode == .nb16 && o.tscomp then [0x0505] else []) ++
  (if (pairRate b.bmode b.fmt a.bmode a.fmt).isNone then [0x040A] else []) ++
  (if rotDiffer a b then [0x0503] else [])

/-- Rules of a matmul (R85, R95, R127, R66). -/
def Prog.mmRules (p : Prog) (w : Nat) (xs : Table Nat) (bounds : List Int) : List Nat :=
  let a := p.orec (iF0 w)
  let b := p.orec (iF1 w)
  let o := p.orec (iF2 w)
  let ka := offRange xs bounds (fld w 106 103, false)
  let kb := offRange xs bounds (fld w 106 103, true)
  pairRules a b o (mmAcc w) ++
  (if (a.gcol : Int) + ka.1 != (b.grow : Int) + kb.1 || (a.gcol : Int) + ka.2 != (b.grow : Int) + kb.2 then [0x040C] else []) ++
  (if iOpc w == opStch && decide (8 < mmMv w) then [0x040D] else []) ++
  (if mmEsc w && (!(a.shadow || b.shadow) || noEsc a.fmt || noEsc b.fmt || !o.satEn) then [0x0507] else [])

/-- Rules of an `MMG` (R128). -/
def Prog.mgRules (p : Prog) (w : Nat) (xs : Table Nat) (bounds : List Int) : List Nat :=
  let a := p.orec (iF0 w)
  let z := p.orec (iF3 w)
  let ka := offRange xs bounds (fld w 118 115, false)
  let kb := offRange xs bounds (fld w 118 115, true)
  (if !z.isF32 || decide (4092 < iF3 w) then [0x040E] else []) ++
  (if mgPhase w then
    let b := p.orec (iF1 w)
    let o := p.orec (iF2 w)
    pairRules a b o (mgAcc w) ++ (if 65536 < mgMv w * mgNv w then [0x040E] else []) ++
    (if (a.gcol : Int) + ka.1 != (b.grow : Int) + kb.1 || (a.gcol : Int) + ka.2 != (b.grow : Int) + kb.2 then [0x040C] else [])
  else (if a.transposed then [0x040B] else []) ++ (if a.kdim then [0x0504] else []))

/-- Rules of `VEW`, `VRED` and `VSTAT` (R130, R132, R133, R140). -/
def Prog.vecRules (p : Prog) (w : Nat) : List Nat :=
  let o := p.orec (iF0 w)
  match iOpc w with
  | 0x30 =>
    if (vewT (vwFn w)).isNone || (vewUsesB (vwFn w) && iF2 w == noRec) || (vewUsesC (vwFn w) && iF3 w == noRec) ||
       !([Fmt.fp32, .bf16, .fp16, .int32].contains o.fmt && o.bmode == .none) then [0x040F] else []
  | 0x31 => if 4 < vrOp w ∨ o.isF32 = false then [0x040F] else []
  | _ => if p.im.nlst ≤ fld w 45 32 then [0x020A] else []

/-- Rules of the handoff instructions (R126, R140). -/
def Prog.hoRules (p : Prog) (w : Nat) : List Nat :=
  if iOpc w = opSend then
    match p.im.queues.find? (fun q => q.tile == hoTile w && q.loc == hoQueue w) with
    | some q => if q.size < hoLen w ∨ hoLen w % 256 ≠ 0 ∨ hoLen w = 0 then [0x0207] else []
    | none => [0x0207]
  else if iOpc w = opRecv then
    if p.im.queues.any (fun q => q.tile == p.tile && q.loc == hoQueue w) then [] else [0x020A]
  else []

/-- `ATTF` and `ATTB` groups: which records are FP32, and the block dimension of each (0 columns, 1 rows) (R154 Table 1). -/
def attGroup (w : Nat) : List (Nat × Bool × Option Bool) :=
  if iOpc w = opAttf then
    [(0, false, some false), (1, false, some true), (2, false, some true), (3, false, some false), (4, true, none), (5, true, none)]
  else
    [(0, false, some false), (1, false, some true), (2, false, some true), (3, false, some true), (4, false, some true), (5, false, some false),
     (6, false, some true), (7, true, none), (8, true, none), (9, true, none), (10, true, none), (11, true, none)]

/-- Operand pairs W, A of an attention instruction (R156). -/
def Prog.attPairs (p : Prog) (w : Nat) : List (BMode × Fmt × BMode × Fmt) :=
  let r := fun i => p.orec (iF0 w + i)
  let f := ifmt (atIfmt w)
  if iOpc w = opAttf then [((r 1).bmode, (r 1).fmt, (r 0).bmode, (r 0).fmt), ((r 2).bmode, (r 2).fmt, f.1, f.2)]
  else
    [((r 2).bmode, (r 2).fmt, (r 0).bmode, (r 0).fmt), ((r 4).bmode, (r 4).fmt, (r 5).bmode, (r 5).fmt)] ++
    (if atGmode w = 1 then [] else [((r 6).bmode, (r 6).fmt, f.1, f.2), ((r 1).bmode, (r 1).fmt, f.1, f.2)]) ++
    (if atGmode w = 2 then [] else [((r 3).bmode, (r 3).fmt, f.1, f.2)])

/-- Origins that must agree: query rows, key positions, D positions (R157). -/
def Prog.attAgree (p : Prog) (w : Nat) : Bool :=
  let r := fun i => p.orec (iF0 w + i)
  if iOpc w = opAttf then
    [3, 4, 5].all (fun i => (r i).grow == (r 0).grow) && (r 2).grow == (r 1).gcol && (r 0).gcol == (r 1).grow
  else
    [1, 5, 6, 7, 8, 9].all (fun i => (r i).grow == (r 0).grow) && [3, 10, 11].all (fun i => (r i).grow == (r 2).gcol) && (r 4).gcol == (r 2).gcol &&
    (r 0).gcol == (r 2).grow && (r 5).gcol == (r 4).grow

/-- The static positions of an attention instruction: first and last query and key. -/
def Prog.attPositions (p : Prog) (w : Nat) (xs : Table Nat) (bounds : List Int) : List Int :=
  let q := ((p.orec (iF0 w)).grow : Int)
  let k := ((p.orec (iF0 w + atKtRec w)).gcol : Int)
  let qo := offRange xs bounds (atXq w, false)
  let ko := offRange xs bounds (atXq w, true)
  if xDynamic (atXq w) ∨ atMv w = 0 then [] else
    [q + qo.1, q + qo.1 + atMv w - 1] ++ (if atKl w = 0 then [] else [k + ko.1, k + ko.1 + atKl w - 1])

/-- Rules of `ATTF` and `ATTB` (R154 to R157, R166). -/
def Prog.attRules (p : Prog) (w : Nat) (xs : Table Nat) (bounds : List Int) : List Nat :=
  let n := if iOpc w = opAttf then 6 else 12
  let r := fun i => p.orec (iF0 w + i)
  let seg := p.orec (iF1 w)
  let bias := p.orec (if atSeg w then iF1 w + 1 else iF1 w)
  let pos := p.attPositions w xs bounds
  (if 128 < atMv w ∨ 256 < atDh w then [0x0701] else []) ++
  (if decide (4094 < iF0 w + n - 1) || (attGroup w).any (fun g =>
      let x := r g.1
      x.transposed || x.rot != 0 || x.cellar || (g.2.1 && !x.isF32) || (x.bmode != .none && g.2.2 != some x.kdim)) then [0x0702] else []) ++
  (if (p.attPairs w).any (fun q => (pairRate q.1 q.2.1 q.2.2.1 q.2.2.2).isNone) then [0x0703] else []) ++
  (if atIfmt w = 3 ∨ (iOpc w = opAttb ∧ atIfmt w = 1) then [0x0704] else []) ++
  (if (atWindow w == (atWin w == 0)) || ((atSeg w || atBias w) && iF1 w == noRec) ||
      (atSeg w && (seg.fmt != .int32 || seg.bmode != .none || seg.rows != 1 || pos.any (fun x => decide (x < seg.gcol) || decide (((seg.gcol + seg.cols : Nat) : Int) ≤ x)))) ||
      (atBias w && !bias.isF32) then [0x0705] else []) ++
  (if !p.attAgree w || pos.any (fun x => decide (x < 0) || decide (2 ^ 32 ≤ x)) then [0x0706] else []) ++
  (if (iOpc w == opAttf && atGmode w != 0) || atGmode w == 3 then [0x0707] else [])

/-- Rules of an instruction beyond its roles. -/
def Prog.rules (p : Prog) (w : Nat) (xs : Table Nat) (bounds : List Int) : List Nat :=
  match iLane w with
  | 0 => if iOpc w = opMmg then p.mgRules w xs bounds else p.mmRules w xs bounds
  | 1 => p.vecRules w
  | 2 => if iCopies w || iOpc w == opMov then p.copyRules w xs bounds else p.hoRules w
  | 3 => p.attRules w xs bounds
  | _ => []

/-! ### Counts (R116, R150) -/

/-- The largest `LEN` that any sender of the image names for a queue of a pricking tile (R126). -/
def Image.maxLen (im : Image) (tile q : Nat) : Nat :=
  im.tiles.foldl (fun m t => (im.segs.getD t.seg {}).words.foldl (fun m w =>
    if iOpc w = opSend ∧ hoTile w = tile ∧ hoQueue w = q then max m (hoLen w) else m) m) 0

/-- Array cycles, on the knot cubes in stand-in. -/
def arr (standin : Bool) (sh : Shape) (mv nv kv q : Nat) : Nat := if standin then standinCount mv nv kv - 16 else arrayCycles sh mv nv kv q

/-- Array cycles of an attention product by its pair. -/
def Prog.attArr (p : Prog) (standin : Bool) (w i j mv nv kv : Nat) : Nat :=
  let x := (p.attPairs w).getD i (.none, .fp32, .none, .fp32)
  arr standin (atLace w) mv nv kv (rateOf x.1 x.2.1 x.2.2.1 x.2.2.2 + 0 * j)

/-- Count of an attention instruction (R164). -/
def Prog.attCount (p : Prog) (standin : Bool) (w : Nat) : Nat :=
  let mv := atMv w
  let dh := atDh w
  if mv = 0 ∨ dh = 0 then 16
  else
    let bias := fun kb => if atBias w then cdiv (mv * kb) 256 else 0
    if iOpc w = opAttf then
      16 + (if atInit w then 0 else cdiv (mv * dh) 256) +
      (List.range (atBlocks w)).foldl (fun a b =>
        let kb := atKb w b
        a + p.attArr standin w 0 0 mv kb dh + cdiv (mv * kb) 64 + cdiv (mv * kb) 256 + cdiv (mv * dh) 256 + 24 + bias kb + p.attArr standin w 1 0 mv dh kb) 0 +
      cdiv (mv * dh) 256 + 8 + (if atFin w then 2 * cdiv mv 64 else 0)
    else
      let kv := atGmode w != 1
      let dq := atGmode w != 2
      16 + (List.range (atBlocks w)).foldl (fun a b =>
        let kb := atKb w b
        a + p.attArr standin w 0 0 mv kb dh + p.attArr standin w 1 0 mv kb dh + cdiv (mv * kb) 64 + 3 * cdiv (mv * kb) 256 + 24 + bias kb +
          (if kv then p.attArr standin w 2 0 kb dh mv + p.attArr standin w 3 0 kb dh mv else 0) +
          (if dq then p.attArr standin w (if kv then 4 else 2) 0 mv dh kb else 0)) 0 +
      (if dq then cdiv (mv * dh) 256 + 8 else 8)

/-- The count of an instruction of the image, escalation in full (R69, R116). -/
def Prog.count (p : Prog) (standin : Bool) (w : Nat) : Nat :=
  let a := p.orec (iF0 w)
  let b := p.orec (iF1 w)
  let q := rateOf b.bmode b.fmt a.bmode a.fmt
  let zero := mmMv w = 0 ∨ mmNv w = 0 ∨ mmKv w = 0
  match iOpc w with
  | 0x10 => if zero then 16 else if standin then standinCount (mmMv w) (mmNv w) (mmKv w)
    else 16 + arrayCycles (Shape.ofCode (fld w 108 107)) (mmMv w) (mmNv w) (mmKv w) (if mmEsc w then 4 else q)
  | 0x12 => if zero then 16 else 16 + knotCycles (mmMv w) (mmNv w) (mmKv w)
  | 0x13 => if zero then 16 else stchCount w a' b'
  | 0x11 =>
    if mgMv w = 0 ∨ mgKv w = 0 ∨ (mgPhase w = true ∧ mgNv w = 0) then 16
    else if mgPhase w then 16 + cdiv (mgMv w) 256 + arr standin (Shape.ofCode (fld w 120 119)) (mgMv w) (mgNv w) (mgKv w) q + cdiv (mgMv w) 8 * (cdiv (mgNv w) 16 + 24)
    else 16 + cdiv (mgMv w) 256 + cdiv (mgMv w) 8 * (cdiv (mgKv w) (stitchRate 1) + 24)
  | 0x14 => p.attCount standin w
  | 0x15 => p.attCount standin w
  | 0x23 => 8 + ldqBody (cpRows w * cpCols w) b.rot (cpTr w) b.tscomp
  | 0x24 => 16 + copyBody (copyBytes { op := a, rows := cpRows w, cols := cpCols w } true) false
  | 0x25 => 8 + cdiv (hoLen w) 512
  | 0x26 => if isBind w then 8 else 8 + cdiv (p.im.maxLen p.tile (hoQueue w)) 512
  | 0x27 => 8
  | 0x30 => 6 + (if (vewT (vwFn w)).getD 0 = 0 then cdiv (vwRows w * vwCols w) 256 else (vewT (vwFn w)).getD 0 * cdiv (vwRows w * vwCols w) 64)
  | 0x31 => 6 + vrRows w * (cdiv (vrCols w) 256 + (if vrAxis w then 0 else 8))
  | 0x32 => 6 + cdiv (fld w 61 46 * fld w 77 62) 256
  | _ => if iLane w = 4 then 1 else 8 + copyBody (copyBytes { op := a, rows := cpRows w, cols := cpCols w } (cpScl w)) (cpTr w)
where
  a' : Slice := { op := p.orec (iF0 w) }
  b' : Slice := { op := p.orec (iF1 w) }

/-! ### The codes of an unrolled instruction -/

/-- Records of an instruction that must exist whether or not it uses them. -/
def Prog.named (p : Prog) (w : Nat) : List Nat :=
  if iLane w = 4 then [] else iRecs w ++ (if iOpc w = opRel ∨ p.words.isEmpty then [] else [])

/-- Codes that an instruction breaks, each with the record it concerns (R147). -/
def Prog.insCodes (p : Prog) (i : Nat) (xs : Table Nat) (bounds : List Int) : List (Nat × Nat) :=
  let w := p.words.getD i 0
  let no : Nat := 0xFFFFFFFF
  let own := (p.wordCodes i).map (fun c => (c, no))
  if !iLegal w then own
  else
    let recs := (p.named w).flatMap (fun r => (p.recCodes r).map (fun c => (c, r)))
    let broken := recs.any (fun c => c.1 == 0x0401 || c.1 == 0x0402 || c.1 == 0x0501)
    let rest := if broken then [] else
      (p.roles w).flatMap (fun r => (p.roleCodes r xs bounds).map (fun c => (c, r.idx))) ++ (p.rules w xs bounds).map (fun c => (c, no))
    own ++ recs ++ rest ++ (if !broken && decide (8192 < p.count false w) then [(0x0601, no)] else [])

end Sys2Proof.Machine
end

