-- ==== Sys2Proof/Machine/LoadWalk.lean ====
section
/-! DEFINITION. The loader's walk of unrolled programs (R106, R114, R120, R126, R146) and the work estimate (R150 to R152). -/
namespace Sys2Proof.Machine

/-! ### Ordering of unrolled instructions (R112 to R114) -/

/-- How many instructions of the matrix, vector and movement lanes have retired before a point. -/
structure Clock where
  m : Nat := 0
  v : Nat := 0
  mv : Nat := 0
deriving DecidableEq, Repr

/-- The later of two points, lane by lane. -/
def Clock.join (a b : Clock) : Clock := { m := max a.m b.m, v := max a.v b.v, mv := max a.mv b.mv }

/-- The count of a lane. -/
def Clock.lane (a : Clock) (l : Nat) : Nat := if l = 0 then a.m else if l = 1 then a.v else a.mv

/-- One more instruction on a lane code. -/
def Clock.bump (a : Clock) (l : Nat) : Clock :=
  match l with
  | 0 => { a with m := a.m + 1 }
  | 1 => { a with v := a.v + 1 }
  | 2 => { a with mv := a.mv + 1 }
  | 3 => { a with m := a.m + 1, v := a.v + 1 }
  | _ => a

/-- An instruction already walked: its lane, its number on that lane, what it touches, exempt from R114 (dynamic offsets, views). -/
structure Node where
  lane : Nat := 0
  seq : Nat := 0
  spans : List Span := []
  exempt : Bool := false
deriving DecidableEq, Repr

/-- The first lane of a lane code. -/
def laneFirst (l : Nat) : Nat := if l = 3 then 0 else l

/-! ### The state of a walk -/

/-- A walk of one tile's unrolled program for one entry point. `steps` holds what the estimate needs of each instruction, newest first. -/
structure Walk where
  pc : Nat := 0
  xs : Table Nat := []
  loops : List LoopEnt := []
  ord : Nat := 0
  views : List Nat := []
  fence : Clock := {}
  now : Clock := {}
  last : List (Nat × Clock) := []
  tokens : Table Clock := []
  live : List Node := []
  steps : List Nat := []
  rd : Nat := 0
  wr : Nat := 0
  touched : List Nat := []
  stop : Option (Option (Nat × Nat)) := none
deriving DecidableEq, Repr

/-- An unlisted point: nothing has retired. -/
def clockDflt (_ : Nat) : Clock := {}

/-- View rules broken by a word (R126): a view used, or released, outside its bind; bound twice; bound at `END`. -/
def Prog.viewBad (p : Prog) (k : Walk) (w : Nat) : Bool :=
  let r := iF0 w
  if isBind w then k.views.contains r
  else if iOpc w = opRel then !k.views.contains r
  else if iOpc w = opEnd then !k.views.isEmpty
  else (iRecs w).any (fun r => p.isView r && !k.views.contains r)

/-- The instruction takes part in no race check: R113 orders it after every earlier one. -/
def Prog.quiet (p : Prog) (w : Nat) : Bool := (iXregs w).any xDynamic || (!isBind w && (iRecs w).any p.isView)

/-- Every byte region of an instruction. -/
def Prog.insSpans (p : Prog) (w : Nat) (xs : Table Nat) (bounds : List Int) : List Span :=
  (p.roles w).flatMap (fun r => if p.isView r.idx then [] else p.spansAt r (offRange xs bounds r.rsh).1 (offRange xs bounds r.csh).1) ++
  p.hoSpans w (p.im.maxLen p.tile (hoQueue w)) xs bounds

/-- What an instruction is ordered after (R114): same lane, `TWAIT` chains, fences; everything, under R113. -/
def Prog.frontOf (p : Prog) (k : Walk) (w : Nat) : Clock :=
  if p.quiet w then k.now
  else
    let l := iLane w
    let same := k.last.foldl (fun a e => if lanesMeet e.1 l then a.join e.2 else a) k.fence
    (List.range 8).foldl (fun a j => if bit (iTwait w) j then a.join (tabGet clockDflt k.tokens j) else a) same

/-- Some earlier instruction, not ordered before this one, conflicts with it. -/
def races (live : List Node) (front : Clock) (lane : Nat) (spans : List Span) : Bool :=
  live.any (fun n => !n.exempt && !lanesMeet n.lane lane && decide (front.lane (laneFirst n.lane) < n.seq) &&
    n.spans.any (fun a => spans.any a.conflicts))

/-! ### Cellar traffic (R151) -/

/-- Contiguous runs of an instruction in the cellar and whether it writes them, and whether the address has a dynamic part. -/
def Prog.cellarRuns (p : Prog) (w : Nat) (xs : Table Nat) (bounds : List Int) : List (Int × Nat) × Bool × Bool :=
  let a := p.orec (iF0 w)
  let b := p.orec (iF1 w)
  let tr := cpTr w && iOpc w != opWld
  let dyn := xDynamic (fld w 79 76) || xDynamic (fld w 83 80)
  if !iCopies w || cpRows w == 0 || cpCols w == 0 then ([], false, dyn)
  else if iOpc w = opSt then
    let s : Slice := { op := b, r0 := (offRange xs bounds (fld w 79 76, true)).1, c0 := (offRange xs bounds (fld w 83 80, true)).1,
                       rows := if tr then cpCols w else cpRows w, cols := if tr then cpRows w else cpCols w }
    (s.runs (cpScl w), true, dyn)
  else if !a.cellar then ([], false, dyn)
  else
    let s : Slice := { op := a, r0 := (offRange xs bounds (fld w 79 76, false)).1, c0 := (offRange xs bounds (fld w 83 80, false)).1,
                       rows := cpRows w, cols := cpCols w }
    let scl := if iOpc w = opLd then cpScl w else if iOpc w = opLdq then a.bmode != .none else true
    let ts := a.bmode == .nb16 && (iOpc w == opWld || (iOpc w == opLdq && a.tscale == 0))
    (s.runs scl ++ (if ts then [((a.tsAddr : Int), 4)] else []), false, dyn)

/-- Bytes that R151 counts of runs: read, written. -/
def traffic (r : List (Int × Nat) × Bool × Bool) : Nat × Nat :=
  r.1.foldl (fun t q =>
    let g := granules q.1.toNat q.2
    let part := if r.2.2 then min g 2 else partialGranules q.1.toNat q.2
    if r.2.1 then (t.1 + 256 * part, t.2 + 256 * g) else (t.1 + 256 * g, t.2)) (0, 0)

/-- Indices of the declared ranges that runs touch (R292). -/
def touchedRanges (ranges : List (Nat × Nat × Nat)) (runs : List (Int × Nat)) : List Nat :=
  (List.range ranges.length).filter (fun i =>
    let r := ranges.getD i (0, 0, 0)
    runs.any (fun q => decide (0 < q.2) && decide ((r.1 : Int) < q.1 + q.2) && decide (q.1 < ((r.1 + r.2.1 : Nat) : Int))))

/-! ### The walk (R106, R146 step 4) -/

/-- The smallest code of a list, with its record. -/
def smallestCode (l : List (Nat × Nat)) : Option (Nat × Nat) :=
  l.foldl (fun a c => match a with
    | some b => if c.1 < b.1 then some c else some b
    | none => some c) none

/-- Most unrolled instructions of a tile for an entry (R146). -/
def unrollLimit : Nat := 16777216

/-- The program order after an instruction. -/
def walkNext (k : Walk) (w : Nat) : Walk :=
  if iOpc w = opLoop then
    { k with pc := k.pc + 1, loops := { left := fld w 35 20, start := k.pc + 1, stop := k.pc + 1 + fld w 47 36 } :: k.loops }
  else
    let r := closeLoops (k.pc + 1) k.loops
    { k with pc := r.1, loops := r.2 }

/-- Static registers after a sequencer instruction (R119). -/
def walkRegs (xs : Table Nat) (w : Nat) : Table Nat :=
  let r := fld w 23 20
  if iOpc w = opSetx then tabPut natDflt xs r (fld w 87 24)
  else if iOpc w = opAddx then
    let x := tabGet natDflt xs r
    tabPut natDflt xs r ((x / 2 ^ 32 + fld w 87 56) % 2 ^ 32 * 2 ^ 32 + (x % 2 ^ 32 + fld w 55 24) % 2 ^ 32)
  else xs

/-- One unrolled instruction. -/
def Prog.walk1 (p : Prog) (bounds : List Int) (k : Walk) : Walk :=
  let no : Nat := 0xFFFFFFFF
  if p.words.length ≤ k.pc then { k with stop := some (some (0x0308, no)) }
  else if unrollLimit ≤ k.ord then { k with stop := some (some (0x0309, no)) }
  else
    let w := p.words.getD k.pc 0
    let l := iLane w
    let front := p.frontOf k w
    let spans := if l = 4 then [] else p.insSpans w k.xs bounds
    let own := p.insCodes k.pc k.xs bounds ++ (if p.viewBad k w then [(0x030A, no)] else [])
    let codes := own ++ (if own.isEmpty && l != 4 && !p.quiet w && races k.live front l spans then [(0x0602, no)] else [])
    match smallestCode codes with
    | some c => { k with stop := some (some c) }
    | none =>
      if iOpc w = opEnd then { k with steps := w :: k.steps, ord := k.ord + 1, stop := some none }
      else if l = 4 then
        let f := iOpc w = opFence ∧ fld w 21 20 < 2
        { walkNext k w with xs := walkRegs k.xs w, ord := k.ord + 1, steps := w :: k.steps,
                            fence := if f then k.now else k.fence, live := if f then [] else k.live }
      else
        let now := k.now.bump l
        let done := front.join { m := if l = 0 ∨ l = 3 then now.m else 0, v := if l = 1 ∨ l = 3 then now.v else 0, mv := if l = 2 then now.mv else 0 }
        let runs := p.cellarRuns w k.xs bounds
        let t := traffic runs
        { walkNext k w with
          ord := k.ord + 1, steps := w :: k.steps, now := now,
          last := (l, done) :: k.last.filter (fun e => e.1 != l),
          tokens := match iTset w with
            | some j => tabPut clockDflt k.tokens j done
            | none => k.tokens
          live := { lane := l, seq := now.lane (laneFirst l), spans := spans, exempt := p.quiet w } :: k.live,
          views := if isBind w then iF0 w :: k.views else if iOpc w = opRel then k.views.filter (· != iF0 w) else k.views,
          rd := k.rd + t.1, wr := k.wr + t.2,
          touched := k.touched ++ (touchedRanges p.im.cellar runs.1).filter (fun i => !k.touched.contains i) }

/-- The whole walk. -/
def Prog.walkFrom (p : Prog) (bounds : List Int) : Nat → Walk → Walk
  | 0, k => k
  | fuel + 1, k => if k.stop.isSome then k else p.walkFrom bounds fuel (p.walk1 bounds k)

/-- The walk of an entry point from its entry instruction. -/
def Prog.walk (p : Prog) (bounds : List Int) (pc : Nat) : Walk := p.walkFrom bounds (unrollLimit + 2) { pc := pc }

/-! ### Checks of a tile (R139, R146, R147) -/

/-- The segment's own limits (R107, R139). -/
def Prog.segCodes (p : Prog) : List Nat :=
  (if p.words.length = 0 ∨ 65536 < p.words.length ∨ p.raws.length = 0 ∨ 4095 < p.raws.length then [0x0301] else []) ++
  (if p.shelf < p.code then [0x0302] else [])

/-- Failures of a tile: ordinal, code, static instruction, record. `walks` are its entry points' walks. A failure of a word or record that no
walk reaches stands at ordinal 0 (log entry 21). -/
def Prog.failures (p : Prog) (walks : List Walk) : List Rej :=
  let no : Nat := 0xFFFFFFFF
  let mk := fun (code ord ins r : Nat) => ({ code := code, tile := p.tile, instr := ins, record := r, ordinal := ord } : Rej)
  if p.segCodes ≠ [] then p.segCodes.map (fun c => mk c 0 no no)
  else
    (walks.filterMap (fun k => match k.stop with
      | some (some c) => some (mk c.1 k.ord (if p.words.length ≤ k.pc then no else k.pc) c.2)
      | _ => none)) ++
    (if walks.any (fun k => match k.stop with
      | some (some _) => true
      | _ => false) then [] else
      (List.range p.words.length).flatMap (fun i => (p.wordCodes i).map (fun c => mk c 0 i no)) ++
      (List.range p.raws.length).flatMap (fun i => if bit (bytesNat (p.raws.getD i []) 64 4) 31 then (p.recCodes i).map (fun c => mk c 0 no i) else []))

/-- A failure is reported before another of the same step: pricking tile, ordinal, code (R147). -/
def Rej.before (a b : Rej) : Bool :=
  decide (a.tile < b.tile) || (a.tile == b.tile && (decide (a.ordinal < b.ordinal) || (a.ordinal == b.ordinal && decide (a.code < b.code))))

/-- The failure of a list that is reported. -/
def firstRej (l : List Rej) : Option Rej :=
  l.foldl (fun a r => match a with
    | some b => if r.before b then some r else some b
    | none => some r) none

/-! ### K-split trees (R72, R143) -/

/-- The entries of a tree. -/
def Image.treeEnts (im : Image) (t : Nat) : List KEnt := im.ktrees.filter (fun e => e.tree == t)

/-- The word that a tree entry names. -/
def Image.kword (im : Image) (e : KEnt) : Option (Nat × Segm) :=
  match im.tiles.find? (fun t => t.tile == e.tile) with
  | some t => match im.segs[t.seg]? with
    | some s => match s.words[e.instr]? with
      | some w => some (w, s)
      | none => none
    | none => none
  | none => none

/-- The record of a segment. -/
def Segm.orec (s : Segm) (i : Nat) : ORec := ORec.ofBytes (s.recs.getD i [])

/-- A matmul of a leaf: `ACC` clear, FP32 output. -/
def leafOk (w : Nat) (s : Segm) : Bool :=
  (iOpc w == opMma || iOpc w == opKnot || iOpc w == opStch) && !mmAcc w && (s.orec (iF2 w)).isF32

/-- The record that an entry writes: the matmul's output, the sum's destination. -/
def koutRec (e : KEnt) (w : Nat) : Nat := if e.node then iF0 w else iF2 w

/-- The payload records that `SEND`s of the image post to a queue of a tile under a tag. -/
def Image.sentTo (im : Image) (tile q tag : Nat) : List (Nat × Nat) :=
  im.tiles.flatMap (fun t => ((im.segs.getD t.seg {}).words.filter (fun w =>
    iOpc w == opSend && hoTile w == tile && hoQueue w == q && hoTag w == tag)).map (fun w => (t.tile, iF0 w)))

/-- The records of other tiles that arrive in record `r` of a tile by `RECV` `COPY`. -/
def Image.arrives (im : Image) (tile r : Nat) : List (Nat × Nat) :=
  (im.tiles.filter (fun t => t.tile == tile)).flatMap (fun t => ((im.segs.getD t.seg {}).words.filter (fun w =>
    iOpc w == opRecv && !isBind w && iF0 w == r)).flatMap (fun w => im.sentTo tile (hoQueue w) (hoTag w)))

/-- The input `r` of a node is what entry `c` writes: on the same tile its record, from another tile by a handoff of it. -/
def Image.kfeeds (im : Image) (e c : KEnt) (r : Nat) : Bool :=
  match im.kword c with
  | some (w, _) => if c.tile = e.tile then koutRec c w == r else (im.arrives e.tile r).contains (c.tile, koutRec c w)
  | none => false

/-- The output region of a leaf: tensor, global origin, extents. -/
def leafRegion (w : Nat) (s : Segm) : Nat × Nat × Nat × Nat × Nat :=
  let o := s.orec (iF2 w)
  (o.tensor, o.grow, o.gcol, mmMv w, mmNv w)

/-- An entry of a tree breaks R143 on its own. -/
def Image.kentBad (im : Image) (es : List KEnt) (e : KEnt) : Bool :=
  match im.kword e with
  | none => true
  | some (w, s) =>
    if e.node then
      !(iOpc w == opVew && vwFn w == 1) ||
      (match es.find? (fun c => c.index == e.left), es.find? (fun c => c.index == e.right) with
       | some a, some b => a.index == b.index || !im.kfeeds e a (iF1 w) || !im.kfeeds e b (iF2 w)
       | _, _ => true)
    else !leafOk w s

/-- Entries below an entry of a tree, itself with them. -/
def kreach (es : List KEnt) : Nat → Nat → List Nat
  | 0, _ => []
  | fuel + 1, i =>
    match es.find? (fun e => e.index == i) with
    | some e => i :: (if e.node then kreach es fuel e.left ++ kreach es fuel e.right else [])
    | none => []

/-- A tree that R143 does not allow. -/
def Image.treeBad (im : Image) (t : Nat) : Bool :=
  let es := im.treeEnts t
  let kids := (es.filter (·.node)).flatMap (fun e => [e.left, e.right])
  let roots := es.filter (fun e => !kids.contains e.index)
  !(es.map (·.index)).Nodup || !kids.Nodup || es.any (im.kentBad es) ||
  (match roots with
   | [r] => (kreach es (es.length + 1) r.index).length != es.length
   | _ => true) ||
  (match (es.filter (fun e => !e.node)).filterMap im.kword with
   | [] => true
   | a :: r => r.any (fun b => leafRegion b.1 b.2 != leafRegion a.1 a.2))

/-- An output of a matmul of a tile: the record is one that a matmul with an FP32 output writes. -/
def Image.isProduct (im : Image) (tile r : Nat) : Bool :=
  (im.tiles.filter (fun t => t.tile == tile)).any (fun t =>
    let s := im.segs.getD t.seg {}
    s.words.any (fun w => (iOpc w == opMma || iOpc w == opKnot || iOpc w == opStch) && iF2 w == r && (s.orec r).isF32))

/-- `VEW` `ADD`s that add a matmul output to a partial from another tile, declared in no tree. -/
def Image.strayAdds (im : Image) : List (Nat × Nat) :=
  im.tiles.flatMap (fun t =>
    let ws := (im.segs.getD t.seg {}).words
    ((List.range ws.length).filter (fun i =>
      let w := ws.getD i 0
      let far := fun r => (im.arrives t.tile r).any (fun q => q.1 != t.tile && im.isProduct q.1 q.2)
      iOpc w == opVew && vwFn w == 1 && ((far (iF1 w) && im.isProduct t.tile (iF2 w)) || (far (iF2 w) && im.isProduct t.tile (iF1 w))) &&
      !im.ktrees.any (fun e => e.node && e.tile == t.tile && e.instr == i))).map (fun i => (t.tile, i)))

/-- The failures of K-split trees. -/
def Image.treeRejs (im : Image) : List Rej :=
  ((im.ktrees.map (·.tree)).eraseDups.filter im.treeBad).map (fun t =>
    let es := im.treeEnts t
    let e := es.foldl (fun a e => if e.tile < a.tile then e else a) (es.headD {})
    ({ code := 0x0508, tile := e.tile, instr := e.instr } : Rej)) ++
  im.strayAdds.map (fun q => ({ code := 0x0508, tile := q.1, instr := q.2 } : Rej))

/-! ### The work estimate (R150) -/

/-- A tile in the estimate walk: its program, the words still to issue, the cycle from which the next may issue, when each lane is free, when
each token is released, when all its work has retired, bound views (record, queue, ring slot), the instruction's ordinal, and when its
`END` retired. -/
structure ESim where
  prog : Prog := {}
  words : List Nat := []
  next : Nat := 32
  lanes : Table Nat := []
  tokens : Table Nat := []
  all : Nat := 0
  views : List (Nat × Nat × Nat) := []
  ord : Nat := 0
  ended : Nat := 0
deriving DecidableEq, Repr

/-- A receive queue in the estimate walk: pricking tile, local queue, the cycle each ring slot is free from (none: holds an entry), and the
entries posted (visible from, tag, ring slot), oldest first. -/
structure EQueue where
  tile : Nat := 0
  loc : Nat := 0
  free : List (Option Nat) := []
  posted : List (Nat × Nat × Nat) := []
deriving DecidableEq, Repr

/-- Queue of a tile. -/
def eq' (qs : List EQueue) (tile loc : Nat) : EQueue := (qs.find? (fun q => q.tile == tile && q.loc == loc)).getD {}

/-- A queue replaced. -/
def eput (qs : List EQueue) (q : EQueue) : List EQueue := qs.map (fun x => if x.tile == q.tile && x.loc == q.loc then q else x)

/-- The ring slot that is free first, with its cycle. -/
def EQueue.slot (q : EQueue) : Option (Nat × Nat) :=
  ((List.range q.free.length).foldl (fun (a : Option (Nat × Nat)) i => match q.free.getD i none with
    | some t => (match a with
      | some b => if t < b.1 then some (t, i) else some b
      | none => some (t, i))
    | none => a) none)

/-- The earliest visible entry under a tag. -/
def EQueue.find (q : EQueue) (tag : Nat) : Option (Nat × Nat × Nat) :=
  (q.posted.filter (fun e => e.2.1 == tag)).foldl (fun a e => match a with
    | some b => if e.1 < b.1 then some e else some b
    | none => some e) none

/-- The cycle at which a tile's next instruction issues, as far as what is known allows; none where a handoff holds it. -/
def ESim.candidate (e : ESim) (qs : List EQueue) : Option Nat :=
  match e.words with
  | [] => none
  | w :: _ =>
    let l := iLane w
    let t := (lanesOf l).foldl (fun t l => max t (tabGet natDflt e.lanes l)) e.next
    let t := (List.range 8).foldl (fun t j => if bit (iTwait w) j then max t (tabGet natDflt e.tokens j) else t) t
    let t := if e.prog.quiet w ∨ iOpc w = opEnd ∨ (iOpc w = opFence ∧ fld w 21 20 ≠ 2) then max t e.all else t
    if iOpc w = opSend then (match (eq' qs (hoTile w) (hoQueue w)).slot with
      | some s => some (max t s.1)
      | none => none)
    else if iOpc w = opRecv then (match (eq' qs e.prog.tile (hoQueue w)).find (hoTag w) with
      | some p => some (max t p.1)
      | none => none)
    else some t

/-- Visibility of a posted entry: 96 cycles after the `SEND` retires. -/
def sendVisible : Nat := 96

/-- The next instruction of a tile issues at cycle `t`. -/
def ESim.issue (e : ESim) (qs : List EQueue) (standin : Bool) (t : Nat) : ESim × List EQueue :=
  match e.words with
  | [] => (e, qs)
  | w :: r =>
    let n := e.prog.count standin w
    let fin := t + n
    let l := iLane w
    let e' := { e with words := r, next := t + 1, ord := e.ord + 1, all := max e.all fin,
                       lanes := (lanesOf l).foldl (fun x l => tabPut natDflt x l fin) e.lanes,
                       tokens := match iTset w with
                         | some j => tabPut natDflt e.tokens j fin
                         | none => e.tokens
                       ended := if iOpc w = opEnd then fin else e.ended }
    if iOpc w = opSend then
      let q := eq' qs (hoTile w) (hoQueue w)
      match q.slot with
      | some s => (e', eput qs { q with free := q.free.set s.2 none, posted := q.posted ++ [(fin + sendVisible, hoTag w, s.2)] })
      | none => (e', qs)
    else if iOpc w = opRecv then
      let q := eq' qs e.prog.tile (hoQueue w)
      match q.find (hoTag w) with
      | some p =>
        let q := { q with posted := q.posted.erase p }
        if isBind w then ({ e' with views := (iF0 w, q.loc, p.2.2) :: e.views }, eput qs q)
        else (e', eput qs { q with free := q.free.set p.2.2 (some fin) })
      | none => (e', qs)
    else if iOpc w = opRel then
      match e.views.find? (fun v => v.1 == iF0 w) with
      | some v =>
        let q := eq' qs e.prog.tile v.2.1
        ({ e' with views := e.views.filter (fun v => v.1 != iF0 w) }, eput qs { q with free := q.free.set v.2.2 (some fin) })
      | none => (e', qs)
    else (e', qs)

/-- The tile that issues next: the earliest candidate, the first tile of the list among equals. -/
def earliest (qs : List EQueue) (ts : List ESim) : Option (Nat × Nat) :=
  (List.range ts.length).foldl (fun (a : Option (Nat × Nat)) i => match (ts.getD i {}).candidate qs with
    | some t => (match a with
      | some b => if t < b.1 then some (t, i) else some b
      | none => some (t, i))
    | none => a) none

/-- The walk of all tiles together; ends when every tile has ended or none can go on. -/
def estRun (standin : Bool) : Nat → List ESim → List EQueue → List ESim
  | 0, ts, _ => ts
  | fuel + 1, ts, qs =>
    match earliest qs ts with
    | none => ts
    | some (t, i) =>
      let r := (ts.getD i {}).issue qs standin t
      estRun standin fuel (ts.set i r.1) r.2

/-- The queues of an image, every ring slot free. -/
def Image.equeues (im : Image) : List EQueue :=
  im.queues.map (fun q => { tile := q.tile, loc := q.loc, free := List.replicate q.slots (some 0) })

/-- The estimate walk of an entry point's tiles: program and unrolled words of each. -/
def estimate (im : Image) (standin : Bool) (tiles : List (Prog × List Nat)) : List ESim :=
  estRun standin (tiles.foldl (fun a t => a + t.2.length) 1) (tiles.map (fun t => { prog := t.1, words := t.2 })) im.equeues

/-- `T_CMD` of a walk: the largest retirement cycle of an `END`. -/
def tCmd (ts : List ESim) : Nat := ts.foldl (fun a e => max a e.ended) 0

/-- The failure of a walk in which a handoff never goes on (`HANDOFF_DEADLOCK`). -/
def deadlocks (ts : List ESim) : List Rej :=
  (ts.filter (fun e => !e.words.isEmpty)).map (fun e => { code := 0x030B, tile := e.prog.tile, ordinal := e.ord })

/-- Counts of a lane summed over the unrolled words of tiles. -/
def laneSum (lane : Nat) (tiles : List (Prog × List Nat)) : Nat :=
  tiles.foldl (fun a t => t.2.foldl (fun a w => if (lanesOf (iLane w)).contains lane then a + t.1.count false w else a) a) 0

/-- Handoff payload bytes. -/
def handoffSum (tiles : List (Prog × List Nat)) : Nat :=
  tiles.foldl (fun a t => t.2.foldl (fun a w => if iOpc w = opSend then a + hoLen w else a) a) 0

/-- An unrolled program holds a `FENCE` `EVENT` (R152). -/
def holdsEvent (tiles : List (Prog × List Nat)) : Bool :=
  tiles.any (fun t => t.2.any (fun w => iOpc w == opFence && fld w 21 20 == 2))

end Sys2Proof.Machine
end

