-- ==== Sys2Proof/Machine/Loader.lean ====
section
/-! DEFINITION. The loader (R134 to R152): grants, relocation, the loader record, and the commands LOAD, UNLOAD and EXEC. -/
namespace Sys2Proof.Machine

/-! ### The LOAD block (R273 Table 9) -/

/-- `IMAGE`. -/
def Cmd.ldImage (m : Cmd) : Nat := m.bf 0 8
/-- `IMAGE_LEN`. -/
def Cmd.ldLen (m : Cmd) : Nat := m.bf 8 8
/-- `RECORD`. -/
def Cmd.ldRecord (m : Cmd) : Nat := m.bf 16 8
/-- `RECORD_LEN`. -/
def Cmd.ldRecLen (m : Cmd) : Nat := m.bf 24 4
/-- `OVR_COUNT`. -/
def Cmd.ldOvr (m : Cmd) : Nat := m.bf 28 1

/-- Logical tile of a pricking tile (R138, R273). -/
def Cmd.ldTile (m : Cmd) (t : Nat) : Nat := if t < m.ldOvr then m.bf (32 + t) 1 else t

/-! ### Grants (R59, R79, R99, R138 to R140, R189) -/

/-- What a load takes on one tile: pricking and logical tile, slot, units, queues as (local, device). -/
structure Grant where
  tile : Nat := 0
  logical : Nat := 0
  slot : Nat := 0
  units : List Nat := []
  queues : List (Nat × Nat) := []
deriving DecidableEq, Repr

/-- The lowest `n` numbers below `bound` that satisfy `p`. -/
def lowestN (bound n : Nat) (p : Nat → Bool) : List Nat := ((List.range bound).filter p).take n

/-- Free units of a tile: neither granted nor retired. -/
def Tile.unitFree (x : Tile) (u : Nat) : Bool := tabGet natDflt x.owner u == 0 && !x.retired.contains u

/-- Local queues of a pricking tile that the image declares, in increasing number. -/
def Image.queuesOf (im : Image) (t : Nat) : List QueueMap := sortBy (im.queues.filter (fun q => q.tile == t)) (fun a b => decide (a.loc ≤ b.loc))

/-- The grant of a tile. -/
def Dev.grantOf (d : Dev) (m : Cmd) (im : Image) (t : TileMap) : Grant :=
  let x := d.tile (m.ldTile t.tile)
  { tile := t.tile, logical := m.ldTile t.tile, slot := (lowest 16 (fun k => !(x.slot k).valid)).getD 16,
    units := lowestN 64 t.units x.unitFree,
    queues := ((im.queuesOf t.tile).map (·.loc)).zip (lowestN 16 t.queues (fun q => (x.recvq q).owner.isNone)) }

/-- Ring bytes of a queue. -/
def QueueMap.bytes (q : QueueMap) : Nat := q.slots * q.size

/-- A queue breaks R99 or R139: shape, ring outside the shelf or in the code region, over another ring or a record that is no view. -/
def Prog.queueBad (p : Prog) (q : QueueMap) : Bool :=
  let meets := fun (lo : Int) (n : Nat) => decide (lo < ((q.off + q.bytes : Nat) : Int)) && decide ((q.off : Int) < lo + n)
  decide (q.slots < 2) || decide (64 < q.slots) || q.size == 0 || q.size % 256 != 0 || decide (2 ^ 20 < q.size) ||
  decide (p.shelf < q.off + q.bytes) || decide (q.off < p.code) ||
  (p.im.queuesOf p.tile).any (fun r => r.loc != q.loc && meets r.off r.bytes) ||
  (List.range p.recs.length).any (fun i =>
    let r := p.orec i
    r.valid && !r.cellar && !p.isView i &&
    (p.spansAt { idx := i, rows := r.rows, cols := r.cols, shad := true, tally := true } 0 0).any (fun s => meets s.lo s.len))

/-- Queue declarations of a tile that do not agree with its `TILEMAP` entry (log entry 21). -/
def Image.queuesBad (im : Image) (t : TileMap) : Bool := (im.queuesOf t.tile).map (·.loc) != List.range t.queues

/-- Failures of step 3 on a tile (R147). -/
def Dev.grantRejs (d : Dev) (m : Cmd) (h : Nat) (im : Image) (t : TileMap) : List Rej :=
  let l := m.ldTile t.tile
  let x := d.tile l
  let g := d.grantOf m im t
  let mk := fun c => ({ code := c, tile := t.tile } : Rej)
  let stages := im.stages.filter (fun s => bit s.2 t.tile)
  (if 96 ≤ t.tile ∨ 1 < (im.tiles.filter (fun u => u.tile == t.tile)).length ∨ 1 < (im.tiles.filter (fun u => m.ldTile u.tile == l)).length ∨
      d.tileActive l = false then [mk 0x0201] else []) ++
  (if bit (d.hoop h).inForce.tiles l then [] else [mk 0x0202]) ++
  (if g.slot = 16 then [mk 0x0203] else []) ++
  (if t.units = 0 ∨ 64 < t.units ∨ ((List.range 64).filter x.unitFree).length < t.units then [mk 0x0204] else []) ++
  (if ((List.range 16).filter (fun q => (x.recvq q).owner.isNone)).length < t.queues then [mk 0x0205] else []) ++
  (if im.queuesBad t || (im.queuesOf t.tile).any ((progOf im t).queueBad) then [mk 0x0206] else []) ++
  (if !im.stages.isEmpty && stages.length != 1 then [mk 0x020B] else [])

/-- Free saturation or layer-statistics entries of the device that a load takes, the lowest first. -/
def freeEntries (t : Table Entry) (bound n : Nat) : List Nat := lowestN bound n (fun e => !(tabGet entryDflt t e).assigned)

/-- Entries of a table that a hoop holds. -/
def hoopEntries (t : Table Entry) (h : Nat) : Nat := (t.filter (fun e => e.2.assigned && e.2.hoop == h)).length

/-- Failures of step 3. -/
def Dev.grantFails (d : Dev) (m : Cmd) (im : Image) : List Rej :=
  let h := (d.ctx m.ctx).hoop
  let s := (d.hoop h).inForce
  im.tiles.flatMap (d.grantRejs m h im) ++
  (im.entries.flatMap (fun e => (e.tiles.filter (fun q => !im.tiles.any (fun t => t.tile == q.1))).map (fun q => { code := 0x0201, tile := q.1 }))) ++
  (if im.nsat + hoopEntries d.sats h ≤ s.sats ∧ (freeEntries d.sats 4096 im.nsat).length = im.nsat then [] else [{ code := 0x0208 }]) ++
  (if im.nlst + hoopEntries d.lsts h ≤ s.lsts ∧ (freeEntries d.lsts 4096 im.nlst).length = im.nlst then [] else [{ code := 0x0209 }])

/-! ### Relocation (R140) -/

/-- A granted queue of a pricking tile. -/
def queueAt (gs : List Grant) (tile loc : Nat) : Nat :=
  match gs.find? (fun g => g.tile == tile) with
  | some g => ((g.queues.find? (fun q => q.1 == loc)).map (·.2)).getD 0
  | none => 0

/-- Logical tile of a pricking tile. -/
def logicalAt (gs : List Grant) (tile : Nat) : Nat := ((gs.find? (fun g => g.tile == tile)).map (·.logical)).getD 0

/-- An instruction word relocated. -/
def relocWord (gs : List Grant) (tile : Nat) (lsts : List Nat) (w : Nat) : Nat :=
  if iOpc w = opSend then setFld (setFld w 38 32 (logicalAt gs (hoTile w))) 42 39 (queueAt gs (hoTile w) (hoQueue w))
  else if iOpc w = opRecv then setFld w 42 39 (queueAt gs tile (hoQueue w))
  else if iOpc w = opVstat then setFld w 45 32 (lsts.getD (fld w 45 32) 0)
  else w

/-- An operand record relocated: `SAT_ENTRY` where `SAT_EN` is set. -/
def relocRec (sats : List Nat) (raw : List Byte) : List Byte :=
  let f := bytesNat raw 64 4
  if bit f 17 then raw.take 64 ++ toBytes 4 (setFld f 29 18 (sats.getD (fld f 29 18) 0)) ++ raw.drop 68 else raw

/-! ### Placing a load (R146 steps 6 and 7) -/

/-- Registers of an instance on a page dropped back to zero: what assigning an entry does (R59). -/
def Dev.zeroInst (d : Dev) (page idx : Nat) : Dev :=
  { d with regs := tabClear (fun k => decide (rk page idx 0x100 ≤ k) && decide (k < rk page idx 0x1000)) d.regs }

/-- Entries assigned to tensors, each zeroed. -/
def Dev.assignSats (d : Dev) (c h : Nat) (ids tensors : List Nat) : Dev :=
  (ids.zip tensors).foldl (fun d e => (d.zeroInst pgNum e.1).setSat e.1 { assigned := true, ctx := c, hoop := h, tensor := e.2 }) d

/-- Layer-statistics entries assigned, each zeroed. -/
def Dev.assignLsts (d : Dev) (c h : Nat) (ids tensors : List Nat) : Dev :=
  (ids.zip tensors).foldl (fun d e => (d.zeroInst pgLst e.1).setLst e.1 { assigned := true, ctx := c, hoop := h, tensor := e.2 }) d

/-- The tensor of a local saturation entry: that of the first record naming it (log entry 21). -/
def Image.satTensor (im : Image) (i : Nat) : Nat :=
  let rs := im.segs.flatMap (fun s => s.recs.map ORec.ofBytes)
  ((rs.find? (fun r => r.valid && r.satEn && r.satEntry == i)).map (·.tensor)).getD 0

/-- The tensor of a local layer-statistics entry: that of the record of the first `VSTAT` naming it. -/
def Image.lstTensor (im : Image) (i : Nat) : Nat :=
  let ws := im.segs.flatMap (fun s => (s.words.filter (fun w => iOpc w == opVstat && fld w 45 32 == i)).map (fun w => (s.orec (iF0 w)).tensor))
  ws.headD 0

/-- The slot, units, code and queues of one tile. -/
def Dev.place (d : Dev) (c h : Nat) (im : Image) (gs : List Grant) (sats lsts : List Nat) (g : Grant) : Dev :=
  match im.tiles.find? (fun t => t.tile == g.tile) with
  | none => d
  | some t =>
    let seg := im.segs.getD t.seg {}
    let s : Slot := { valid := true, ctx := c, hoop := h, units := g.units, instrs := seg.words.length, records := seg.recs.length }
    let d := g.units.foldl (fun d u => { d with pantry := memZero d.pantry (g.logical * 2 ^ 22 + u * 65536) 65536 }) d
    let x := (d.tile g.logical).setSlot g.slot s
    let x := { x with owner := g.units.foldl (fun o u => tabPut natDflt o u (g.slot + 1)) x.owner }
    let x := (im.queuesOf g.tile).foldl (fun x q => x.setRecvq (queueAt gs g.tile q.loc)
      { owner := some g.slot, slots := q.slots, size := q.size, off := q.off }) x
    let d := d.setTile g.logical x
    d.shelfWrite g.logical s 0 ((seg.words.map (relocWord gs g.tile lsts)).flatMap (toBytes 16) ++ seg.recs.flatMap (relocRec sats))

/-! ### The unpinned count (R291) -/

/-- The page of `va` is unpinned: its leaf invalid, without `P`, or off the stack that VA[18:16] names. -/
def Dev.unpinnedPage (d : Dev) (c va : Nat) : Bool :=
  let x := d.ctx c
  let e0 := d.pte (x.root * 65536 + fld va 47 42 * 8)
  if !bit e0 0 || pteBad 0 e0 then true else
  let e1 := d.pte (fld e0 38 16 * 65536 + fld va 41 29 * 8)
  if !bit e1 0 || pteBad 1 e1 then true else
  if bit e1 4 then !bit e1 3 else
  let e2 := d.pte (fld e1 38 16 * 65536 + fld va 28 16 * 8)
  !bit e2 0 || pteBad 2 e2 || !bit e2 3 || fld e2 18 16 != fld va 18 16

/-- Unpinned pages inside declared ranges. -/
def Dev.unpinnedIn (d : Dev) (c : Nat) (ranges : List (Nat × Nat × Nat)) : Nat :=
  ranges.foldl (fun n r => n + ((List.range (r.2.1 / 65536)).filter (fun i => d.unpinnedPage c (r.1 + 65536 * i))).length) 0

/-- The context's unpinned count brought up to date. -/
def Dev.recountPins (d : Dev) (c : Nat) : Dev :=
  match (d.ctx c).pricking with
  | some p => d.setCtx c { d.ctx c with unpinned := d.unpinnedIn c p.ranges }
  | none => d

/-! ### The loader record (R148 Table 5, R152 Table 7) -/

/-- An estimate record. -/
def PEntry.record (e : PEntry) : List Byte :=
  toBytes 4 e.id ++ toBytes 4 (b2n e.bounded) ++ toBytes 8 e.tCmd ++ toBytes 8 e.matrix ++ toBytes 8 e.vector ++ toBytes 8 e.move ++
  toBytes 8 e.cellarRd ++ toBytes 8 e.cellarWr ++ toBytes 8 e.handoff ++ toBytes 8 e.tStandin ++ toBytes 8 0

/-- The record's first 128 bytes. -/
def loadHead (st : Status) (r : Rej) (nclk : Nat) (measure : List Byte) (entries : Nat) : List Byte :=
  toBytes 2 st.code ++ toBytes 2 r.code ++ toBytes 2 r.sectNo ++ toBytes 2 r.tile ++ toBytes 4 r.instr ++ toBytes 4 r.record ++
  toBytes 8 r.ordinal ++ toBytes 8 nclk ++ (measure ++ List.replicate (48 - measure.length) (0 : Byte)).take 48 ++ toBytes 4 entries ++ toBytes 44 0

/-! ### A load (R146) -/

/-- How a load ends before anything is placed: its status, the failing check, the measurement taken by then. -/
structure LoadEnd where
  status : Status := .ok
  rej : Rej := {}
  measure : List Byte := []
deriving DecidableEq, Repr

/-- What a load that passes every check places. -/
structure LoadPlan where
  im : Image := {}
  grants : List Grant := []
  sats : List Nat := []
  lsts : List Nat := []
  entries : List PEntry := []
  measure : List Byte := []
deriving DecidableEq, Repr


/-- Every owner of a joint hoop has approved the measurement (R137, R414). -/
def Dev.approved (d : Dev) (h : Nat) (measure : List Byte) : Bool :=
  let s := d.hoopSec h
  !(d.hoop h).joint || s.owners.all (fun o => s.approvals.contains (o.1, measure))

/-- The section-table index of a segment. -/
def segSection (bs : List Byte) (seg : Nat) : Nat :=
  let ss := imgSects bs
  (((List.range ss.length).filter (fun i => (ss.getD i {}).typ == 2))[seg]?).getD 0xFFFF

/-- Walks of a tile: one for each entry point that names it. -/
def walksOf (im : Image) (t : TileMap) : List (Nat × Walk) :=
  im.entries.flatMap (fun e => (e.tiles.filter (fun q => q.1 == t.tile)).map (fun q => (e.id, (progOf im t).walk e.bounds q.2)))

/-- An entry point with its estimate (R150 to R152), and the handoffs that never go on. -/
def entryEst (im : Image) (gs : List Grant) (walks : List (TileMap × List (Nat × Walk))) (e : EntryPt) : PEntry × List Rej :=
  let ws := walks.flatMap (fun t => (t.2.filter (fun k => k.1 == e.id)).map (fun k => (progOf im t.1, k.2)))
  let tiles := ws.map (fun k => (k.1, k.2.steps.reverse))
  let run := estimate im false tiles
  ({ id := e.id, bounds := e.bounds, bounded := !holdsEvent tiles, tCmd := tCmd run, tStandin := tCmd (estimate im true tiles),
     tiles := e.tiles.map (fun q => (logicalAt gs q.1, ((gs.find? (fun g => g.tile == q.1)).map (·.slot)).getD 0, q.2)),
     matrix := laneSum 0 tiles, vector := laneSum 1 tiles, move := laneSum 2 tiles,
     cellarRd := ws.foldl (fun a k => a + k.2.rd) 0, cellarWr := ws.foldl (fun a k => a + k.2.wr) 0, handoff := handoffSum tiles,
     ranges := (ws.flatMap (fun k => k.2.touched)).eraseDups.length }, deadlocks run)

/-- Steps 3 to 5 on a parsed image. -/
def Dev.loadSteps (d : Dev) (m : Cmd) (bs : List Byte) (im : Image) (measure : List Byte) : Except LoadEnd LoadPlan :=
  let reject := fun (r : Rej) => (Except.error { status := .loaderReject, rej := r, measure := measure } : Except LoadEnd LoadPlan)
  match firstRej (d.grantFails m im) with
  | some r => reject r
  | none =>
    let walks := im.tiles.map (fun t => (t, walksOf im t))
    let fails := walks.flatMap (fun t => ((progOf im t.1).failures (t.2.map (·.2))).map (fun r => { r with sectNo := segSection bs t.1.seg }))
    match firstRej (fails ++ im.treeRejs ++ (if im.cellar.any (fun q => q.1 % 65536 != 0 || q.2.1 % 65536 != 0) then [{ code := 0x0411 }] else [])) with
    | some r => reject r
    | none =>
      let gs := im.tiles.map (d.grantOf m im)
      let es := im.entries.map (entryEst im gs walks)
      match firstRej (es.flatMap (·.2)) with
      | some r => reject r
      | none => .ok { im := im, grants := gs, sats := freeEntries d.sats 4096 im.nsat, lsts := freeEntries d.lsts 4096 im.nlst,
                      entries := es.map (·.1), measure := measure }

/-- Steps 1 to 5 on the image's bytes. -/
def Dev.loadCheck (d : Dev) (m : Cmd) (bs : List Byte) : Except LoadEnd LoadPlan :=
  let n := (imgParse bs).entries.length
  match imgCheck bs m.ldLen (d.ctx m.ctx).pricking.isSome with
  | some r => .error { status := .loaderReject, rej := r }
  | none =>
    if m.ldRecLen < 128 + 80 * n then .error { status := .badDescriptor }
    else
      let measure := digest bs
      if !d.approved (d.ctx m.ctx).hoop measure then .error { status := .authRequired, measure := measure }
      else d.loadSteps m bs (imgParse bs) measure

/-- The pricking of a plan. -/
def LoadPlan.pricking (p : LoadPlan) : Pricking :=
  { measure := p.measure, tiles := p.grants.map (fun g => (g.logical, g.slot)), entries := p.entries, ranges := p.im.cellar,
    sats := p.sats, lsts := p.lsts }

/-- Steps 6 and 7: placed and published. -/
def Dev.loadPlace (d : Dev) (c : Nat) (p : LoadPlan) : Dev :=
  let h := (d.ctx c).hoop
  let d := d.assignSats c h p.sats ((List.range p.im.nsat).map p.im.satTensor)
  let d := d.assignLsts c h p.lsts ((List.range p.im.nlst).map p.im.lstTensor)
  let d := p.grants.foldl (fun d g => d.place c h p.im p.grants p.sats p.lsts g) d
  (d.setCtx c { d.ctx c with pricking := some p.pricking }).recountPins c

/-- The loader record written; one that cannot be written leaves the status as it is (log entry 21). -/
def Dev.putRecord (d : Dev) (m : Cmd) (bs : List Byte) : Dev := if m.ldRecLen < 128 then d else (d.writeVa m.ctx m.ldRecord bs).1

/-- The load of a released LOAD command: `nclk` is its duration since acceptance. -/
def Dev.load (d : Dev) (trk nclk : Nat) : Dev :=
  let m := d.cmd trk
  if m.block.length < 128 ∨ 96 < m.ldOvr ∨ m.bf 29 3 ≠ 0 ∨ m.ldRecLen < 128 then d.finish trk .badDescriptor
  else if (d.ctx m.ctx).pricking.isSome then
    (d.putRecord m (loadHead .loaderReject { code := 0x0106 } nclk [] 0)).finish trk .loaderReject
  else
    let head := (d.readVa m.ctx m.ldImage (min 256 m.ldLen)).bytes
    -- an image whose header fails is not read further
    let len := if img head 0 8 = imgMagic ∧ img head 16 8 = m.ldLen then m.ldLen else min 256 m.ldLen
    match d.readVa m.ctx m.ldImage len with
    | .notMapped _ _ => (d.putRecord m (loadHead .pageFault {} nclk [] 0)).finish trk .pageFault
    | .fail .uncorrectableMemory => d.classP (d.ctx m.ctx).hoop m.ctx (some trk) 0x61 { unit := Client.internal.code, addr := m.ldImage } (some trk)
    | .fail st => (d.putRecord m (loadHead st {} nclk [] 0)).finish trk st
    | .data bs =>
      match d.loadCheck m bs with
      | .error e => (d.putRecord m (loadHead e.status e.rej nclk e.measure 0)).finish trk e.status
      | .ok p =>
        let d := d.loadPlace m.ctx p
        (d.putRecord m (loadHead .ok {} nclk p.measure p.entries.length ++ p.entries.flatMap PEntry.record)).finish trk .ok

/-- A released command of a type whose work has not begun. -/
def Dev.begins (d : Dev) (trk typ : Nat) : Bool :=
  let m := d.cmd trk
  d.live && m.live && m.released && m.stage == .running && !m.started && m.typ == typ

/-- The unload of a released UNLOAD command (R134). -/
def Dev.unload (d : Dev) (trk : Nat) : Dev :=
  let c := (d.cmd trk).ctx
  if (d.ctx c).pricking.isNone || (d.cmdsOf (fun m => m.ctx == c)).any (· != trk) then d.finish trk .badDescriptor
  else (d.freePricking c).finish trk .ok

/-! ### Starting a program (R122, R150, R272) -/

/-- A slot at command start: the entry instruction, x8 to x15 and `STEP` of the command, every token released; x1 to x7 zero (R106, log
entry 23). -/
def Slot.startAt (s : Slot) (trk pc : Nat) (m : Cmd) : Slot :=
  { s with pc := pc, step := m.stepOp, tokens := 0xFF, loops := [], running := some trk, flight := [], parked := false,
           xs := (List.range 8).foldl (fun t i => tabPut natDflt t (8 + i) (m.bf (8 * i) 8)) [] }

/-- The program of a released EXEC begins on every tile of its entry once no slot of it runs another command. -/
def Dev.execStart (d : Dev) (trk : Nat) : Dev :=
  let m := d.cmd trk
  match (d.ctx m.ctx).pricking with
  | none => d.finish trk .badDescriptor
  | some p => match p.entries.find? (fun e => e.id == m.entry) with
    | none => d.finish trk .badDescriptor
    | some e =>
      if e.tiles.any (fun t => (d.slot t.1 t.2.1).running.isSome) then d
      else
        let d := e.tiles.foldl (fun d t => d.setSlot t.1 t.2.1 ((d.slot t.1 t.2.1).startAt trk t.2.2 m)) d
        (d.updCmd trk (fun m => { m with started := true })).endCheck trk

/-- EXEC: a released command starts on its tiles (R272). -/
def execExecCmd (trk now : Nat) (s : State) : Host.Outcome State Fault Refusal :=
  onDev s (fun d => let d := d.at now; if d.begins trk tyExec then d.execStart trk else d)

/-- LOAD: the load sequence of a released command (R146), which took `nclk` NCLK cycles. -/
def execLoadCmd (trk nclk now : Nat) (s : State) : Host.Outcome State Fault Refusal :=
  onDev s (fun d => let d := d.at now; if d.begins trk tyLoad then d.load trk nclk else d)

/-- UNLOAD (R134). -/
def execUnloadCmd (trk now : Nat) (s : State) : Host.Outcome State Fault Refusal :=
  onDev s (fun d => let d := d.at now; if d.begins trk tyUnload then d.unload trk else d)

/-- SIGNAL: a released command has no work; its completion signals (R271 Table 7). -/
def execSignalCmd (trk now : Nat) (s : State) : Host.Outcome State Fault Refusal :=
  onDev s (fun d => let d := d.at now; if d.begins trk tySignal then d.finish trk .ok else d)

end Sys2Proof.Machine
end

