-- ==== Sys2Proof/Machine/Darner.lean ====
section
/-! DEFINITION. The darners (R167 to R191): gradient pairs, moments and compute copies, the rules of R177, the matrix rules of R185 and R186,
strips and their commits, update fences, and the commands FOLD, SCAN and STEP. -/
namespace Sys2Proof.Machine

/-! ### Validation of a parameter record (R173) -/

/-- Composites that a compute copy may have (R167 Table 1). -/
def PRec.fmtOk (r : PRec) : Bool :=
  (r.fmt == .e2m1 && (r.bmode == .mx32 || r.bmode == .nb16)) || (r.fmt == .e4m3 && r.bmode == .mx32) || (r.fmt == .bf16 && r.bmode == .none)

/-- The rule runs matrix products (R185). -/
def PRec.matrix (r : PRec) : Bool := r.rule == 4 || r.rule == 5

/-- Address fields that operation `op` (1 FOLD, 2 SCAN, 3 STEP) uses of a record. -/
def PRec.used (r : PRec) (op : Nat) : List Nat :=
  let g := [r.gq, r.ge, r.gs]
  if op = 1 then r.gf :: g
  else if op = 2 then g
  else g ++ [r.master, r.cmp, r.mAddr, r.mScale] ++ (if r.bmode == .none then [] else [r.cmpScale]) ++
    (if r.usesR then [r.rAddr, r.rScale] else []) ++ (if r.matrix then [r.aux] else [])

/-- A layer-statistics or saturation index is none, or the context's. -/
def ownEntry (t : Table Entry) (c i : Nat) : Bool := i == 0xFFFF || ((tabGet entryDflt t i).assigned && (tabGet entryDflt t i).ctx == c)

/-- A record fails R173 for operation `op` of context `c`; `raw` is its 256 bytes. -/
def Dev.precBad (d : Dev) (c op : Nat) (r : PRec) (raw : List Byte) : Bool :=
  bytesNat raw 0 4 != 0x43455250 || bytesNat raw 4 4 != 0x10000 || bytesNat raw 200 56 != 0 || r.addr % 256 != 0 ||
  bit r.cfmt 7 || fld r.crot 7 4 != 0 || fld r.rflags 7 1 != 0 || decide (2 ^ 48 ≤ r.gcols) ||
  r.rule == 0 || decide (5 < r.rule) || !r.fmtOk || r.rows == 0 || decide (2 ^ 31 ≤ r.rows) || r.cols == 0 || decide (2 ^ 31 ≤ r.cols) ||
  decide (5 < r.rot) || (r.rot != 0 && (r.fmt == .bf16 || r.grow % rotN r.rot != 0 || r.rows % rotN r.rot != 0)) ||
  (r.used op).any (fun a => a == 0 || a % 256 != 0 || decide (2 ^ 48 ≤ a)) ||
  !ownEntry d.lsts c r.lstW || !ownEntry d.lsts c r.lstG || !ownEntry d.lsts c r.lstU || !ownEntry d.sats c r.sat ||
  (op == 3 && (!tsSupplied r.mNext || (r.usesR && !tsSupplied r.rNext) || (r.bmode == .nb16 && !tsSupplied r.csNext)))

/-- `TILES` of an update block. -/
def Cmd.utiles (m : Cmd) : Nat := m.bf 88 12
/-- `BORROW_OFF`. -/
def Cmd.uborrow (m : Cmd) : Nat := m.bf 100 4
/-- `NS_ITERS`. -/
def Cmd.uns (m : Cmd) : Nat := m.bf 84 1
/-- `ROOT_ITERS`. -/
def Cmd.uroots (m : Cmd) : Nat := m.bf 85 1

/-- Fields of the update block outside their ranges (R174). -/
def Cmd.ublockBad (m : Cmd) : Bool :=
  m.block.length != 128 || m.uop == 0 || decide (3 < m.uop) || decide (1023 < m.ufence) || (m.uop != 3 && m.ufence != 0) ||
  decide (2 ^ 48 ≤ m.ulist) || m.ucount == 0 || decide (65536 < m.ucount) || fld m.uflags 31 4 != 0 || fld m.uflags 3 2 == 3 ||
  m.uns == 0 || decide (16 < m.uns) || m.uroots == 0 || decide (32 < m.uroots) || m.bf 86 2 != 0 || m.uborrow % 65536 != 0 || m.bf 104 24 != 0

/-- Logical tiles that the update borrows, in increasing number. -/
def Cmd.borrowed (m : Cmd) : List Nat := (List.range 96).filter (bit m.utiles)

/-- The slot of a context on a tile. -/
def Dev.slotOn (d : Dev) (c t : Nat) : Option Nat := lowest 16 (fun k => (d.slot t k).valid && (d.slot t k).ctx == c)

/-- The borrowed tiles are the hoop's, and the context holds on each a shelf that covers the region (R185). -/
def Dev.borrowOk (d : Dev) (m : Cmd) : Bool :=
  !m.borrowed.isEmpty && m.borrowed.all (fun t => bit (d.hoop m.hoop).inForce.tiles t && (match d.slotOn m.ctx t with
    | some k => decide (m.uborrow + 2 ^ 20 ≤ (d.slot t k).size)
    | none => false))

/-- The raw bytes of the i-th record. -/
def Dev.precRaw (d : Dev) (m : Cmd) (i : Nat) : List Byte := (d.readVa m.ctx (d.recAddr m i) 256).bytes

/-- The records of a command. -/
def Dev.precs (d : Dev) (m : Cmd) : List PRec := (List.range m.ucount).map (d.prec m)

/-- Some record fails R173, or a matrix rule has no tiles to run on (R185). -/
def Dev.listBad (d : Dev) (m : Cmd) : Bool :=
  (List.range m.ucount).any (fun i => d.precBad m.ctx m.uop (d.prec m i) (d.precRaw m i)) ||
  (m.uop == 3 && (d.precs m).any PRec.matrix && !d.borrowOk m)

/-- FOLD and SCAN name at most 256 distinct entries (R175). -/
def Dev.entriesBad (d : Dev) (m : Cmd) : Bool :=
  m.uop != 3 && decide (256 < (((d.precs m).flatMap (fun r => [(0, r.lstG), (1, r.sat)])).eraseDups.filter (fun e => e.2 != 0xFFFF)).length)

/-! ### Geometry (R168, R178) -/

/-- Strip `i` of a record. -/
def PRec.strip (r : PRec) (i : Nat) : StripG :=
  let b := i / r.groupsOf * r.band
  let c := i % r.groupsOf * 32
  { r0 := b, nr := min r.band (r.rows - b), c0 := c, nc := min 32 (r.cols - c), first := i == 0, last := i + 1 == r.strips }

/-- FP32 array rows. -/
def PRec.f32Runs (r : PRec) (base : Nat) (g : StripG) : List (Nat × Nat) := rowRuns base (pitch256 (4 * r.cols)) (4 * g.c0) (4 * g.nc) g.r0 g.nr
/-- Compute-copy elements. -/
def PRec.cmpRuns (r : PRec) (g : StripG) : List (Nat × Nat) :=
  rowRuns r.cmp (pitch256 (r.fmt.rowBytes r.cols)) (r.fmt.rowBytes g.c0) (r.fmt.rowBytes g.nc) g.r0 g.nr
/-- Compute-copy scales: bands of 32 rows, or of 4 for NBF4. -/
def PRec.cmpScaleRuns (r : PRec) (g : StripG) : List (Nat × Nat) :=
  match r.bmode with
  | .none => []
  | .nb16 => rowRuns r.cmpScale (pitch256 (cdiv r.cols 4)) (g.c0 / 4) (cdiv g.nc 4) (g.r0 / 4) (cdiv g.nr 4)
  | _ => rowRuns r.cmpScale (pitch256 r.cols) g.c0 g.nc (g.r0 / 32) (cdiv g.nr 32)

/-- The whole record as one strip. -/
def PRec.whole (r : PRec) : StripG := { nr := r.rows, nc := r.cols, first := true, last := true }

/-- The moments' regions. -/
def PRec.momentRuns (r : PRec) (g : StripG) : List (Nat × Nat) :=
  r.byteRuns r.mAddr g ++ r.blockRuns r.mScale g ++ (if r.usesR then r.byteRuns r.rAddr g ++ r.blockRuns r.rScale g else [])

/-- What a strip of operation `op` reads. -/
def PRec.reads (r : PRec) (op : Nat) (g : StripG) : List (Nat × Nat) :=
  if op = 1 then r.f32Runs r.gf g
  else if op = 2 then r.pairRuns g
  else r.f32Runs r.master g ++ r.pairRuns g ++ r.momentRuns g

/-- What a strip of operation `op` writes. -/
def PRec.writes (r : PRec) (op : Nat) (g : StripG) : List (Nat × Nat) :=
  if op = 1 then r.pairRuns g
  else if op = 2 then []
  else r.f32Runs r.master g ++ r.cmpRuns g ++ r.cmpScaleRuns g ++ (if r.matrix then [] else r.momentRuns g)

/-! ### Moments (R171) -/

/-- A moment's element decoded. -/
def momentValue (c sb st : Nat) : Nat := fMul (f32Round .rne ((Fmt.e4m3.decode c).mul (Fmt.ue4m3.decode sb))) st

/-- A block of moments written under tensor scale `sn`: scale, elements, events, greatest magnitude. -/
def momentBlock (sn : Nat) (root : Bool) (vs : List Nat) : Nat × List Nat × Nat × Nat :=
  let am := amaxOfCodes vs
  match allFin (vs.map f32), f32 sn with
  | some xs, .fin s =>
    let a := amaxOf xs
    let sb := if a.num = 0 then 0 else min (parE4M3.roundUp (a.div ((exInt 448).mul s))) parE4M3.top
    if sb = 0 then (0, vs.map (fun _ => 0), 0, am)
    else
      let q := quantAll .e4m3 (xs.map (fun x => (x.div ((parE4M3.value false sb).mul s), .rne)))
      (sb, q.1.map (fun c => if root then c % 128 else c), q.2, am)
  | _, _ => (0x7F, vs.map (fun _ => 0), 1, am)

/-- The `_NEXT` scale after a STEP: the greatest magnitude over `k`, rounded up. -/
def nextScale (am k : Nat) : Nat :=
  match f32 am with
  | .fin x => parF32.roundUp (x.div (exInt k))
  | .inf _ => 0x7F800000
  | .nan => 0x7FC00000

/-! ### The compute copy (R172) -/

/-- Elements packed into the bytes of a row that begins at a packing group. -/
def packRow (f : Fmt) (codes : List Nat) : List Byte :=
  ((List.range codes.length).zip codes).foldl (fun bs e => putElem f bs (elemPlaceI .none f e.1) 0 e.2)
    (List.replicate (f.rowBytes codes.length) 0)

/-- Values of a band rotated along rows. -/
def PRec.rotated (r : PRec) (step : Nat) (g : StripG) (w : List (List Nat)) : List (List Nat) :=
  transpose g.nr ((transpose g.nc w).map (rotateLine r.rot r.seed step (r.grow + g.r0) r.stepMode))

/-- Writes of the compute copy of a strip, its events, and the greatest rotated magnitude. -/
def PRec.computeCopy (r : PRec) (step : Nat) (g : StripG) (w : List (List Nat)) : List (Nat × List Byte) × Nat × Nat :=
  let x := r.rotated step g w
  let s : Slice := { op := { flags := r.cfmt % 128 + 512, rows := g.nr, cols := g.nc }, rows := g.nr, cols := g.nc }
  let q := s.quant r.csNext (gridAt x) (fun _ _ => .rne)
  let rows := (r.cmpRuns g).zip (List.range g.nr)
  let els := rows.map (fun e => (e.1.1, packRow r.fmt ((List.range g.nc).map (fun j => tabGet natDflt q.codes (s.ix e.2 j)))))
  let n := if r.bmode == .nb16 then 4 else 32
  let scs := q.scales.map (fun e =>
    let band := (g.r0 + e.1.1) / n
    let a := if r.bmode == .nb16 then r.cmpScale + band * pitch256 (cdiv r.cols 4) + (g.c0 + e.1.2) / 4
      else r.cmpScale + band * pitch256 r.cols + g.c0 + e.1.2
    (a, [BitVec.ofNat 8 e.2]))
  (els ++ scs, q.count, gridAmax x)

/-! ### Rules (R177) -/

/-- `LR`, `WD`, `B1`, `OMB1`, `B2`, `OMB2`, `C1`, `C2`, `EPS`, `GSCALE` are hyperparameters 0 to 9; `NS_A` to `NS_C`, `SC`, `KBETA` follow. -/
def Cmd.gscale (m : Cmd) : Nat := m.hyper 9

/-- Update `u` and new moments of an element: gradient, momentum, root. -/
def PRec.rule177 (r : PRec) (m : Cmd) (g mo ro : Nat) : Nat × Nat × Nat :=
  let b1 := m.hyper 2
  match r.rule with
  | 1 =>
    let m' := fFma b1 mo g
    (if bit r.rflags 0 then fFma b1 m' g else m', m', 0)
  | 2 =>
    let m' := fFma b1 mo (fMul (m.hyper 3) g)
    let v' := fFma (m.hyper 4) (fMul ro ro) (fMul (m.hyper 5) (fMul g g))
    let r' := tSqrt v'
    (fMul (fMul m' (m.hyper 6)) (tRcp (fFma r' (m.hyper 7) (m.hyper 8))), m', r')
  | 3 =>
    let c := fFma b1 mo (fMul (m.hyper 3) g)
    let u := match f32 c with
      | .nan => 0x7FC00000
      | .inf n => if n then 0xBF800000 else fOne
      | .fin x => if x.num = 0 then 0 else if x.neg then 0xBF800000 else fOne
    (u, fFma (m.hyper 4) mo (fMul (m.hyper 5) g), 0)
  | 4 => (0, fFma b1 mo g, 0)
  | _ => (0, fFma b1 mo (fMul (m.hyper 3) g), 0)

/-! ### Reading a strip -/

/-- Numbers of `w` bytes of each run. -/
def Dev.runNats (d : Dev) (c w : Nat) (runs : List (Nat × Nat)) : List (List Nat) :=
  runs.map (fun r =>
    let bs := (d.readVa c r.1 r.2).bytes
    (List.range (r.2 / w)).map (fun j => bytesNat bs (w * j) w))

/-- Gradient values of a strip, before `GSCALE`. -/
def Dev.gradients (d : Dev) (c : Nat) (r : PRec) (g : StripG) : List (List Nat) :=
  let gq := d.runNats c 1 (r.byteRuns r.gq g)
  let ge := d.runNats c 1 (r.byteRuns r.ge g)
  let gs := d.runNats c 1 (r.blockRuns r.gs g)
  (List.range g.nr).map (fun i => (List.range g.nc).map (fun j => pairValue (gridAt gq i j) (gridAt ge i j) (gridAt gs i (j / 32))))

/-- Moments of a strip. -/
def Dev.moments (d : Dev) (c : Nat) (r : PRec) (el sc st : Nat) (g : StripG) : List (List Nat) :=
  let e := d.runNats c 1 (r.byteRuns el g)
  let s := d.runNats c 1 (r.blockRuns sc g)
  (List.range g.nr).map (fun i => (List.range g.nc).map (fun j => momentValue (gridAt e i j) (gridAt s i (j / 32)) st))

/-- Writes of moments of a strip: bytes, events, greatest magnitude. -/
def PRec.putMoments (r : PRec) (el sc sn : Nat) (root : Bool) (g : StripG) (vs : List (List Nat)) : List (Nat × List Byte) × Nat × Nat :=
  let rows := ((r.byteRuns el g).zip (r.blockRuns sc g)).zip vs
  rows.foldl (fun (a : List (Nat × List Byte) × Nat × Nat) e =>
    let bs := (chunks32 (e.2.length + 1) e.2).map (momentBlock sn root)
    (a.1 ++ [(e.1.1.1, (bs.flatMap (fun b => b.2.1)).map (BitVec.ofNat 8 ·)), (e.1.2.1, bs.map (fun b => BitVec.ofNat 8 b.1))],
     a.2.1 + bs.foldl (fun n b => n + b.2.2.1) 0, bs.foldl (fun n b => amaxKeep n b.2.2.2) a.2.2)) ([], 0, 0)

/-! ### What a strip gives -/

/-- Writes, saturation events, elements converted, greatest magnitudes (compute copy, M, R), and the values for `LST_W`, `LST_U`, `LST_G`. -/
structure StripOut where
  writes : List (Nat × List Byte) := []
  sat : Nat := 0
  elems : Nat := 0
  csMax : Nat := 0
  mMax : Nat := 0
  rMax : Nat := 0
  lw : List Nat := []
  lu : List Nat := []
  lg : List Nat := []
deriving DecidableEq, Repr

/-- A FOLD strip (R170). -/
def Dev.foldStrip (d : Dev) (m : Cmd) (r : PRec) (g : StripG) : StripOut :=
  let v := d.runNats m.ctx 4 (r.f32Runs r.gf g)
  (List.range g.nr).foldl (fun o i =>
    let row := (List.range g.nc).map (fun j =>
      (gridAt v i j, rmode (fld m.uflags 3 2) r.gtid m.ustep ((r.grow + g.r0 + i) * r.gcols + r.gcol + g.c0 + j)))
    let b := pairBlock row
    let at' := fun (l : List (Nat × Nat)) => (l.getD i (0, 0)).1
    { o with writes := o.writes ++ [(at' (r.byteRuns r.gq g), b.2.1.map (BitVec.ofNat 8 ·)), (at' (r.byteRuns r.ge g), b.2.2.1.map (BitVec.ofNat 8 ·)),
                                    (at' (r.blockRuns r.gs g), [BitVec.ofNat 8 b.1])],
             sat := o.sat + b.2.2.2, elems := o.elems + g.nc }) {}

/-- A SCAN strip (R175). -/
def Dev.scanStrip (d : Dev) (m : Cmd) (r : PRec) (g : StripG) : StripOut := { lg := (d.gradients m.ctx r g).flatMap id }

/-- New master values of a strip from its update `u` (R177). -/
def newMaster (m : Cmd) (w u : List (List Nat)) : List (List Nat) :=
  (w.zip u).map (fun e => (e.1.zip e.2).map (fun p => fSub p.1 (fMul (m.hyper 0) (fFma (m.hyper 1) p.1 p.2))))

/-- A STEP strip from its update `u` and moments: `u`, `m'` and `r'` by row and column; `mo` false where an earlier pass wrote the moments. -/
def Dev.finishStrip (d : Dev) (m : Cmd) (r : PRec) (g : StripG) (mo : Bool) (gr : List (List Nat)) (us ms rs : List (List Nat)) : StripOut :=
  let w := d.runNats m.ctx 4 (r.f32Runs r.master g)
  let w' := newMaster m w us
  let c := r.computeCopy m.ustep g w'
  let pm := if mo then r.putMoments r.mAddr r.mScale r.mNext false g ms else ([], 0, 0)
  let pr := if mo && r.usesR then r.putMoments r.rAddr r.rScale r.rNext true g rs else ([], 0, 0)
  { writes := ((r.f32Runs r.master g).zip w').map (fun e => (e.1.1, e.2.flatMap (toBytes 4))) ++ pm.1 ++ pr.1 ++ c.1,
    sat := c.2.1 + pm.2.1 + pr.2.1, elems := g.nr * g.nc * (1 + b2n mo + b2n (mo && r.usesR)),
    csMax := c.2.2, mMax := pm.2.2, rMax := pr.2.2,
    lw := w'.flatMap id, lu := ((w'.zip w).map (fun e => (e.1.zip e.2).map (fun p => fSub p.1 p.2))).flatMap id, lg := gr.flatMap id }

/-- A STEP strip of an elementwise rule. -/
def Dev.stepStrip (d : Dev) (m : Cmd) (r : PRec) (g : StripG) : StripOut :=
  let gr := d.gradients m.ctx r g
  let mo := d.moments m.ctx r r.mAddr r.mScale r.mSt g
  let ro := if r.usesR then d.moments m.ctx r r.rAddr r.rScale r.rSt g else []
  let res := (List.range g.nr).map (fun i => (List.range g.nc).map (fun j => r.rule177 m (fMul (gridAt gr i j) m.gscale) (gridAt mo i j) (gridAt ro i j)))
  d.finishStrip m r g true gr (res.map (fun l => l.map (·.1))) (res.map (fun l => l.map (·.2.1))) (res.map (fun l => l.map (·.2.2)))

/-! ### Matrix rules (R185, R186) -/

/-- A value rounded to BF16, as its code. -/
def bfCode (a : Nat) : Nat := (Fmt.bf16.convert .rne (f32 a)).1
/-- A value rounded to BF16, as FP32. -/
def bfRound (a : Nat) : Nat := f32Round .rne (Fmt.bf16.decode (bfCode a))
/-- Every value of a matrix rounded to BF16. -/
def bfMat (a : List (List Nat)) : List (List Nat) := a.map (fun r => r.map bfRound)

/-- The product of rows of `a` and rows of `bt` (the second factor transposed), accumulated under R70 with groups of 16 (R185). -/
def mulT (a bt : List (List Nat)) : List (List Nat) :=
  a.map (fun r => bt.map (fun c => acc70 16 0 ((r.zip c).map (fun p => (f32 p.1).mul (f32 p.2)))))

/-- A product of matrices; `n` is the number of columns of the second. -/
def mulM (a b : List (List Nat)) (n : Nat) : List (List Nat) := mulT a (transpose n b)

/-- Elementwise function of two matrices. -/
def zipMat (f : Nat → Nat → Nat) (a b : List (List Nat)) : List (List Nat) := (a.zip b).map (fun e => (e.1.zip e.2).map (fun p => f p.1 p.2))

/-- The sum of squares of values by the rule of R187 with `SHIFT` 0, rounded to FP32. -/
def sumSquares (xs : List Nat) : Nat :=
  if xs.any fIsNan then 0x7FC00000
  else if xs.any (fun x => !(f32 x).isFin) then 0x7F800000
  else
    let a := xs.foldl (fun n x => match f32 x with
      | .fin e => n + sqFixed e 0
      | _ => n) 0
    if 2 ^ 128 ≤ a then 0x7F800000 else f32Round .rne (.fin { num := a, den := 2 ^ 64 })

/-- The matrix with a value on the diagonal. -/
def diagMat (n v : Nat) : List (List Nat) := (List.range n).map (fun i => (List.range n).map (fun j => if i = j then v else 0))

/-- One Newton–Schulz iteration on X (p × q): A, B and the next X. -/
def nsStep (m : Cmd) (p q : Nat) (x : List (List Nat)) : List (List Nat) × List (List Nat) × List (List Nat) :=
  let a := bfMat (mulT x x)
  let b := bfMat (zipMat (fun u v => fFma (m.hyper 11) u (fMul (m.hyper 12) v)) a (mulM a a p))
  (a, b, bfMat (zipMat (fun u v => fFma (m.hyper 10) u v) x (mulM b x q)))

/-- The iterations: A, B, the present X and the one before. -/
def nsRun (m : Cmd) (p q : Nat) : Nat → List (List Nat) × List (List Nat) × List (List Nat) × List (List Nat) →
    List (List Nat) × List (List Nat) × List (List Nat) × List (List Nat)
  | 0, s => s
  | n + 1, s =>
    let r := nsStep m p q s.2.2.1
    nsRun m p q n (r.1, r.2.1, r.2.2, s.2.2.1)

/-- The inverse-root iteration of KRON phase 3 (R186). -/
def rootRun : Nat → Nat → List (List Nat) → List (List Nat) → List (List Nat)
  | 0, _, x, _ => x
  | k + 1, n, x, mk =>
    let t := bfMat (zipMat (fun u v => fFma 0xBE800000 u v) mk (diagMat n 0x3FA00000))
    let t2 := bfMat (mulM t t n)
    rootRun k n (bfMat (mulM x t n)) (bfMat (mulM (bfMat (mulM t2 t2 n)) mk n))

/-- The root of a factor. -/
def rootOf (iters n eps : Nat) (s : List (List Nat)) : List (List Nat) :=
  let s' := zipMat (fun u v => if v = 0 then u else fAdd u eps) s (diagMat n 1)
  let f := tSqrt (sumSquares (s'.flatMap id))
  let x := diagMat n (bfRound (tRsqrt (tSqrt f)))
  rootRun iters n x (bfMat (s'.map (fun r => r.map (fun v => fMul v (tRcp f)))))

/-- Bytes of a matrix of `n` rows of `w`-byte elements, each row padded to 256. -/
def auxBytes (n cols w : Nat) : Nat := n * pitch256 (w * cols)

/-- Regions of an auxiliary matrix at `base`. -/
def auxRuns (base n cols w : Nat) : List (Nat × Nat) := rowRuns base (pitch256 (w * cols)) 0 (w * cols) 0 n

/-- Writes of a matrix into the auxiliary region: BF16 (`w` = 2) or FP32 (`w` = 4). -/
def auxPut (base cols w : Nat) (x : List (List Nat)) : List (Nat × List Byte) :=
  ((auxRuns base x.length cols w).zip x).map (fun e => (e.1.1, e.2.flatMap (fun v => toBytes w (if w = 2 then bfCode v else v))))

/-- A matrix of the auxiliary region. -/
def Dev.auxGet (d : Dev) (c base n cols w : Nat) : List (List Nat) :=
  (d.runNats c w (auxRuns base n cols w)).map (fun r => r.map (fun v => if w = 2 then f32Round .rne (Fmt.bf16.decode v) else v))

/-- Smaller and larger dimension. -/
def PRec.pq (r : PRec) : Nat × Nat := (min r.rows r.cols, max r.rows r.cols)

/-- Bytes of the auxiliary region (R185). -/
def PRec.auxSize (r : PRec) : Nat :=
  let p := r.pq.1
  let q := r.pq.2
  if r.rule = 4 then 2 * auxBytes p q 2 + 2 * auxBytes p p 2
  else auxBytes r.rows r.rows 4 + auxBytes r.cols r.cols 4 + auxBytes r.rows r.rows 2 + auxBytes r.cols r.cols 2 +
    3 * auxBytes r.rows r.cols 2 + 4 * auxBytes q q 2

/-- Offset of X0 or X1 in ORTHO's region: the buffer that holds X after `NS_ITERS` turns, X1 after the scaling (log entry 24). -/
def PRec.orthoX (r : PRec) (m : Cmd) : Nat := r.aux + (1 + m.uns) % 2 * auxBytes r.pq.1 r.pq.2 2

/-- Offsets in KRON's region: L, RK, PL, PR, GB, MB, UB, scratch. -/
def PRec.kronOff (r : PRec) (i : Nat) : Nat :=
  let sizes := [auxBytes r.rows r.rows 4, auxBytes r.cols r.cols 4, auxBytes r.rows r.rows 2, auxBytes r.cols r.cols 2,
    auxBytes r.rows r.cols 2, auxBytes r.rows r.cols 2, auxBytes r.rows r.cols 2]
  r.aux + (sizes.take i).foldl (· + ·) 0

/-- Passes 1 and 2 of ORTHO: writes, events, greatest |M|. -/
def Dev.orthoPrep (d : Dev) (m : Cmd) (r : PRec) : List (Nat × List Byte) × Nat × Nat :=
  let g := r.whole
  let gr := d.gradients m.ctx r g
  let mo := d.moments m.ctx r r.mAddr r.mScale r.mSt g
  let ms := zipMat (fun a b => (r.rule177 m (fMul a m.gscale) b 0).2.1) gr mo
  let pm := r.putMoments r.mAddr r.mScale r.mNext false g ms
  let p := r.pq.1
  let q := r.pq.2
  let x0 := bfMat (if r.cols < r.rows then transpose r.cols ms else ms)
  let rho := tRcp (fAdd (tSqrt (sumSquares (ms.flatMap id))) (m.hyper 8))
  let x := bfMat (x0.map (fun l => l.map (fun v => fMul v rho)))
  let s := nsRun m p q m.uns ([], [], x, x0)
  let b := auxBytes p q 2
  let odd := (1 + m.uns) % 2
  (pm.1 ++ auxPut (r.aux + odd * b) q 2 s.2.2.1 ++ auxPut (r.aux + (1 - odd) * b) q 2 s.2.2.2 ++
     auxPut (r.aux + 2 * b) p 2 s.1 ++ auxPut (r.aux + 2 * b + auxBytes p p 2) p 2 s.2.1, pm.2.1, pm.2.2)

/-- Passes 1 to 4 of KRON: writes, events, greatest |M|. -/
def Dev.kronPrep (d : Dev) (m : Cmd) (r : PRec) : List (Nat × List Byte) × Nat × Nat :=
  let g := r.whole
  let c := m.ctx
  let gr := d.gradients c r g
  let gs := gr.map (fun l => l.map (fun v => fMul v m.gscale))
  let mo := d.moments c r r.mAddr r.mScale r.mSt g
  let ms := zipMat (fun a b => (r.rule177 m a b 0).2.1) gs mo
  let pm := r.putMoments r.mAddr r.mScale r.mNext false g ms
  let gb := bfMat gs
  let mb := bfMat ms
  let kb := m.hyper 14
  let l := zipMat (fun a b => fFma kb a b) (d.auxGet c (r.kronOff 0) r.rows r.rows 4) (mulT gb gb)
  let gt := transpose r.cols gb
  let rk := zipMat (fun a b => fFma kb a b) (d.auxGet c (r.kronOff 1) r.cols r.cols 4) (mulT gt gt)
  let root := bit m.uflags 1
  let pl := if root then rootOf m.uroots r.rows (m.hyper 8) l else d.auxGet c (r.kronOff 2) r.rows r.rows 2
  let pr := if root then rootOf m.uroots r.cols (m.hyper 8) rk else d.auxGet c (r.kronOff 3) r.cols r.cols 2
  let ub := bfMat (mulM (bfMat (mulM pl mb r.cols)) pr r.cols)
  let free := d.freeBytes (4 * auxBytes r.pq.2 r.pq.2 2)
  (pm.1 ++ auxPut (r.kronOff 0) r.rows 4 l ++ auxPut (r.kronOff 1) r.cols 4 rk ++
     (if root then auxPut (r.kronOff 2) r.rows 2 pl ++ auxPut (r.kronOff 3) r.cols 2 pr ++ [(r.kronOff 7, free)] else []) ++
     auxPut (r.kronOff 4) r.cols 2 gb ++ auxPut (r.kronOff 5) r.cols 2 mb ++ auxPut (r.kronOff 6) r.cols 2 ub, pm.2.1, pm.2.2)

/-- The last pass of a matrix rule on a strip: `u` from the auxiliary region. -/
def Dev.matrixStrip (d : Dev) (m : Cmd) (r : PRec) (g : StripG) : StripOut :=
  let gr := d.gradients m.ctx r g
  let turn := r.rule = 4 ∧ r.cols < r.rows
  let x := if r.rule = 4 then d.auxGet m.ctx (r.orthoX m) r.pq.1 r.pq.2 2 else d.auxGet m.ctx (r.kronOff 6) r.rows r.cols 2
  let us := (List.range g.nr).map (fun i => (List.range g.nc).map (fun j =>
    fMul (m.hyper 13) (if turn then gridAt x (g.c0 + j) (g.r0 + i) else gridAt x (g.r0 + i) (g.c0 + j))))
  d.finishStrip m r g false gr us [] []

/-- The borrowed region of every borrowed tile loses its contents: free bytes (R185). -/
def Dev.spoilBorrowed (d : Dev) (m : Cmd) : Dev :=
  m.borrowed.foldl (fun d t => match d.slotOn m.ctx t with
    | some k => (d.shelfWrite t (d.slot t k) m.uborrow (d.freeBytes (2 ^ 20))).ticks (2 ^ 20)
    | none => d) d

/-! ### The work estimate (R179, R186) -/

/-- Cycles of a strip of `n` rows. -/
def PRec.stripCycles (r : PRec) (op n : Nat) : Nat :=
  if op = 3 ∧ r.rule = 2 then 2 * n + 8 else if op = 3 ∧ r.matrix = true then 2 * (n + 8) else n + 8

/-- Cycles of one kernel product M × N over K: on the knot cubes where every dimension is at most 512, else on the tiles, the one with most
blocks of 128 rows. -/
def productCycles (tiles m n k : Nat) : Nat :=
  if m ≤ 512 ∧ n ≤ 512 ∧ k ≤ 512 then standinGroups m n * standinGroup k
  else
    let blocks := (List.range (cdiv m 128)).filter (fun j => j % (max 1 tiles) = 0)
    blocks.foldl (fun a j => a + 16 + arrayCycles (Shape.ofCode 2) (min 128 (m - 128 * j)) n k 1) 0

/-- Cycles of the products of a matrix rule. -/
def PRec.tileCycles (r : PRec) (m : Cmd) : Nat :=
  let t := m.borrowed.length
  let p := r.pq.1
  let q := r.pq.2
  if r.rule = 4 then m.uns * (productCycles t p p q + productCycles t p p p + productCycles t p q p)
  else if r.rule = 5 then
    let root := fun n => if bit m.uflags 1 then m.uroots * (4 * productCycles t n n n) else 0
    productCycles t r.rows r.rows r.cols + productCycles t r.cols r.cols r.rows + root r.rows + root r.cols +
      productCycles t r.rows r.cols r.rows + productCycles t r.rows r.cols r.cols
  else 0

/-- Darner in service that takes strip `i` (R178, R180); none when none is in service. -/
def Dev.darnerFor (d : Dev) (i : Nat) : Option Nat :=
  ((List.range 8).map (fun j => (i + j) % 8)).find? (fun n => !(d.darner n).out)

/-- Cycles of each darner of a list of strips, in strip order. -/
def Dev.darnerLoads (d : Dev) (cycles : List Nat) : Table Nat :=
  ((List.range cycles.length).zip cycles).foldl (fun t e => match d.darnerFor e.1 with
    | some n => tabPut natDflt t n (tabGet natDflt t n + e.2)
    | none => t) []

/-- Cycles of every strip of a command. -/
def Dev.stripList (d : Dev) (m : Cmd) : List Nat :=
  (d.precs m).flatMap (fun r => (List.range r.strips).map (fun i => r.stripCycles m.uop (r.strip i).nr))

/-- E_D (R179): the most loaded darner, 2,048 cycles, and the tile phases. -/
def Dev.updEstimate (d : Dev) (m : Cmd) : Nat :=
  (d.darnerLoads (d.stripList m)).foldl (fun a e => max a e.2) 0 + 2048 +
  (if m.uop = 3 then (d.precs m).foldl (fun a r => a + r.tileCycles m) 0 else 0)

/-- Darner busy cycles of a command in all. -/
def Dev.updBusy (d : Dev) (m : Cmd) : Nat := (d.stripList m).foldl (· + ·) 0

/-! ### Fence order (R183, R184) -/

/-- The command's turn on a fence: a STEP after every earlier command, a read after every earlier STEP. -/
def Fence.myTurn (f : Fence) (trk : Nat) (step : Bool) : Bool :=
  let ahead := f.waiting.takeWhile (fun w => w.1 != trk)
  f.running.isNone && (if step then ahead.isEmpty && f.readers.isEmpty else ahead.all (fun w => !w.2))

/-- The command starts on a fence: a STEP as the one that runs, a read among the readers. -/
def Fence.take (f : Fence) (trk : Nat) (step : Bool) : Fence :=
  let f := { f with waiting := f.waiting.filter (fun w => w.1 != trk) }
  if step then { f with running := some trk } else { f with readers := f.readers ++ [trk] }

/-! ### Running a command (R175, R178, R181, R182) -/

/-- Merge of contributions to one saturation entry. -/
def mergeSat (l : List SatPart) (p : SatPart) : List SatPart :=
  match l with
  | [] => [p]
  | q :: r => if q.entry = p.entry then { q with count := q.count + p.count, elems := q.elems + p.elems, amax := amaxKeep q.amax p.amax } :: r
    else q :: mergeSat r p

/-- Merge of contributions to one layer-statistics entry. -/
def mergeLst (l : List LstPart) (p : LstPart) : List LstPart :=
  match l with
  | [] => [p]
  | q :: r => if q.entry = p.entry then
      { q with acc := q.acc + p.acc, amax := amaxKeep q.amax p.amax, nan := q.nan || p.nan, inf := q.inf || p.inf, count := q.count + p.count, sat := q.sat + p.sat } :: r
    else q :: mergeLst r p

/-- The contributions of a strip: to the record's saturation entry and to its layer statistics (log entry 25 says which entry counts the
saturation events). -/
def Dev.stripParts (d : Dev) (m : Cmd) (r : PRec) (o : StripOut) : List SatPart × List LstPart :=
  let l := fun (e sat : Nat) (vs : List Nat) => if e = 0xFFFF ∨ (vs.isEmpty ∧ sat = 0) then [] else [d.lstPart e sat vs]
  (if r.sat = 0xFFFF ∨ o.elems = 0 then [] else [{ entry := r.sat, count := o.sat, elems := o.elems }],
   if m.uop = 3 then l r.lstW o.sat o.lw ++ l r.lstU 0 o.lu ++ (if bit m.uflags 0 then l r.lstG 0 o.lg else [])
   else l r.lstG o.sat o.lg)

/-- Where the fault of a darner stands. -/
def darnerFault (n addr : Nat) : FaultInfo := { unit := Client.darner.code, unum := n, addr := addr }

/-- An access of a strip that does not translate: a page fault suspends the command (R181, R222); any other is class C. -/
def Dev.stripReach (d : Dev) (trk n : Nat) (write : Bool) (r : Reach) : Dev :=
  let m := d.cmd trk
  match r with
  | .notMapped va l =>
    (match d.pageFault m.ctx trk .darner n va write l (darnerFault n va) with
     | (d, some _) => d.updCmd trk (fun m => { m with stage := .faulted })
     | (d, none) => d)
  | .fail st va => d.classC m.ctx (some trk) (causeOf st) st (darnerFault n va)
  | .malformed va => (d.logHw pgMmu 0 .malformed 0).classC m.ctx (some trk) (causeOf .accessDenied) .accessDenied (darnerFault n va)
  | .ok _ => d

/-- Runs with integer addresses. -/
def intRuns (l : List (Nat × Nat)) : List (Int × Nat) := l.map (fun r => ((r.1 : Int), r.2))

/-- Continue when the reads and writes of a strip translate and no read meets a poisoned granule. -/
def Dev.withStrip (d : Dev) (trk n : Nat) (rd wr : List (Nat × Nat)) (k : Dev → Dev) : Dev :=
  let m := d.cmd trk
  match d.reachRuns m.ctx false (intRuns rd) with
  | .ok ps =>
    (match d.reachRuns m.ctx true (intRuns wr) with
     | .ok _ =>
       if d.partsPoisoned ps then
         (d.retirePoisoned ps).classP m.hoop m.ctx (some trk) 0x61 (darnerFault n 0) (some trk)
       else k (d.celRead ps)
     | r => d.stripReach trk n true r)
  | r => d.stripReach trk n false r

/-- A strip's writes made on `e`, the device `d` with what the strip wrote before, all or none (R181): a refusal leaves `d`, stops a STEP at
this strip and ends the command; a poisoned partial write is class P. -/
def putStripOver (d e : Dev) (trk n : Nat) (ws : List (Nat × List Byte)) (k : Dev → Dev) : Dev :=
  let m := d.cmd trk
  match e.putCellar m.ctx (ws.map (fun w => ((w.1 : Int), w.2))) with
  | (e, none) => k e
  | (e, some .integrityHalt) => e
  | (_, some .uncorrectableMemory) => d.classP m.hoop m.ctx (some trk) 0x61 (darnerFault n 0) (some trk)
  | (_, some st) => (d.stopStep trk).finish trk st

/-- The scale fields and `STEP_DONE` of a record whose last strip commits (R171, R172, R182). -/
def lastWrites (m : Cmd) (r : PRec) (cs mm rr : Nat) : List (Nat × List Byte) :=
  let a := r.addr
  let next := fun (am old : Nat) => if am = 0 then old else nextScale am 7168
  [(a + 80, toBytes 4 r.csNext ++ toBytes 4 (nextScale cs 1344)), (a + 144, toBytes 4 r.mNext ++ toBytes 4 (next mm r.mNext))] ++
  (if r.usesR then [(a + 152, toBytes 4 r.rNext ++ toBytes 4 (next rr r.rNext))] else []) ++ [(a + 196, toBytes 4 m.ustep)]

/-- A darner's counters after a strip (R191), and its cycles and cellar bytes charged (R297, R301). -/
def Dev.countStrip (d : Dev) (trk n cycles ce rd wr : Nat) : Dev :=
  let m := d.cmd trk
  let d := d.bump64 pgDarn n 0x0108 1 0x011C 0
  let d := d.bump64 pgDarn n 0x0110 (cycles + 2 * ce) 0x011C 0
  let d := d.bumpRc pgDarn n 0x0118 ce
  let d := (d.charge m.ctx 3 (cycles + 2 * ce)).cmdEnergy trk ((cycles + 2 * ce) * d.ec 3)
  d.chargeCellar m.ctx trk rd wr

/-- Bytes of whole granules of runs. -/
def natRunBytes (l : List (Nat × Nat)) : Nat := l.foldl (fun a r => a + 256 * granules r.1 r.2) 0

/-- The work of a command ends: FOLD and SCAN deliver what they collected; a STEP returns its fence to IDLE with its step (R175, R182). -/
def Dev.endUpdate (d : Dev) (trk : Nat) : Dev :=
  let m := d.cmd trk
  if m.uop = 3 then
    let f := d.fence m.ufence
    let d := d.setFence m.ufence { f with state := .idle, step := m.ustep, cursor := 0, running := none }
    (d.stepTrigger m.ufence m.ustep).finish trk .ok
  else ((d.deliverSats (some trk) m.satAcc).deliverLsts m.lstAcc).finish trk .ok

/-- A strip of a command has been written: its contributions, its maxima, the cursor. -/
def Dev.stripDone (d : Dev) (trk : Nat) (r : PRec) (g : StripG) (o : StripOut) : Dev :=
  let m := d.cmd trk
  let p := d.stripParts m r o
  let d := if m.uop = 3 then (d.deliverSats (some trk) p.1).deliverLsts p.2
    else d.updCmd trk (fun m => { m with satAcc := p.1.foldl mergeSat m.satAcc, lstAcc := p.2.foldl mergeLst m.lstAcc })
  let sc := if g.last then [] else [amaxKeep (m.scratch.getD 0 0) o.csMax, amaxKeep (m.scratch.getD 1 0) o.mMax, amaxKeep (m.scratch.getD 2 0) o.rMax]
  let d := d.updCmd trk (fun m => { m with cursor := m.cursor + 1, scratch := sc })
  if d.stripTotal m ≤ m.cursor + 1 then d.endUpdate trk else d

/-- Strip `cursor` of a started command is processed and committed (R178 Table 5): `ce` corrected SRAM reads, `ue` an uncorrectable one. -/
def Dev.commitStrip (d : Dev) (trk ce : Nat) (ue : Bool) : Dev :=
  let m := d.cmd trk
  match d.darnerFor m.cursor with
  | none => d
  | some n =>
    if ue then d.classP m.hoop m.ctx (some trk) 0x62 (darnerFault n 0) none
    else
      let p := stripFrom (d.stripCounts m) 0 m.cursor
      let r := d.prec m p.1
      let g := r.strip p.2
      let op := m.uop
      let prep := op == 3 && r.matrix && g.first
      let aux := if op = 3 ∧ r.matrix = true then [(r.aux, r.auxSize)] else []
      let rd := (if prep then r.reads 3 r.whole else r.reads op g) ++ aux
      let wr := (if prep then r.momentRuns r.whole else []) ++ r.writes op g ++ aux ++ (if op = 3 ∧ g.last = true then [(r.addr, 256)] else [])
      d.withStrip trk n rd wr (fun d =>
        let pre := if !prep then ([], 0, 0) else if r.rule = 4 then d.orthoPrep m r else d.kronPrep m r
        putStripOver d d trk n pre.1 (fun e =>
          let o := if op = 1 then e.foldStrip m r g else if op = 2 then e.scanStrip m r g else if r.matrix then e.matrixStrip m r g else e.stepStrip m r g
          let o := { o with sat := o.sat + pre.2.1, elems := o.elems + (if prep then r.rows * r.cols else 0), mMax := amaxKeep o.mMax pre.2.2 }
          let mx := fun (i v : Nat) => amaxKeep (m.scratch.getD i 0) v
          let last := if op = 3 ∧ g.last = true then lastWrites m r (mx 0 o.csMax) (mx 1 o.mMax) (mx 2 o.rMax) else []
          let e := if prep then (if bit m.uflags 1 then e.ticks (4 * auxBytes r.pq.2 r.pq.2 2) else e).spoilBorrowed m else e
          -- both writes of the strip stand or fall together
          putStripOver d e trk n (o.writes ++ last) (fun e =>
            (e.countStrip trk n (r.stripCycles op g.nr) ce (natRunBytes (r.reads op g)) (natRunBytes (r.writes op g))).stripDone trk r g o)))

/-- Some strip of the command could be in progress on darner `n`. -/
def Dev.onDarner (d : Dev) (trk n : Nat) : Bool :=
  let m := d.cmd trk
  m.live && m.started && m.stage == .running && m.typ == tyUpdate &&
  (List.range (min 8 (d.stripTotal m - m.cursor))).any (fun j => d.darnerFor (m.cursor + j) == some n)

/-- The command whose strip darner `n` holds: the lowest tracker with one (`DARN_CTX`). -/
def Dev.darnerHolds (d : Dev) (n : Nat) : Option Nat := (d.cmdsOf (fun m => m.typ == tyUpdate)).find? (fun t => d.onDarner t n)

/-- An idle darner meets an uncorrectable SRAM read: out of service, and the promises of UPDATE commands withdrawn (R180, R296). -/
def Dev.darnerUe (d : Dev) (n : Nat) : Dev :=
  if 8 ≤ n ∨ (d.darnerHolds n).isSome = true then d
  else
    let d := (d.orReg pgDarn n 0x011C 4).setDarner n { out := true }
    d.withdrawAll wDarner (fun m => m.typ == tyUpdate)

/-! ### Starting a command (R175, R182, R184) -/

/-- The list and records of a command translate for reading; what their reads find otherwise. -/
def Dev.withRecords (d : Dev) (trk : Nat) (k : Dev → Dev) : Dev :=
  let m := d.cmd trk
  d.withStrip trk 0 [(m.ulist, 8 * m.ucount)] [] (fun d =>
    d.withStrip trk 0 ((List.range m.ucount).map (fun i => (d.recAddr m i, 256))) [] k)

/-- The work of a FOLD or SCAN begins: the list validated (R173) before its first strip. -/
def Dev.startPass (d : Dev) (trk : Nat) : Dev :=
  d.withRecords trk (fun d =>
    let m := d.cmd trk
    if d.listBad m || d.entriesBad m then d.finish trk .badDescriptor
    else d.updCmd trk (fun m => { m with started := true, cursor := 0, satAcc := [], lstAcc := [] }))

/-- The maxima that a resumed STEP takes from the record partly done. -/
def Dev.resumeMaxima (d : Dev) (m : Cmd) (cursor : Nat) : List Nat :=
  let p := stripFrom (d.stripCounts m) 0 cursor
  let r := d.prec m p.1
  if p.2 = 0 then [] else [r.csAmax, r.mAmax, r.rAmax]

/-- The work of a STEP begins on its fence (R182 to R184): `LOST` and a mismatched resume are `BAD_DESCRIPTOR`; a step not above an
`IDLE` fence's writes nothing. -/
def Dev.startStep (d : Dev) (trk : Nat) : Dev :=
  let m := d.cmd trk
  let f := d.fence m.ufence
  let same := f.listAddr == m.ulist && f.listCount == m.ucount && f.updStep == m.ustep
  let drop := fun (d : Dev) (st : Status) => (d.setFence m.ufence { f with running := none }).finish trk st
  if f.state = .free ∨ f.ctx ≠ m.ctx then d.finish trk .accessDenied
  else if f.state = .lost then drop d .badDescriptor
  else if f.state = .incomplete ∧ same = false then drop d .badDescriptor
  else if f.state = .idle ∧ m.ustep ≤ f.step then drop d .ok
  else
    d.withRecords trk (fun d =>
      if d.listBad m then drop d .badDescriptor
      else
        let cursor := if f.state = .incomplete then f.cursor else 0
        let sc := d.resumeMaxima m cursor
        let d := d.setFence m.ufence { f with state := .updating, listAddr := m.ulist, listCount := m.ucount, updStep := m.ustep, cursor := cursor, running := some trk }
        d.updCmd trk (fun m => { m with started := true, cursor := cursor, scratch := sc }))

/-- `LST_CTL` (R188): discarded and logged when another entry has the same source enabled, or the source is not the context's. -/
def Dev.lstCtlBad (d : Dev) (e v : Nat) : Bool :=
  bit v 20 &&
  (let s := fld v 19 8
   !((d.sat s).assigned && (d.sat s).ctx == (d.lst e).ctx) ||
   (d.lstFed s).any (· != e))

/-! ### Meanings -/

/-- FOLD: a released update command of that operation begins (R175). -/
def execFoldCmd (trk now : Nat) (s : State) : Host.Outcome State Fault Refusal :=
  onDev s (fun d => let d := d.at now; if d.begins trk tyUpdate && (d.cmd trk).uop == 1 then d.startPass trk else d)

/-- SCAN: a released update command of that operation begins (R175). -/
def execScanCmd (trk now : Nat) (s : State) : Host.Outcome State Fault Refusal :=
  onDev s (fun d => let d := d.at now; if d.begins trk tyUpdate && (d.cmd trk).uop == 2 then d.startPass trk else d)

/-- STEP: a released update command of that operation begins on its fence (R175, R182). -/
def execStepCmd (trk now : Nat) (s : State) : Host.Outcome State Fault Refusal :=
  onDev s (fun d => let d := d.at now; if d.begins trk tyUpdate && (d.cmd trk).uop == 3 then d.startStep trk else d)

/-- A darner commits the command's next strip (R178 Table 5). -/
def execDarnerStripCommit (trk ce : Nat) (ue : Bool) (now : Nat) (s : State) : Host.Outcome State Fault Refusal :=
  onDev s (fun d =>
    let d := d.at now
    let m := d.cmd trk
    if d.live && m.live && m.started && m.stage == .running && m.typ == tyUpdate then d.commitStrip trk ce ue else d)

/-- An idle darner meets an uncorrectable SRAM read (R180). -/
def execDarnerSramUe (darner : Nat) (s : State) : Host.Outcome State Fault Refusal := onDev s (fun d => d.whenLive (fun d => d.darnerUe darner))

end Sys2Proof.Machine
end

