-- ==== Sys2Proof/Machine/Cache.lean ====
section
/-! DEFINITION. The model cache (R192 to R203): registration, pinning, lookups, room, fills, and the commands of the cache. -/
namespace Sys2Proof.Machine

/-! ### The operation block (R194 Table 1) -/

/-- `OP`. -/
def Cmd.cop (m : Cmd) : Nat := m.bf 0 2
/-- `MODEL`. -/
def Cmd.cmodel (m : Cmd) : Nat := m.bf 4 4
/-- `VADDR`. -/
def Cmd.cvaddr (m : Cmd) : Nat := m.bf 8 8
/-- `PAGES`. -/
def Cmd.cpages (m : Cmd) : Nat := m.bf 16 4
/-- `FLAGS`. -/
def Cmd.cflags (m : Cmd) : Nat := m.bf 20 4

/-- A block with a nonzero reserved field, a reserved operation, or a field that only REGISTER uses (R194). -/
def Cmd.cblockBad (m : Cmd) : Bool :=
  m.block.length != 32 || m.cop == 0 || decide (5 < m.cop) || m.bf 2 2 != 0 || m.bf 24 8 != 0 || decide (4 ≤ m.cflags) ||
  (m.cop != 1 && (m.cvaddr != 0 || m.cpages != 0 || m.cflags != 0))

/-! ### Entries and lines (R192, R193) -/

/-- The registered entry that a model identifier names in a hoop. -/
def Dev.mcFind (d : Dev) (h model : Nat) : Option Nat :=
  (tabKeys (fun _ e => e.assigned && !e.dropping && e.hoop == h && e.model == model) d.mc).head?

/-- Pages of an entry on stack `s`. -/
def McEntry.onStack (e : McEntry) (s : Nat) : Nat := (e.pages.filter (fun p => p.1 % 8 == s)).length

/-- Lines that the entries of a hoop satisfying `p` hold in slice `s`. -/
def Dev.mcLines (d : Dev) (h s : Nat) (p : McEntry → Bool) : Nat :=
  d.mc.foldl (fun n e => if e.2.assigned && e.2.hoop == h && p e.2 then n + e.2.onStack s else n) 0

/-- An entry holds lines: resident or filling, dropped or not. -/
def McEntry.holdsLines (e : McEntry) : Bool := e.resident || e.filling

/-- Slice quota of a hoop. -/
def Dev.mcQuota (d : Dev) (h : Nat) : Nat := (d.hoop h).inForce.mcLines

/-- Every slice has room for `e` beside the lines held (R197). -/
def Dev.mcFits (d : Dev) (e : McEntry) : Bool :=
  (List.range 8).all (fun s => decide (e.onStack s + d.mcLines e.hoop s McEntry.holdsLines ≤ d.mcQuota e.hoop) || e.onStack s == 0)

/-- The next entry to evict in a hoop: resident, unpinned, not filling, held by none; the lowest stamp, then the lowest index (R197). -/
def Dev.mcVictim (d : Dev) (h : Nat) : Option Nat :=
  (tabKeys (fun _ e => e.assigned && e.hoop == h && e.resident && !e.pinned && !e.filling && !e.dropping && e.holders.isEmpty) d.mc).foldl
    (fun a k => match a with
      | some j => if (d.mce k).stamp < (d.mce j).stamp then some k else some j
      | none => some k) none

/-- Entries evicted until `e` fits: the device after it, how many went, and whether there is room. -/
def Dev.makeRoom (d : Dev) (e : McEntry) : Nat → Nat → Dev × Nat × Bool
  | 0, n => (d, n, d.mcFits e)
  | fuel + 1, n =>
    if d.mcFits e then (d, n, true)
    else match d.mcVictim e.hoop with
      | some k => (d.setMce k { d.mce k with resident := false }).makeRoom e fuel (n + 1)
      | none => (d, n, false)

/-- Room for an entry of 1,024 at most. -/
def Dev.roomFor (d : Dev) (e : McEntry) : Dev × Nat × Bool := d.makeRoom e 1024 0

/-! ### Counters of a context (R208) -/

/-- A counter behind `MC_CSEL` raised: 0x1018 hits, 0x1020 misses, 0x1028 fill bytes, 0x1030 evictions. -/
def Dev.mcCount (d : Dev) (c off n : Nat) : Dev := d.bump64 pgMcache c off n 0x1014 0

/-- Evictions made by a context's miss counted. -/
def Dev.mcEvicted (d : Dev) (c n : Nat) : Dev := if n = 0 then d else d.mcCount c 0x1030 n

/-- The fill of entry `k` begins: its bytes are charged to the context as cellar reads (R198). -/
def Dev.startFill (d : Dev) (k c trk : Nat) : Dev :=
  let e := d.mce k
  let n := 65536 * e.pages.length
  let d := d.setMce k { e with filling := true, filler := c }
  (d.mcCount c 0x1028 n).chargeCellar c trk n 0

/-! ### Operations (R194 Table 2) -/

/-- The pages of a registration, or why not: unmapped, not readable, key revoked, not pinned (R530). -/
def Dev.mcPages (d : Dev) (c va n : Nat) : List (Nat × Nat × Nat) × List Status :=
  (List.range n).foldl (fun (a : List (Nat × Nat × Nat) × List Status) i =>
    match d.translate c (va + 65536 * i) false with
    | .ok pa key gen pinned => (a.1 ++ [(pa / 65536, key, gen)], if pinned then a.2 else a.2 ++ [.notPinned])
    | .notMapped _ => (a.1, a.2 ++ [.pageFault])
    | .fail st => (a.1, a.2 ++ [st])
    | .malformed => (a.1, a.2 ++ [.accessDenied])) ([], [])

/-- Entries of a hoop. -/
def Dev.mcEntriesOf (d : Dev) (h : Nat) : Nat := (tabKeys (fun _ e => e.assigned && e.hoop == h) d.mc).length

/-- What may not be registered, apart from the pages. -/
def Dev.regBad (d : Dev) (h : Nat) (m : Cmd) : Bool :=
  m.cmodel == 0 || m.cmodel == 0xFFFFFFFF || (d.mcFind h m.cmodel).isSome || m.cpages == 0 || decide (1024 < m.cpages) || m.cvaddr % 65536 != 0

/-- Pinned lines of the hoop with `e` would exceed its quota in some slice. -/
def Dev.pinOver (d : Dev) (e : McEntry) : Bool :=
  !e.pinned && (List.range 8).any (fun s => e.onStack s != 0 && decide (d.mcQuota e.hoop < e.onStack s + d.mcLines e.hoop s (·.pinned)))

/-- Entry `k` made resident: already so, filling, or a fill begun after making room; none where room is lacking. -/
def Dev.bringIn (d : Dev) (k c trk : Nat) : Option Dev :=
  let e := d.mce k
  if e.resident ∨ e.filling then some d
  else
    let r := d.roomFor e
    if r.2.2 then some ((r.1.mcEvicted c r.2.1).startFill k c trk) else none

/-- PIN of entry `k`: none where it fails. -/
def Dev.pinEntry (d : Dev) (k c trk : Nat) : Option Dev :=
  if d.pinOver (d.mce k) then none
  else match d.bringIn k c trk with
    | some d => some (d.setMce k { d.mce k with pinned := true, unpinPend := false })
    | none => none

/-- The command ends when entry `k` is resident; until then it waits for the fill. -/
def Dev.whenResident (d : Dev) (trk k : Nat) : Dev :=
  if (d.mce k).resident then d.finish trk .ok else d.updCmd trk (fun m => { m with started := true, lookup := [(d.mce k).model] })

/-- REGISTER. -/
def Dev.mcRegister (d : Dev) (trk : Nat) : Dev :=
  let m := d.cmd trk
  let h := (d.ctx m.ctx).hoop
  if m.cblockBad || d.regBad h m then d.finish trk .badDescriptor
  else
    let p := d.mcPages m.ctx m.cvaddr m.cpages
    let e : McEntry := { assigned := true, ctx := m.ctx, hoop := h, model := m.cmodel, vaddr := m.cvaddr, pages := p.1 }
    let beyond := (List.range 8).any (fun s => e.onStack s != 0 && decide (d.mcQuota h < e.onStack s))
    let full := decide ((d.hoop h).inForce.mcEntries ≤ d.mcEntriesOf h)
    match p.2 ++ (if beyond || full then [.rejectNoCapacity] else []), lowest 1024 (fun k => !(d.mce k).assigned) with
    | st :: r, _ => d.updCmd trk (fun m => { m with status := stAll (st :: r), stage := .finished })
    | [], none => d.finish trk .rejectNoCapacity
    | [], some k =>
      let d' := d.setMce k e
      let r := if bit m.cflags 0 then d'.pinEntry k m.ctx trk else if bit m.cflags 1 then d'.bringIn k m.ctx trk else some d'
      match r with
      | none => d.finish trk .rejectNoCapacity
      | some d => if m.cflags = 0 then d.finish trk .ok else d.whenResident trk k

/-- DROP, PIN, UNPIN and PREFETCH of a registered entry. -/
def Dev.mcOp (d : Dev) (trk op : Nat) : Dev :=
  let m := d.cmd trk
  match d.mcFind (d.ctx m.ctx).hoop m.cmodel with
  | none => d.finish trk .badDescriptor
  | some k =>
    if m.cblockBad then d.finish trk .badDescriptor
    else match op with
      | 2 => (d.mcDrop k).finish trk .ok
      | 3 => (match d.pinEntry k m.ctx trk with
        | some d => d.whenResident trk k
        | none => d.finish trk .rejectNoCapacity)
      | 4 =>
        let e := d.mce k
        if !e.pinned || e.unpinPend then d.finish trk .badDescriptor
        else if d.namedByG trk e.hoop e.model then (d.setMce k { e with unpinPend := true }).finish trk .ok
        else (d.setMce k { e with pinned := false }).finish trk .ok
      | _ => (match d.bringIn k m.ctx trk with
        | some d => d.whenResident trk k
        | none => d.finish trk .rejectNoCapacity)

/-! ### Lookups (R196, R197) -/

/-- How a lookup of one identifier ends. -/
inductive Looked where
  | bad
  | noRoom (d : Dev)
  | ok (d : Dev)

/-- One identifier looked up under stamp `n`. -/
def Dev.lookOne (d : Dev) (trk n id : Nat) : Looked :=
  let m := d.cmd trk
  match d.mcFind (d.ctx m.ctx).hoop id with
  | none => .bad
  | some k =>
    let e := d.mce k
    let hold := fun (d : Dev) => d.setMce k { d.mce k with holders := (d.mce k).holders ++ [trk], stamp := n }
    if e.resident then .ok (hold (d.mcCount m.ctx 0x1018 1))
    else if e.filling then .ok (hold (d.mcCount m.ctx 0x1020 1))
    else
      let d := d.mcCount m.ctx 0x1020 1
      let r := d.roomFor e
      let d := r.1.mcEvicted m.ctx r.2.1
      if r.2.2 then .ok (hold (d.startFill k m.ctx trk)) else .noRoom (d.bumpRc pgMcache m.ctx 0x1038 1)

/-- The identifiers of a list in order. -/
def Dev.lookAll (d : Dev) (trk n : Nat) : List Nat → Looked
  | [] => .ok d
  | id :: r => match d.lookOne trk n id with
    | .ok d => d.lookAll trk n r
    | x => x

/-- The command without its model-cache holds. -/
def Dev.dropMcHolds (d : Dev) (trk : Nat) : Dev := d.mapMc (fun _ e => d.mcRelease e trk)

/-- A command's lookups (R196): made once, when its other conditions are met; a failure ends it. -/
def Dev.lookup (d : Dev) (trk : Nat) : Dev :=
  let m := d.cmd trk
  if m.lookup.isEmpty || m.looked then d.updCmd trk (fun m => { m with looked := true })
  else
    let h := (d.ctx m.ctx).hoop
    let n := tabGet natDflt d.mcLookups h + 1
    let d := { d with mcLookups := tabPut natDflt d.mcLookups h (n % 2 ^ 64) }
    if !m.lookup.Nodup then d.finish trk .badDescriptor
    else match d.lookAll trk n m.lookup with
      | .ok d => d.updCmd trk (fun m => { m with looked := true })
      | .bad => d.finish trk .badDescriptor
      | .noRoom d => (d.dropMcHolds trk).finish trk .rejectNoCapacity

/-- Every entry that the command looked up is resident (R196). -/
def Dev.lookupsMet (d : Dev) (trk : Nat) : Bool :=
  (d.cmd trk).looked && d.mc.all (fun e => !e.2.holders.contains trk || e.2.resident)

/-! ### The end of a fill (R198) -/

/-- Commands that wait on the fill of entry `k`: those that hold it, and the cache commands that asked for it. -/
def Dev.fillWaiters (d : Dev) (k : Nat) : List Nat :=
  let e := d.mce k
  e.holders.filter (fun t => (d.cmd t).stage == .waiting) ++
  d.cmdsOf (fun m => m.typ == tyCache && m.started && m.stage == .running && m.hoop == e.hoop && m.lookup == [e.model])

/-- The cache commands that asked for a resident entry end. -/
def Dev.fillServed (d : Dev) (k : Nat) : Dev :=
  let e := d.mce k
  (d.cmdsOf (fun m => m.typ == tyCache && m.started && m.stage == .running && m.hoop == e.hoop && m.lookup == [e.model])).foldl
    (fun d t => d.finish t .ok) d

/-- A page of the entry lies under a key that drains or has moved on, or is no longer the hoop's. -/
def Dev.fillRevoked (d : Dev) (e : McEntry) : Bool := e.pages.any (fun p => (d.keyCheck e.hoop useMem p.2.1 p.2.2).isSome)

/-- A fill ends (R198): a revoked key drops the entry, an uncorrectable read leaves it not resident, and the waiters fail; else it is
resident, or freed when it was dropped and nobody holds it. -/
def Dev.fillDone (d : Dev) (k : Nat) : Dev :=
  let e := d.mce k
  if !e.assigned || !e.filling then d
  else if d.fillRevoked e then
    let ws := d.fillWaiters k
    let d := ws.foldl (fun d t => d.finish t .keyRevoked) (d.setMce k { e with filling := false })
    d.mcDrop k
  else if e.pages.any (fun p => d.anyPoison (p.1 * 65536) 65536) then
    let ws := d.fillWaiters k
    ws.foldl (fun d t => d.finish t .uncorrectableMemory) (d.setMce k { e with filling := false })
  else if e.dropping && e.holders.isEmpty then (d.fillServed k).setMce k {}
  else (d.celRead (e.pages.map (fun p => (p.1 * 65536, 65536, p.2.1)))).setMce k { e with filling := false, resident := true } |>.fillServed k

/-! ### Meanings -/

/-- A released cache command of an operation. -/
def Dev.cacheCmd (d : Dev) (trk op : Nat) (f : Dev → Dev) : Dev :=
  if d.begins trk tyCache && (d.cmd trk).cop == op then f d else d

/-- CACHE REGISTER (R194). -/
def execCacheRegister (trk now : Nat) (s : State) : Host.Outcome State Fault Refusal :=
  onDev s (fun d => (d.at now).cacheCmd trk 1 (fun d => d.mcRegister trk))

/-- CACHE DROP (R194). -/
def execCacheDrop (trk now : Nat) (s : State) : Host.Outcome State Fault Refusal :=
  onDev s (fun d => (d.at now).cacheCmd trk 2 (fun d => d.mcOp trk 2))

/-- CACHE PIN (R194). -/
def execCachePin (trk now : Nat) (s : State) : Host.Outcome State Fault Refusal :=
  onDev s (fun d => (d.at now).cacheCmd trk 3 (fun d => d.mcOp trk 3))

/-- CACHE UNPIN (R194, R202). -/
def execCacheUnpin (trk now : Nat) (s : State) : Host.Outcome State Fault Refusal :=
  onDev s (fun d => (d.at now).cacheCmd trk 4 (fun d => d.mcOp trk 4))

/-- CACHE PREFETCH (R194). -/
def execCachePrefetch (trk now : Nat) (s : State) : Host.Outcome State Fault Refusal :=
  onDev s (fun d => (d.at now).cacheCmd trk 5 (fun d => d.mcOp trk 5))

/-- A model-cache fill ends (R198). -/
def execCacheFillDone (entry now : Nat) (s : State) : Host.Outcome State Fault Refusal :=
  onDev s (fun d => (d.at now).whenLive (fun d => d.fillDone entry))

end Sys2Proof.Machine
end

