-- ==== Sys2Proof/Machine/Dma.lean ====
section
/-! DEFINITION. The DMA and transpose engine (R224 to R230): channels and their choice of work, segments, and the commands COPY,
TRANSPOSE and FILL. Segments complete one at a time, in increasing order (log entry 26). -/
namespace Sys2Proof.Machine

/-! ### Channels and their choice (R224, R287) -/

/-- A channel carries the command. -/
def Dev.dmaCarried (d : Dev) (trk : Nat) : Bool := d.dmaCh.any (fun e => e.2.busy && e.2.tracker == trk)

/-- Released DMA commands of a hoop that no channel carries and that may run. -/
def Dev.dmaWaiting (d : Dev) (h : Nat) : List Nat :=
  (d.cmdsOf (fun m => m.typ == tyDma && m.released && m.stage == .running && m.hoop == h)).filter (fun t => !d.dmaCarried t)

/-- When a command's context was last served. -/
def Dev.dmaTurnOf (d : Dev) (m : Cmd) : Nat := tabGet natDflt d.dmaTurn (m.hoop * 4096 + m.ctx)

/-- Command `a` is chosen before `b`: by class, among class S the context served longest ago, then the one released earlier. -/
def Dev.dmaBefore (d : Dev) (a b : Nat) : Bool :=
  let x := d.cmd a
  let y := d.cmd b
  if x.cls ≠ y.cls then decide (x.cls < y.cls)
  else if x.cls = 1 ∧ d.dmaTurnOf x ≠ d.dmaTurnOf y then decide (d.dmaTurnOf x < d.dmaTurnOf y)
  else decide (x.relOrder < y.relOrder)

/-- The command of a list that is chosen first. -/
def Dev.dmaFirst (d : Dev) : List Nat → Option Nat
  | [] => none
  | t :: r => match d.dmaFirst r with
    | none => some t
    | some u => if d.dmaBefore t u then some t else some u

/-- The lowest-numbered free channel of a hoop. -/
def Dev.dmaFree (d : Dev) (h : Nat) : Option Nat :=
  lowest 16 (fun n => bit (d.hoop h).inForce.dma n && !(d.channel n).busy)

/-- The hoop that holds a channel. -/
def Dev.dmaHoop (d : Dev) (n : Nat) : Option Nat :=
  lowest 16 (fun h => (d.hoop h).state != .free && bit (d.hoop h).inForce.dma n)

/-! ### Faults of a channel -/

/-- What a DMA fault names. -/
def dmaInfo (n va : Nat) : FaultInfo := { unit := Client.dma.code, unum := n, addr := va }

/-- A fault that ends the command (R229): the record where it can be written, then class C. -/
def Dev.dmaEnd (d : Dev) (n trk : Nat) (st : Status) (va : Nat) : Dev :=
  let c := (d.cmd trk).ctx
  ((d.dmaStop trk st).setChannel n {}).classC c (some trk) (causeOf st) st (dmaInfo n va)

/-- A page not mapped (R222): the channel is suspended on a fault record; with every record pending the command ends. -/
def Dev.dmaPageFault (d : Dev) (n trk va : Nat) (write : Bool) (level : Nat) : Dev :=
  let m := d.cmd trk
  let full := (lowest faultRecords (fun i => !(tabGet faultDflt (d.ctx m.ctx).faults i).pending)).isNone
  let d := if full then d.dmaStop trk .pageFault else d
  match d.pageFault m.ctx trk .dma n va write level (dmaInfo n va) with
  | (d, some _) => (d.updCmd trk (fun m => { m with stage := .faulted })).setChannel n { d.channel n with suspended := true }
  | (d, none) => d

/-- A translation for a channel: go on with the physical pieces, or take the fault. -/
def Dev.dmaReach (d : Dev) (n trk : Nat) (write : Bool) (l : List (Nat × Nat)) (k : List (Nat × Nat × Nat) → Dev) : Dev :=
  match d.reachFrom (d.cmd trk).ctx write l with
  | .ok ps => k ps
  | .notMapped va lv => d.dmaPageFault n trk va write lv
  | .fail st va => d.dmaEnd n trk st va
  | .malformed va => (d.noteReach (.malformed va)).dmaEnd n trk .accessDenied va

/-! ### Carrying a command -/

/-- The pages of the result record are translated before the first segment (R228). -/
def Dev.dmaBegin (d : Dev) (n trk : Nat) : Dev :=
  let d := d.updCmd trk (fun m => { m with started := true, segs := m.dSegs })
  let m := d.cmd trk
  d.dmaReach n trk true (pieces m.dResult (32 + cdiv m.dSegs 8)) (fun _ => d.updCmd trk (fun m => { m with scratch := [1] }))

/-- Channel `n` carries the command, from its cursor. -/
def Dev.dmaCarry (d : Dev) (n trk : Nat) : Dev :=
  let d := d.setChannel n { busy := true, tracker := trk }
  if (d.cmd trk).dRecReady then d else d.dmaBegin n trk

/-- An idle channel chooses its next command, if one waits. -/
def Dev.dmaChoose (d : Dev) (n : Nat) : Dev :=
  match d.dmaHoop n with
  | none => d
  | some h => match d.dmaFirst (d.dmaWaiting h) with
    | none => d
    | some t => d.dmaCarry n t

/-- At a segment boundary the channel turns to a command that precedes the one it carries (R224). -/
def Dev.dmaTurnTo (d : Dev) (n trk : Nat) : Dev :=
  match d.dmaFirst (d.dmaWaiting (d.cmd trk).hoop) with
  | none => d
  | some t => if d.dmaBefore t trk then d.dmaCarry n t else d

/-! ### A segment (R227 to R229) -/

/-- Source bytes of a segment. -/
def Dev.dmaBytes (d : Dev) (m : Cmd) (ps : List (Nat × Nat × Nat × Nat)) (src : List (Nat × Nat × Nat)) : List Byte :=
  if m.dSrcSp = 0 then d.physRead src
  else if m.dSrcSp = 1 then ps.flatMap (fun p => d.hostRead p.2.1 p.2.2.1)
  else m.dFill ps

/-- Bytes stored to host pieces in order. -/
def Dev.hostPut (d : Dev) : List (Nat × Nat × Nat × Nat) → List Byte → Dev
  | [], _ => d
  | p :: r, bs => (d.hostWrite p.1 (bs.take p.2.2.1)).hostPut r (bs.drop p.2.2.1)

/-- Every host piece lies in a window that grants the access, checked once for the segment (R265). -/
def Dev.dmaHostOk (d : Dev) (m : Cmd) (ps : List (Nat × Nat × Nat × Nat)) : Bool :=
  (m.dSrcSp != 1 || ps.all (fun p => d.hostOk m.ctx p.2.1 p.2.2.1 false)) &&
  (m.dDstSp != 1 || ps.all (fun p => d.hostOk m.ctx p.1 p.2.2.1 true))

/-- Data of a joint hoop goes to the host only under a HOST entry for each source key (R415). -/
def Dev.dmaEgressOk (d : Dev) (m : Cmd) (src : List (Nat × Nat × Nat)) : Bool :=
  m.dDstSp != 1 || src.all (fun p => d.mayLeave m.hoop relHost p.2.2 0 0)

/-- Bytes, energy and channel counters of a good segment. -/
def Dev.dmaCount (d : Dev) (n trk : Nat) (k : Nat) : Dev :=
  let m := d.cmd trk
  let host := b2n (m.dSrcSp == 1) + b2n (m.dDstSp == 1)
  let d := d.chargeCellar m.ctx trk (if m.dSrcSp = 0 then k else 0) (if m.dDstSp = 0 then k else 0)
  let d := (d.charge m.ctx 12 (host * k)).cmdEnergy trk (host * k * d.ec 7)
  d.bump64 pgDma n 0x0118 k 0x0120 0

/-- The segment at the cursor is over; with the last one the record is written and the command's work ends, and the channel
chooses what to carry next. -/
def Dev.dmaAdvance (d : Dev) (n trk cyc : Nat) : Dev :=
  let m := d.cmd trk
  let d := d.charge m.ctx 4 cyc
  let k := d.dmaTurns + 1
  let d := { d with dmaTurns := k, dmaTurn := tabPut natDflt d.dmaTurn (m.hoop * 4096 + m.ctx) k }
  let d := d.updCmd trk (fun m => { m with cursor := m.cursor + 1 })
  if m.cursor + 1 < m.dSegs then d.dmaTurnTo n trk
  else (((d.dmaRecord trk .ok).finish trk .ok).setChannel n {}).dmaChoose n

/-- A segment fails and the command goes on (R229): its status, its bit, its bytes undefined. -/
def Dev.dmaFailSeg (d : Dev) (trk : Nat) (st : Status) : Dev :=
  let m := d.cmd trk
  ((d.dmaUndef m m.cursor).cmdStatus trk st).updCmd trk (fun m => { m with failed := m.failed ++ [m.cursor] })

/-- An uncorrectable read of a segment's source (R229, cause 0x86): logged, the page queued for retirement. -/
def Dev.dmaUe (d : Dev) (n trk pa : Nat) : Dev :=
  let m := d.cmd trk
  let d := d.rasLog { cause := 0x86, cls := 3, status := Status.uncorrectableMemory.code, unit := Client.dma.code, unum := n,
                      hoop := m.hoop, ctx := m.ctx, tracker := trk, addr := pa }
  (d.bumpRc pgRas m.hoop 0x010C 1).queueRetire (pa / 65536)

/-- The granule at a physical address is found uncorrectable: counted at its stack and poisoned (R244 Table 7). -/
def Dev.freshUe (d : Dev) (pa : Nat) : Dev :=
  let g := d.group (paGroup pa)
  let d := d.bumpRc (pgCel + paStack pa) 0 0x1010 1
  if d.granPoisoned pa then d
  else (d.setGroup (paGroup pa) { g with poison := g.poison + 2 ^ paGran pa }).bumpRc pgMenc (paStack pa) 0x0128 1

/-- The bytes of the segment at the cursor are moved. -/
def Dev.dmaMove (d : Dev) (n trk cyc : Nat) (ps : List (Nat × Nat × Nat × Nat)) (src dst : List (Nat × Nat × Nat)) : Dev :=
  let m := d.cmd trk
  let bs := d.dmaBytes m ps src
  let d := d.celRead src
  let r := if m.dDstSp = 1 then (d.hostPut ps bs, Status.ok) else d.putParts dst bs
  match r.2 with
  | .ok => ((r.1.dmaCount n trk (m.dSegBytes m.cursor))).dmaAdvance n trk cyc
  | .integrityHalt => r.1
  | .keyExhausted => ((r.1.dmaStop trk .keyExhausted).finish trk .keyExhausted |>.setChannel n {}).dmaChoose n
  | st => (r.1.dmaFailSeg trk st).dmaAdvance n trk cyc

/-- The segment at channel `n`'s cursor: `ue` names (plus 1) the source page piece whose read is uncorrectable, 0 for none; `hostBad`: a
host source completion failed; `cyc`: CCLK cycles in which the channel served the context. -/
def Dev.dmaSegment (d : Dev) (n ue : Nat) (hostBad : Bool) (cyc : Nat) : Dev :=
  let ch := d.channel n
  let trk := ch.tracker
  let m := d.cmd trk
  if !ch.busy || ch.suspended || !m.live || m.stage != .running || !m.dRecReady then d
  else
    let ps := m.dSeg m.cursor
    if !d.dmaHostOk m ps then d.dmaEnd n trk .accessDenied 0
    else
      d.dmaReach n trk false (if m.dSrcSp = 0 then dSrcPages ps else []) (fun src =>
        d.dmaReach n trk true (if m.dDstSp = 0 then dDstPages ps else []) (fun dst =>
          if !d.dmaEgressOk m src then d.dmaEnd n trk .accessDenied 0
          else
            let bad := if ue ≠ 0 then src[ue - 1]? else src.find? (fun p => d.anyPoison p.1 p.2.1)
            match bad with
            | some p =>
              let d := if ue ≠ 0 then d.freshUe p.1 else d
              ((d.dmaUe n trk p.1).dmaFailSeg trk .uncorrectableMemory).dmaAdvance n trk cyc
            | none =>
              if hostBad && m.dSrcSp == 1 then (d.dmaFailSeg trk .partialDone).dmaAdvance n trk cyc
              else d.dmaMove n trk cyc ps src dst))

/-! ### Meanings -/

/-- A released DMA command of an operation takes the lowest-numbered free channel of its hoop, unless another waiting command of the
hoop precedes it (R224). -/
def Dev.dmaStart (d : Dev) (trk op : Nat) : Dev :=
  let m := d.cmd trk
  if d.live && m.typ == tyDma && m.dop == op && d.dmaFirst (d.dmaWaiting m.hoop) == some trk then
    if m.dmaBad then d.finish trk .badDescriptor
    else match d.dmaFree m.hoop with
      | some n => d.dmaCarry n trk
      | none => d
  else d

/-- DMA COPY (R225). -/
def execDmaCopy (trk now : Nat) (s : State) : Host.Outcome State Fault Refusal :=
  onDev s (fun d => (d.at now).dmaStart trk 1)

/-- DMA TRANSPOSE (R225). -/
def execDmaTranspose (trk now : Nat) (s : State) : Host.Outcome State Fault Refusal :=
  onDev s (fun d => (d.at now).dmaStart trk 2)

/-- DMA FILL (R225). -/
def execDmaFill (trk now : Nat) (s : State) : Host.Outcome State Fault Refusal :=
  onDev s (fun d => (d.at now).dmaStart trk 3)

/-- A DMA segment completes (R227). -/
def execDmaSegmentComplete (chan ue : Nat) (hostBad : Bool) (cyc now : Nat) (s : State) : Host.Outcome State Fault Refusal :=
  onDev s (fun d => (d.at now).whenLive (fun d => d.dmaSegment chan ue hostBad cyc))

end Sys2Proof.Machine
end

