-- ==== Sys2Proof/Machine/Mmu.lean ====
section
/-! DEFINITION. MMU operations (R218 to R221) and the answers to fault records (R222, R223). -/
namespace Sys2Proof.Machine

/-! ### The block (R218 Table 6) -/

/-- `OP`: 1 GRANT, 2 RECLAIM, 3 MAP, 4 UNMAP, 5 PROTECT. -/
def Cmd.mop (m : Cmd) : Nat := m.bf 0 2
/-- `COUNT`. -/
def Cmd.mcount (m : Cmd) : Nat := m.bf 4 4
/-- `VADDR`. -/
def Cmd.mva (m : Cmd) : Nat := m.bf 8 8
/-- `PADDR`. -/
def Cmd.mpa (m : Cmd) : Nat := m.bf 16 8
/-- `ATTR`. -/
def Cmd.mattr (m : Cmd) : Nat := m.bf 24 8
/-- `TABLE`. -/
def Cmd.mtable (m : Cmd) : Nat := m.bf 32 8
/-- `HOOP`. -/
def Cmd.mhoop (m : Cmd) : Nat := m.bf 40 1
/-- `TABLE1`. -/
def Cmd.mtable1 (m : Cmd) : Nat := m.bf 48 8
/-- First physical page. -/
def Cmd.mppn (m : Cmd) : Nat := m.mpa / 65536
/-- The MAP asks for a huge page. -/
def Cmd.mhuge (m : Cmd) : Bool := bit m.mattr 4
/-- Pages that a MAP maps. -/
def Cmd.mpages (m : Cmd) : Nat := if m.mhuge then 8192 else m.mcount

/-- Reserved fields zero, and the block whole. -/
def Cmd.mmuFormBad (m : Cmd) : Bool :=
  m.block.length != 64 || m.mop == 0 || decide (5 < m.mop) || m.bf 2 2 != 0 || m.bf 41 7 != 0 || m.bf 56 8 != 0

/-- An address that is no 64 KiB multiple. -/
def pageBad (a : Nat) : Bool := a % 65536 != 0

/-- A range of base pages is misaligned, leaves the space or its 512 MiB region, or is empty or over-long (R218). -/
def spanBad (va n : Nat) : Bool :=
  pageBad va || decide (2 ^ 48 ≤ va) || n == 0 || decide (8192 < n) || va / 2 ^ 29 != (va + 65536 * n - 1) / 2 ^ 29

/-- GRANT and RECLAIM: a field out of range or not zero (R210, R219). -/
def Cmd.ownFormBad (m : Cmd) : Bool :=
  m.mmuFormBad || m.mva != 0 || m.mattr != 0 || m.mtable != 0 || m.mtable1 != 0 || m.mcount == 0 || decide (2 ^ 20 < m.mcount) ||
  pageBad m.mpa || decide (15 < m.mhoop) || decide (usablePages < m.mppn + m.mcount)

/-- MAP: a field out of range or not zero, and the form of a huge MAP. -/
def Cmd.mapFormBad (m : Cmd) : Bool :=
  m.mmuFormBad || m.mhoop != 0 || fld m.mattr 47 5 != 0 || bit m.mattr 0 || spanBad m.mva (if m.mhuge then 1 else m.mcount) ||
  pageBad m.mpa || pageBad m.mtable || pageBad m.mtable1 || decide (usablePages < m.mppn + m.mpages) ||
  decide (usablePages ≤ m.mtable / 65536) || decide (usablePages ≤ m.mtable1 / 65536) ||
  (m.mhuge && (m.mcount != 1 || m.mva % 2 ^ 29 != 0 || m.mppn % 8192 != 0))

/-- UNMAP and PROTECT: a field out of range or not zero. -/
def Cmd.unmapFormBad (m : Cmd) : Bool :=
  m.mmuFormBad || m.mhoop != 0 || m.mpa != 0 || m.mtable != 0 || m.mtable1 != 0 || spanBad m.mva m.mcount ||
  (if m.mop = 5 then m.mattr - m.mattr % 16 != 0 || bit m.mattr 0 else m.mattr != 0)

/-! ### Ownership (R212, R213, R219) -/

/-- Pages granted to a hoop. -/
def Dev.grantedTo (d : Dev) (h : Nat) : Nat := (d.pot.filter (fun e => e.2.granted && e.2.hoop == h)).length

/-- The `n` numbers from `a` up. -/
def span (a n : Nat) : List Nat := (List.range n).map (· + a)

/-- Why a GRANT fails: every failure that applies. -/
def Dev.grantErrs (d : Dev) (m : Cmd) : List Status :=
  (if (d.ctx m.ctx).func ≠ 0 then [.accessDenied] else []) ++
  (if m.ownFormBad then [.badDescriptor]
   else (if (d.hoop m.mhoop).state == .free || (span m.mppn m.mcount).any (fun p => (d.potOf p).granted) then [.badDescriptor] else []) ++
    (if (d.hoop m.mhoop).inForce.pages < d.grantedTo m.mhoop + m.mcount then [.rejectNoCapacity] else []))

/-- GRANT. -/
def Dev.mmuGrantRun (d : Dev) (trk : Nat) : Dev :=
  let m := d.cmd trk
  match d.grantErrs m with
  | e :: r => d.updCmd trk (fun m => { m with status := stAll (e :: r), stage := .finished })
  | [] => ((span m.mppn m.mcount).foldl (fun d p => d.setPot p { granted := true, hoop := m.mhoop }) d).finish trk .ok

/-- Why a RECLAIM fails. -/
def Dev.reclaimErrs (d : Dev) (m : Cmd) : List Status :=
  (if (d.ctx m.ctx).func ≠ 0 then [.accessDenied] else []) ++
  (if m.ownFormBad || (span m.mppn m.mcount).any (fun p => !(d.potOf p).granted || (d.potOf p).hoop != m.mhoop || (d.potOf p).maps != 0)
   then [.badDescriptor] else [])

/-- RECLAIM: each page zeroed, its entry cleared. -/
def Dev.mmuReclaimRun (d : Dev) (trk : Nat) : Dev :=
  let m := d.cmd trk
  match d.reclaimErrs m with
  | e :: r => d.updCmd trk (fun m => { m with status := stAll (e :: r), stage := .finished })
  | [] => ((span m.mppn m.mcount).foldl (fun d p => (d.zeroPage p).setPot p {}) d).finish trk .ok

/-! ### MAP -/

/-- Level-1 and level-2 state of the range that `va` lies in: the root entry, the address of the root entry, the level-1 entry and
its address (meaningful where the root entry is valid). -/
def Dev.rootAt (d : Dev) (c va : Nat) : Nat := (d.ctx c).root * 65536 + fld va 47 42 * 8
/-- Address of the level-1 entry under a root entry. -/
def l1At (e0 va : Nat) : Nat := fld e0 38 16 * 65536 + fld va 41 29 * 8
/-- Address of the level-2 entry under a level-1 entry. -/
def l2At (e1 va : Nat) : Nat := fld e1 38 16 * 65536 + fld va 28 16 * 8

/-- The root entry of a MAP's range is invalid. -/
def Dev.needs1 (d : Dev) (m : Cmd) : Bool := !bit (d.pte (d.rootAt m.ctx m.mva)) 0
/-- The level-1 entry of a MAP's range. -/
def Dev.entry1 (d : Dev) (m : Cmd) : Nat := if d.needs1 m then 0 else d.pte (l1At (d.pte (d.rootAt m.ctx m.mva)) m.mva)
/-- A level-2 table is needed. -/
def Dev.needs2 (d : Dev) (m : Cmd) : Bool := !m.mhuge && !bit (d.entry1 m) 0

/-- `BAD_DESCRIPTOR` of a well-formed MAP. -/
def Dev.mapBad (d : Dev) (m : Cmd) : Bool :=
  let e1 := d.entry1 m
  (bit e1 0 && (m.mhuge || bit e1 4)) || (d.needs1 m != (m.mtable1 != 0)) || (d.needs2 m != (m.mtable != 0)) ||
  (m.mtable != 0 && m.mtable == m.mtable1) ||
  (bit e1 0 && !m.mhuge && !bit e1 4 && (List.range m.mcount).any (fun i => bit (d.pte (l2At e1 (m.mva + 65536 * i))) 0))

/-- A page is not free to become a table of the context (R219). -/
def Dev.tableBad (d : Dev) (m : Cmd) (ppn : Nat) : Bool :=
  let x := d.potOf ppn
  !x.granted || x.hoop != m.hoop || x.bound || x.maps != 0 || (decide (m.mppn ≤ ppn) && decide (ppn < m.mppn + m.mpages))

/-- The key index that a MAP's leaves carry. -/
def Cmd.mkey (m : Cmd) : Nat := fld m.mattr 59 48
/-- The generation that a MAP's leaves carry. -/
def Cmd.mgen (m : Cmd) : Nat := fld m.mattr 63 60

/-- `ACCESS_DENIED` of a data page: not the hoop's, bound to another key index, or a table page. -/
def Dev.dataBad (d : Dev) (m : Cmd) (ppn : Nat) : Bool :=
  let x := d.potOf ppn
  !x.granted || x.hoop != m.hoop || (x.bound && x.key != m.mkey) || x.maps == 4095

/-- Why a MAP fails: every failure of Table 7 that applies. -/
def Dev.mapErrs (d : Dev) (m : Cmd) : List Status :=
  if m.mapFormBad then [.badDescriptor]
  else
    let ps := span m.mppn m.mpages
    (if d.mapBad m then [.badDescriptor] else []) ++
    (if (d.needs1 m && m.mtable1 != 0 && d.tableBad m (m.mtable1 / 65536)) || (d.needs2 m && m.mtable != 0 && d.tableBad m (m.mtable / 65536)) ||
        ps.any (d.dataBad m) then [.accessDenied] else []) ++
    (match d.keyCheck m.hoop useMem m.mkey m.mgen with
     | some st => [st]
     | none => []) ++
    (if ps.any (fun p => (d.potOf p).maps == 4094) then [.rejectNoCapacity] else [])

/-- A device write of table entries through the protection path, in order, stopping at the first refusal. -/
def Dev.putPtes (d : Dev) (key : Nat) (l : List (Nat × Nat)) : Dev × Status :=
  l.foldl (fun r e => if r.2 = .ok then r.1.physWrite key e.1 (toBytes 8 e.2) else r) (d, .ok)

/-- A page becomes a table of a context: zeroed, bound to the table key, `MAPS` = 4,095. -/
def Dev.makeTable (d : Dev) (c ppn : Nat) : Dev :=
  let d := d.zeroPage ppn
  d.setPot ppn { d.potOf ppn with bound := true, key := (d.ctx c).tblKey, maps := 4095 }

/-- A data page mapped once more: bound and zeroed where it was unbound (R213). -/
def Dev.mapPage (d : Dev) (key ppn : Nat) : Dev :=
  let x := d.potOf ppn
  let d := if x.bound then d else d.zeroPage ppn
  d.setPot ppn { x with bound := true, key := key, maps := x.maps + 1 }

/-- A table entry. -/
def tableEntry (ppn : Nat) : Nat := 1 + ppn * 65536

/-- A leaf of a MAP. -/
def Cmd.mleaf (m : Cmd) (ppn : Nat) : Nat := 1 + fld m.mattr 3 1 * 2 + 16 + ppn * 65536 + fld m.mattr 63 48 * 2 ^ 48

/-- The entries of a MAP as (address, entry), the tables first. -/
def Dev.mapEntries (d : Dev) (m : Cmd) : List (Nat × Nat) :=
  let e0 := if d.needs1 m then tableEntry (m.mtable1 / 65536) else d.pte (d.rootAt m.ctx m.mva)
  let e1 := if d.needs2 m then tableEntry (m.mtable / 65536) else d.entry1 m
  (if d.needs1 m then [(d.rootAt m.ctx m.mva, e0)] else []) ++
  (if m.mhuge then [(l1At e0 m.mva, m.mleaf m.mppn)]
   else (if d.needs2 m then [(l1At e0 m.mva, e1)] else []) ++
     (List.range m.mcount).map (fun i => (l2At e1 (m.mva + 65536 * i), m.mleaf (m.mppn + i))))

/-- MAP of a range that passes every check. -/
def Dev.mapApply (d : Dev) (trk : Nat) : Dev :=
  let m := d.cmd trk
  let es := d.mapEntries m
  let n1 := d.needs1 m
  let n2 := d.needs2 m
  let d' := if n1 then d.makeTable m.ctx (m.mtable1 / 65536) else d
  let d' := if n2 then d'.makeTable m.ctx (m.mtable / 65536) else d'
  let d' := (span m.mppn m.mpages).foldl (fun d p => d.mapPage m.mkey p) d'
  match d'.putPtes (d.ctx m.ctx).tblKey es with
  | (d', .ok) => (d'.recountPins m.ctx).finish trk .ok
  | (d', .integrityHalt) => d'
  | (_, st) => d.finish trk st

/-- MAP. -/
def Dev.mmuMapRun (d : Dev) (trk : Nat) : Dev :=
  match d.mapErrs (d.cmd trk) with
  | e :: r => d.updCmd trk (fun m => { m with status := stAll (e :: r), stage := .finished })
  | [] => d.mapApply trk

/-! ### UNMAP and PROTECT (R218 to R221) -/

/-- The leaf of a page: its entry's address, the entry, and whether it is huge; none where no leaf is valid. -/
def Dev.leafOf (d : Dev) (c va : Nat) : Option (Nat × Nat × Bool) :=
  let e0 := d.pte (d.rootAt c va)
  if !bit e0 0 then none else
  let e1 := d.pte (l1At e0 va)
  if !bit e1 0 then none
  else if bit e1 4 then some (l1At e0 va, e1, true)
  else
    let e2 := d.pte (l2At e1 va)
    if bit e2 0 then some (l2At e1 va, e2, false) else none

/-- The leaves of a range as (virtual address, entry address, entry, pages); none where the range is not well-formed. -/
def Dev.rangeLeaves (d : Dev) (m : Cmd) : Option (List (Nat × Nat × Nat × Nat)) :=
  match d.leafOf m.ctx m.mva with
  | none => none
  | some (a, e, true) => if m.mcount = 1 ∧ m.mva % 2 ^ 29 = 0 then some [(m.mva, a, e, 8192)] else none
  | some (_, _, false) =>
    let l := (List.range m.mcount).map (fun i => (m.mva + 65536 * i, d.leafOf m.ctx (m.mva + 65536 * i)))
    if l.all (fun p => p.2.isSome) then
      some (l.filterMap (fun p => p.2.map (fun q => (p.1, q.1, q.2.1, 1))))
    else none

/-- The entry that an UNMAP or PROTECT leaves. -/
def Cmd.newLeaf (m : Cmd) (e : Nat) : Nat := if m.mop = 4 then 0 else setFld e 3 1 (fld m.mattr 3 1)

/-- Leaves whose pin the operation takes away. -/
def Cmd.unpins (m : Cmd) (l : List (Nat × Nat × Nat × Nat)) : List (Nat × Nat) :=
  (l.filter (fun p => bit p.2.2.1 3 && !bit (m.newLeaf p.2.2.1) 3)).map (fun p => (p.1, 65536 * p.2.2.2))

/-- Virtual ranges that accepted class G commands of a context reference (R221). -/
def Dev.gRefs (d : Dev) (c : Nat) : List (Nat × Nat) :=
  (d.cmdsOf (fun m => m.ctx == c && m.cls == 0)).flatMap (fun t =>
    let m := d.cmd t
    (if m.typ = tyExec then (((d.ctx c).pricking.map (·.ranges)).getD []).map (fun r => (r.1, r.2.1)) else []) ++
    (if m.typ = tyDma then (if m.dSrcSp = 0 then [(m.dSrc, m.dSrcSpan)] else []) ++ (if m.dDstSp = 0 then [(m.dDst, m.dDstSpan)] else []) else []) ++
    ((d.mc.filter (fun e => e.2.assigned && e.2.ctx == c && e.2.hoop == m.hoop && m.lookup.contains e.2.model)).map
      (fun e => (e.2.vaddr, 65536 * e.2.pages.length))))

/-- The operation waits for a class G command that references a page it unpins. -/
def Dev.unpinWaits (d : Dev) (m : Cmd) (l : List (Nat × Nat × Nat × Nat)) : Bool :=
  (m.unpins l).any (fun p => (d.gRefs m.ctx).any (fun r => rangesMeet p.1 p.2 r.1 r.2))

/-- Virtual range of an MMU command; GRANT and RECLAIM name none. -/
def Dev.mmuRange (d : Dev) (m : Cmd) : Nat × Nat :=
  if m.mop < 3 then (0, 0)
  else
    let huge := if m.mop = 3 then m.mhuge else (match d.leafOf m.ctx m.mva with
      | some (_, _, true) => true
      | _ => false)
    (m.mva, if huge then 2 ^ 29 else 65536 * m.mcount)

/-- A deferred operation accepted earlier holds a page of the command's range (R221). -/
def Dev.mmuHeld (d : Dev) (trk : Nat) : Bool :=
  let m := d.cmd trk
  let r := d.mmuRange m
  !(d.cmdsOf (fun o => o.typ == tyMmu && o.stage == .deferred && o.ctx == m.ctx && decide (o.accOrder < m.accOrder) &&
      (let q := d.mmuRange o
       rangesMeet r.1 r.2 q.1 q.2))).isEmpty

/-- Model-cache entries that the context registered over an invalidated range dropped (R195). -/
def Dev.mcDropRange (d : Dev) (c va n : Nat) : Dev :=
  d.mcDropAll (fun e => e.ctx == c && rangesMeet va n e.vaddr (65536 * e.pages.length))

/-- The entries are written: UNMAP decrements `MAPS`; the command then waits for the invalidation (R220). -/
def Dev.unmapApply (d : Dev) (trk : Nat) (l : List (Nat × Nat × Nat × Nat)) : Dev :=
  let m := d.cmd trk
  match d.putPtes (d.ctx m.ctx).tblKey (l.map (fun p => (p.2.1, m.newLeaf p.2.2.1))) with
  | (d', .ok) =>
    let d' := if m.mop = 4 then l.foldl (fun d p => d.unmapPages (pteN p.2.2.1) p.2.2.2) d' else d'
    let d' := l.foldl (fun d p => d.mcDropRange m.ctx p.1 (65536 * p.2.2.2)) d'
    (d'.recountPins m.ctx).updCmd trk (fun m => { m with stage := .invalidating })
  | (d', .integrityHalt) => d'
  | (_, st) => d.finish trk st

/-- UNMAP or PROTECT: deferred, refused or begun. -/
def Dev.mmuUnmapRun (d : Dev) (trk : Nat) : Dev :=
  let m := d.cmd trk
  if m.unmapFormBad then d.finish trk .badDescriptor
  else match d.rangeLeaves m with
    | none => d.finish trk .badDescriptor
    | some l => if d.unpinWaits m l then d.updCmd trk (fun m => { m with stage := .deferred }) else d.unmapApply trk l

/-- The operation of a command that nothing holds. -/
def Dev.mmuRun (d : Dev) (trk : Nat) : Dev :=
  match (d.cmd trk).mop with
  | 1 => d.mmuGrantRun trk
  | 2 => d.mmuReclaimRun trk
  | 3 => d.mmuMapRun trk
  | _ => d.mmuUnmapRun trk

/-- A released MMU command of operation `op` runs, or waits behind a deferred one. -/
def Dev.mmuStart (d : Dev) (trk op : Nat) (f : Dev → Dev) : Dev :=
  if d.begins trk tyMmu && (d.cmd trk).mop == op then
    let d := d.updCmd trk (fun m => { m with started := true })
    if d.mmuHeld trk then d.updCmd trk (fun m => { m with stage := .deferred }) else f d
  else d

/-- GRANT (R219). -/
def execMmuGrant (trk now : Nat) (s : State) : Host.Outcome State Fault Refusal :=
  onDev s (fun d => (d.at now).mmuStart trk 1 (fun d => d.mmuGrantRun trk))

/-- RECLAIM (R219). -/
def execMmuReclaim (trk now : Nat) (s : State) : Host.Outcome State Fault Refusal :=
  onDev s (fun d => (d.at now).mmuStart trk 2 (fun d => d.mmuReclaimRun trk))

/-- MAP (R219). -/
def execMmuMap (trk now : Nat) (s : State) : Host.Outcome State Fault Refusal :=
  onDev s (fun d => (d.at now).mmuStart trk 3 (fun d => d.mmuMapRun trk))

/-- UNMAP (R219 to R221). -/
def execMmuUnmap (trk now : Nat) (s : State) : Host.Outcome State Fault Refusal :=
  onDev s (fun d => (d.at now).mmuStart trk 4 (fun d => d.mmuUnmapRun trk))

/-- PROTECT (R219 to R221). -/
def execMmuProtect (trk now : Nat) (s : State) : Host.Outcome State Fault Refusal :=
  onDev s (fun d => (d.at now).mmuStart trk 5 (fun d => d.mmuUnmapRun trk))

/-- The translation caches have dropped the old entries and every access under them has finished (R220). -/
def execMmuInvalidationDone (trk now : Nat) (s : State) : Host.Outcome State Fault Refusal :=
  onDev s (fun d => (d.at now).whenLive (fun d => if (d.cmd trk).stage = .invalidating then d.finish trk .ok else d))

/-- A deferred operation proceeds once nothing holds it (R221). -/
def execMmuDeferredProceed (trk now : Nat) (s : State) : Host.Outcome State Fault Refusal :=
  onDev s (fun d => (d.at now).whenLive (fun d => if (d.cmd trk).stage = .deferred && !d.mmuHeld trk then d.mmuRun trk else d))

/-! ### Answers to fault records (R222, R223) -/

/-- A fault record of a context. -/
def Dev.faultOf (d : Dev) (c n : Nat) : FaultRec := tabGet faultDflt (d.ctx c).faults n

/-- A fault record replaced. -/
def Dev.setFault (d : Dev) (c n : Nat) (f : FaultRec) : Dev := d.setCtx c { d.ctx c with faults := tabPut faultDflt (d.ctx c).faults n f }

/-- The faulting command ends with `PAGE_FAULT`, class C; a DMA command writes its record first. -/
def Dev.faultEnd (d : Dev) (c n : Nat) : Dev :=
  let f := d.faultOf c n
  let d := d.setFault c n { f with pending := false }
  (d.dmaStop f.tracker .pageFault).classC c (some f.tracker) (causeOf .pageFault) .pageFault { unit := f.client.code, unum := f.unit, addr := f.va }

/-- The stopped client goes on: a tile's shelf, a DMA channel, or a command of another engine. -/
def Dev.faultResume (d : Dev) (c n : Nat) : Dev :=
  let f := d.faultOf c n
  let d := d.setFault c n { f with pending := false }
  let d := d.withdraw f.tracker wFault
  match f.client with
  | .tile => (List.range 16).foldl (fun d k =>
      let y := d.slot f.unit k
      if y.ctx = c ∧ y.suspended = some n then d.setSlot f.unit k { y with suspended := none } else d) d
  | .dma =>
    let d := d.updCmd f.tracker (fun m => { m with stage := .running })
    let d := d.setChannel f.unit { d.channel f.unit with suspended := false }
    if (d.cmd f.tracker).dRecReady then d else d.dmaBegin f.unit f.tracker
  | _ => d.updCmd f.tracker (fun m => { m with stage := .running })

/-- RESUME: the client translates again; a page still not mapped ends the command. -/
def Dev.faultRetry (d : Dev) (c n : Nat) : Dev :=
  let f := d.faultOf c n
  match d.translate c f.va f.write with
  | .notMapped _ => d.faultEnd c n
  | _ => d.faultResume c n

/-- A write of `MMU_F_RESP` from a port: the record that its `BLK_SEL` and `MMU_FIDX` name (R223, R232); both bits set: ABORT. -/
def Dev.faultAnswer (d : Dev) (port v : Nat) : Dev :=
  let c := d.sel pgMmu port
  let n := d.bankN pgMmu port 0x0110 % 16
  if !d.seesCtx port c then d.logErr port pgMmu 0x0124 .notVisible v
  else if !(d.faultOf c n).pending then d
  else if bit v 1 then d.faultEnd c n
  else if bit v 0 then d.faultRetry c n
  else d

/-- RESUME written to `MMU_F_RESP` (R223). -/
def execMmuFRespResume (port now : Nat) (s : State) : Host.Outcome State Fault Refusal :=
  onDev s (fun d => (d.at now).whenLive (fun d => d.faultAnswer port 1))

/-- ABORT written to `MMU_F_RESP` (R223). -/
def execMmuFRespAbort (port now : Nat) (s : State) : Host.Outcome State Fault Refusal :=
  onDev s (fun d => (d.at now).whenLive (fun d => d.faultAnswer port 2))

/-- A fault record unanswered for `MMU_FAULT_TMO` ACLK cycles of 10 ns ends its command (R223). -/
def execFaultAnswerTimeout (ctx rec' now : Nat) (s : State) : Host.Outcome State Fault Refusal :=
  onDev s (fun d => (d.at now).whenLive (fun d =>
    let f := d.faultOf ctx rec'
    if f.pending && decide (f.time + 10 * d.regN pgMmu 0 0x1000 ≤ d.now) then d.faultEnd ctx rec' else d))

end Sys2Proof.Machine
end

