-- ==== Sys2Proof/Machine/Cellar.lean ====
section
/-! DEFINITION. Single requests at a memory encryption unit (R242 to R247), the rekey sweep and the scrub after a drain (R250, R251),
page retirement (R456) and dropped requests (R448). The rows of engines make their own accesses by the same operations; a CELLAR row is
one further request of the requester it names, with what its ECC and MAC checks find (log entry 27). -/
namespace Sys2Proof.Machine

/-! ### Keys on requests (R242, R399, R402) -/

/-- How the unit takes a request's key: under the current key, under the previous key of a drain, or not at all. -/
inductive KeyAns where
  | current | previous | refused (st : Status)
deriving DecidableEq, Repr

/-- The key of a request: refused where the slot is empty, another hoop's or no memory key; served under the previous key while a revoked
slot drains. -/
def Dev.unitKey (d : Dev) (q : CelReq) : KeyAns :=
  let k := d.key q.key
  if q.key = 0 ∨ k.state = .empty ∨ k.usage ≠ useMem ∨ k.hoop ≠ q.hoop then .refused .accessDenied
  else if k.state = .draining then (if k.prevKept ∧ (q.gen + 1) % 16 = k.gen then .previous else .refused .keyRevoked)
  else if k.gen = q.gen then .current else .refused .keyRevoked

/-! ### Errors at the unit (R244, R245) -/

/-- An error counted at the stack and for the request's hoop: `CEL_CE` and `RAS_H_CE` (R233, R451). -/
def Dev.countCe (d : Dev) (q : CelReq) : Dev := (d.bumpRc (pgCel + paStack q.pa) 0 0x100C 1).bumpRc pgRas q.hoop 0x0108 1

/-- `CEL_UE`. -/
def Dev.countUe (d : Dev) (pa : Nat) : Dev := d.bumpRc (pgCel + paStack pa) 0 0x1010 1

/-- `RAS_H_UE`. -/
def Dev.hoopUe (d : Dev) (h : Nat) : Dev := d.bumpRc pgRas h 0x010C 1

/-- Granules of a group poisoned, `MENC_POISONED` counting those that were not. -/
def Dev.poison (d : Dev) (pa : Nat) (grans : List Nat) : Dev :=
  let g := d.group (paGroup pa)
  let fresh := grans.filter (fun i => !bit g.poison i)
  let d := d.setGroup (paGroup pa) { g with poison := fresh.foldl (fun p i => p + 2 ^ i) g.poison }
  d.bumpRc pgMenc (paStack pa) 0x0128 fresh.length

/-- Node index of a physical address at a level (R237). -/
def nodeIndex (pa level : Nat) : Nat := if level = 0 then fld pa 38 8 else groupIndex pa / 8 ^ level

/-- A halt of the unit: cause, level and address of the failing item (R249). -/
def Dev.unitHalt (d : Dev) (q : CelReq) (cause level : Nat) : Dev :=
  d.halt cause (paStack q.pa + level * 8) (nodeIndex q.pa level) (q.key + q.gen * 4096) (q.client + q.unit * 16)

/-- Levels fetched, lines written back (R253). -/
def Dev.countTree (d : Dev) (q : CelReq) (c : Checks) : Dev :=
  let s := paStack q.pa
  let d := if c.levels = 0 then d.mencBump s 0x0104 1 else d.mencBump s 0x010C c.levels
  d.mencBump s 0x0114 c.wb

/-- What a retry of a MAC that then matches does: counted, logged, every promise of the hoop withdrawn (R245, R296). -/
def Dev.macRetry (d : Dev) (q : CelReq) : Dev :=
  let d := d.bumpRc pgMenc (paStack q.pa) 0x0124 1
  let d := d.rasLog { cause := 0x85, cls := 3, status := Status.promiseWithdrawn.code, unit := q.client, unum := q.unit, hoop := q.hoop,
                      tracker := q.tracker, addr := q.pa }
  d.withdrawAll wMacRetry (fun m => m.hoop == q.hoop)

/-- The metadata checks of a request (R244, R245): none where the device halts. -/
def Dev.metaChecks (d : Dev) (q : CelReq) (c : Checks) : Dev × Bool :=
  let d := d.countTree q c
  match c.ecc, c.mac with
  | .metaUe l, _ => (((d.countUe q.pa).hoopUe q.hoop).unitHalt q 0x03 l, false)
  | .metaUeOnce r, m =>
    let d := (d.countUe q.pa).hoopUe q.hoop
    let d := if r then d.countCe q else d
    (match m with
     | .nodeBad l => (d.unitHalt q 0x02 l, false)
     | .nodeOnce => (d.macRetry q, true)
     | _ => (d, true))
  | _, .nodeBad l => (d.unitHalt q 0x02 l, false)
  | _, .nodeOnce => (d.macRetry q, true)
  | _, _ => (d, true)

/-- An uncorrectable read reaches its requester: class P of the requester's hoop for a tile or darner, a logged error for the others
(R244, causes 0x61 and 0x86). -/
def Dev.ueToClient (d : Dev) (q : CelReq) : Dev :=
  let c := (d.cmd q.tracker).ctx
  let i : FaultInfo := { unit := q.client, unum := q.unit, addr := q.pa }
  if (q.client = 0 ∨ q.client = 2) ∧ (d.cmd q.tracker).live then d.classP q.hoop c (some q.tracker) 0x61 i (some q.tracker)
  else (d.hoopUe q.hoop).rasLog { cause := 0x86, cls := 3, status := Status.uncorrectableMemory.code, unit := q.client, unum := q.unit,
                                  hoop := q.hoop, tracker := q.tracker, addr := q.pa }

/-- A data granule or MAC line uncorrectable: poisoned, the page queued for retirement, the requester told (R244 Table 7). -/
def Dev.readUe (d : Dev) (q : CelReq) (grans : List Nat) : Dev :=
  (((d.countUe q.pa).poison q.pa grans).queueRetire (q.pa / 65536)).ueToClient q

/-- The eight granules whose MACs share a 64-byte line with granule `i` (R237). -/
def macLine (i : Nat) : List Nat := (List.range 8).map (· + i / 8 * 8)

/-- The granule's own checks, ECC first, then its MAC (R244, R245): none where no data is delivered. -/
def Dev.granuleChecks (d : Dev) (q : CelReq) (c : Checks) : Dev × Bool :=
  let i := paGran q.pa
  match c.ecc with
  | .dataUe => (d.readUe q [i], false)
  | .macUe => (d.readUe q (macLine i), false)
  | e =>
    let d := match e with
      | .corrected => d.countCe q
      | .macUeOnce r =>
        let d := (d.countUe q.pa).hoopUe q.hoop
        if r then d.countCe q else d
      | _ => d
    (match c.mac with
     | .granuleBad => (d.unitHalt q 0x01 0, false)
     | .granuleOnce => (d.macRetry q, true)
     | _ => (d, true))

/-! ### Requests -/

/-- A granule read (R243): whether 256 bytes are delivered. -/
def Dev.unitRead (d : Dev) (q : CelReq) (c : Checks) : Dev × Bool :=
  match d.unitKey q with
  | .refused st => (d.cmdStatus q.tracker st, false)
  | _ =>
    match d.metaChecks q c with
    | (d, false) => (d, false)
    | (d, true) =>
      if d.granPoisoned q.pa then (d.ueToClient q, false)
      else if d.granZero q.pa then (d, true)
      else match d.granuleChecks q c with
        | (d, ok) => (if ok then d.bump64 (pgCel + paStack q.pa) 0 0x1018 256 0x102C 0 else d, ok)

/-- What the requester of a refused write learns. -/
def Dev.writeEnd (d : Dev) (q : CelReq) (r : Dev × Status) : Dev := if r.2 = .ok then r.1 else if r.2 = .integrityHalt then r.1 else d.cmdStatus q.tracker r.2

/-- A whole-granule write (R246). -/
def Dev.unitWrite (d : Dev) (q : CelReq) (bytes : List Byte) (c : Checks) : Dev :=
  match d.unitKey q with
  | .refused st => d.cmdStatus q.tracker st
  | _ =>
    match d.metaChecks q c with
    | (d, false) => d
    | (d, true) => if bytes.length = 256 ∧ q.pa % 256 = 0 then d.writeEnd q (d.granWrite q.key q.pa bytes) else d

/-- A write of less than a granule: read, merged and written as one step (R247). -/
def Dev.unitPartial (d : Dev) (q : CelReq) (bytes : List Byte) (c : Checks) : Dev :=
  if bytes.isEmpty ∨ 256 < q.pa % 256 + bytes.length ∨ bytes.length = 256 then d
  else match d.unitKey q with
    | .refused st => d.cmdStatus q.tracker st
    | _ =>
      match d.metaChecks q c with
      | (d, false) => d
      | (d, true) =>
        if d.granPoisoned q.pa then d.cmdStatus q.tracker .uncorrectableMemory
        else match (if d.granZero q.pa then (d, true) else d.granuleChecks q c) with
          | (d, true) => d.writeEnd q (d.granWrite q.key q.pa bytes)
          | (d, false) => d

/-- The address is one that a request may carry (R210). -/
def reqReachable (q : CelReq) : Bool := decide (q.pa < usableEnd)

/-- A cellar read (R243). -/
def execCellarRead (req : CelReq) (chk : Checks) (now : Nat) (s : State) : Host.Outcome State Fault Refusal :=
  if reqReachable req then onDev s (fun d => (d.at now).whenLive (fun d => (d.unitRead req chk).1)) else .fault (.noSuchAddress req.pa)

/-- A whole-granule write (R246). -/
def execCellarWrite (req : CelReq) (bytes : List Byte) (chk : Checks) (now : Nat) (s : State) : Host.Outcome State Fault Refusal :=
  if reqReachable req then onDev s (fun d => (d.at now).whenLive (fun d => d.unitWrite req bytes chk)) else .fault (.noSuchAddress req.pa)

/-- A write of less than a granule (R247). -/
def execCellarPartialWrite (req : CelReq) (bytes : List Byte) (chk : Checks) (now : Nat) (s : State) : Host.Outcome State Fault Refusal :=
  if reqReachable req then onDev s (fun d => (d.at now).whenLive (fun d => d.unitPartial req bytes chk)) else .fault (.noSuchAddress req.pa)

/-! ### The sweep and the scrub (R250, R251) -/

/-- Pages bound to a key index, rising. -/
def Dev.boundPages (d : Dev) (key : Nat) : List Nat := tabKeys (fun _ p => p.bound && p.key == key) d.pot

/-- The groups of a page. -/
def pageGroups (ppn : Nat) : List Nat := (List.range 4).map (· + ppn * 4)

/-- The sweep reaches its end: every group not yet of the slot's epoch is rewritten, the previous key is zeroized, and a limit met meanwhile
changes the phase (R251, R252). -/
def Dev.sweepDone (d : Dev) (key : Nat) : Dev :=
  if !(d.key key).sweeping ∨ (d.key key).state = .draining then d
  else
    let d := ((d.boundPages key).flatMap pageGroups).foldl (fun d g => d.sweepGroup g key) d
    (d.setKey key { d.key key with sweeping := false, sweepCur := 0, prevKept := false }).keyAtLimit key

/-- The rekey sweep finishes (R251). -/
def execRekeySweepComplete (key now : Nat) (s : State) : Host.Outcome State Fault Refusal :=
  onDev s (fun d => (d.at now).whenLive (fun d => d.sweepDone key))

/-- One page scrubbed: zeroed, its binding and its model-cache entries gone (R195, R250). -/
def Dev.scrubPage (d : Dev) (ppn : Nat) : Dev :=
  let d := (d.zeroPage ppn).mcDropPage ppn
  d.setPot ppn { d.potOf ppn with bound := false }

/-- The drain of a slot completes: every page bound to it scrubbed, and the slot empty, its generation kept (R250, R282, R398). -/
def Dev.scrub (d : Dev) (key : Nat) : Dev :=
  if (d.key key).state ≠ .draining then d
  else
    let d := (d.boundPages key).foldl Dev.scrubPage d
    d.setKey key { gen := (d.key key).gen }

/-- The scrub that follows the drain of a slot (R250). -/
def execScrubAfterDrain (key now : Nat) (s : State) : Host.Outcome State Fault Refusal :=
  onDev s (fun d => (d.at now).whenLive (fun d => d.scrub key))

/-! ### Page retirement (R456) -/

/-- The page is copied to a spare page of its stack and redirected, the granules `ue` found uncorrectable again poisoned; a stack whose
pool is empty keeps the page. -/
def Dev.retirePage (d : Dev) (ppn : Nat) (ue : List Nat) : Dev :=
  if d.retireQ.head? ≠ some ppn then d
  else
    let s := ppn % 8
    let d := { d with retireQ := d.retireQ.tail }
    let left := d.regN (pgCel + s) 0 0x1008
    let e : LogEntry := { cause := 0x87, cls := 3, unit := 7, unum := s, hoop := if (d.potOf ppn).granted then (d.potOf ppn).hoop else 0xFF, addr := ppn }
    if left = 0 then (d.orReg (pgCel + s) 0 0x1000 4).rasLog { e with cause := 0x88 }
    else
      let d := (ue.filter (· < 256)).foldl (fun d i => d.poison (ppn * 65536 + i * 256) [i % 64]) d
      let d := d.setRegN (pgCel + s) 0 0x1008 (left - 1)
      let d := d.setRegN pgMmu 0 0x1008 (d.regN pgMmu 0 0x1008 - 1)
      let d := d.setRegN pgAttic 0 0x100C (d.regN pgAttic 0 0x100C + 1)
      let d := { d with aon := { d.aon with retired := d.aon.retired ++ [ppn] } }
      (d.mcDropPage ppn).rasLog e

/-- A page queued for retirement takes its turn (R456). -/
def execPageRetireCopy (ppn : Nat) (ue : List Nat) (now : Nat) (s : State) : Host.Outcome State Fault Refusal :=
  onDev s (fun d => (d.at now).whenLive (fun d => d.retirePage ppn ue))

/-! ### Dropped requests (R448) -/

/-- The prior value of a granule whose write was dropped is not in the model, which made the write land: its bytes are free values
(log entry 28). -/
def Dev.dropWrite (d : Dev) (pa : Nat) : Dev :=
  if pa < usableEnd then { d.ticks 256 with cellar := memWrite d.cellar (pa / 256 * 256) (d.freeBytes 256) } else d

/-- A request of a stopped context is dropped by its node: logged with the cause of the reset; a dropped write of a committed strip loses
the strip's fence (R181, R448). -/
def Dev.dropRequest (d : Dev) (c cause : Nat) (write : Bool) (pa : Nat) (fence : Option Nat) : Dev :=
  let x := d.ctx c
  let d := d.rasLog { cause := cause, cls := 3, hoop := x.hoop, ctx := c, addr := pa }
  if !write then d
  else
    let d := if (d.potOf (pa / 65536)).granted && (d.potOf (pa / 65536)).hoop == x.hoop then d.dropWrite pa else d
    match fence with
    | some f => if (d.fence f).ctx = c then d.loseFence f else d
    | none => d

/-- A request not returned within 160,000 NCLK cycles is dropped (R448). -/
def execRequestDrop (ctx cause : Nat) (write : Bool) (pa : Nat) (fence : Option Nat) (now : Nat) (s : State) : Host.Outcome State Fault Refusal :=
  onDev s (fun d => (d.at now).whenLive (fun d => if (d.ctx ctx).state = .free then d else d.dropRequest ctx cause write pa fence))

end Sys2Proof.Machine
end

