-- ==== Sys2Proof/Machine/HostIf.lean ====
section
/-! DEFINITION. The host interface (chapter 12): operations on contexts, queues and events, doorbells, the BAR4 aperture, function-level
resets, power states, IDE, DOE and TDISP. Deciding and releasing commands is in `Decide`. -/
namespace Sys2Proof.Machine

/-! ### Operation registers (R261, R266, R274) -/

/-- An operation of a page whose `OP` lies at 0x1004 and `OP_STS` at 0x1020: its arguments are the port's `ARG` registers. -/
def Dev.hostOp (d : Dev) (port page code : Nat) (f : Dev → Status × Dev) : Dev :=
  d.runOp port page 0x1004 0x1020 code (opPort port) f

/-- `ARGn` of a port's bank. -/
def Dev.opArg (d : Dev) (page port n : Nat) : Nat := d.bankN page port (0x1008 + 4 * n)

/-- A function's context that an operation names: none where it is another function's (`ACCESS_DENIED`) or does not run
(`BAD_DESCRIPTOR`, log entry 29). -/
def Dev.ctxNamed (d : Dev) (port c : Nat) : Option Status :=
  let x := d.ctx c
  if x.state = .free then some .badDescriptor
  else if x.func ≠ port then some .accessDenied
  else if x.state ≠ .active then some .badDescriptor
  else none

/-! ### Contexts (R261 Table 2) -/

/-- Contexts of a hoop that are not `FREE`. -/
def Dev.ctxCount (d : Dev) (h : Nat) : Nat := (d.ctxsOf (fun x => x.hoop == h)).length

/-- The function serves the hoop and may hold contexts in it (R256, R258, R261). -/
def Dev.mayHold (d : Dev) (port h : Nat) : Bool :=
  let x := d.hoop h
  x.state != .free && bit x.inForce.funcs port && (!x.isSealed || (port != portPf && (d.func port).tdi == .run))

/-- Why CREATE fails. -/
def Dev.ctxCreateErrs (d : Dev) (port h ppn key gen : Nat) : List Status :=
  let p := d.potOf ppn
  (if d.mayHold port h && p.granted && p.hoop == h && !p.bound then [] else [.accessDenied]) ++
  (match d.keyCheck h useMem key gen with
   | some st => [st]
   | none => []) ++
  (if (lowest 4096 (fun c => (d.ctx c).state == .free)).isNone || decide ((d.hoop h).inForce.ctxs ≤ d.ctxCount h) then [.rejectNoCapacity] else [])

/-- The first status of a list of failures by R12, or the operation. -/
def opOr (d : Dev) (errs : List Status) (f : Unit → Status × Dev) : Status × Dev :=
  match errs with
  | [] => f ()
  | e :: r => (r.foldl (fun a s => if a.code < s.code then s else a) e, d)

/-- CREATE: the lowest free context, its root table bound, zeroed and marked a table page. -/
def Dev.ctxCreate (d : Dev) (port : Nat) : Status × Dev :=
  let h := d.opArg pgCtx port 0 % 16
  let ppn := d.opArg pgCtx port 1 % 2 ^ 23
  let key := fld (d.opArg pgCtx port 2) 11 0
  let gen := fld (d.opArg pgCtx port 2) 15 12
  opOr d (d.ctxCreateErrs port h ppn key gen) (fun _ =>
    match lowest 4096 (fun c => (d.ctx c).state == .free) with
    | none => (.rejectNoCapacity, d)
    | some c =>
      let d := d.setCtx c { state := .active, func := port, hoop := h, root := ppn, tblKey := key, tblGen := gen }
      let d := d.makeTable c ppn
      (.ok, d.setBankN pgCtx port 0x1024 c))

/-- DESTROY: `OK` too of a context already being destroyed (R280). -/
def Dev.ctxDestroy (d : Dev) (port : Nat) : Status × Dev :=
  let c := d.opArg pgCtx port 0 % 4096
  let x := d.ctx c
  if x.state = .free then (.badDescriptor, d)
  else if x.func ≠ port then (.accessDenied, d)
  else (.ok, d.destroyCtx c)

/-- RESET: the class C context reset, cause 0x46. -/
def Dev.ctxReset (d : Dev) (port : Nat) : Status × Dev :=
  let c := d.opArg pgCtx port 0 % 4096
  match d.ctxNamed port c with
  | some st => (st, d)
  | none => (.ok, d.classC c none 0x46 .contextAborted {})

/-- An unlisted host window: none. -/
def windowDflt (_ : Nat) : Window := {}

/-- SET_WINDOW (R265). -/
def Dev.ctxWindow (d : Dev) (port : Nat) : Status × Dev :=
  let a := d.opArg pgCtx port 0
  let c := fld a 11 0
  let w := fld a 19 16
  let base := d.opArg pgCtx port 1 + 2 ^ 32 * d.opArg pgCtx port 2
  let len := d.opArg pgCtx port 3
  let b := d.opArg pgCtx port 4
  opOr d ((d.ctxNamed port c).toList ++
    (if base % 4096 ≠ 0 ∨ 2 ^ 28 < len then [.badDescriptor] else []) ++
    (if bit b 2 && (port == portPf || (d.func port).tdi != .run) then [.accessDenied] else [])) (fun _ =>
      let x := d.ctx c
      let v : Window := if len = 0 then {} else { base := base, pages := len, r := bit b 0, w := bit b 1, priv := bit b 2 }
      (.ok, d.setCtx c { x with windows := tabPut windowDflt x.windows w v }))

/-- BIND_FENCE: the lowest free update fence (R183). -/
def Dev.bindFence (d : Dev) (port : Nat) : Status × Dev :=
  let c := d.opArg pgCtx port 0 % 4096
  match d.ctxNamed port c, lowest 1024 (fun f => (d.fence f).state == .free) with
  | some st, _ => (st, d)
  | none, none => (.rejectNoCapacity, d)
  | none, some f => (.ok, (d.setFence f { state := .idle, ctx := c, hoop := (d.ctx c).hoop }).setBankN pgCtx port 0x1024 f)

/-- UNBIND_FENCE. -/
def Dev.unbindFence (d : Dev) (port : Nat) : Status × Dev :=
  let c := d.opArg pgCtx port 0 % 4096
  let f := d.opArg pgCtx port 1 % 1024
  let x := d.fence f
  opOr d ((d.ctxNamed port c).toList ++
    (if x.state != .free && x.ctx != c then [.accessDenied] else []) ++
    (if x.state != .idle || !x.waiting.isEmpty then [.badDescriptor] else [])) (fun _ => (.ok, d.setFence f {}))

/-- An operation of the CTX page by its code; other codes are `BAD_DESCRIPTOR` (log entry 29). -/
def Dev.ctxOp (d : Dev) (port code : Nat) : Dev :=
  d.hostOp port pgCtx code (fun d =>
    match code % 16 with
    | 1 => d.ctxCreate port
    | 2 => d.ctxDestroy port
    | 3 => d.ctxReset port
    | 4 => d.ctxWindow port
    | 5 => d.bindFence port
    | 6 => d.unbindFence port
    | _ => (.badDescriptor, d))

/-- CREATE of a context (R261). -/
def execCtxCreate (port now : Nat) (s : State) : Host.Outcome State Fault Refusal :=
  onDev s (fun d => (d.at now).whenLive (fun d => d.ctxOp port 1))

/-- DESTROY of a context (R279). -/
def execCtxDestroy (port now : Nat) (s : State) : Host.Outcome State Fault Refusal :=
  onDev s (fun d => (d.at now).whenLive (fun d => d.ctxOp port 2))

/-- RESET of a context (R443). -/
def execCtxReset (port now : Nat) (s : State) : Host.Outcome State Fault Refusal :=
  onDev s (fun d => (d.at now).whenLive (fun d => d.ctxOp port 3))

/-- SET_WINDOW (R265). -/
def execSetWindow (port now : Nat) (s : State) : Host.Outcome State Fault Refusal :=
  onDev s (fun d => (d.at now).whenLive (fun d => d.ctxOp port 4))

/-- BIND_FENCE (R183). -/
def execBindFence (port now : Nat) (s : State) : Host.Outcome State Fault Refusal :=
  onDev s (fun d => (d.at now).whenLive (fun d => d.ctxOp port 5))

/-- UNBIND_FENCE (R261). -/
def execUnbindFence (port now : Nat) (s : State) : Host.Outcome State Fault Refusal :=
  onDev s (fun d => (d.at now).whenLive (fun d => d.ctxOp port 6))

/-- The fabric drain of a destroyed context ends: `FREE` (R279 step 12). -/
def execFabricDrainEnd (ctx now : Nat) (s : State) : Host.Outcome State Fault Refusal :=
  onDev s (fun d => (d.at now).whenLive (fun d => if (d.ctx ctx).state = .draining then d.setCtx ctx {} else d))

/-! ### Queues (R266, R281) -/

/-- A ring's base is aligned to its own size or to 4 KiB, whichever is smaller, and a cellar ring lies in the 48-bit space. -/
def ringBad (host : Bool) (base bytes : Nat) : Bool := base % min bytes 4096 != 0 || (!host && vaBad base bytes)

/-- The function's queue configuration is locked (R258). -/
def Dev.locked (d : Dev) (port : Nat) : Bool := port != portPf && (d.func port).tdi == .configLocked

/-- A CREATE's arguments break R266. -/
def Dev.queArgsBad (d : Dev) (port : Nat) : Bool :=
  let a := d.opArg pgQue port 0
  let l := fld a 16 12
  let ring := d.opArg pgQue port 1 + 2 ^ 32 * d.opArg pgQue port 2
  let cpl := d.opArg pgQue port 3 + 2 ^ 32 * d.opArg pgQue port 4
  bit a 31 || decide (l < 4) || decide (16 < l) || fld a 30 20 == 0 || d.opArg pgQue port 5 != 0 ||
  (if bit a 17 then ring != 0 || bit a 18 else ringBad (bit a 18) ring (64 * 2 ^ l)) || ringBad (bit a 19) cpl (16 * 2 ^ l)

/-- The lowest free queue number of a hoop's range. -/
def Dev.freeQueue (d : Dev) (h : Nat) : Option Nat :=
  lowestFrom (fun q => !(d.queue q).valid) (d.hoop h).inForce.qbase (min (d.hoop h).inForce.qcount (65536 - (d.hoop h).inForce.qbase))

/-- Queue CREATE. -/
def Dev.queCreate (d : Dev) (port : Nat) : Status × Dev :=
  let a := d.opArg pgQue port 0
  let c := fld a 11 0
  let h := (d.ctx c).hoop
  opOr d ((d.ctxNamed port c).toList ++ (if d.locked port then [.accessDenied] else []) ++
    (if d.queArgsBad port then [.badDescriptor] else []) ++
    (if (d.ctxNamed port c).isNone && (d.freeQueue h).isNone then [.rejectNoCapacity] else [])) (fun _ =>
      match d.freeQueue h with
      | none => (.rejectNoCapacity, d)
      | some q =>
        let x : Queue := { valid := true, ctx := c, hoop := h, log2 := fld a 16 12, push := bit a 17, ringHost := bit a 18, cplHost := bit a 19,
                           vec := fld a 30 20, ring := d.opArg pgQue port 1 + 2 ^ 32 * d.opArg pgQue port 2,
                           cpl := d.opArg pgQue port 3 + 2 ^ 32 * d.opArg pgQue port 4 }
        (.ok, (d.setQueue q x).setBankN pgQue port 0x1024 q))

/-- Queue DESTROY. -/
def Dev.queDestroy (d : Dev) (port : Nat) : Status × Dev :=
  let q := d.opArg pgQue port 5
  let x := d.queue q
  opOr d ((if decide (65535 < q) || !x.valid || (List.range 5).any (fun n => d.opArg pgQue port n != 0) then [.badDescriptor] else []) ++
    (if (x.valid && (d.ctx x.ctx).func != port) || d.locked port then [.accessDenied] else [])) (fun _ => (.ok, d.destroyQueue q))

/-- An operation of the QUE page. -/
def Dev.queOp (d : Dev) (port code : Nat) : Dev :=
  d.hostOp port pgQue code (fun d =>
    match code % 16 with
    | 1 => d.queCreate port
    | 2 => d.queDestroy port
    | _ => (.badDescriptor, d))

/-- CREATE of a queue (R266). -/
def execQueCreate (port now : Nat) (s : State) : Host.Outcome State Fault Refusal :=
  onDev s (fun d => (d.at now).whenLive (fun d => d.queOp port 1))

/-- DESTROY of a queue (R281). -/
def execQueDestroy (port now : Nat) (s : State) : Host.Outcome State Fault Refusal :=
  onDev s (fun d => (d.at now).whenLive (fun d => d.queOp port 2))

/-! ### Events (R274, R275, R281) -/

/-- Event CREATE: `SHARED` and the owning context stand in the code. -/
def Dev.evtCreate (d : Dev) (port code : Nat) : Status × Dev :=
  let c := fld code 27 16
  let v := d.bankN pgEvt port 0x1008 + 2 ^ 32 * d.bankN pgEvt port 0x100C
  match d.ctxNamed port c, lowestFrom (fun e => !(d.evt e).valid) 0 (min 65536 (d.events.length + 1)) with
  | some st, _ => (st, d)
  | none, none => (.rejectNoCapacity, d)
  | none, some e =>
    (.ok, (d.setEvt e { valid := true, shared := bit code 2, ctx := c, hoop := (d.ctx c).hoop, value := v }).setBankN pgEvt port 0x1014 e)

/-- Event DESTROY: the event is the one that `EVT_DARG` names. -/
def Dev.evtDestroy (d : Dev) (port : Nat) : Status × Dev :=
  let e := d.bankN pgEvt port 0x1018 % 65536
  let x := d.evt e
  if !x.valid then (.badDescriptor, d)
  else if (d.ctx x.ctx).func ≠ port then (.accessDenied, d)
  else (.ok, d.destroyEvent e)

/-- An operation of the event page (`EVT_OP_STS` at 0x1010). -/
def Dev.evtOp (d : Dev) (port code : Nat) : Dev :=
  d.runOp port pgEvt 0x1004 0x1010 code (opPort port) (fun d =>
    match code % 4 with
    | 1 => d.evtCreate port code
    | 2 => d.evtDestroy port
    | _ => (.badDescriptor, d))

/-- CREATE of an event (R274). -/
def execEvtCreate (port : Nat) (shared : Bool) (ctx now : Nat) (s : State) : Host.Outcome State Fault Refusal :=
  onDev s (fun d => (d.at now).whenLive (fun d => d.evtOp port (1 + b2n shared * 4 + ctx % 4096 * 65536)))

/-- DESTROY of an event (R281). -/
def execEvtDestroy (port now : Nat) (s : State) : Host.Outcome State Fault Refusal :=
  onDev s (fun d => (d.at now).whenLive (fun d => d.evtOp port 2))

/-- The event is usable by the function or RTP behind a port (R65, R274). -/
def Dev.seesEvt (d : Dev) (port e : Nat) : Bool :=
  let x := d.evt e
  port == portRtp || (portIsFunc port && x.valid && ((d.ctx x.ctx).func == port ||
    (x.shared && d.ctxs.any (fun c => c.2.state == .active && c.2.func == port && c.2.hoop == x.hoop))))

/-- A write of `EVT_SIG_HI` from a port signals the value it forms with the low word the port staged to the selected event (R275, R485). -/
def Dev.signalFrom (d : Dev) (port hi : Nat) : Dev :=
  let e := d.sel pgEvt port
  if !d.seesEvt port e then d.logErr port pgEvt 0x0110 .notVisible hi
  else
    let lo := d.stagedOr port pgEvt e 0x010C
    ((d.unstage port pgEvt e 0x010C).setRegN pgEvt e 0x010C lo).signalEvt e (lo + 2 ^ 32 * (hi % 2 ^ 32))

/-- A write to `EVT_SIG_HI` (R275). -/
def execEvtSigHi (port hi now : Nat) (s : State) : Host.Outcome State Fault Refusal :=
  onDev s (fun d => (d.at now).whenLive (fun d => d.signalFrom port hi))

/-! ### Doorbells (R267) -/

/-- BAR2 answers: the core runs and the function's TDI is not in ERROR (R248, R258). -/
def Dev.barOpen (d : Dev) (fn : Nat) : Bool := d.live && d.aon.pcieUp && (d.func fn).tdi != .error

/-- A doorbell of a queue that the function owns; otherwise UR, a foreign count, or discarded while its context is torn down. -/
def Dev.doorbell (d : Dev) (fn qn : Nat) (f : Dev → Dev) : Dev :=
  if !d.barOpen fn then d.emit (.pcieUr fn)
  else
    let q := d.queue qn
    if !q.valid || (d.ctx q.ctx).func != fn then d.bumpRc pgQue (bank fn) 0x1028 1
    else if q.destroying || (d.ctx q.ctx).state != .active then d
    else f d

/-- `DB_BAD`. -/
def Dev.dbBad (d : Dev) (qn : Nat) : Dev := d.orReg pgQue qn 0x012C 2
/-- `DB_OVERRUN`. -/
def Dev.dbOverrun (d : Dev) (qn : Nat) : Dev := d.orReg pgQue qn 0x012C 1

/-- The tail may become `t`: the completion ring has room. -/
def Queue.room (q : Queue) (t : Nat) : Bool := decide ((t + 2 ^ 32 - q.cplHead % 2 ^ 32) % 2 ^ 32 ≤ 2 ^ q.log2)

/-- A doorbell write of a RING queue. -/
def Dev.ringDoorbell (d : Dev) (qn off width v : Nat) : Dev :=
  let q := d.queue qn
  let t := v % 2 ^ 32
  let adv := (t + 2 ^ 32 - q.tail) % 2 ^ 32
  if q.push || off != 0 || width != 4 || adv == 0 then d.dbBad qn
  else if decide (64 < adv) || !q.room t then d.dbOverrun qn
  else d.setQueue qn { q with tail := t }

/-- A doorbell write of a PUSH queue: one whole descriptor. -/
def Dev.pushDoorbell (d : Dev) (qn off : Nat) (bytes : List Byte) : Dev :=
  let q := d.queue qn
  let t := (q.tail + 1) % 2 ^ 32
  if !q.push || off != 0 || bytes.length != 64 then d.dbBad qn
  else if !q.room t then d.dbOverrun qn
  else d.setQueue qn { q with tail := t, pushed := q.pushed ++ [bytes] }

/-- A doorbell write of `width` bytes at `off` in a queue's BAR2 slot (R267). -/
def execDoorbellRing (fn queue off width tail now : Nat) (s : State) : Host.Outcome State Fault Refusal :=
  onDev s (fun d => (d.at now).doorbell fn queue (fun d => d.ringDoorbell queue off width tail))

/-- A write of a whole descriptor in a queue's BAR2 slot (R267). -/
def execDoorbellPush (fn queue off : Nat) (bytes : List Byte) (now : Nat) (s : State) : Host.Outcome State Fault Refusal :=
  onDev s (fun d => (d.at now).doorbell fn queue (fun d => d.pushDoorbell queue off bytes))

/-! ### The aperture (R260) -/

/-- The context may be named in `APER_CTX` and served through BAR4: its hoop is neither sealed nor joint (R260, R415). -/
def Dev.aperOk (d : Dev) (c : Nat) : Bool := let h := d.hoop (d.ctx c).hoop; !h.isSealed && !h.joint

/-- A write to `APER_CTX`. -/
def Dev.aperWrite (d : Dev) (port v : Nat) : Dev :=
  let c := v % 4096
  if (d.ctx c).state ≠ .free ∧ (d.hoop (d.ctx c).hoop).isSealed then d.logErr port pgCtx 0x1030 .value v
  else d.setBankN pgCtx port 0x1030 (fld v 31 31 * 2 ^ 31 + c)

/-- A write to `APER_CTX` (R260). -/
def execAperCtxWrite (port value now : Nat) (s : State) : Host.Outcome State Fault Refusal :=
  onDev s (fun d => (d.at now).whenLive (fun d => d.aperWrite port value))

/-- The context and virtual address of a BAR4 access; none where the aperture does not serve it. -/
def Dev.aperture (d : Dev) (fn addr n : Nat) : Option (Nat × Nat) :=
  let a := d.bankN pgCtx fn 0x1030
  let c := a % 4096
  let base := d.bankN pgCtx fn 0x1034 + 2 ^ 32 * (d.bankN pgCtx fn 0x1038 % 65536)
  let size := 2 ^ (d.func fn).bar4
  if bit a 31 && (d.ctx c).state == .active && (d.ctx c).func == fn && d.aperOk c && decide (addr + n ≤ size) && base % size == 0
  then some (c, base + addr) else none

/-- `APER_FAULTS` of the function's bank. -/
def Dev.aperFault (d : Dev) (fn : Nat) : Dev := d.bumpRc pgCtx (bank fn) 0x103C 1

/-- Host and cellar bytes of an access that belongs to no command (R297, R301). -/
def Dev.chargeHost (d : Dev) (c rd wr : Nat) : Dev :=
  ((((d.charge c 7 rd).charge c 8 wr).charge c 12 (rd + wr)).chargeEnergy c ((rd + wr) * (d.ec 4 + d.ec 7)))

/-- A BAR4 read. -/
def Dev.bar4Read (d : Dev) (fn addr n : Nat) : Dev :=
  if !d.barOpen fn then d.emit (.pcieUr fn)
  else match d.aperture fn addr n with
    | none => (d.aperFault fn).emit (.pcieUr fn)
    | some (c, va) => match d.readVa c va n with
      | .data bs => (d.chargeHost c n 0).emit (.bar4Data fn addr bs)
      | _ => ((d.noteReach (d.reach c va n false)).aperFault fn).emit (.pcieUr fn)

/-- A BAR4 write. -/
def Dev.bar4Write (d : Dev) (fn addr : Nat) (bs : List Byte) : Dev :=
  if !d.barOpen fn then d.emit (.pcieUr fn)
  else match d.aperture fn addr bs.length with
    | none => d.aperFault fn
    | some (c, va) => match d.writeVa c va bs with
      | (d, none) => d.chargeHost c 0 bs.length
      | (d, some _) => d.aperFault fn

/-- A BAR4 read (R260). -/
def execBar4Read (fn addr len now : Nat) (s : State) : Host.Outcome State Fault Refusal := onDev s (fun d => (d.at now).bar4Read fn addr len)

/-- A BAR4 write (R260). -/
def execBar4Write (fn addr : Nat) (bytes : List Byte) (now : Nat) (s : State) : Host.Outcome State Fault Refusal :=
  onDev s (fun d => (d.at now).bar4Write fn addr bytes)

/-! ### Resets and states of functions (R254, R255, R258) -/

/-- An FLR of a VF (R255). -/
def execFlrVf (fn now : Nat) (s : State) : Host.Outcome State Fault Refusal :=
  onDev s (fun d => (d.at now).whenLive (fun d => if fn = 0 ∨ 63 < fn then d else d.destroyOf (fun f => f == fn)))

/-- An FLR of the PF: every context destroyed, VF Enable cleared, every hoop reset (R255; cause 0x65), every debug right ended (R435). -/
def Dev.flrPf (d : Dev) : Dev :=
  let d := d.destroyOf (fun _ => true)
  let d := ({ d with vfEnable := false }).endDebug
  (List.range 16).foldl (fun d h =>
    if (d.hoop h).state = .free then d
    else (d.rasLog { cause := 0x65, cls := 1, status := Status.hoopReset.code, hoop := h }).resetHoop h 0x65 none) d

/-- An FLR of the PF (R255). -/
def execFlrPf (now : Nat) (s : State) : Host.Outcome State Fault Refusal := onDev s (fun d => (d.at now).whenLive Dev.flrPf)

/-- VF Enable and NumVFs written: clearing VF Enable or changing NumVFs destroys every VF's contexts; VF Enable set with NumVFs above 63
has no effect (R23, R255). -/
def execVfEnableClear (enable : Bool) (num now : Nat) (s : State) : Host.Outcome State Fault Refusal :=
  onDev s (fun d => (d.at now).whenLive (fun d =>
    if enable && decide (63 < num) then d
    else
      let gone := (d.vfEnable && !enable) || num != d.numVfs
      let d := if gone then d.destroyOf (fun f => f != 0) else d
      { d with vfEnable := enable, numVfs := num }))

/-- A function enters D3hot: its contexts are destroyed (R254). -/
def execD3hotEntry (fn now : Nat) (s : State) : Host.Outcome State Fault Refusal :=
  onDev s (fun d => (d.at now).whenLive (fun d => if 63 < fn then d else (d.setFunc fn { d.func fn with d3hot := true }).destroyOf (fun f => f == fn)))

/-- An integrity failure of a selective IDE stream (0 to 63, its function's) or of the link stream (64): Insecure, and a VF's TDI in ERROR
with its contexts destroyed (R254, R258). -/
def Dev.ideFail (d : Dev) (stream : Nat) : Dev :=
  if stream = 64 then { d with linkInsecure := true }
  else if 64 < stream then d
  else
    let d := d.setFunc stream { d.func stream with ideInsecure := true }
    if stream = 0 then d else (d.setFunc stream { d.func stream with tdi := .error }).destroyOf (fun f => f == stream)

/-- An IDE integrity failure (R254). -/
def execIdeIntegrityFailure (stream now : Nat) (s : State) : Host.Outcome State Fault Refusal :=
  onDev s (fun d => (d.at now).whenLive (fun d => d.ideFail stream))

/-- A VF's TDI moves. -/
def Dev.setTdi (d : Dev) (fn : Nat) (t : Tdi) : Dev := if fn = 0 ∨ 63 < fn then d else d.setFunc fn { d.func fn with tdi := t }

/-- STOP_INTERFACE: back to CONFIG_UNLOCKED (R258). -/
def execStopInterface (fn now : Nat) (s : State) : Host.Outcome State Fault Refusal :=
  onDev s (fun d => (d.at now).whenLive (fun d => d.setTdi fn .configUnlocked))

/-! ### DOE (R254) -/

/-- A secured session over DOE is past its KEM_ENCAP (R395). -/
def Dev.doeSession (d : Dev) : Bool := d.sec.sessions.any (fun e => e.2.stage == .kem && !e.2.mctp)

/-- What a DOE object of the allowed length does. IDE_KM and TDISP act inside a secured session only; the TDI steps are TDISP 1.0's
(log entry 30). -/
def Dev.doeTake (d : Dev) (b : DoeBody) : Dev :=
  match b with
  | .discovery i => d.emit (.doe 0 [BitVec.ofNat 8 i, BitVec.ofNat 8 (if i < 4 then i + 1 else 0)])
  | .ideKm fn => if d.doeSession && decide (fn ≤ 63) then d.setFunc fn { d.func fn with ideInsecure := false } else d
  | .tdispLock fn => if d.doeSession && (d.func fn).tdi == .configUnlocked then d.setTdi fn .configLocked else d
  | .tdispStart fn => if d.doeSession && (d.func fn).tdi == .configLocked then d.setTdi fn .run else d
  | .tdispStop fn => if d.doeSession then d.setTdi fn .configUnlocked else d
  | _ => d

/-- A DOE mailbox object of `dw` double words: taken by its protocol, or discarded with DOE Error set when longer than 2^18 (R254). -/
def execDoeObject (dw : Nat) (body : DoeBody) (now : Nat) (s : State) : Host.Outcome State Fault Refusal :=
  onDev s (fun d => (d.at now).whenLive (fun d => if 2 ^ 18 < dw then { d with doeError := true } else d.doeTake body))

end Sys2Proof.Machine
end

