-- ==== Sys2Proof/Machine/Auth.lean ====
section
/-! DEFINITION. Two-party authorisation (R410, R411, R412): what a staged record must show, and its consumption. -/
namespace Sys2Proof.Machine

/-- A nonce's age limit: 6,000,000,000 ACLK cycles of 10 ns. -/
def nonceLife : Nat := 60000000000

/-- The nonce of a hoop may still be used. -/
def Dev.nonceGood (d : Dev) (h : Nat) (n : List Byte) : Bool :=
  d.sec.nonces.any (fun x => x.hoop == h && x.bytes == n && !x.used && decide (d.now ≤ x.time + nonceLife))

/-- The nonce marked used. -/
def Dev.useNonce (d : Dev) (n : List Byte) : Dev :=
  { d with sec := { d.sec with nonces := d.sec.nonces.map (fun x => if x.bytes = n then { x with used := true } else x) } }

/-- Owner indexes of a hoop. -/
def Dev.ownersOf (d : Dev) (h : Nat) : List Nat := (d.hoopSec h).owners.map (·.1)

/-- Signers that a change needs (R411 Table 14): the operator but for CONSENT, every owner but the one removed, and the owner added (9). -/
def Dev.signersFor (d : Dev) (h code removed : Nat) : List Nat :=
  (if code = 0x09 then [] else [0]) ++ (d.ownersOf h).filter (fun o => !(code == 0x08 && o == removed)) ++ (if code = 0x07 then [9] else [])

/-- The staged record of a hoop authorises the change: its code, the digest of its parameters, every signer, a good nonce. -/
def Dev.authorised (d : Dev) (h code : Nat) (params : List Byte) (removed : Nat) : Bool :=
  match (d.hoopSec h).record with
  | none => false
  | some r => r.code == code && r.params == digest params && (d.signersFor h code removed).all (fun s => r.signers.contains s) &&
      d.nonceGood h r.nonce

/-- The staged record consumed by the operation it names, its nonce used. -/
def Dev.consume (d : Dev) (h : Nat) : Dev :=
  match (d.hoopSec h).record with
  | none => d
  | some r => (d.useNonce r.nonce).setHoopSec h { d.hoopSec h with record := none }

/-- An accepted command of the hoop is not completed (R412). -/
def Dev.hoopBusy (d : Dev) (h : Nat) : Bool := !(d.cmdsOf (fun m => m.hoop == h)).isEmpty

/-- An accepted class G command of the hoop is not completed. -/
def Dev.hoopBusyG (d : Dev) (h : Nat) : Bool := !(d.cmdsOf (fun m => m.hoop == h && m.cls == 0)).isEmpty

end Sys2Proof.Machine
end

