-- ==== Sys2Proof/Machine/Shuttle.lean ====
section
/-! DEFINITION. The shuttle (chapter 15): reading and writing chunks, the two passes of a ring operation (R344 to R347), failures (R348), the picot
path (R353 to R356) and handoff between devices (R357). Chunks are forwarded whole; what the link carries is queued at once. -/
namespace Sys2Proof.Machine

/-! ### Values of a chunk -/

/-- Little-endian FP32 or INT32 codes of bytes. -/
def codes4 (bs : List Byte) : List Nat := (List.range (bs.length / 4)).map (fun i => bytesNat bs (4 * i) 4)

/-- Bytes of codes. -/
def bytes4 (cs : List Nat) : List Byte := cs.flatMap (fun c => toBytes 4 c)

/-- The reduction of two values: SUM, MAX, MIN of FP32, or INT32 addition (R345, R353). -/
def redOp (red a b : Nat) : Nat :=
  match red with
  | 0 => fAdd a b
  | 1 => fMax a b
  | 2 => fMin a b
  | _ => (a + b) % 2 ^ 32

/-- A string cut into pieces of given lengths. -/
def splitLens : List Nat → List Byte → List (List Byte)
  | [], _ => []
  | n :: r, bs => bs.take n :: splitLens r (bs.drop n)

/-- Stored pair bytes as the wire has them: G, E padded to 32 a block, then scales (R347). -/
def pairWire (u : Nat) (lens : List Nat) (bs : List Byte) : List Byte :=
  let ps := splitLens lens bs
  (ps.take u).flatMap (padTo 32) ++ ((ps.drop u).take u).flatMap (padTo 32) ++ (ps.drop (2 * u)).flatMap id

/-- FP32 values of a chunk of `u` blocks in pair form; positions beyond `ncs` are +0 (R346). -/
def pairValues (u : Nat) (ncs : List Nat) (w : List Byte) : List Nat :=
  (List.range u).flatMap (fun b => (List.range 32).map (fun j =>
    if j < ncs.getD b 0 then pairValue (bytesNat w (32 * b + j) 1) (bytesNat w (32 * u + 32 * b + j) 1) (bytesNat w (64 * u + b) 1) else 0))

/-- The final values of a chunk written as pairs (R346, R170): wire form, and saturation events of each block. -/
def quantPairs (rs : List PRec) (rnd step b0 u : Nat) (vs : List Nat) : List Byte × List (Nat × Nat × Nat) :=
  let bs := (List.range u).map (fun i =>
    let p := blockAt rs (b0 + i)
    let row := (List.range p.2.nc).map (fun j =>
      (vs.getD (32 * i + j) 0, rmode rnd p.1.gtid step ((p.1.grow + p.2.r0) * p.1.gcols + p.1.gcol + p.2.c0 + j)))
    (p.1.sat, p.2.nc, pairBlock row))
  let g := bs.flatMap (fun b => padTo 32 (b.2.2.2.1.map (BitVec.ofNat 8 ·)))
  let e := bs.flatMap (fun b => padTo 32 (b.2.2.2.2.1.map (BitVec.ofNat 8 ·)))
  let s := bs.map (fun b => BitVec.ofNat 8 b.2.2.1)
  (g ++ e ++ s, bs.map (fun b => (b.1, b.2.1, b.2.2.2.2.2)))

/-! ### Reading and writing (R348, R350, R415) -/

/-- Why the shuttle cannot go on with a chunk: a page not mapped, an uncorrectable source, or a status that ends the command (class C or not). -/
inductive ShStop where
  | page (va level : Nat) (write : Bool)
  | uncorrectable (pa : Nat)
  | chunk (st : Status)
  | fault (st : Status) (va : Nat)
  | status (st : Status)
  | halted
deriving DecidableEq, Repr

/-- Source runs read for a group's link key; every page of a joint hoop must be released to it (R415). -/
def Dev.shRead (d : Dev) (g : CGroup) (runs : List (Nat × Nat)) : Except ShStop (List Byte) :=
  match d.reachFrom g.ctx false (runs.flatMap (fun r => pieces r.1 r.2)) with
  | .notMapped va l => .error (.page va l false)
  | .fail st va => .error (.fault st va)
  | .malformed va => .error (.fault .accessDenied va)
  | .ok ps =>
    if !ps.all (fun p => d.mayLeave g.hoop relLink p.2.2 g.key 0) then .error (.fault .accessDenied 0)
    else match ps.find? (fun p => d.anyPoison p.1 p.2.1) with
      | some p => .error (.uncorrectable p.1)
      | none => .ok (d.physRead ps)

/-- The source of chunk `i` in the form of its first send. -/
def Dev.shSource (d : Dev) (g : CGroup) (i : Nat) : Except ShStop (List Byte) :=
  match g.co.internal with
  | some bs => .ok ((bs.drop (65536 * (if g.co.op = 4 then 0 else i))).take 65536)
  | none =>
    let runs := d.chunkSrc g i
    match d.shRead g runs with
    | .error e => .error e
    | .ok bs => .ok (if g.co.op = 2 then pairWire (d.chunkUnits g.ctx g.co i) (runs.map (·.2)) bs else bs)

/-- The runs and bytes of chunk `i`'s destination. -/
def Dev.shParts (d : Dev) (g : CGroup) (i : Nat) (w : List Byte) : List ((Nat × Nat) × List Byte) :=
  let runs := d.chunkDst g i
  if g.co.op = 2 then
    let u := d.chunkUnits g.ctx g.co i
    (List.range u).map (fun b => (runs.getD b (0, 0), (w.drop (32 * b)).take (runs.getD b (0, 0)).2)) ++
    (List.range u).map (fun b => (runs.getD (u + b) (0, 0), (w.drop (32 * u + 32 * b)).take (runs.getD (u + b) (0, 0)).2)) ++
    (List.range u).map (fun b => (runs.getD (2 * u + b) (0, 0), (w.drop (64 * u + b)).take 1))
  else match runs with
    | [] => []
    | r :: _ => [(r, w)]

/-- The final bytes of chunk `i` written at this rank. -/
def Dev.shWrite (d : Dev) (k i : Nat) (w : List Byte) : Dev × Option ShStop :=
  let g := d.grp k
  if g.co.internal.isSome then (d.setGrp k { g with got := tabPut (fun _ => []) g.got i w }, none)
  else
    let parts := d.shParts g i w
    match d.reachFrom g.ctx true (parts.flatMap (fun p => pieces p.1.1 p.1.2)) with
    | .notMapped va l => (d, some (.page va l true))
    | .fail st va => (d, some (.fault st va))
    | .malformed va => (d, some (.fault .accessDenied va))
    | .ok ps =>
      match d.putParts ps (parts.flatMap (·.2)) with
      | (d, .ok) => (d, none)
      | (d, .integrityHalt) => (d, some .halted)
      | (d, .keyExhausted) => (d, some (.status .keyExhausted))
      | (d, st) => (d, some (.chunk st))

/-! ### How a command of a group ends -/

/-- What a shuttle fault names: the group slot and the address. -/
def shInfo (k va : Nat) : FaultInfo := { unit := Client.shuttle.code, unum := k, addr := va }

/-- The running operation ends with a status: of a command, its record and completion; of the checkpoint engine, its result. -/
def Dev.shEnd (d : Dev) (k : Nat) (st : Status) : Dev :=
  let g := d.grp k
  match g.running with
  | none => d
  | some t =>
    if g.co.internal.isSome then
      (d.updCap t (fun c => { c with result := some (stCombine g.status st.code, g.got) })).setGrp k g.idle
    else (d.collStop t st).finish t st

/-- The running operation has done every chunk: its record is written and its work ends with what its chunks gave (R349). -/
def Dev.shDone (d : Dev) (k : Nat) : Dev :=
  let g := d.grp k
  match g.running with
  | none => d
  | some t =>
    if g.co.internal.isSome then (d.updCap t (fun c => { c with result := some (g.status, g.got) })).setGrp k g.idle
    else
      let d := d.updCmd t (fun m => { m with status := stCombine m.status g.status })
      let d := d.deliverSats (some t) (d.cmd t).satAcc
      ((d.collRecord t 0).updGrp k CGroup.idle).finish t .ok

/-- An uncorrectable source read of the shuttle (cause 0x86): logged and counted, the page queued for retirement. -/
def Dev.shUe (d : Dev) (k pa : Nat) : Dev :=
  let g := d.grp k
  let d := d.rasLog { cause := 0x86, cls := 3, status := Status.uncorrectableMemory.code, unit := Client.shuttle.code, unum := k, hoop := g.hoop, ctx := g.ctx,
                      tracker := g.running.getD 0xFFFF, addr := pa }
  (d.bumpRc pgRas g.hoop 0x010C 1).queueRetire (pa / 65536)

/-- A stop that ends or suspends the running command (R348 Table 6, R350). -/
def Dev.shFault (d : Dev) (k : Nat) (e : ShStop) : Dev :=
  let g := d.grp k
  match g.running, e with
  | some t, .page va l w =>
    let full := (lowest faultRecords (fun i => !(tabGet faultDflt (d.ctx g.ctx).faults i).pending)).isNone
    let d := if full then d.collStop t .pageFault else d
    match d.pageFault g.ctx t .shuttle k va w l (shInfo k va) with
    | (d, some _) => d.updCmd t (fun m => { m with stage := .faulted })
    | (d, none) => d
  | some t, .fault st va => (d.collStop t st).classC g.ctx (some t) (causeOf st) st (shInfo k va)
  | some _, .status st => d.shEnd k st
  | some _, .uncorrectable pa => (d.shUe k pa).shEnd k .uncorrectableMemory
  | some _, .chunk st => d.shEnd k st
  | _, _ => d

/-! ### Sending (R347) -/

/-- `TGT` of a shuttle record (R347 Table 5). -/
def shTgt (gid inst pass : Nat) (failed : Bool) (seg chunk : Nat) : Nat :=
  gid % 256 + inst % 4096 * 2 ^ 8 + pass * 2 ^ 20 + b2n failed * 2 ^ 21 + seg * 2 ^ 22 + chunk * 2 ^ 26

/-- Payload bytes sent: the group's counter, the accounting counter and energy (R301, R358). -/
def Dev.shCountTx (d : Dev) (k n : Nat) (trk : Option Nat) : Dev :=
  let g := d.grp k
  let d := d.bump64 pgShut k 0x0134 n 0x0148 0
  let d := d.charge g.ctx 9 n
  match trk with
  | some t => d.cmdEnergy t (n * d.ec 5)
  | none => d

/-- A chunk sent in a pass: its records in increasing `SEG`, or one `FAILED` record (R347, R348). -/
def Dev.shSend (d : Dev) (k pass i : Nat) (w : Option (List Byte)) : Dev × Option ShStop :=
  let g := d.grp k
  let r := match w with
    | none => d.sendRecord g.next g.hoop g.key g.gen (2 + g.cls) 0 (shTgt g.peerSlot g.inst pass true 0 i) [0, 0, 0, 0]
    | some bs => d.sendRecords g.next g.hoop g.key g.gen (2 + g.cls) 0 (fun s => shTgt g.peerSlot g.inst pass false s i) bs
  match r with
  | (_, some st) => (d, some (.status st))
  | (d, none) => (d.shCountTx k ((w.getD [0, 0, 0, 0]).length) g.running, none)

/-- A pass of a group. -/
def CGroup.pass (g : CGroup) (p : Nat) : PassSt := if p = 0 then g.pass0 else g.pass1
/-- A pass of a group replaced. -/
def CGroup.setPass (g : CGroup) (p : Nat) (x : PassSt) : CGroup := if p = 0 then { g with pass0 := x } else { g with pass1 := x }

/-- A chunk ready to be sent in a pass before or at its turn; nothing where this rank does not send it. -/
def Dev.shReady (d : Dev) (k pass i : Nat) (w : Option (List Byte)) : Dev :=
  let g := d.grp k
  if d.sendsIn g pass i then d.setGrp k (g.setPass pass { g.pass pass with ready := (g.pass pass).ready ++ [(i, w)] }) else d

/-- The next chunk from `i` up that satisfies `p`, below `hi`. -/
def nextChunk (p : Nat → Bool) (hi : Nat) : Nat → Nat → Option Nat
  | 0, _ => none
  | n + 1, i => if hi ≤ i then none else if p i then some i else nextChunk p hi n (i + 1)

/-- One past the operation's last chunk. -/
def CollOp.limit (o : CollOp) : Nat := o.first + o.segs

/-- The chunk this rank sends next in a pass. -/
def Dev.nextTx (d : Dev) (g : CGroup) (pass : Nat) : Option Nat :=
  nextChunk (d.sendsIn g pass) g.co.limit (g.co.segs + 1) (g.pass pass).txChunk

/-- The chunk this rank receives next in a pass. -/
def Dev.nextRx (d : Dev) (g : CGroup) (pass : Nat) : Option Nat :=
  nextChunk (d.receivesIn g pass) g.co.limit (g.co.segs + 1) (g.pass pass).rxChunk

/-- This rank sends the chunk first in the pass, from its own source. -/
def Dev.ownChunk (d : Dev) (g : CGroup) (pass i : Nat) : Bool :=
  if pass = 0 then g.chunkFirst i == g.rank else !g.co.reduces && d.chunkHome g i == g.rank

/-- Chunk `i` has been sent in a pass. -/
def Dev.shSent (d : Dev) (k pass i : Nat) : Dev :=
  d.updGrp k (fun g => g.setPass pass { g.pass pass with txChunk := i + 1, ready := (g.pass pass).ready.filter (fun e => e.1 != i) })

/-- Send and note, or the stop. -/
def Dev.shSendNote (d : Dev) (k pass i : Nat) (w : Option (List Byte)) : Dev × Bool :=
  match d.shSend k pass i w with
  | (d, none) => (d.shSent k pass i, true)
  | (d, some e) => (d.shFault k e, false)

/-- A chunk that starts here in the second pass is written here too (R343 Table 4). -/
def Dev.shOwnWrite (d : Dev) (k i : Nat) (w : List Byte) : Dev × Option ShStop :=
  match d.shWrite k i w with
  | (d, none) => (d.chunkGood k i, none)
  | (d, some (.chunk st)) => (d.chunkFail k i st, none)
  | x => x

/-- The next chunk of a pass sent, where it is ready or starts here; answers whether something was done. -/
def Dev.shTx (d : Dev) (k pass : Nat) : Dev × Bool :=
  let g := d.grp k
  match d.nextTx g pass with
  | none => (d, false)
  | some i =>
    match (g.pass pass).ready.find? (fun e => e.1 == i) with
    | some e => d.shSendNote k pass i e.2
    | none =>
      if !d.ownChunk g pass i then (d, false)
      else match d.shSource g i with
        | .error (.uncorrectable pa) => ((d.shUe k pa).chunkFail k i .uncorrectableMemory).shSendNote k pass i none
        | .error e => (d.shFault k e, false)
        | .ok w =>
          if pass = 0 then d.shSendNote k pass i (some w)
          else match d.shOwnWrite k i w with
            | (d, some e) => (d.shFault k e, false)
            | (d, none) => d.shSendNote k pass i (some w)

/-! ### Receiving (R341, R345 to R348) -/

/-- Chunk `i` fails as it is received in a pass: marked here, and passed on as failed. -/
def Dev.shFailIn (d : Dev) (k pass i : Nat) (st : Status) : Dev :=
  let g := d.grp k
  let d := d.chunkFail k i st
  let d := if pass = 0 ∧ d.chunkHome g i = g.rank then d.shReady k 1 i none else d.shReady k pass i none
  d.updGrp k (fun g => g.setPass pass { g.pass pass with rxChunk := i + 1, rxSeg := 0, rxBytes := [] })

/-- A complete chunk of the second pass: written, and carried on (R345). -/
def Dev.shSpread (d : Dev) (k i : Nat) (w : List Byte) : Dev × Option ShStop :=
  match d.shWrite k i w with
  | (d, none) => ((d.chunkGood k i).shReady k 1 i (some w), none)
  | (d, some (.chunk st)) => ((d.chunkFail k i st).shReady k 1 i none, none)
  | x => x

/-- The final values of a chunk at its owner (R345, R346). -/
def Dev.shFinal (d : Dev) (k i : Nat) (vs : List Nat) : Dev × Option ShStop :=
  let g := d.grp k
  let q := if g.co.op = 2 then quantPairs (d.pairRecs g.ctx g.co.dst g.co.count) g.co.rnd ((d.cmd (g.running.getD 0)).stepOp) (512 * i) (d.chunkUnits g.ctx g.co i) vs
    else (bytes4 vs, [])
  match d.shWrite k i q.1 with
  | (d, none) =>
    let add := fun (l : List SatPart) => q.2.foldl (fun l e => if e.1 = 0xFFFF then l else mergeSat l { entry := e.1, elems := e.2.1, count := e.2.2 }) l
    let d := d.updCmd (g.running.getD 0) (fun m => { m with satAcc := add m.satAcc })
    ((d.chunkGood k i).shReady k 1 i (some q.1), none)
  | (d, some (.chunk st)) => ((d.chunkFail k i st).shReady k 1 i none, none)
  | x => x

/-- A complete chunk of the reduction pass: this rank's values are added in ring order (R345). -/
def Dev.shReduce (d : Dev) (k i : Nat) (w : List Byte) : Dev × Option ShStop :=
  let g := d.grp k
  let u := d.chunkUnits g.ctx g.co i
  let ncs := if g.co.op = 2 then (List.range u).map (fun b => (blockAt (d.pairRecs g.ctx g.co.src g.co.count) (512 * i + b)).2.nc) else []
  let fromFirst := decide ((g.rank + g.n - 1) % g.n = g.chunkFirst i)
  let vals := fun (pair : Bool) (bs : List Byte) => if pair then pairValues u ncs bs else codes4 bs
  match d.shSource g i with
  | .error (.uncorrectable pa) =>
    let d := (d.shUe k pa).chunkFail k i .uncorrectableMemory
    (if d.chunkHome g i = g.rank then d.shReady k 1 i none else d.shReady k 0 i none, none)
  | .error e => (d, some e)
  | .ok x =>
    let s := ((vals (g.co.pairForm 0 fromFirst) w).zip (vals (g.co.op == 2) x)).map (fun p => redOp g.co.red p.1 p.2)
    if d.chunkHome g i = g.rank then d.shFinal k i s else (d.shReady k 0 i (some (bytes4 s)), none)

/-- Records held of the ring engine: the first, if it belongs to the running operation or an older one. -/
def CGroup.front (g : CGroup) : Option Held := g.held.find? (fun h => h.engine == 0)

/-- The first ring record leaves the buffer. -/
def CGroup.pop (g : CGroup) : CGroup := { g with held := eraseFirst g.held }
where
  /-- The list without its first ring record. -/
  eraseFirst : List Held → List Held
    | [] => []
    | h :: r => if h.engine = 0 then r else h :: eraseFirst r

/-- A record whose instance is older than the running one (R341), counted modulo 4,096. -/
def instOld (inst running : Nat) : Bool := decide (2048 ≤ (inst + 4096 - running) % 4096)

/-- Chunks of a pass skipped by a record that arrives past a gap: each fails (R347). -/
def Dev.shSkip (d : Dev) (k pass i : Nat) : Nat → Dev
  | 0 => d
  | n + 1 =>
    match d.nextRx (d.grp k) pass with
    | none => d
    | some e => if e < i then ((d.shFailIn k pass e .partialDone).orReg pgShut k 0x0148 16).shSkip k pass i n else d

/-- The record at the front of a group's buffer taken by its running operation; answers whether something was done (R341, R345, R347). -/
def Dev.shRx (d : Dev) (k : Nat) : Dev × Bool :=
  let g := d.grp k
  match g.front with
  | none => (d, false)
  | some h =>
    let inst := fld h.tgt 19 8
    let pass := fld h.tgt 20 20
    let seg := fld h.tgt 25 22
    let i := fld h.tgt 47 26
    let d' := d.setGrp k { g.pop with lastRx := d.now }
    if instOld inst g.inst then ((d.setGrp k g.pop).bumpRc pgShut k 0x0144 1, true)
    else if inst ≠ g.inst then (d, false)
    else if g.failed.contains i && decide (i < (g.pass pass).rxChunk) then (d', true)
    else if !(d.receivesIn g pass i && decide (g.co.first ≤ i) && decide (i < g.co.limit) && decide ((g.pass pass).rxChunk ≤ i)) then
      ((d'.shFailIn k pass i .badDescriptor).shEnd k .badDescriptor, false)
    else
      let d' := d'.shSkip k pass i (g.co.segs + 1)
      let x := (d'.grp k).pass pass
      if bit h.tgt 21 then (d'.shFailIn k pass i .partialDone, true)
      else
        let fromFirst := decide ((g.rank + g.n - 1) % g.n = g.chunkFirst i)
        let len := g.co.wireLen (g.co.pairForm pass fromFirst) (d.chunkUnits g.ctx g.co i)
        if x.rxSeg < seg ∧ 4096 * seg < len then ((d'.shFailIn k pass i .partialDone).orReg pgShut k 0x0148 16, true)
        else if seg ≠ x.rxSeg ∨ h.payload.length ≠ min 4096 (len - 4096 * seg) then
          ((d'.shFailIn k pass i .badDescriptor).shEnd k .badDescriptor, false)
        else
          let bs := x.rxBytes ++ h.payload
          if bs.length < len then
            (d'.updGrp k (fun g => g.setPass pass { g.pass pass with rxChunk := i, rxSeg := seg + 1, rxBytes := bs }), true)
          else
            match (if pass = 0 then d'.shReduce k i bs else d'.shSpread k i bs) with
            | (d, none) => (d.updGrp k (fun g => g.setPass pass { g.pass pass with rxChunk := i + 1, rxSeg := 0, rxBytes := [] }), true)
            | (_, some e) => (d.shFault k e, false)

/-- Every chunk this rank counts is good or failed, and everything it sends is sent. -/
def Dev.shComplete (d : Dev) (g : CGroup) : Bool :=
  (d.nextTx g 0).isNone && (d.nextTx g 1).isNone && (d.nextRx g 0).isNone && (d.nextRx g 1).isNone

/-- The shuttle goes on with a group's running operation as far as it can. -/
def Dev.shRun (d : Dev) (k : Nat) : Nat → Dev
  | 0 => d
  | n + 1 =>
    let g := d.grp k
    match g.running with
    | none => d
    | some t =>
      if !g.begun || g.state != .active || (d.cmd t).stage != .running || g.co.op == 6 then d
      else if d.shComplete g then d.shDone k
      else match d.shRx k with
        | (d, true) => d.shRun k n
        | (d, false) => match d.shTx k 0 with
          | (d, true) => d.shRun k n
          | (d, false) => match d.shTx k 1 with
            | (d, true) => d.shRun k n
            | (d, false) => d

/-- The shuttle goes on with a group. -/
def Dev.shGo (d : Dev) (k : Nat) : Dev := d.shRun k ((d.grp k).held.length + 4 * (d.grp k).co.segs + 8)

/-! ### Starting (R341, R351) -/

/-- A ring command of the group released earlier has not finished. -/
def Dev.shEarlier (d : Dev) (k trk : Nat) : Bool :=
  d.cmds.any (fun e => e.2.live && e.1 != trk && e.2.typ == tyCollective && !e.2.handoff && e.2.xcgid == k && e.2.released && e.2.stage != .finished &&
    decide (e.2.relOrder < (d.cmd trk).relOrder))

/-- An operation takes the group: its passes start at its first chunk. -/
def Dev.shTake (d : Dev) (k trk : Nat) (o : CollOp) : Dev :=
  let p : PassSt := { rxChunk := o.first, txChunk := o.first }
  d.updGrp k (fun g => { g with running := some trk, co := o, pass0 := p, pass1 := p, cursor := o.first, good := [], failed := [], goodBytes := 0, status := 0,
                                got := [], lastRx := d.now, begun := decide (o.start ≤ d.now) })

end Sys2Proof.Machine
end

