-- ==== Sys2Proof/Machine/Lerel.lean ====
section
/-! DEFINITION. The Lerel shard (R374, R375): the sections of a parameter or a plain tensor, the shard's plaintext, and the manifest's layout and
entries (R377). -/
namespace Sys2Proof.Machine

/-! ### Sections (R374) -/

/-- One array of a tensor: section kind, element format, block mode, rows of the array, its pitch, tensor rows per array row, its address. -/
structure Section where
  kind : Nat := 0
  fmt : Fmt := .fp32
  bmode : BMode := .none
  rows : Nat := 0
  pitch : Nat := 0
  band : Nat := 1
  addr : Nat := 0
deriving DecidableEq, Repr

/-- A tensor that a shard entry names: kind (0 parameter, 1 plain), id, extent, origins, global columns, its arrays, and its parameter record. -/
structure LTens where
  kind : Nat := 0
  id : Nat := 0
  rows : Nat := 0
  cols : Nat := 0
  grow : Nat := 0
  gcol : Nat := 0
  gcols : Nat := 0
  secs : List Section := []
  raw : List Byte := []
deriving DecidableEq, Repr

/-- The code of a format (R25). -/
def Fmt.code (f : Fmt) : Nat := (lowest 16 (fun c => Fmt.ofCode c == f)).getD 15

/-- The code of a block mode (R40). -/
def BMode.code : BMode → Nat
  | .none => 0 | .mx32 => 1 | .nb16 => 2 | .nb64 => 3 | .reserved => 4

/-- Bytes of the array's row before column `c` of the tensor. -/
def Section.colOff (s : Section) (c : Nat) : Nat :=
  match s.kind with
  | 1 => 4 * c
  | 2 => s.fmt.rowBytes c
  | 3 => if s.bmode = .nb16 then cdiv c 4 else c
  | 6 | 8 | 10 => cdiv c 32
  | 11 => elemBytes s.bmode s.fmt c
  | 12 => cdiv c (if s.bmode = .mx32 then 32 else if s.bmode = .nb16 then 4 else 64)
  | _ => c

/-- Bytes of a section. -/
def Section.len (s : Section) : Nat := s.rows * s.pitch

/-- An array of a parameter, its pitch by R168. -/
def paramSection (cols kind : Nat) (f : Fmt) (b : BMode) (rows band addr : Nat) : Section :=
  let s : Section := { kind := kind, fmt := f, bmode := b, rows := cdiv rows band, band := band, addr := addr }
  { s with pitch := pitch256 (s.colOff cols) }

/-- The sections of a parameter record (R374): copies that its rule does not use are left out. -/
def PRec.sections (r : PRec) : List Section :=
  let sec := paramSection r.cols
  [sec 1 .fp32 .none r.rows 1 r.master, sec 2 r.fmt r.bmode r.rows 1 r.cmp] ++
  (if r.bmode = .none then [] else [sec 3 (if r.bmode = .mx32 then .ue8m0 else .ue4m3) r.bmode r.rows (if r.bmode = .nb16 then 4 else 32) r.cmpScale]) ++
  [sec 4 .e4m3 .mx32 r.rows 1 r.gq, sec 5 .e4m3 .mx32 r.rows 1 r.ge, sec 6 .ue8m0 .mx32 r.rows 1 r.gs, sec 7 .e4m3 .none r.rows 1 r.mAddr, sec 8 .ue4m3 .none r.rows 1 r.mScale] ++
  (if r.usesR then [sec 9 .e4m3 .none r.rows 1 r.rAddr, sec 10 .ue4m3 .none r.rows 1 r.rScale] else [])

/-- A record's bytes with every address field zeroed (`PREC`, R374 Table 8). -/
def precImage (raw : List Byte) : List Byte := raw.take 56 ++ [(56, 80), (88, 144), (160, 176)].foldl (fun acc z =>
  acc ++ List.replicate (z.2 - z.1) 0 ++ (raw.drop z.2).take ((if z.1 = 56 then 88 else if z.1 = 88 then 160 else 256) - z.2)) []

/-- The parameter at an address. -/
def Dev.paramTens (d : Dev) (c a : Nat) : LTens :=
  let raw := (d.readVa c a 256).bytes
  let r := PRec.ofBytes a raw
  { kind := 0, id := r.ctid, rows := r.rows, cols := r.cols, grow := r.grow, gcol := r.gcol, gcols := r.gcols, secs := r.sections, raw := raw }

/-- The plain tensor whose 64-byte header lies at an address; its rows follow the header, then its scales (R373; layout of log entry 38). -/
def Dev.plainTens (d : Dev) (c a : Nat) : LTens :=
  let h := (d.readVa c a 64).bytes
  let f := Fmt.ofCode (fld (bytesNat h 0 1) 3 0)
  let b := BMode.ofCode (fld (bytesNat h 0 1) 6 4)
  let rows := bytesNat h 8 4
  let cols := bytesNat h 12 4
  let el : Section := { kind := 11, fmt := f, bmode := b, rows := rows, pitch := bytesNat h 16 4, addr := a + 64 }
  let sc := { paramSection cols 12 (if b = .mx32 then .ue8m0 else .ue4m3) b rows (if b = .nb16 then 4 else 1) (a + 64 + el.len) with kind := 12 }
  { kind := 1, id := bytesNat h 4 4, rows := rows, cols := cols, grow := bytesNat h 24 8, gcol := bytesNat h 32 8, gcols := bytesNat h 40 8,
    secs := el :: (if b = .none then [] else [sc]) }

/-- The tensor of local entry `j`. -/
def Dev.entryTens (d : Dev) (m : Cmd) (j : Nat) : LTens := if m.kKind j = 0 then d.paramTens m.ctx (m.kSource j) else d.plainTens m.ctx (m.kSource j)

/-! ### The shard's plaintext (R374) -/

/-- Offsets of the sections: each begins on a 4 KiB boundary after the header and the section table. -/
def sectionOffsets : Nat → List Section → List Nat
  | _, [] => []
  | at', s :: r => roundUp at' 4096 :: sectionOffsets (roundUp at' 4096 + s.len) r

/-- The offsets of a tensor's sections. -/
def LTens.offsets (t : LTens) : List Nat := sectionOffsets (512 + 32 * t.secs.length) t.secs

/-- Plaintext bytes of a shard. -/
def LTens.shardLen (t : LTens) : Nat := ((t.offsets.zip t.secs).map (fun e => e.1 + e.2.len)).foldl max (512 + 32 * t.secs.length)

/-- The global rows that a header states: the device holds no such number of a tensor, so it is a free value of the tensor id (log entry 38). -/
def globalRows (id : Nat) : Nat := (Config.freeWord (2 ^ 64 + id)).toNat

/-- The 512-byte header (R374 Table 8). -/
def LTens.header (t : LTens) (cid ckpt step : Nat) : List Byte :=
  ascii "LERELSHD" ++ toBytes 4 0x10000 ++ toBytes 4 t.secs.length ++ toBytes 8 cid ++ toBytes 8 ckpt ++ toBytes 4 step ++ toBytes 4 t.id ++
  toBytes 8 (globalRows t.id) ++ toBytes 8 t.gcols ++ toBytes 8 t.grow ++ toBytes 8 t.gcol ++ toBytes 8 t.rows ++ toBytes 8 t.cols ++ toBytes 1 t.kind ++ List.replicate 167 0 ++
  (if t.kind = 0 then padTo 256 (precImage t.raw) else List.replicate 256 0)

/-- A section-table entry. -/
def Section.entry (s : Section) (off : Nat) : List Byte :=
  toBytes 4 s.kind ++ toBytes 1 s.fmt.code ++ toBytes 1 s.bmode.code ++ toBytes 2 0 ++ toBytes 4 s.rows ++ toBytes 4 s.pitch ++ toBytes 8 off ++ toBytes 8 s.len

/-- The whole plaintext, or why its source cannot be read: data of a joint hoop leaves only under a FILE entry for the file's key (R415). -/
def Dev.shardPlain (d : Dev) (m : Cmd) (j step key : Nat) : Except ShStop (List Byte) :=
  let t := d.entryTens m j
  match d.reachFrom m.ctx false (t.secs.flatMap (fun s => pieces s.addr s.len)) with
  | .notMapped va l => .error (.page va l false)
  | .fail st va => .error (.fault st va)
  | .malformed va => .error (.fault .accessDenied va)
  | .ok ps =>
    if !ps.all (fun p => d.mayLeave m.hoop relFile p.2.2 key (d.key key).owner) then .error (.fault .accessDenied 0)
    else match ps.find? (fun p => d.anyPoison p.1 p.2.1) with
      | some p => .error (.uncorrectable p.1)
      | none =>
        let head := t.header (m.kCid j) m.kId step ++ (t.offsets.zip t.secs).flatMap (fun e => e.2.entry e.1)
        .ok ((t.offsets.zip t.secs).foldl (fun bs e => padTo e.1 bs ++ (d.readVa m.ctx e.2.addr e.2.len).bytes) head)

/-! ### The manifest (R377 Table 9) -/

/-- A shard entry as the members exchange it (R376): `CID`, rank, file id, nonce, chunk count, digest, local status, and what the manifest needs
of the slice: 192 bytes (log entry 39). -/
def shardEntry (cid rank fileId nonce chunks status : Nat) (t : LTens) (serial : Nat) (dig : List Byte) : List Byte :=
  toBytes 8 cid ++ toBytes 4 rank ++ toBytes 4 status ++ toBytes 8 fileId ++ toBytes 8 nonce ++ toBytes 4 chunks ++ toBytes 4 t.id ++ toBytes 8 t.kind ++
  toBytes 8 t.grow ++ toBytes 8 t.gcol ++ toBytes 8 t.rows ++ toBytes 8 t.cols ++ toBytes 8 serial ++ toBytes 8 1 ++ dig ++ List.replicate 48 0

/-- Bytes of a shard entry. -/
def shardEntryLen : Nat := 192

/-- A manifest entry made of an exchanged one. -/
def manifestEntry (e : List Byte) : List Byte :=
  e.take 8 ++ (e.drop 36).take 4 ++ (e.drop 40).take 1 ++ [0, 0, 0] ++ (e.drop 16).take 16 ++ (e.drop 32).take 4 ++ [0, 0, 0, 0] ++
  (e.drop 48).take 32 ++ (e.drop 80).take 8 ++ (e.drop 96).take 48

/-- The manifest from byte 0 to the end of its entry table. -/
def manifestBody (ckpt step n serial : Nat) (es : List (List Byte)) : List Byte :=
  ascii "LERELMAN" ++ toBytes 4 0x10000 ++ toBytes 4 es.length ++ toBytes 8 ckpt ++ toBytes 4 step ++ toBytes 2 n ++ toBytes 2 0 ++ toBytes 8 serial ++
  List.replicate 88 0 ++ es.flatMap id

/-- An entry of a manifest as RESTORE reads it. -/
structure ManEntry where
  cid : Nat := 0
  id : Nat := 0
  kind : Nat := 0
  fileId : Nat := 0
  nonce : Nat := 0
  chunks : Nat := 0
  grow : Nat := 0
  gcol : Nat := 0
  rows : Nat := 0
  cols : Nat := 0
  dig : List Byte := []
deriving DecidableEq, Repr

/-- Entry `e` of a manifest's plaintext. -/
def manEntry (bs : List Byte) (e : Nat) : ManEntry :=
  let o := 128 + 128 * e
  { cid := bytesNat bs o 8, id := bytesNat bs (o + 8) 4, kind := bytesNat bs (o + 12) 1, fileId := bytesNat bs (o + 16) 8, nonce := bytesNat bs (o + 24) 8,
    chunks := bytesNat bs (o + 32) 4, grow := bytesNat bs (o + 40) 8, gcol := bytesNat bs (o + 48) 8, rows := bytesNat bs (o + 56) 8, cols := bytesNat bs (o + 64) 8,
    dig := (bs.drop (o + 80)).take 48 }

end Sys2Proof.Machine
end

