-- ==== Sys2Proof/Machine/Stor.lean ====
section
/-! DEFINITION. The storage engine (R360 to R369): protected files, I/Os and their rkey windows, the commands READ, WRITE and FLUSH, relays,
sessions, and the Ethernet ports. -/
namespace Sys2Proof.Machine

/-! ### Chunks under a file key (R364, R401) -/

/-- The file key of a slot in a phase (R392 Table 4). -/
def Dev.fileKey (d : Dev) (key phase : Nat) : Nat := beNat (kdf (beBytes 32 (d.key key).base) "HT-FILE" (beBytes 1 phase) 256)

/-- The IV of chunk `i`: `NONCE`, then i, little-endian (log entry 35). -/
def StorFile.iv (f : StorFile) (i : Nat) : Nat := beNat (toBytes 8 f.nonce ++ toBytes 4 i)

/-- The AAD of chunk `i`. -/
def StorFile.aad (f : StorFile) (i : Nat) : List Byte := toBytes 8 f.fileId ++ toBytes 4 i ++ toBytes 4 (f.chunkLen i) ++ toBytes 4 f.chunks

/-- A chunk's ciphertext and tag. -/
def Dev.sealChunk (d : Dev) (f : StorFile) (i : Nat) (pt : List Byte) : List Byte × List Byte :=
  let k := d.fileKey f.key (f.nonce / 2 ^ 56)
  let ct := gcmCrypt k (f.iv i) pt
  (ct, gcmTag k (f.iv i) (f.aad i) ct)

/-- A chunk's plaintext, where its tag matches. -/
def Dev.openChunk (d : Dev) (f : StorFile) (i : Nat) (ct tag : List Byte) : Option (List Byte) :=
  let k := d.fileKey f.key (f.nonce / 2 ^ 56)
  if gcmTag k (f.iv i) (f.aad i) ct = tag then some (gcmCrypt k (f.iv i) ct) else none

/-- The tag area (R365): its header, then the tags, padded to 4 KiB. -/
def StorFile.tagArea (f : StorFile) (tags : List (List Byte)) : List Byte :=
  padTo f.tagLen (ascii "LRTG" ++ toBytes 4 0x10000 ++ toBytes 8 f.fileId ++ toBytes 8 f.nonce ++ toBytes 8 f.length ++ toBytes 4 f.chunks ++
    List.replicate 28 0 ++ tags.flatMap id)

/-- A file nonce drawn from a key slot for `c` chunks (R401): the phase, then the slot's counter; the deck phase is taken first where the count
would pass 2^32. -/
def Dev.drawNonce (d : Dev) (key c : Nat) : Option (Dev × Nat) :=
  let k := d.key key
  let beyond := decide (2 ^ 32 < k.uses + c)
  if k.state = .exhausted ∨ (beyond ∧ (!k.deckReady ∨ k.phase = 255)) then none
  else
    let d := if beyond then (d.setKey key k.nextPhase).keyFlag key 0 else d
    let k := d.key key
    some ((d.setKey key { k with counter := k.counter + 1 }).keyUse key c, k.phase * 2 ^ 56 + k.counter)

/-! ### What a command moves -/

/-- Bytes of a file in the staging region: its data area and its tag area. -/
def StorFile.stageLen (f : StorFile) : Nat := 65536 * f.chunks + f.tagLen

/-- Where the file of shard `j` begins in the staging region. -/
def Capture.stageOff (c : Capture) (j : Nat) : Nat := ((c.files.take j).map StorFile.stageLen).foldl (· + ·) 0

/-- The file under way. -/
def Capture.cur (c : Capture) : StorFile := c.files.getD c.file {}

/-- The command writes its files. -/
def Cmd.sWrites (m : Cmd) : Bool := if m.typ = tyStorage then m.sop == 2 else m.sop != 3

/-- The file's number of the `n`-th chunk that the command moves of the file under way. -/
def Dev.nthChunk (d : Dev) (trk n : Nat) : Nat :=
  let m := d.cmd trk
  if m.typ = tyStorage ∧ m.sop = 1 then m.sfirst + n
  else if m.typ = tyCheckpoint ∧ m.sop = 3 then (d.cap trk).todo.getD n 0
  else n

/-- The command takes its shards from the staging region. -/
def Dev.fromStage (d : Dev) (trk : Nat) : Bool :=
  let m := d.cmd trk
  m.typ == tyCheckpoint && m.kStage != 0 && m.sop != 3 && (d.cap trk).file != 64

/-- Source bytes of a context read for a file key; every page of a joint hoop must be released to it (R415). -/
def Dev.storRead (d : Dev) (m : Cmd) (f : StorFile) (va n : Nat) : Except ShStop (List Byte) :=
  match d.reach m.ctx va n false with
  | .notMapped va l => .error (.page va l false)
  | .fail st va => .error (.fault st va)
  | .malformed va => .error (.fault .accessDenied va)
  | .ok ps =>
    if !ps.all (fun p => d.mayLeave m.hoop relFile p.2.2 f.key (d.key f.key).owner) then .error (.fault .accessDenied va)
    else match ps.find? (fun p => d.anyPoison p.1 p.2.1) with
      | some p => .error (.uncorrectable p.1)
      | none => .ok (d.physRead ps)

/-- Plaintext of chunk `i` of the file under way. -/
def Dev.chunkPlain (d : Dev) (trk i : Nat) : Except ShStop (List Byte) :=
  let m := d.cmd trk
  let c := d.cap trk
  let f := c.cur
  if m.typ = tyStorage then d.storRead m f (m.sbuf + 65536 * i) (f.chunkLen i)
  else if c.file = 64 then .ok ((c.manifest.drop (65536 * i)).take (f.chunkLen i))
  else match d.shardPlain m c.file c.step f.key with
    | .error e => .error e
    | .ok bs => .ok ((bs.drop (65536 * i)).take (f.chunkLen i))

/-- Ciphertext and tag of chunk `i` of the file under way. -/
def Dev.chunkCipher (d : Dev) (trk i : Nat) : Except ShStop (List Byte × List Byte) :=
  let m := d.cmd trk
  let c := d.cap trk
  let f := c.cur
  if d.fromStage trk then
    let o := m.kStage + c.stageOff c.file
    match d.storRead m f (o + 65536 * i) (f.chunkLen i), d.storRead m f (o + 65536 * f.chunks + 64 + 16 * i) 16 with
    | .ok ct, .ok tag => .ok (ct, tag)
    | .error e, _ => .error e
    | _, .error e => .error e
  else match d.chunkPlain trk i with
    | .error e => .error e
    | .ok pt => .ok (d.sealChunk f i pt)

/-- The tag area of the file under way. -/
def Dev.cipherArea (d : Dev) (trk : Nat) : Except ShStop (List Byte) :=
  let f := (d.cap trk).cur
  ((List.range f.chunks).foldl (fun acc i =>
    match acc, d.chunkCipher trk i with
    | .ok l, .ok x => .ok (l ++ [x.2])
    | .error e, _ => .error e
    | _, .error e => .error e) (Except.ok [])).map f.tagArea

/-- Bytes that an I/O offers to its target's RDMA READ: exactly its ciphertext (R362). -/
def Dev.ioBytes (d : Dev) (x : StorIo) : Except ShStop (List Byte) :=
  match x.peer with
  | some _ => .ok x.got
  | none =>
    if x.kind = 1 then (d.cipherArea x.trk).map (fun a => (a.drop x.off).take x.len)
    else (d.chunkCipher x.trk (d.nthChunk x.trk x.chunk)).map (fun p => padTo x.len ((p.1.drop x.off).take x.len))

/-! ### Sessions and I/Os (R361, R362) -/

/-- Kinds of a message of a session in `Emit.storage`: the capsules, then RDMA answers. -/
def stRead : Nat := 1
def stWrite : Nat := 2
def stFlush : Nat := 3
def stKeepAlive : Nat := 4
def stConnect : Nat := 5
def stDisconnect : Nat := 6
def stReadAnswer : Nat := 7
def stNak : Nat := 8
def stAck : Nat := 9

/-- The next rkey (R362). -/
def Dev.newIo (d : Dev) (x : StorIo) : Dev × Nat :=
  let r := d.rkeyNext
  (({ d with rkeyNext := (r + 1) % 2 ^ 32 } : Dev).setIo r { x with live := true, issued := d.now }, r)

/-- The pairing that carries relayed I/Os of a hoop on a port: its first. -/
def Dev.relayPair (d : Dev) (p hoop : Nat) : Option Pairing :=
  ((d.lk p).pairs.find? (fun e => e.2.valid && (d.key e.2.slot).hoop == hoop)).map (·.2)

/-- A relay message (log entry 40): kind, session, number of the I/O, LBA, bytes; then the data. -/
def relayHead (kind session io lba len : Nat) : List Byte := toBytes 1 kind ++ toBytes 1 session ++ toBytes 2 0 ++ toBytes 4 io ++ toBytes 8 lba ++ toBytes 8 len

/-- A relay message sent on a port under a pairing: engine 3, VC7, the chunk as target. -/
def Dev.relaySend (d : Dev) (p : Nat) (e : Pairing) (chunk : Nat) (head data : List Byte) : Dev × Option Status :=
  let h := (d.key e.slot).hoop
  match d.sendRecord p h e.slot e.txGen 7 3 chunk head with
  | (d, some st) => (d, some st)
  | (d, none) => d.sendRecords p h e.slot e.txGen 7 3 (fun _ => chunk) data

/-- An I/O issued: a capsule on its session, or a relay message. -/
def Dev.issueIo (d : Dev) (x : StorIo) (data : List Byte) : Dev × Option Status :=
  match x.relay with
  | some p =>
    match d.relayPair p (d.cmd x.trk).hoop with
    | none => (d, some .linkDown)
    | some e =>
      let r := d.newIo x
      match r.1.relaySend p e x.chunk (relayHead (if x.write then 2 else 1) x.session r.2 x.lba x.len) data with
      | (d', none) => (d', none)
      | (_, some _) => (d, some .linkDown)
  | none =>
    let s := d.sess x.session
    if s.state ≠ .opened then (d, some .linkDown)
    else
      let r := d.newIo x
      (r.1.emit (.storage x.session (if x.kind = 2 then stFlush else if x.write then stWrite else stRead) [s.nsid, x.lba, x.len / 2 ^ s.lba, r.2, x.len] []), none)

/-! ### Progress of a command (R367) -/

/-- I/Os of a chunk of the file under way. -/
def Dev.chunkIos (d : Dev) (trk n : Nat) : List (Nat × StorIo) :=
  d.ios.filter (fun e => e.2.peer.isNone && e.2.trk == trk && e.2.chunk == n)

/-- Every I/O of a chunk closed and forgotten. -/
def Dev.dropChunkIos (d : Dev) (trk n : Nat) : Dev := { d with ios := d.ios.filter (fun e => !(e.2.peer.isNone && e.2.trk == trk && e.2.chunk == n)) }

/-- Chunks done or failed of a command move its cursor (R227, R367). -/
def Dev.storCursor (d : Dev) (trk : Nat) : Dev :=
  let c := d.cap trk
  if (d.cmd trk).typ = tyStorage then d.updCmd trk (fun m => { m with cursor := (lowest c.total (fun n => !c.done.contains n && !c.bad.contains n)).getD c.total })
  else d

/-- A chunk fails with a status: of a storage command its segment, of a checkpoint its file. -/
def Dev.storFail (d : Dev) (trk n : Nat) (st : Status) : Dev :=
  let m := d.cmd trk
  let c := d.cap trk
  let d := d.dropChunkIos trk n
  let d := d.setCap trk { c with bad := c.bad ++ [n], sts := tabPut natDflt c.sts c.file (stCombine (tabGet natDflt c.sts c.file) st.code) }
  if m.typ = tyStorage then
    let k := if c.area ∧ c.total ≤ n then c.total - 1 else n
    (((d.readUndef m c.cur k).cmdStatus trk st).updCmd trk (fun m => { m with failed := if m.failed.contains k then m.failed else m.failed ++ [k] })).storCursor trk
  else d

/-- A chunk is good: counted, and its I/Os forgotten. -/
def Dev.storGood (d : Dev) (trk n bytes : Nat) : Dev :=
  let d := d.dropChunkIos trk n
  let d := (d.updCap trk (fun c => { c with done := c.done ++ [n], goodBytes := c.goodBytes + bytes })).storCursor trk
  (d.charge (d.cmd trk).ctx 11 bytes).cmdEnergy trk (bytes * d.ec 6)

/-- What a fault of the storage engine names. -/
def storInfo (va : Nat) : FaultInfo := { unit := Client.storage.code, unum := 0, addr := va }

/-- An uncorrectable source read (cause 0x86). -/
def Dev.storUe (d : Dev) (trk pa : Nat) : Dev :=
  let m := d.cmd trk
  let d := d.rasLog { cause := 0x86, cls := 3, status := Status.uncorrectableMemory.code, unit := Client.storage.code, hoop := m.hoop, ctx := m.ctx, tracker := trk, addr := pa }
  (d.bumpRc pgRas m.hoop 0x010C 1).queueRetire (pa / 65536)

/-- A stop that ends the command or suspends it on a fault record (R222, R367 Table 5). -/
def Dev.storFault (d : Dev) (trk : Nat) (e : ShStop) : Dev :=
  let m := d.cmd trk
  match e with
  | .page va l w =>
    let full := (lowest faultRecords (fun i => !(tabGet faultDflt (d.ctx m.ctx).faults i).pending)).isNone
    let d := if full then d.storStop trk .pageFault else d
    match d.pageFault m.ctx trk .storage 0 va w l (storInfo va) with
    | (d, some _) => d.updCmd trk (fun m => { m with stage := .faulted })
    | (d, none) => d
  | .fault st va => (d.storStop trk st).classC m.ctx (some trk) (causeOf st) st (storInfo va)
  | .uncorrectable pa => ((d.storUe trk pa).storStop trk .uncorrectableMemory).finish trk .uncorrectableMemory
  | .chunk st => (d.storStop trk st).finish trk st
  | .status st => (d.storStop trk st).finish trk st
  | .halted => d

/-- The I/Os of a range of the file under way, issued in order; the first that cannot be ends the attempt. -/
def Dev.issueRange (d : Dev) (trk n kind base len : Nat) (data : List Byte) : Dev × Option Status :=
  let m := d.cmd trk
  let f := (d.cap trk).cur
  let rel := m.typ == tyStorage && bit m.srelay 7
  (d.filePieces rel f.extents base len 0).foldl (fun r p =>
    match r.2 with
    | some st => (r.1, some st)
    | none => r.1.issueIo { trk := trk, file := (d.cap trk).file, chunk := n, kind := kind, write := m.sWrites, session := p.1, lba := p.2.1, off := p.2.2.1, len := p.2.2.2,
                            relay := if rel then some (fld m.srelay 3 0) else none } ((data.drop p.2.2.1).take p.2.2.2)) (d, none)

/-- Chunk `n` of the command issued: for a write its ciphertext, for a read its data and the 4 KiB of the tag area that hold its tag. A source that
cannot be read fails the chunk or stops the command; answers whether it may go on. -/
def Dev.issueChunk (d : Dev) (trk n : Nat) : Dev × Bool :=
  let m := d.cmd trk
  let f := (d.cap trk).cur
  let i := d.nthChunk trk n
  let len := roundUp (f.chunkLen i) 4096
  let d := d.updCap trk (fun c => { c with next := n + 1 })
  let put := fun (r : Dev × Option Status) => match r with
    | (d, none) => (d, true)
    | (d, some st) => (d.storFail trk n st, true)
  if m.typ = tyStorage ∧ m.sop = 3 then
    put ((f.extents.map (·.1)).eraseDups.foldl (fun r s => match r.2 with
      | some st => (r.1, some st)
      | none => r.1.issueIo { trk := trk, chunk := n, kind := 2, session := s, relay := if bit m.srelay 7 then some (fld m.srelay 3 0) else none } []) (d, none))
  else if m.sWrites then
    match d.chunkCipher trk i with
    | .error (.uncorrectable pa) => ((d.storUe trk pa).storFail trk n .uncorrectableMemory, true)
    | .error e => ((d.updCap trk (fun c => { c with next := n })).storFault trk e, false)
    | .ok p => put (d.issueRange trk n 0 (65536 * i) len (padTo len p.1))
  else
    match d.issueRange trk n 0 (65536 * i) len [] with
    | (d, some st) => (d.storFail trk n st, true)
    | (d, none) => put (d.issueRange trk n 1 (65536 * f.chunks + (64 + 16 * i) / 4096 * 4096) 4096 [])

/-- The tag area of a written file issued, after its chunks. -/
def Dev.issueArea (d : Dev) (trk : Nat) : Dev × Bool :=
  let c := d.cap trk
  let f := c.cur
  match d.cipherArea trk with
  | .error (.uncorrectable pa) => (((d.updCap trk (fun c => { c with area := true })).storUe trk pa).storFail trk c.total .uncorrectableMemory, true)
  | .error e => (d.storFault trk e, false)
  | .ok a =>
    match (d.updCap trk (fun c => { c with area := true })).issueRange trk c.total 1 (65536 * f.chunks) f.tagLen a with
    | (d, none) => (d, true)
    | (d, some st) => (d.storFail trk c.total st, true)

/-- The bytes that the I/Os of a chunk have delivered, of one kind, in place. -/
def gather (kind : Nat) (l : List (Nat × StorIo)) : List Byte :=
  (l.filter (fun e => e.2.kind == kind)).foldl (fun bs e => (padTo e.2.off bs).take e.2.off ++ e.2.got.take e.2.len ++ bs.drop (e.2.off + e.2.len)) []

/-- A chunk whose I/Os have all completed good is taken: a read is decrypted, and written or kept (R366, R379). Answers whether it may go on. -/
def Dev.takeChunk (d : Dev) (trk n : Nat) : Dev × Bool :=
  let m := d.cmd trk
  let c := d.cap trk
  let f := c.cur
  let i := d.nthChunk trk n
  if m.sWrites || (m.typ == tyStorage && m.sop == 3) then (d.storGood trk n (if m.sop = 3 ∨ c.total ≤ n then 0 else f.chunkLen i), true)
  else
    let l := d.chunkIos trk n
    let ct := (gather 0 l).take (f.chunkLen i)
    let tag := ((gather 1 l).drop ((64 + 16 * i) % 4096)).take 16
    match d.openChunk f i ct tag with
    | none => ((d.bumpRc pgStor 0 0x1008 1).storFail trk n .partialDone, true)
    | some pt =>
      if m.typ = tyCheckpoint then ((d.updCap trk (fun c => { c with kept := tabPut (fun _ => []) c.kept (c.file * 2 ^ 32 + i) pt })).storGood trk n pt.length, true)
      else match d.reach m.ctx (m.sbuf + 65536 * n) pt.length true with
        | .notMapped va l => (d.storFault trk (.page va l true), false)
        | .fail st va => (d.storFault trk (.fault st va), false)
        | .malformed va => ((d.noteReach (.malformed va)).storFault trk (.fault .accessDenied va), false)
        | .ok ps => match d.putParts ps pt with
          | (d, .ok) => (d.storGood trk n pt.length, true)
          | (d, .integrityHalt) => (d, false)
          | (d, st) => (d.storFail trk n st, true)

/-- The next chunk ready to be taken. -/
def Dev.readyChunk (d : Dev) (trk : Nat) : Option Nat :=
  let c := d.cap trk
  lowest (c.total + 1) (fun n => decide (n < c.next ∨ (n = c.total ∧ c.area)) && !c.done.contains n && !c.bad.contains n &&
    (d.chunkIos trk n).all (fun e => !e.2.live))

/-- Chunks issued and not yet finished. -/
def Capture.inFlight (c : Capture) : Nat := c.next + b2n c.area - c.done.length - c.bad.length

/-- The work on the file under way goes on: chunks completed are taken, further ones issued, at most 64 in flight; at the end of a written file,
its tag area. Answers whether the file is finished (R367). -/
def Dev.fileRun (d : Dev) (trk : Nat) : Nat → Dev × Bool
  | 0 => (d, false)
  | n + 1 =>
    let m := d.cmd trk
    let c := d.cap trk
    if !m.live || m.stage != .running then (d, false)
    else match d.readyChunk trk with
      | some k => match d.takeChunk trk k with
        | (d, true) => d.fileRun trk n
        | (d, false) => (d, false)
      | none =>
        if c.next < c.total ∧ c.inFlight < 64 then
          match d.issueChunk trk c.next with
          | (d, true) => d.fileRun trk n
          | (d, false) => (d, false)
        else if c.next < c.total ∨ 0 < c.inFlight then (d, false)
        else if m.sWrites && c.bad.isEmpty && !c.area then
          match d.issueArea trk with
          | (d, true) => d.fileRun trk n
          | (d, false) => (d, false)
        else (d, true)

/-- The work on the file under way goes on as far as it can. -/
def Dev.fileGo (d : Dev) (trk : Nat) : Dev × Bool := d.fileRun trk (3 * (d.cap trk).total + 8)

/-- The next file begins. -/
def Capture.begin (c : Capture) (file total : Nat) : Capture := { c with file := file, total := total, next := 0, done := [], bad := [], area := false, todo := [] }

/-! ### STORAGE commands (R366) -/

/-- A STORAGE command may start or go on. -/
def Dev.storReady (d : Dev) (trk op : Nat) : Bool :=
  let m := d.cmd trk
  d.live && m.live && m.released && m.stage == .running && m.typ == tyStorage && m.sop == op

/-- A descriptor read for the engine, its page fault as any other. -/
def Dev.fileRead (d : Dev) (c a : Nat) : Except ShStop (List Byte × StorFile) :=
  match d.reach c a 64 false with
  | .notMapped va l => .error (.page va l false)
  | .fail st va => .error (.fault st va)
  | .malformed va => .error (.fault .accessDenied va)
  | .ok _ =>
    let n := 64 + 16 * bytesNat (d.readVa c a 64).bytes 6 2
    match d.readVa c a n with
    | .data bs => .ok (bs, fileOf a bs)
    | x => .error (.status (x.status.getD .uncorrectableMemory))

/-- `NONCE` and `LENGTH` written into a descriptor (R366). -/
def Dev.writeFile (d : Dev) (c : Nat) (f : StorFile) : Except ShStop Dev :=
  match d.reach c (f.addr + 16) 16 true with
  | .notMapped va l => .error (.page va l true)
  | .fail st va => .error (.fault st va)
  | .malformed va => .error (.fault .accessDenied va)
  | .ok ps => match d.putParts ps (toBytes 8 f.nonce ++ toBytes 8 f.length) with
    | (d, .ok) => .ok d
    | (_, st) => .error (.chunk st)

/-- A command starts: descriptor, key, and for a WRITE its nonce. -/
def Dev.storBegin (d : Dev) (trk : Nat) : Dev :=
  let m := d.cmd trk
  match d.fileRead m.ctx m.sfile with
  | .error e => d.storFault trk e
  | .ok (raw, f) =>
    if d.fileBad (bit m.srelay 7) raw f || (m.sop == 1 && decide (f.chunks < m.sfirst + m.scount)) then (d.storStop trk .badDescriptor).finish trk .badDescriptor
    else match d.keyCheck m.hoop useFile f.key f.gen with
      | some st => d.storFault trk (.fault st f.addr)
      | none =>
        let go := fun (d : Dev) (f : StorFile) =>
          (d.setCap trk { live := true, files := [f], total := m.sChunks }).updCmd trk (fun m => { m with started := true, segs := m.sChunks })
        if m.sop ≠ 2 then go d f
        else
          let f := { f with length := m.slen }
          if d.fileBad (bit m.srelay 7) raw f then (d.storStop trk .badDescriptor).finish trk .badDescriptor
          else match d.drawNonce f.key f.chunks with
            | none => (d.storStop trk .keyExhausted).finish trk .keyExhausted
            | some (d', nonce) => match d'.writeFile m.ctx { f with nonce := nonce } with
              | .error e => d.storFault trk e
              | .ok d' => go d' { f with nonce := nonce }

/-- A STORAGE command goes on; with its file finished, its record is written and its work ends (R367). -/
def Dev.storGo (d : Dev) (trk : Nat) : Dev :=
  match d.fileGo trk with
  | (d, false) => d
  | (d, true) => ((d.storRecord trk 0).setCap trk {}).finish trk .ok

/-- A STORAGE command of an operation starts or goes on. -/
def Dev.storStep (d : Dev) (trk op : Nat) : Dev :=
  if !d.storReady trk op then d
  else
    let d := if (d.cap trk).live then d else d.storBegin trk
    if (d.cap trk).live then d.storGo trk else d

/-- READ (R366). -/
def execStorageRead (trk now : Nat) (s : State) : Host.Outcome State Fault Refusal := onDev s (fun d => (d.at now).storStep trk 1)

/-- WRITE (R366). -/
def execStorageWrite (trk now : Nat) (s : State) : Host.Outcome State Fault Refusal := onDev s (fun d => (d.at now).storStep trk 2)

/-- FLUSH (R366). -/
def execStorageFlush (trk now : Nat) (s : State) : Host.Outcome State Fault Refusal := onDev s (fun d => (d.at now).storStep trk 3)

/-! ### How an I/O ends (R361, R362, R367, R368) -/

/-- The answer to a neighbour's relayed I/O: 3 good with its data, 4 no grant, 5 failed. -/
def Dev.relayAnswer (d : Dev) (x : StorIo) (kind : Nat) : Dev :=
  match x.peer with
  | none => d
  | some (w, n) =>
    let p := w % 16
    let e := tabGet pairDflt (d.lk p).pairs (w / 16 - 1)
    (d.relaySend p e x.chunk (relayHead kind x.session n x.lba (if kind = 3 ∧ !x.write then x.len else 0)) (if kind = 3 ∧ !x.write then x.got.take x.len else [])).1

/-- An I/O ends: a neighbour's is answered and forgotten; the device's own is good (its window closes, its bytes are kept) or fails its chunk. The
command goes on, if it is a STORAGE command; a checkpoint goes on at its own row. -/
def Dev.ioEnd (d : Dev) (r : Nat) (fail : Option Status) : Dev :=
  let x := d.io r
  match x.peer, fail with
  | some _, none => ({ d with ios := d.ios.filter (·.1 != r) }).relayAnswer x 3
  | some _, some _ => ({ d with ios := d.ios.filter (·.1 != r) }).relayAnswer x 5
  | none, f =>
    let d := match f with
      | none => d.setIo r { x with live := false }
      | some st => d.storFail x.trk x.chunk st
    if (d.cmd x.trk).typ = tyStorage ∧ (d.cmd x.trk).stage = .running then d.storGo x.trk else d

/-- A session is usable no longer: every chunk that needs it fails with `LINK_DOWN` (R367). -/
def Dev.sessionLost (d : Dev) (s : Nat) : Dev :=
  let d := d.setSess s { d.sess s with state := .down }
  (tabKeys (fun _ x => x.live && x.session == s && x.relay.isNone) d.ios).foldl (fun d r => if (d.io r).live then d.ioEnd r (some .linkDown) else d) d

/-- A session goes down (R361): `DOWN_EVT`, and every chunk that needs it fails. -/
def Dev.sessionDown (d : Dev) (s : Nat) : Dev := (d.orReg pgStor s 0x0118 4).sessionLost s

/-- NVME_COMPLETION (R367): counted, and the I/O ends good or failed. -/
def execNvmeCompletion (session rkey : Nat) (ok : Bool) (cyc now : Nat) (s : State) : Host.Outcome State Fault Refusal :=
  onDev s (fun d => (d.at now).whenLive (fun d =>
    let x := d.io rkey
    if !x.live || x.session != session || x.relay.isSome || (d.sess session).state != .opened then d
    else
      let d := if x.peer.isNone then d.charge (d.cmd x.trk).ctx 6 cyc else d
      if ok then (d.bump64 pgStor session 0x010C 1 0x0118 0).ioEnd rkey none
      else (d.bumpRc pgStor session 0x0114 1).ioEnd rkey (some .partialDone)))

/-- NVME_IO_TIMEOUT (R367): an I/O older than `STOR_IO_TMO` fails its chunk. -/
def execNvmeIoTimeout (rkey now : Nat) (s : State) : Host.Outcome State Fault Refusal :=
  onDev s (fun d => (d.at now).whenLive (fun d =>
    let x := d.io rkey
    if !x.live || decide (d.now < x.issued + 10 * d.regN pgStor 0 0x100C) then d
    else
      let d := if x.relay.isNone then d.bumpRc pgStor x.session 0x0114 1 else d
      d.ioEnd rkey (some .partialDone)))

/-- A target's access outside every live window: a NAK, and the queue pair enters error (R360, R361). -/
def Dev.nak (d : Dev) (s rkey : Nat) : Dev := (d.emit (.storage s stNak [rkey] [])).sessionDown s

/-- A target's request names a live window of its session, in range. -/
def Dev.windowOk (d : Dev) (s rkey off len : Nat) (write : Bool) : Bool :=
  let x := d.io rkey
  x.live && x.session == s && x.relay.isNone && x.kind != 2 && x.write == write && decide (off + len ≤ x.len)

/-- RDMA_READ (R362): served with the ciphertext of the window; a repeated read gives the same bits. A page fault of the source suspends the
command, and the request is served when it is repeated. -/
def execRdmaRead (session rkey off len now : Nat) (s : State) : Host.Outcome State Fault Refusal :=
  onDev s (fun d => (d.at now).whenLive (fun d =>
    if (d.sess session).state ≠ .opened then d
    else if !d.windowOk session rkey off len true then d.nak session rkey
    else
      let x := d.io rkey
      match d.ioBytes x with
      | .ok bs => d.emit (.storage session stReadAnswer [rkey, off, len] ((bs.drop off).take len))
      | .error (.uncorrectable pa) => ((d.storUe x.trk pa).nak session rkey)
      | .error e => if (d.cmd x.trk).stage = .running then d.storFault x.trk e else d))

/-- RDMA_WRITE (R360): ciphertext delivered into a live window. -/
def execRdmaWrite (session rkey off : Nat) (bytes : List Byte) (now : Nat) (s : State) : Host.Outcome State Fault Refusal :=
  onDev s (fun d => (d.at now).whenLive (fun d =>
    if (d.sess session).state ≠ .opened then d
    else if !d.windowOk session rkey off bytes.length false then d.nak session rkey
    else
      let x := d.io rkey
      let g := padTo x.len x.got
      (d.setIo rkey { x with got := g.take off ++ bytes ++ g.drop (off + bytes.length) }).emit (.storage session stAck [rkey, off, bytes.length] [])))

/-- SEND_WITH_INVALIDATE (R360): a completion that also closes the window of the rkey it names; any other rkey is a NAK. -/
def execSendWithInvalidate (session rkey : Nat) (ok : Bool) (cyc now : Nat) (s : State) : Host.Outcome State Fault Refusal :=
  onDev s (fun d => (d.at now).whenLive (fun d =>
    let x := d.io rkey
    if (d.sess session).state ≠ .opened then d
    else if !x.live || x.session != session || x.relay.isSome then d.nak session rkey
    else
      let d := if x.peer.isNone then d.charge (d.cmd x.trk).ctx 6 cyc else d
      if ok then (d.bump64 pgStor session 0x010C 1 0x0118 0).ioEnd rkey none
      else (d.bumpRc pgStor session 0x0114 1).ioEnd rkey (some .partialDone)))

/-! ### Opening and closing (R361, R383) -/

/-- A field of the session block is out of range (R361 Table 2). -/
def sessionBad (b : List Byte) : Bool :=
  b.length != 480 || decide (1 < bytesNat b 0 1) || bytesNat b 1 1 == 0 || decide (8 < bytesNat b 1 1) || decide (bytesNat b 2 2 < 2) || decide (128 < bytesNat b 2 2) ||
  bytesNat b 26 2 == 0 || decide (60 < bytesNat b 26 2) || bytesNat b 28 4 != 0

/-- The session that OPEN takes: one that is down under the same block, else the lowest closed one. -/
def Dev.sessionSlot (d : Dev) (b : List Byte) : Option Nat :=
  match lowest 64 (fun k => (d.sess k).state == .down && (d.sess k).target == b) with
  | some k => some k
  | none => lowest 64 (fun k => (d.sess k).state == .closed)

/-- OPEN of the block that the PF's argument names in a context of the PF; `connect` is the target's answer, `nsOk` and the LBA size and block count
what Identify reports. -/
def Dev.storOpen (d : Dev) (port ctx : Nat) (connect nsOk : Bool) (lba blocks : Nat) : Status × Dev :=
  let a := d.bankN pgStor port 0x1014 + 2 ^ 32 * d.bankN pgStor port 0x1018
  if (d.ctx ctx).state ≠ .active ∨ (d.ctx ctx).func ≠ portPf then (.accessDenied, d)
  else match d.readVa ctx a 480 with
    | .data b =>
      if sessionBad b then (.badDescriptor, d)
      else match d.sessionSlot b with
        | none => (.rejectNoCapacity, d)
        | some k =>
          if !connect then (.linkDown, d)
          else if !nsOk || (lba != 9 && lba != 12) then (.badDescriptor, d)
          else
            let x : Session := { state := .opened, port := bytesNat b 0 1, ioq := bytesNat b 1 1, depth := bytesNat b 2 2, nsid := bytesNat b 4 4, kato := bytesNat b 26 2,
                                 target := b, lba := lba, blocks := blocks, lastKa := d.now }
            let d := d.stopLanes 1 x.port
            (.ok, ((d.setSess k x).emit (.storage k stConnect [x.port, x.ioq, x.depth] b)).setBankN pgStor port 0x1020 k)
    | x => (x.status.getD .accessDenied, d)

/-- STOR_OPEN (R361). -/
def execStorOpen (port ctx : Nat) (connect nsOk : Bool) (lba blocks now : Nat) (s : State) : Host.Outcome State Fault Refusal :=
  onDev s (fun d => (d.at now).whenLive (fun d => d.runOp port pgStor 0x1010 0x101C 1 (port == portPf) (fun d => d.storOpen port ctx connect nsOk lba blocks)))

/-- CLOSE of a session (R361): its I/Os fail. -/
def Dev.storClose (d : Dev) (k : Nat) : Status × Dev :=
  if (d.sess k).state = .closed then (.badDescriptor, d)
  else (.ok, ((d.sessionLost k).setSess k {}).emit (.storage k stDisconnect [] []))

/-- STOR_CLOSE (R361): the session is bits 13 to 8 of the operation. -/
def execStorClose (port session now : Nat) (s : State) : Host.Outcome State Fault Refusal :=
  onDev s (fun d => (d.at now).whenLive (fun d => d.runOp port pgStor 0x1010 0x101C (2 + session % 64 * 256) (port == portPf) (fun d => d.storClose (session % 64))))

/-- KEEP_ALIVE_TIMER (R361): Keep Alive is sent once KATO ÷ 2 has passed; one that fails takes the session down. -/
def execKeepAliveTimer (session : Nat) (ok : Bool) (now : Nat) (s : State) : Host.Outcome State Fault Refusal :=
  onDev s (fun d => (d.at now).whenLive (fun d =>
    let x := d.sess session
    if x.state ≠ .opened ∨ d.now < x.lastKa + x.kato * 500000000 then d
    else
      let d := (d.setSess session { x with lastKa := d.now }).emit (.storage session stKeepAlive [] [])
      if ok then d else d.sessionDown session))

/-! ### Ethernet (R360) -/

/-- ETHERNET_FRAME (R360): a frame longer than 9,216 bytes, with two tags or a fragment is dropped and counted; another goes on to its queue pair. -/
def execEthernetFrame (port len tags : Nat) (fragment : Bool) (s : State) : Host.Outcome State Fault Refusal :=
  onDev s (fun d => d.whenLive (fun d =>
    if bit d.ethUp port && (decide (9216 < len) || decide (1 < tags) || fragment) then d.bumpRc pgStor 0 0x1004 1 else d))

/-- ETHERNET_LINK_UP (R360): a partner at another rate or lane count makes no link. -/
def execEthernetLinkUp (port : Nat) (rateOk : Bool) (s : State) : Host.Outcome State Fault Refusal :=
  onDev s (fun d => d.whenLive (fun d => if rateOk ∧ port < 2 then { d with ethUp := d.ethUp ||| 2 ^ port } else d))

/-- ETHERNET_LINK_DOWN: the link bit clears, and the sessions of the port go down with their queue pairs. -/
def execEthernetLinkDown (port : Nat) (s : State) : Host.Outcome State Fault Refusal :=
  onDev s (fun d => d.whenLive (fun d =>
    if !bit d.ethUp port || decide (2 ≤ port) then d
    else (tabKeys (fun _ x => x.state == .opened && x.port == port) d.sessions).foldl Dev.sessionDown { d with ethUp := d.ethUp - 2 ^ port }))

/-! ### Relay at the neighbour (R368) -/

/-- A whole relay message: a request is checked against the port's grant and performed on the session it names; an answer ends the I/O it names. -/
def Dev.relayTake (d : Dev) (p pairing chunk : Nat) (head data : List Byte) : Dev :=
  let kind := bytesNat head 0 1
  let sn := bytesNat head 1 1
  let n := bytesNat head 4 4
  let g := d.regN pgStor 0 (0x1040 + 4 * p)
  let x : StorIo := { chunk := chunk, session := sn, lba := bytesNat head 8 8, len := bytesNat head 16 8, peer := some (p + 16 * (pairing + 1), n), write := kind == 2, got := data }
  if kind = 1 ∨ kind = 2 then
    if !bit g 31 || fld g 5 0 != sn || (d.sess sn).state != .opened then d.relayAnswer x 4
    else match d.issueIo x data with
      | (d, none) => d
      | (d, some _) => d.relayAnswer x 5
  else
    let y := d.io n
    if !y.live || y.relay != some p then d
    else if kind = 3 then (d.setIo n { y with got := data }).ioEnd n none
    else d.ioEnd n (some (if kind = 4 then .linkDown else .partialDone))

/-- A record for the storage engine (engine 3): the head of a relay message, or data of the one under way; one of another length is ignored. -/
def Dev.relayReceive (d : Dev) (p pairing tgt : Nat) (pay : List Byte) : Dev :=
  let y := tabGet (fun _ => ({} : RelayIn)) d.relayIn p
  let put := fun (d : Dev) (y : RelayIn) => { d with relayIn := tabPut (fun _ => ({} : RelayIn)) d.relayIn p y }
  let head := if y.head.isEmpty then pay.take 24 else y.head
  let data := if y.head.isEmpty then [] else y.data ++ pay
  let want := if bytesNat head 0 1 = 2 ∨ bytesNat head 0 1 = 3 then bytesNat head 16 8 else 0
  if head.length < 24 then d
  else if data.length < want then put d { head := head, data := data }
  else (put d {}).relayTake p pairing tgt head (data.take want)

/-- Relayed I/Os of a port that goes down fail with `LINK_DOWN`. -/
def Dev.relayDown (d : Dev) (p : Nat) : Dev :=
  let d := { d with relayIn := tabPut (fun _ => ({} : RelayIn)) d.relayIn p {}, ios := d.ios.filter (fun e => match e.2.peer with
    | some w => w.1 % 16 != p
    | none => true) }
  (tabKeys (fun _ x => x.live && x.relay == some p) d.ios).foldl (fun d r => if (d.io r).live then d.ioEnd r (some .linkDown) else d) d

end Sys2Proof.Machine
end

