-- ==== Sys2Proof/Machine/Restore.lean ====
section
/-! DEFINITION. What a RESTORE computes (R379 to R382): the checks of a manifest, the overlap of a target with the shards, and the bytes that a
target takes from them, with blocks of another tensor scale written again (R381). -/
namespace Sys2Proof.Machine

/-! ### Signatures (R377, R379) -/

/-- The active checkpoint signing slots of a hoop. -/
def Dev.signSlots (d : Dev) (hoop : Nat) : List Nat := tabKeys (fun _ k => k.state == .active && k.usage == useSign && k.hoop == hoop) d.keys

/-- The seed of a signing slot's key pairs (R392 Table 4). -/
def Dev.signSeed (d : Dev) (key : Nat) : List Byte := kdf (beBytes 32 (d.key key).base) "HT-SIGN" [] 384

/-- The signature block of a manifest: both signatures over its body, padded. -/
def Dev.manifestSigs (d : Dev) (key : Nat) (body : List Byte) : List Byte :=
  padTo 4736 ((Config.ecdsaSign (d.signSeed key) body).take 96 ++ (Config.mldsaSign (d.signSeed key) body).take 4627)

/-- Both signatures of a manifest verify under a signing slot of the hoop (log entry 41). -/
def Dev.sigsGood (d : Dev) (hoop : Nat) (body sigs : List Byte) : Bool :=
  (d.signSlots hoop).any (fun k => Config.ecdsaVerify (Config.ecdsaPublic (d.signSeed k)) body (sigs.take 96) &&
    Config.mldsaVerify (Config.mldsaPublic (d.signSeed k)) body ((sigs.drop 96).take 4627))

/-- What a manifest's plaintext is worth (R379). -/
def Dev.manifestStatus (d : Dev) (hoop : Nat) (bs : List Byte) : Option Status :=
  let n := bytesNat bs 12 4
  if bs.length < 128 ∨ bs.take 8 ≠ ascii "LERELMAN" ∨ bs.length ≠ 128 + 128 * n + 4736 then some .manifestIncomplete
  else if d.sigsGood hoop (bs.take (128 + 128 * n)) (bs.drop (128 + 128 * n)) then none
  else some .authRequired

/-! ### Overlap (R380) -/

/-- The rectangle that a target and an entry share: first row, rows, first column, columns, in global coordinates. -/
def overlap (t : LTens) (e : ManEntry) : Nat × Nat × Nat × Nat :=
  let r0 := max t.grow e.grow
  let c0 := max t.gcol e.gcol
  (r0, min (t.grow + t.rows) (e.grow + e.rows) - r0, c0, min (t.gcol + t.cols) (e.gcol + e.cols) - c0)

/-- The entry is selected for the target. -/
def selected (t : LTens) (e : ManEntry) : Bool :=
  let o := overlap t e
  e.id == t.id && e.kind == t.kind && decide (0 < o.2.1) && decide (0 < o.2.2.2)

/-- The selected entries cover the target: their shares add up to it. -/
def covered (t : LTens) (es : List ManEntry) : Bool :=
  (es.filter (selected t)).foldl (fun a e => a + (overlap t e).2.1 * (overlap t e).2.2.2) 0 == t.rows * t.cols

/-- The sections that a shard's table lists; `addr` is the offset in the plaintext. -/
def sectionTable (bs : List Byte) : List Section :=
  (List.range (bytesNat bs 12 4)).map (fun i =>
    let o := 512 + 32 * i
    let b := BMode.ofCode (bytesNat bs (o + 5) 1)
    let k := bytesNat bs o 4
    { kind := k, fmt := Fmt.ofCode (bytesNat bs (o + 4) 1), bmode := b, rows := bytesNat bs (o + 8) 4, pitch := bytesNat bs (o + 12) 4,
      band := if k = 3 ∨ k = 12 then (if b = .nb16 then 4 else if k = 3 then 32 else 1) else 1, addr := bytesNat bs (o + 16) 8 })

/-- Where the share of a section lies: source offset, target address, bytes, row by row. -/
def sharedRuns (t : LTens) (sec : Section) (e : ManEntry) (src : Section) : List (Nat × Nat × Nat) :=
  let o := overlap t e
  let tr := o.1 - t.grow
  let sr := o.1 - e.grow
  let tc := o.2.2.1 - t.gcol
  let sc := o.2.2.1 - e.gcol
  (List.range (cdiv o.2.1 sec.band)).map (fun i =>
    (src.addr + (sr / sec.band + i) * src.pitch + src.colOff sc, sec.addr + (tr / sec.band + i) * sec.pitch + sec.colOff tc, sec.colOff (tc + o.2.2.2) - sec.colOff tc))

/-- Runs of every section of a target from one shard, whose header and section table are `head`. -/
def targetRuns (t : LTens) (e : ManEntry) (head : List Byte) : List (Nat × Nat × Nat) :=
  t.secs.flatMap (fun sec => match (sectionTable head).find? (fun s => s.kind == sec.kind) with
    | some src => sharedRuns t sec e src
    | none => [])

/-- Chunks that hold source runs. -/
def runChunks (l : List (Nat × Nat × Nat)) : List Nat :=
  (l.flatMap (fun r => if r.2.2 = 0 then [] else (List.range ((r.1 + r.2.2 - 1) / 65536 - r.1 / 65536 + 1)).map (· + r.1 / 65536))).eraseDups

/-! ### Why a restore is turned away before it writes (R380) -/

/-- A cut that is not at a multiple of `n`, unless it is the global end. -/
def cutBad (n orig ext glob : Nat) : Bool := decide (orig % n ≠ 0) || (decide (ext % n ≠ 0) && decide (orig + ext ≠ glob))

/-- The status of a target against the shards selected for it; `heads` gives a shard's header. -/
def targetStatus (t : LTens) (srcs : List (ManEntry × List Byte)) : Option Status :=
  let r := PRec.ofBytes 0 t.raw
  let g := srcs.map (fun s => (bytesNat s.2 40 8, bytesNat s.2 48 8))
  let gr := (g.headD (0, 0)).1
  let p := fun (s : ManEntry × List Byte) => PRec.ofBytes 0 (s.2.drop 256)
  if g.eraseDups.length ≠ 1 ∨ (g.headD (0, 0)).2 ≠ t.gcols then some .badDescriptor
  else if t.kind ≠ 0 then none
  else if srcs.any (fun s => (p s).cfmt != r.cfmt || (p s).crot != r.crot || (p s).seed != r.seed || (p s).rule != r.rule) then some .badDescriptor
  else if cutBad 32 t.grow t.rows gr || cutBad 32 t.gcol t.cols t.gcols || srcs.any (fun s => cutBad 32 s.1.grow s.1.rows gr || cutBad 32 s.1.gcol s.1.cols t.gcols) then
    some .resliceUnaligned
  else if r.rot != 0 && (t.grow % rotN r.rot != 0 || t.rows % rotN r.rot != 0 || srcs.any (fun s => s.1.grow % rotN r.rot != 0 || s.1.rows % rotN r.rot != 0)) then
    some .resliceUnaligned
  else none

/-! ### Blocks under another tensor scale (R381) -/

/-- The greater of two positive FP32 values. -/
def maxScale (a b : Nat) : Nat := if fMax a b = b then b else a

/-- Moment rows of a share written again: elements and scales, the block of 32 columns under its source scale decoded, and written by R171. -/
def remoment (st sn : Nat) (root : Bool) (el sc : List Byte) : List Byte × List Byte :=
  (List.range (cdiv el.length 32)).foldl (fun (a : List Byte × List Byte) b =>
    let vs := ((el.drop (32 * b)).take 32).map (fun x => momentValue x.toNat (sc.getD b 0).toNat st)
    let q := momentBlock sn root vs
    (a.1 ++ q.2.1.map (BitVec.ofNat 8 ·), a.2 ++ [BitVec.ofNat 8 q.1])) ([], [])

/-- A nibble of packed E2M1 elements. -/
def nibble (bs : List Byte) (j : Nat) : Nat := (bs.getD (j / 2) 0).toNat / (if j % 2 = 0 then 1 else 16) % 16

/-- Four rows of packed E2M1 elements and their block scales written again under `sn` (R44, RNE). -/
def renb (st sn : Nat) (rows : List (List Byte)) (sc : List Byte) : List (List Byte) × List Byte :=
  let w := (rows.headD []).length * 2
  let qs := (List.range (cdiv w 4)).map (fun b =>
    let vs := rows.flatMap (fun r => (List.range (min 4 (w - 4 * b))).map (fun j =>
      (((Fmt.e2m1.decode (nibble r (4 * b + j))).mul (Fmt.ue4m3.decode (sc.getD b 0).toNat)).mul (f32 st), RMode.rne)))
    quantBlock .nb16 .e2m1 sn vs)
  let at' := fun (i j : Nat) => ((qs.getD (j / 4) {}).codes).getD (i * min 4 (w - j / 4 * 4) + j % 4) 0
  ((List.range rows.length).map (fun i => (List.range (w / 2)).map (fun k => BitVec.ofNat 8 (at' i (2 * k) + 16 * at' i (2 * k + 1)))),
   qs.map (fun q => BitVec.ofNat 8 q.scale))

/-- Runs of a section of a target from a shard, with their source bytes. -/
def sectionBytes (t : LTens) (e : ManEntry) (head : List Byte) (rd : Nat → Nat → List Byte) (kind : Nat) : List (Nat × List Byte) :=
  match t.secs.find? (fun s => s.kind == kind), (sectionTable head).find? (fun s => s.kind == kind) with
  | some sec, some src => (sharedRuns t sec e src).map (fun r => (r.2.1, rd r.1 r.2.2))
  | _, _ => []

/-- What a target takes from one shard: bytes at addresses. Scales that differ from the target's have their blocks written again. -/
def shardWrites (t : LTens) (e : ManEntry) (head : List Byte) (rd : Nat → Nat → List Byte) (cs ms rs : Nat) : List (Nat × List Byte) :=
  let p := PRec.ofBytes 0 (head.drop 256)
  let get := sectionBytes t e head rd
  let mom := fun (k st sn : Nat) (root : Bool) =>
    if st = sn then get k ++ get (k + 1)
    else
      let q := ((get k).zip (get (k + 1))).map (fun x => (x, remoment st sn root x.1.2 x.2.2))
      q.flatMap (fun x => [(x.1.1.1, x.2.1), (x.1.2.1, x.2.2)])
  if t.kind ≠ 0 then get 11 ++ get 12
  else
    let comp := if p.bmode ≠ .nb16 ∨ p.csSt = cs then get 2 ++ get 3
      else
        let els := get 2
        let scs := get 3
        ((List.range scs.length).zip scs).flatMap (fun b =>
          let rows := (els.drop (4 * b.1)).take 4
          let q := renb p.csSt cs (rows.map (·.2)) b.2.2
          (rows.map (·.1)).zip q.1 ++ [(b.2.1, q.2)])
    get 1 ++ comp ++ get 4 ++ get 5 ++ get 6 ++ mom 7 p.mSt ms false ++ (if p.usesR then mom 9 p.rSt rs true else [])

/-- Every write of a target (R381): its sections from each shard, its tensor scales, the greatest of its shards', and `STEP_DONE`. -/
def targetWrites (t : LTens) (srcs : List (ManEntry × List Byte × (Nat → Nat → List Byte))) (addr : Nat) : List (Nat × List Byte) :=
  let ps := srcs.map (fun s => PRec.ofBytes 0 (s.2.1.drop 256))
  let top := fun (f : PRec → Nat) => ps.foldl (fun a p => maxScale a (f p)) 0
  let cs := top PRec.csSt
  let ms := top PRec.mSt
  let rs := top PRec.rSt
  srcs.flatMap (fun s => shardWrites t s.1 s.2.1 s.2.2 cs ms rs) ++
  (if t.kind ≠ 0 then []
   else [(addr + 80, toBytes 4 cs ++ toBytes 4 (top PRec.csNext)), (addr + 144, toBytes 4 ms ++ toBytes 4 (top PRec.mNext)),
         (addr + 152, toBytes 4 rs ++ toBytes 4 (top PRec.rNext)), (addr + 196, toBytes 4 (ps.headD {}).stepDone)])

end Sys2Proof.Machine
end

