-- ==== Sys2Proof/Machine/Report.lean ====
section
/-! DEFINITION. The device's identity (R392, R393) and the report it states about itself (R396, Table 6). -/
namespace Sys2Proof.Machine

/-- Bytes cut or padded with zeros to a length. -/
def fit (n : Nat) (bs : List Byte) : List Byte := padTo n (bs.take n)

/-- The RTP has an identity: the root secret is held (R390). -/
def Dev.hasIdentity (d : Dev) : Bool := d.batt.root.isSome

/-- CDI of layer 0 (R392 Table 4). -/
def Dev.cdi0 (d : Dev) : List Byte := kdf (d.batt.root.getD []) "HT-CDI0" (fit 48 d.sec.mRom) 384

/-- CDI of layer 1. -/
def Dev.cdi1 (d : Dev) : List Byte := kdf d.cdi0 "HT-CDI1" (fit 48 d.sec.mFw) 384

/-- Seed of the DeviceID key pairs. -/
def Dev.devidSeed (d : Dev) (serial : Nat) : List Byte := kdf d.cdi0 "HT-DEVID" (toBytes 8 serial) 384

/-- Seed of the alias key pairs. -/
def Dev.aliasSeed (d : Dev) (serial : Nat) : List Byte := kdf d.cdi1 "HT-ALIAS" (toBytes 8 serial) 384

/-- Seeds d ‖ z of the device KEM key. -/
def Dev.kemSeed (d : Dev) (serial : Nat) : List Byte := kdf d.cdi1 "HT-KEM" (toBytes 8 serial) 512

/-- The alias signatures over a message: ECDSA r ‖ s, then ML-DSA-87. -/
def Dev.aliasSign (d : Dev) (serial : Nat) (msg : List Byte) : List Byte :=
  let k := d.aliasSeed serial
  fit 96 (Config.ecdsaSign k msg) ++ fit 4627 (Config.mldsaSign (k.take 32) msg)

/-- A release-policy entry in its 8 bytes (R415 Table 16). -/
def PolicyEntry.bytes (e : PolicyEntry) : List Byte := toBytes 1 e.kind ++ toBytes 1 e.downer ++ toBytes 2 e.skey ++ toBytes 2 e.dkey ++ toBytes 2 0

/-- The `POLICY` digest of a hoop: sealed bit, owners, release policy, consent, VF binding (R396, R415; their order and form, log entry 54). -/
def Dev.policyDigest (d : Dev) (h : Nat) : List Byte :=
  let x := d.hoop h
  let s := d.hoopSec h
  digest (toBytes 1 (b2n x.isSealed) ++ s.owners.flatMap (fun o => toBytes 1 o.1 ++ o.2.1 ++ o.2.2) ++ s.policy.flatMap PolicyEntry.bytes ++
    toBytes 1 s.consent ++ toBytes 8 x.inForce.funcs)

/-- `HFLAGS`: sealed, joint, `STATS` granted. -/
def Dev.hflags (d : Dev) (h : Nat) : Nat :=
  b2n (d.hoop h).isSealed + 2 * b2n (d.hoop h).joint + 4 * b2n ((d.hoopSec h).policy.any (fun e => e.kind == 5))

/-- A context of the hoop in a report: number, VF, its pricking's measurement (R137). -/
def Dev.reportCtx (d : Dev) (c : Nat) : List Byte :=
  match (d.ctx c).pricking with
  | some p => toBytes 2 c ++ toBytes 1 (d.ctx c).func ++ [0] ++ fit 48 p.measure
  | none => []

/-- Contexts of a hoop with a pricking loaded. -/
def Dev.pricked (d : Dev) (h : Nat) : List Nat := d.ctxsOf (fun x => x.hoop == h && x.pricking.isSome)

/-- Public keys of a `SIGN` slot. -/
def Dev.signerKeys (d : Dev) (k : Nat) : List Byte :=
  fit 97 (Config.ecdsaPublic (d.signSeed k)) ++ fit 2592 (Config.mldsaPublic ((d.signSeed k).take 32))

/-- What a report says of a hoop from byte 1,824 on. -/
def Dev.reportHoop (d : Dev) (h : Nat) : List Byte :=
  let s := d.hoopSec h
  toBytes 1 h ++ toBytes 1 (d.hflags h) ++ toBytes 1 s.consent ++ toBytes 1 s.owners.length ++ toBytes 4 (d.pricked h).length ++ d.policyDigest h ++
  s.owners.flatMap (fun o => toBytes 1 o.1 ++ digest (o.2.1 ++ o.2.2)) ++ (d.pricked h).flatMap d.reportCtx ++ (d.signSlots h).flatMap d.signerKeys

/-- Hoops in use. -/
def Dev.usedHoops (d : Dev) : List Nat := (List.range 16).filter (fun h => (d.hoop h).state != .free)

/-- What a report through the PF or an unbound session lists: each hoop in use by number and `POLICY` digest (log entry 55). -/
def Dev.reportDevice (d : Dev) : List Byte :=
  toBytes 1 0xFF ++ toBytes 3 0 ++ toBytes 4 0 ++ toBytes 48 0 ++ d.usedHoops.flatMap (fun h => toBytes 1 h ++ d.policyDigest h)

/-- The report of Table 6 over a requester's nonce, of one hoop or of the device. -/
def Dev.report (d : Dev) (serial : Nat) (nonce : List Byte) (h : Option Nat) : List Byte :=
  let var := match h with
    | some h => d.reportHoop h
    | none => d.reportDevice
  let body := toBytes 8 serial ++ toBytes 1 d.lc.inForce ++ toBytes 1 d.dbgRights ++
    toBytes 2 (b2n d.aon.slotB + d.batt.bootCount % 2 ^ 15 * 2) ++ toBytes 4 0 ++ fit 48 d.sec.mRom ++ fit 48 d.sec.mFw ++ fit 48 d.sec.mDarn ++
    fit 48 d.sec.mOper ++ fit 1568 (Config.mlkemPublic (d.kemSeed serial)) ++ var
  let text := ascii "HTREPORT" ++ toBytes 4 0x00010000 ++ toBytes 4 (48 + body.length) ++ fit 32 nonce ++ body
  text ++ fit 4736 (d.aliasSign serial text)

end Sys2Proof.Machine
end

