-- ==== Sys2Proof/Machine/Rtp.lean ====
section
/-! DEFINITION. The root-of-trust processor (R384 to R387): its mailbox (R385, R417), the requests of two-party control and release policy
(R410 to R416), attestation (R396), its watchdogs. -/
namespace Sys2Proof.Machine

/-! ### The mailbox (R385, R417) -/

/-- Entries of a port's request queue. -/
def mbRoom (port : Nat) : Nat := if port = portPf then 32 else if port = portRtp then 64 else 4

/-- Requests of a port queued or running. -/
def Dev.mbTaken (d : Dev) (port : Nat) : Nat :=
  (d.sec.reqs.filter (fun r => r.port == port)).length + (d.sec.pairs.filter (fun p => p.req.port == port)).length +
  (d.sec.awaiting.filter (fun a => a.req.port == port)).length

/-- `SEC_MB_STS` of a port: status, `BUSY`, `QFULL`, requests; the 64 of a full RTP queue read as 63 (log entry 56). -/
def Dev.mbSts (d : Dev) (port st : Nat) (qfull : Bool) : Dev :=
  let n := d.mbTaken port
  d.setBankN pgSec port 0x1010 (st % 65536 + 2 ^ 16 * b2n (n != 0) + 2 ^ 17 * b2n qfull + 2 ^ 18 * min 63 n)

/-- A write to `SEC_MB_GO` (R417). -/
def Dev.mbGo (d : Dev) (port v : Nat) : Dev :=
  let sts := d.bankN pgSec port 0x1010
  let c := d.bankN pgSec port 0x1008 % 4096
  let a := d.bankN pgSec port 0x1000 + d.bankN pgSec port 0x1004 % 65536 * 2 ^ 32
  if !(portIsFunc port || port == portRtp) then d.logErr port pgSec 0x100C .port v
  else if !bit v 0 then d
  else if mbRoom port ≤ d.mbTaken port then d.mbSts port Status.rtpBusy.code true
  else if (d.ctx c).state = .free || (port != portRtp && (d.ctx c).func != port) then d.mbSts port Status.accessDenied.code (bit sts 17)
  else
    let d := { d with sec := { d.sec with reqs := d.sec.reqs ++ [({ port := port, ctx := c, addr := a } : RtpReq)] } }
    ((d.writeVa c (a + 2) [0xFF, 0xFF]).1).mbSts port sts false

/-- The mailbox answers while the core runs, and in safe mode (R464). -/
def Dev.mbServed (d : Dev) (f : Dev → Dev) : Dev := if d.live || (d.aon.safe && !d.aon.halted) then f d else d

/-- A write to `SEC_MB_GO` queues a request, or is refused at once. -/
def execSecMbGo (port value now : Nat) (s : State) : Host.Outcome State Fault Refusal :=
  onDev s (fun d => (d.at now).mbServed (fun d => d.mbGo port value))

/-! ### Serving a request (R385, R386) -/

/-- The request served next: internal work, then the PF's, then the VFs' round robin. -/
def Dev.nextReq (d : Dev) : Option RtpReq :=
  match d.sec.reqs.find? (fun r => r.port == portRtp), d.sec.reqs.find? (fun r => r.port == portPf) with
  | some r, _ => some r
  | none, some r => some r
  | none, none =>
    ((List.range 63).filterMap (fun k => d.sec.reqs.find? (fun r => r.port == (d.sec.rrVf + k) % 63 + 1))).head?

/-- A request leaves its queue. -/
def Dev.takeReq (d : Dev) (r : RtpReq) : Dev :=
  { d with sec := { d.sec with reqs := d.sec.reqs.erase r, rrVf := if portIsFunc r.port && r.port != portPf then r.port else d.sec.rrVf } }

/-- A request completes: its response, `STATUS` in its block, `SEC_MB_STS`, and bit 0 of the page's interrupt status in the port's bank (R417). -/
def Dev.rtpEnd (d : Dev) (r : RtpReq) (st addr : Nat) (resp : List Byte) : Dev :=
  let d := if resp.isEmpty then d else (d.writeVa r.ctx addr resp).1
  let d := (d.writeVa r.ctx (r.addr + 2) (toBytes 2 st)).1
  (d.mbSts r.port st (bit (d.bankN pgSec r.port 0x1010) 17)).eventAt pgSec 0 r.port

/-- Core A runs firmware (R384, R387). -/
def Dev.rtpUp (d : Dev) : Bool := d.sec.coreA && decide (d.sec.restartEnd ≤ d.now)

/-- One of the cores answers attestation (R384). -/
def Dev.attestUp (d : Dev) : Bool := d.rtpUp || d.sec.coreB

/-- What a request comes to: the codes that apply, the response, whether it stays open, and what it changes. -/
structure RtpWork where
  errs : List Status := []
  resp : List Byte := []
  wait : Bool := false
  run : Dev → Dev := id

/-- A request block's header breaks Table 1, or names no request. -/
def headBad (hd : List Byte) : Bool :=
  let len := bytesNat hd 4 4
  decide (len < 32) || decide (65536 < len) || (hd.drop 21).any (· != 0) || bytesNat hd 0 2 == 0 || decide (12 < bytesNat hd 0 2) ||
  decide (15 < bytesNat hd 20 1)

/-- A response that no buffer takes (R386, R530). -/
def Dev.respErrs (d : Dev) (r : RtpReq) (bs resp : List Byte) : List Status :=
  if resp.isEmpty then []
  else if bytesNat bs 8 8 = 0 || decide (bytesNat bs 16 4 < resp.length) then [.badDescriptor]
  else (d.reach r.ctx (bytesNat bs 8 8) resp.length true).status.toList

/-- An issuer that Table 2 does not list (R386): only the PF and RTP pair links; a VF asks for its own hoop, but for a nonce, a staged record or
a report. -/
def Dev.issuerErrs (d : Dev) (port code h : Nat) : List Status :=
  if port = portPf || port = portRtp then []
  else if code = 6 || (!([1, 4, 9].contains code) && d.vfHoop port != some h) then [.accessDenied]
  else []

/-- Serve the request in turn when it is the one that the row names: it commits in full or changes nothing. A block that cannot be read or is
malformed fails whichever row serves it, and while core A restarts every request but ATTEST is refused (R387). -/
def Dev.rtpServe (d : Dev) (code : Nat) (f : RtpReq → List Byte → Dev → RtpWork) : Dev :=
  match d.nextReq with
  | none => d
  | some r =>
    if !d.attestUp then d else
    let hd := d.readVa r.ctx r.addr 32
    let op := bytesNat hd.bytes 0 2
    let bs := d.readVa r.ctx r.addr (bytesNat hd.bytes 4 4)
    let fail := fun (st : Nat) => (d.takeReq r).rtpEnd r st 0 []
    match hd.status with
    | some st => fail st.code
    | none =>
      if headBad hd.bytes then fail Status.badDescriptor.code
      else if !d.rtpUp && op != 9 then fail Status.rtpBusy.code
      else if op ≠ code then d
      else match bs.status with
        | some st => fail st.code
        | none =>
          let h := bytesNat hd.bytes 20 1
          let w := f r bs.bytes d
          let errs := w.errs ++ d.issuerErrs r.port code h ++ (if code != 9 && (d.hoop h).state == .free then [.badDescriptor] else []) ++
            d.respErrs r bs.bytes w.resp
          if !errs.isEmpty then fail (stAll errs)
          else if w.wait then
            let d := w.run (d.takeReq r)
            d.mbSts r.port (d.bankN pgSec r.port 0x1010) (bit (d.bankN pgSec r.port 0x1010) 17)
          else (w.run (d.takeReq r)).rtpEnd r 0 (bytesNat bs.bytes 8 8) w.resp

/-- The hoop a request names. -/
def reqHoop (bs : List Byte) : Nat := bytesNat bs 20 1

/-- A request's body. -/
def reqBody (bs : List Byte) : List Byte := bs.drop 32

/-- What two-party control and R412 hold against a change: no matching record, or an accepted command of the hoop. -/
def Dev.pactErrs (d : Dev) (h code : Nat) (bs : List Byte) (removed : Nat) (busy : Bool) : List Status :=
  (if d.authorised h code (reqBody bs) removed then [] else [.authRequired]) ++ (if busy && d.hoopBusy h then [.rejectNoCapacity] else [])

/-- `BAD_DESCRIPTOR` where a condition holds. -/
def badIf (b : Bool) : List Status := if b then [.badDescriptor] else []

/-! ### Nonces and records (R410, R411, R529) -/

/-- GET_NONCE. -/
def getNonceWork (_ : RtpReq) (bs : List Byte) (d : Dev) : RtpWork :=
  { errs := badIf (bs.length != 32), resp := d.freeBytes 32,
    run := fun d => { d.ticks 32 with sec := { d.sec with nonces := d.sec.nonces ++ [{ hoop := reqHoop bs, bytes := d.freeBytes 32, time := d.now }] } } }

/-- GET_NONCE returns a nonce for the hoop's next two-party record. -/
def execGetNonce (now : Nat) (s : State) : Host.Outcome State Fault Refusal :=
  onDev s (fun d => (d.at now).whenLive (fun d => d.rtpServe 1 getNonceWork))

/-- The keys of a signer of a record: the operator (0) or an owner of the hoop. -/
def Dev.signerKey (d : Dev) (h n : Nat) : Option (List Byte × List Byte) :=
  if n = 0 then some (d.sec.operEc, d.sec.operPq) else ((d.hoopSec h).owners.find? (fun o => o.1 == n)).map (·.2)

/-- Both signatures of a message verify. -/
def sigsVerify (k : List Byte × List Byte) (msg ec pq : List Byte) : Bool := Config.ecdsaVerify k.1 msg ec && Config.mldsaVerify k.2 msg pq

/-- Signer entry `i` of a record. -/
def signerEntry (rc : List Byte) (i : Nat) : List Byte := (rc.drop (96 + 4736 * i)).take 4736

/-- The numbers of the entries of a record. -/
def signerList (rc : List Byte) : List Nat := List.range (bytesNat rc 10 1)

/-- A record breaks Table 15, or its entries differ from its length. -/
def authBad (h : Nat) (rc : List Byte) : Bool :=
  rc.take 8 != ascii "AUTH2PTY" || bytesNat rc 8 1 == 0 || decide (9 < bytesNat rc 8 1) || bytesNat rc 9 1 != h || bytesNat rc 10 1 == 0 ||
  decide (10 < bytesNat rc 10 1) || bytesNat rc 11 5 != 0 || rc.length != 96 + 4736 * bytesNat rc 10 1 ||
  (signerList rc).any (fun i =>
    let e := signerEntry rc i
    decide (9 < bytesNat e 0 1) || bytesNat e 1 7 != 0 || bytesNat e 4731 5 != 0)

/-- The record as it is staged: the signers both of whose signatures verify; the new owner's entry is kept until its keys are known (R411). -/
def Dev.stageRecord (d : Dev) (h : Nat) (rc : List Byte) : AuthRec :=
  let sig := fun (i : Nat) => (((signerEntry rc i).drop 8).take 96, ((signerEntry rc i).drop 104).take 4627)
  let num := fun (i : Nat) => bytesNat (signerEntry rc i) 0 1
  { code := bytesNat rc 8 1, nonce := (rc.drop 16).take 32, params := (rc.drop 48).take 48,
    signers := ((signerList rc).filter (fun i => match d.signerKey h (num i) with
      | some k => sigsVerify k (rc.take 96) (sig i).1 (sig i).2
      | none => false)).map num,
    newKeys := match (signerList rc).find? (fun i => num i == 9) with
      | some i => rc.take 96 ++ (sig i).1 ++ (sig i).2
      | none => [] }

/-- AUTHORISE. -/
def authoriseWork (_ : RtpReq) (bs : List Byte) (_ : Dev) : RtpWork :=
  let h := reqHoop bs
  { errs := badIf (authBad h (reqBody bs)), run := fun d => d.setHoopSec h { d.hoopSec h with record := some (d.stageRecord h (reqBody bs)) } }

/-- AUTHORISE stages a two-party record against the hoop; it replaces the one staged before. -/
def execAuthorise (now : Nat) (s : State) : Host.Outcome State Fault Refusal :=
  onDev s (fun d => (d.at now).whenLive (fun d => d.rtpServe 4 authoriseWork))

/-! ### Changes under two-party control (R411 to R416) -/

/-- A slot that a hoop's request may name: its own, neither empty nor slot 0. -/
def Dev.ownSlot (d : Dev) (h k : Nat) : Bool := k != 0 && decide (k < 4096) && (d.key k).state != .empty && (d.key k).hoop == h

/-- KEY_POLICY of a slot: `OWNER`, and for `CIPH` the limit. -/
def keyPolicyWork (slot owner limit : Nat) (_ : RtpReq) (bs : List Byte) (d : Dev) : RtpWork :=
  let h := reqHoop bs
  let k := d.key slot
  { errs := (if d.ownSlot h slot then [] else [.accessDenied]) ++ (if k.state = .draining then [.keyRevoked] else []) ++
      badIf ((owner != 0 && !(d.ownersOf h).contains owner) ||
        (if k.usage = useCiph then limit == 0 || decide (2 ^ 32 < limit) else limit != 0)) ++ d.pactErrs h 0x03 bs 0 true,
    run := fun d => ((d.consume h).setKey slot { d.key slot with owner := owner, limit := limit }).keyAtLimit slot }

/-- KEY_POLICY changes a slot's `OWNER` or cipher limit. -/
def execKeyPolicy (slot owner limit now : Nat) (s : State) : Host.Outcome State Fault Refusal :=
  onDev s (fun d => (d.at now).whenLive (fun d => d.rtpServe 5 (keyPolicyWork slot owner limit)))

/-- APPROVE: an owner's signatures over "HTAPPROV" ‖ hoop ‖ measurement (R414). -/
def approveWork (owner : Nat) (measure ecSig pqSig : List Byte) (_ : RtpReq) (bs : List Byte) (d : Dev) : RtpWork :=
  let h := reqHoop bs
  let good := match d.signerKey h owner with
    | some k => sigsVerify k (ascii "HTAPPROV" ++ toBytes 1 h ++ measure) ecSig pqSig
    | none => false
  { errs := badIf (measure.length != 48 || owner == 0 || !(d.ownersOf h).contains owner) ++ (if good then [] else [.authRequired]),
    run := fun d => d.setHoopSec h { d.hoopSec h with approvals := (d.hoopSec h).approvals.filter (· != (owner, measure)) ++ [(owner, measure)] } }

/-- APPROVE records an owner's approval of a pricking's measurement. -/
def execApprove (owner : Nat) (measure ecSig pqSig : List Byte) (now : Nat) (s : State) : Host.Outcome State Fault Refusal :=
  onDev s (fun d => (d.at now).whenLive (fun d => d.rtpServe 7 (approveWork owner measure ecSig pqSig)))

/-- Entry `i` of a policy's body (R415 Table 16). -/
def policyEntry (b : List Byte) (i : Nat) : PolicyEntry :=
  { kind := bytesNat b (8 * i) 1, downer := bytesNat b (8 * i + 1) 1, skey := bytesNat b (8 * i + 2) 2, dkey := bytesNat b (8 * i + 4) 2 }

/-- An entry is reserved, names a slot of another hoop, or a FILE entry's `DKEY` has another `OWNER` (R416). -/
def Dev.policyEntryBad (d : Dev) (h : Nat) (e : PolicyEntry) : Bool :=
  e.kind == 0 || decide (5 < e.kind) || (if e.kind = 2 then e.downer == 0 || decide (8 < e.downer) else e.downer != 0) ||
  (if e.kind = 5 then e.skey != 0 else !d.ownSlot h e.skey) ||
  (if e.kind = 1 || e.kind = 5 then e.dkey != 0 else !d.ownSlot h e.dkey) || (e.kind == 2 && (d.key e.dkey).owner != e.downer)

/-- RELEASE_POLICY of a joint hoop. -/
def releasePolicyWork (_ : RtpReq) (bs : List Byte) (d : Dev) : RtpWork :=
  let h := reqHoop bs
  let b := reqBody bs
  let es := (List.range (b.length / 8)).map (policyEntry b)
  { errs := badIf (!(d.hoop h).joint || b.length % 8 != 0 || decide (256 < b.length) || es.any (d.policyEntryBad h) ||
        (List.range (b.length / 8)).any (fun i => bytesNat b (8 * i + 6) 2 != 0)) ++ d.pactErrs h 0x06 bs 0 true,
    run := fun d => (d.consume h).setHoopSec h { (d.consume h).hoopSec h with policy := es } }

/-- RELEASE_POLICY replaces a joint hoop's release policy. -/
def execReleasePolicy (now : Nat) (s : State) : Host.Outcome State Fault Refusal :=
  onDev s (fun d => (d.at now).whenLive (fun d => d.rtpServe 8 releasePolicyWork))

/-- The staged record with the new owner counted as a signer when both its signatures verify under its own keys. -/
def Dev.withNewOwner (d : Dev) (h : Nat) (ec pq : List Byte) : Dev :=
  match (d.hoopSec h).record with
  | none => d
  | some r =>
    if sigsVerify (ec, pq) (r.newKeys.take 96) ((r.newKeys.drop 96).take 96) (r.newKeys.drop 192) && !r.newKeys.isEmpty then
      d.setHoopSec h { d.hoopSec h with record := some { r with signers := 9 :: r.signers } }
    else d

/-- A hoop's owners replaced; with two or more it is joint (R413). -/
def Dev.setOwners (d : Dev) (h : Nat) (os : List (Nat × List Byte × List Byte)) : Dev :=
  (d.setHoopSec h { d.hoopSec h with owners := os }).setHoop h { d.hoop h with joint := decide (2 ≤ os.length) }

/-- OWNER_ADD. -/
def ownerAddWork (owner : Nat) (ec pq : List Byte) (_ : RtpReq) (bs : List Byte) (d : Dev) : RtpWork :=
  let h := reqHoop bs
  { errs := badIf (owner == 0 || decide (8 < owner) || (d.ownersOf h).contains owner || (!(d.hoop h).isSealed && !(d.ownersOf h).isEmpty)) ++
      (if d.lc.inForce = lcSecured then [] else [.lcInvalid]) ++ (d.withNewOwner h ec pq).pactErrs h 0x07 bs 0 true,
    run := fun d => (d.consume h).setOwners h ((d.hoopSec h).owners ++ [(owner, ec, pq)]) }

/-- OWNER_ADD adds an owner to a hoop. -/
def execOwnerAdd (owner : Nat) (ec pq : List Byte) (now : Nat) (s : State) : Host.Outcome State Fault Refusal :=
  onDev s (fun d => (d.at now).whenLive (fun d => d.rtpServe 10 (ownerAddWork owner ec pq)))

/-- OWNER_REMOVE: the owner's approvals go with it (R414). -/
def ownerRemoveWork (owner : Nat) (_ : RtpReq) (bs : List Byte) (d : Dev) : RtpWork :=
  let h := reqHoop bs
  { errs := badIf (!(d.ownersOf h).contains owner) ++ d.pactErrs h 0x08 bs owner true,
    run := fun d =>
      let d := (d.consume h).setOwners h ((d.hoopSec h).owners.filter (fun o => o.1 != owner))
      d.setHoopSec h { d.hoopSec h with approvals := (d.hoopSec h).approvals.filter (fun a => a.1 != owner) } }

/-- OWNER_REMOVE removes an owner. -/
def execOwnerRemove (owner now : Nat) (s : State) : Host.Outcome State Fault Refusal :=
  onDev s (fun d => (d.at now).whenLive (fun d => d.rtpServe 11 (ownerRemoveWork owner)))

/-- CONSENT: rights that a cleared flag admitted are cut off (R433). -/
def consentWork (flags : Nat) (_ : RtpReq) (bs : List Byte) (d : Dev) : RtpWork :=
  let h := reqHoop bs
  { errs := badIf (decide (15 < flags)) ++ d.pactErrs h 0x09 bs 0 false,
    run := fun d => ((d.consume h).setHoopSec h { (d.consume h).hoopSec h with consent := flags }).dbgSettle }

/-- CONSENT sets the hoop's debug and profiling consent flags. -/
def execConsent (flags now : Nat) (s : State) : Host.Outcome State Fault Refusal :=
  onDev s (fun d => (d.at now).whenLive (fun d => d.rtpServe 12 (consentWork flags)))

/-! ### Attestation (R396) -/

/-- The hoop that a report asked for through a port covers: a VF's own; none through the PF or RTP. -/
def Dev.reportScope (d : Dev) (port : Nat) : Option Nat := if port = portPf || port = portRtp then none else d.vfHoop port

/-- ATTEST over a requester's nonce. -/
def attestWork (serial : Nat) (nonce : List Byte) (r : RtpReq) (_ : List Byte) (d : Dev) : RtpWork :=
  { errs := badIf (nonce.length != 32) ++ (if d.hasIdentity then [] else [.authRequired]) ++
      (if portIsFunc r.port && r.port != portPf && (d.vfHoop r.port).isNone then [.accessDenied] else []),
    resp := d.report serial nonce (d.reportScope r.port) }

/-- ATTEST returns the signed report. -/
def execAttest (nonce : List Byte) (now : Nat) (s : State) : Host.Outcome State Fault Refusal :=
  onDev s (fun d => (d.at now).whenLive (fun d => d.rtpServe 9 (attestWork s.fuses.serial nonce)))

/-! ### Watchdogs, tamper, entropy (R387, R389, R391) -/

/-- Every request queued or in progress completes with `RTP_BUSY`. -/
def Dev.refuseAll (d : Dev) : Dev :=
  let rs := d.sec.reqs ++ d.sec.pairs.map (·.req) ++ d.sec.awaiting.map (·.req)
  rs.foldl (fun d r => d.rtpEnd r Status.rtpBusy.code 0 []) { d with sec := { d.sec with reqs := [], pairs := [], awaiting := [] } }

/-- A watchdog fires: core A restarts and refuses what it held; a second restart within 1 s, or core B's watchdog, halts the device (R387, R438). -/
def Dev.rtpWatchdog (d : Dev) (core dur : Nat) : Dev :=
  let again := match d.sec.lastRestart with
    | some t => decide (d.now ≤ t + 1000000000)
    | none => false
  if core ≠ 0 || again then { d.halt 0x11 core 0 0 0 with sec := { d.sec with coreA := d.sec.coreA && core != 0 } }
  else
    let d := { d with sec := { d.sec with restarts := min 255 (d.sec.restarts + 1), lastRestart := some d.now, restartEnd := d.now + min dur 100000000 } }
    d.refuseAll.rasLog { cause := 0x83, cls := 3, unit := 9 }

/-- A tamper source trips (R389, R390): the root secret is gone, the trip logged, a powered device halts. -/
def Dev.tamper (d : Dev) (source bclk : Nat) : Dev :=
  let b := d.batt
  let d := { d with batt := { b with root := none, tamperLog := tabPut (fun _ => ((0 : Nat), (0 : Nat))) b.tamperLog b.tamperHead (source % 16, bclk % 2 ^ 48),
                                     tamperHead := (b.tamperHead + 1) % 8, trips := min 255 (b.trips + 1) } }
  if d.aon.aonUp then d.halt 0x10 source 0 0 0 else d

/-- A health test of the entropy source fails (R391): the third within 1 s, or a start-up test, halts the device. -/
def Dev.entropyFail (d : Dev) (startup : Bool) : Dev :=
  let f := (d.sec.fails.filter (fun t => decide (d.now ≤ t + 1000000000))) ++ [d.now]
  let d := { d with sec := { d.sec with fails := f } }
  if startup || decide (3 ≤ f.length) then d.halt 0x12 0 0 0 0 else d

end Sys2Proof.Machine
end

