-- ==== Sys2Proof/Machine/Flash.lean ====
section
/-! DEFINITION. The boot flash (R471, R472) and what boot reads from it: firmware images (R465), the operator configuration (R466), the ledger log
(R469). -/
namespace Sys2Proof.Machine

/-! ### Bytes -/

/-- Bytes of the flash. -/
def Dev.flashRead (d : Dev) (a n : Nat) : List Byte := (List.range n).map (fun i => tabGet erasedByte d.flash (a + i))

/-- Bytes stored into the flash. -/
def Dev.flashWrite (d : Dev) (a : Nat) (bs : List Byte) : Dev :=
  { d with flash := (bs.foldl (fun (p : List Host.Cell × Nat) b => (tabPut erasedByte p.1 p.2 b, p.2 + 1)) (d.flash, a)).1 }

/-- The 4 KiB sector at an address erased. -/
def Dev.flashErase (d : Dev) (a : Nat) : Dev := { d with flash := tabClear (fun k => k / 4096 == a / 4096) d.flash }

/-! ### Operations of the BOOT page (R472, R473) -/

/-- Operation codes. -/
def flErase : Nat := 1
def flProgram : Nat := 2
def flRead : Nat := 3

/-- The codes that apply to an operation at an address (R471 Table 7, R472). -/
def flashErrs (op a : Nat) : List Status :=
  badIf (decide (0x320000 ≤ a) || (if op = flErase then a % 4096 != 0 else a % 256 != 0) || op == 0 || decide (3 < op)) ++
  (if op ≠ flRead && decide (0x210000 ≤ a) && decide (a < 0x320000) then [.accessDenied] else [])

/-- The data buffer's bytes. -/
def Dev.flashBuf (d : Dev) : List Byte := (List.range 64).flatMap (fun i => toBytes 4 (d.regN pgBoot 0 (0x1100 + 4 * i)))

/-- The data buffer filled. -/
def Dev.setFlashBuf (d : Dev) (bs : List Byte) : Dev :=
  (List.range 64).foldl (fun d i => d.setRegN pgBoot 0 (0x1100 + 4 * i) (bytesNat bs (4 * i) 4)) d

/-- An operation runs at the address in `BOOT_FL_ADDR`. -/
def Dev.flashRun (d : Dev) (op : Nat) : Dev :=
  let a := d.regN pgBoot 0 0x1064
  let errs := flashErrs op a
  if !errs.isEmpty then d.setRegN pgBoot 0 0x1068 (stAll errs)
  else
    let d := if op = flErase then d.flashErase a else if op = flProgram then d.flashWrite a d.flashBuf else d.setFlashBuf (d.flashRead a 256)
    d.setRegN pgBoot 0 0x1068 0

/-- A flash still busy after 500 ms: `TMO`, `PARTIAL`, and what an erase or program was to change holds free values. -/
def Dev.flashTimeout (d : Dev) (op : Nat) : Dev :=
  let a := d.regN pgBoot 0 0x1064
  let errs := flashErrs op a
  if !errs.isEmpty then d.setRegN pgBoot 0 0x1068 (stAll errs)
  else
    let d := if op = flErase then (d.ticks 4096).flashWrite a (d.freeBytes 4096)
      else if op = flProgram then (d.ticks 256).flashWrite a (d.freeBytes 256) else d
    d.setRegN pgBoot 0 0x1068 (Status.partialDone.code + 2 ^ 17)

/-- A boot step uses the flash: `FW`, `OPCFG` or `ARRAY`. -/
def Dev.flashInUse (d : Dev) : Bool := d.aon.boot.step == 4 || d.aon.boot.step == 6 || d.aon.boot.step == 10

/-- A write to `BOOT_FL_OP` (R472, R473). -/
def Dev.flashOp (d : Dev) (port op : Nat) (f : Dev → Dev) : Dev :=
  if port ≠ portPf && port ≠ portBmc && port ≠ portJtag then d.logErr port pgBoot 0x1060 .port op
  else if bit (d.regN pgBoot 0 0x1068) 16 then d.logErr port pgBoot 0x1060 .busy op
  else
    let d := d.setRegN pgBoot 0 0x1060 op
    if d.flashInUse then { d.setRegN pgBoot 0 0x1068 (2 ^ 16) with aon := { d.aon with flashWait := some op } } else f d

/-- The operation that waited for a boot step runs. -/
def Dev.flashResume (d : Dev) : Dev :=
  match d.aon.flashWait with
  | some op => ({ d with aon := { d.aon with flashWait := none } }).flashRun op
  | none => d

/-- ERASE of a 4 KiB sector. -/
def execFlashErase (port now : Nat) (s : State) : Host.Outcome State Fault Refusal :=
  onDev s (fun d => (d.at now).whenAon (fun d => d.flashOp port flErase (fun d => d.flashRun flErase)))

/-- PROGRAM of 256 bytes. -/
def execFlashProgram (port now : Nat) (s : State) : Host.Outcome State Fault Refusal :=
  onDev s (fun d => (d.at now).whenAon (fun d => d.flashOp port flProgram (fun d => d.flashRun flProgram)))

/-- READ of 256 bytes. -/
def execFlashRead (port now : Nat) (s : State) : Host.Outcome State Fault Refusal :=
  onDev s (fun d => (d.at now).whenAon (fun d => d.flashOp port flRead (fun d => d.flashRun flRead)))

/-- An operation during which the flash stays busy beyond 500 ms. -/
def execFlashBusyTimeout (port op now : Nat) (s : State) : Host.Outcome State Fault Refusal :=
  onDev s (fun d => (d.at now).whenAon (fun d => d.flashOp port op (fun d => d.flashTimeout op)))

/-! ### Firmware (R465) -/

/-- Set bits of the rollback floor's fuse word. -/
def svnFloor (w : Nat) : Nat := ((List.range 64).filter (bit w)).length

/-- The image at a slot's base verifies: magic and version, both signatures over bytes 0 to 127, `SVN`, `BODY_HASH`. -/
def Dev.fwGood (d : Dev) (f : Fuses) (base : Nat) : Bool :=
  let hd := d.flashRead base 128
  let len := bytesNat hd 16 4
  hd.take 8 == ascii "HTFWIMG1" && bytesNat hd 8 4 == 0x00010000 &&
  sigsVerify (Config.ezFwEc, Config.ezFwPq) hd (d.flashRead (base + 128) 96) (d.flashRead (base + 224) 4627) &&
  decide (svnFloor f.svnWord ≤ bytesNat hd 12 4) && decide (bytesNat hd 12 4 ≤ 64) && decide (1 ≤ len) && decide (len ≤ 786432) &&
  digest (d.flashRead (base + 4864) len) == (hd.drop 32).take 48

/-- `M_FW` of the image at a slot's base (R466). -/
def Dev.fwMeasure (d : Dev) (base : Nat) : List Byte :=
  let hd := d.flashRead base 128
  digest (hd ++ d.flashRead (base + 4864) (bytesNat hd 16 4))

/-- Base of a firmware slot. -/
def slotBase (b : Bool) : Nat := if b then 0x100000 else 0

/-! ### Operator configuration (R466 Table 5) -/

/-- Base of the operator configuration. -/
def opcfgBase : Nat := 0x200000

/-- Bytes that the signatures of a configuration cover. -/
def opcfgBytes : Nat := 2816

/-- The operator configuration is in form, and its signatures verify against the keys it carries. -/
def Dev.opcfgGood (d : Dev) : Bool :=
  let c := d.flashRead opcfgBase opcfgBytes
  c.take 8 == ascii "HTOPCFG1" && bytesNat c 8 4 == 0x00010000 && decide (bytesNat c 14 1 < 4) && ((c.drop 16).take 48).all (· == 0) &&
  (c.drop 2753).all (· == 0) &&
  sigsVerify ((c.drop 64).take 97, (c.drop 161).take 2592) c (d.flashRead (opcfgBase + 2816) 96) (d.flashRead (opcfgBase + 2912) 4627)

/-! ### The ledger log (R469) -/

/-- Address of record `i` of the log. -/
def logAddr (i : Nat) : Nat := 0x210000 + 64 * (i % 16384)

/-- A record is valid: its magic and CRC. -/
def logValid (r : List Byte) : Bool := r.take 4 == ascii "HTBL" && bytesNat r 60 4 == crc32 (r.take 60)

/-- The slot of a new record: after the valid record with the highest boot count; slot 0 when none is valid. -/
def Dev.logSlot (d : Dev) : Nat :=
  ((List.range 16384).foldl (fun (a : Option (Nat × Nat)) i =>
    let r := d.flashRead (logAddr i) 64
    if !logValid r then a
    else match a with
      | some (_, n) => if n < bytesNat r 4 4 then some (i, bytesNat r 4 4) else a
      | none => some (i, bytesNat r 4 4)) none).elim 0 (fun p => (p.1 + 1) % 16384)

/-- A record written to the flash log, its sector erased on entry; a write that fails sets `LOG_ERR`. -/
def Dev.logWrite (d : Dev) (r : List Byte) (bad : Bool) : Dev :=
  if bad then { d with aon := { d.aon with logErr := true } }
  else
    let a := logAddr d.logSlot
    (if a % 4096 = 0 then d.flashErase a else d).flashWrite a r

end Sys2Proof.Machine
end

