-- ==== Sys2Proof/Machine/Hoops.lean ====
section
/-! DEFINITION. Hoops (R284 to R289, R304), the events that withdraw promises by time and replay (R296), and the thermal emergency
(R299, R300, R513, R514). -/
namespace Sys2Proof.Machine

/-! ### Parameters as registers (R304 Table 8) -/

/-- The word of a hoop's parameters at an offset of the HOOP window; none where the offset holds no parameter. -/
def HoopParams.word (p : HoopParams) (off : Nat) : Option Nat :=
  match off with
  | 0x0104 => some (fld p.funcs 31 0)
  | 0x0108 => some (fld p.funcs 63 32)
  | 0x010C => some (fld p.tiles 31 0)
  | 0x0110 => some (fld p.tiles 63 32)
  | 0x0114 => some (fld p.tiles 95 64)
  | 0x0118 => some p.sigma
  | 0x011C => some p.cslots
  | 0x0120 => some p.dma
  | 0x0124 => some p.qbase
  | 0x0128 => some p.qcount
  | 0x012C => some p.ctxs
  | 0x0130 => some p.keys
  | 0x0134 => some (p.groups + p.sats * 2 ^ 16)
  | 0x0138 => some p.lsts
  | 0x013C => some (p.mcEntries + p.mcLines * 2 ^ 16)
  | 0x0140 => some (p.tcWays + p.walkers * 256)
  | 0x0144 => some p.pages
  | 0x0148 => some p.power
  | 0x014C => some p.gdepth
  | 0x0150 => some p.sweight
  | _ => none

/-- A hoop's parameters with the word at an offset replaced; reserved bits are dropped. -/
def HoopParams.put (p : HoopParams) (off v : Nat) : HoopParams :=
  match off with
  | 0x0104 => { p with funcs := setFld p.funcs 31 0 v }
  | 0x0108 => { p with funcs := setFld p.funcs 63 32 v }
  | 0x010C => { p with tiles := setFld p.tiles 31 0 v }
  | 0x0110 => { p with tiles := setFld p.tiles 63 32 v }
  | 0x0114 => { p with tiles := setFld p.tiles 95 64 v }
  | 0x0118 => { p with sigma := fld v 8 0 }
  | 0x011C => { p with cslots := fld v 5 0 }
  | 0x0120 => { p with dma := fld v 15 0 }
  | 0x0124 => { p with qbase := fld v 15 0 }
  | 0x0128 => { p with qcount := fld v 16 0 }
  | 0x012C => { p with ctxs := fld v 12 0 }
  | 0x0130 => { p with keys := fld v 12 0 }
  | 0x0134 => { p with groups := fld v 8 0, sats := fld v 28 16 }
  | 0x0138 => { p with lsts := fld v 14 0 }
  | 0x013C => { p with mcEntries := fld v 10 0, mcLines := fld v 24 16 }
  | 0x0140 => { p with tcWays := fld v 4 0, walkers := fld v 10 8 }
  | 0x0144 => { p with pages := fld v 22 0 }
  | 0x0148 => { p with power := fld v 11 0 }
  | 0x014C => { p with gdepth := fld v 23 0 }
  | 0x0150 => { p with sweight := fld v 7 0 }
  | _ => p

/-- Offsets of the parameter registers, in order. -/
def hoopOffs : List Nat := (List.range 20).map (fun i => 0x0104 + 4 * i)

/-- The staged registers of a hoop as bytes: the parameters that SEAL, UNSEAL and a VF binding are authorised over (log entry 31). -/
def HoopParams.bytes (p : HoopParams) : List Byte := hoopOffs.flatMap (fun o => toBytes 4 ((p.word o).getD 0))

/-- The tile share in force: 256 in a sealed hoop (R284). -/
def Hoop.sigma (h : Hoop) : Nat := if h.isSealed then 256 else h.inForce.sigma

/-- Hoops other than `h` that exist. -/
def Dev.otherHoops (d : Dev) (h : Nat) : List Nat := (List.range 16).filter (fun g => g != h && (d.hoop g).state != .free)

/-! ### APPLY (R286 Table 2) -/

/-- Tiles of a bitmap. -/
def tilesOf (m : Nat) : List Nat := (List.range 96).filter (bit m)

/-- The hoop holds a context slot on a tile. -/
def Dev.holdsTile (d : Dev) (h t : Nat) : Bool := (d.tile t).slots.any (fun e => e.2.valid && e.2.hoop == h)

/-- `BAD_DESCRIPTOR` of new parameters for a hoop that is or becomes sealed as `se` says. -/
def Dev.applyBad (d : Dev) (h : Nat) (se : Bool) (p : HoopParams) : Bool :=
  let old := (d.hoop h).inForce
  (d.otherHoops h).any (fun g =>
    let q := (d.hoop g).inForce
    ((se || (d.hoop g).isSealed) && (p.tiles &&& q.tiles) != 0) || (p.dma &&& q.dma) != 0 ||
    (p.qcount != 0 && q.qcount != 0 && rangesMeet p.qbase p.qcount q.qbase q.qcount)) ||
  decide (65536 < p.qbase + p.qcount) ||
  (tilesOf old.tiles).any (fun t => !bit p.tiles t && d.holdsTile h t) ||
  (if se then p.walkers == 0 || decide (4 < p.walkers) else p.walkers != 0 || p.tcWays != 0)

/-- VFs of a function bitmap. -/
def vfList (m : Nat) : List Nat := (List.range 64).filter (fun f => f != 0 && bit m f)

/-- `ACCESS_DENIED`: a function binding that breaks R256, removes a function that holds contexts there, or changes a VF whose TDI is locked. -/
def Dev.applyDenied (d : Dev) (h : Nat) (se : Bool) (p : HoopParams) : Bool :=
  let old := (d.hoop h).inForce
  (se && (bit p.funcs 0 || (vfList p.funcs).length != 1)) ||
  (vfList p.funcs).any (fun f => (d.otherHoops h).any (fun g => bit (d.hoop g).inForce.funcs f)) ||
  (List.range 64).any (fun f => bit old.funcs f && !bit p.funcs f && !(d.ctxsOf (fun x => x.hoop == h && x.func == f)).isEmpty) ||
  (vfList (old.funcs ^^^ p.funcs)).any d.locked

/-- The VFs of a sealed hoop change: a change under two-party control (R256, R411 code 0x04). -/
def Dev.bindingChange (d : Dev) (h : Nat) (p : HoopParams) : Bool := (d.hoop h).isSealed && (d.hoop h).inForce.funcs != p.funcs

/-- Sum of a share over the other hoops that satisfy `q`, and the new value. -/
def Dev.shareSum (d : Dev) (h : Nat) (q : Hoop → Bool) (f : Hoop → Nat) (new : Nat) : Nat :=
  (d.otherHoops h).foldl (fun a g => if q (d.hoop g) then a + f (d.hoop g) else a) new

/-- Sums above the device counts. -/
def Dev.applyOver (d : Dev) (h : Nat) (se : Bool) (p : HoopParams) : Bool :=
  let all := fun (_ : Hoop) => true
  let beyond := fun (f : HoopParams → Nat) (cap : Nat) => decide (cap < d.shareSum h all (fun x => f x.inForce) (f p))
  let sealedSum := fun (f : HoopParams → Nat) => d.shareSum h (·.isSealed) (fun x => f x.inForce) (if se then f p else 0)
  (!se && (decide (256 < p.sigma) || (tilesOf p.tiles).any (fun t =>
     decide (256 < d.shareSum h (fun x => !x.isSealed && bit x.inForce.tiles t) (fun x => x.inForce.sigma) p.sigma)))) ||
  beyond (·.cslots) 60 || decide (23 - d.wayOut < sealedSum (·.tcWays)) || decide (15 < sealedSum (·.walkers)) || beyond (·.ctxs) 4096 || beyond (·.keys) 4095 ||
  beyond (·.groups) 256 || beyond (·.sats) 4096 || beyond (·.lsts) 16384 || beyond (·.mcEntries) 1024 || beyond (·.mcLines) (256 - d.larderOut) ||
  beyond (·.pages) usablePages || beyond (·.power) 2000

/-- Key slots of a hoop that are not `EMPTY`. -/
def Dev.keysOf (d : Dev) (h : Nat) : Nat := (d.keys.filter (fun e => e.2.state != .empty && e.2.hoop == h)).length

/-- Active collective groups of a hoop; set in `Groups`. -/
def Dev.groupsOf (d : Dev) (h : Nat) : Nat := (d.groupTab.filter (fun e => e.2.state != .free && e.2.hoop == h)).length

/-- A share below the hoop's present use. -/
def Dev.applyBelow (d : Dev) (h : Nat) (p : HoopParams) : Bool :=
  decide (p.ctxs < d.ctxCount h) || decide (p.keys < d.keysOf h) || decide (p.groups < d.groupsOf h) || decide (p.sats < hoopEntries d.sats h) ||
  decide (p.lsts < hoopEntries d.lsts h) || decide (p.mcEntries < d.mcEntriesOf h) ||
  (List.range 8).any (fun s => decide (p.mcLines < d.mcLines h s McEntry.holdsLines)) || decide (p.pages < d.grantedTo h) ||
  d.queues.any (fun e => e.2.valid && e.2.hoop == h && !(decide (p.qbase ≤ e.1) && decide (e.1 < p.qbase + p.qcount)))

/-- A share lowered, or a tile or channel removed, while accepted class G work is not completed. -/
def Dev.applyLowered (d : Dev) (h : Nat) (p : HoopParams) : Bool :=
  let old := (d.hoop h).inForce
  d.hoopBusyG h && (decide (p.sigma < old.sigma) || decide (p.cslots < old.cslots) || decide (p.gdepth < old.gdepth) ||
    (tilesOf old.tiles).any (fun t => !bit p.tiles t) || (List.range 16).any (fun c => bit old.dma c && !bit p.dma c))

/-- Every failure of new parameters, under the sealed state `se`. -/
def Dev.applyErrs (d : Dev) (h : Nat) (se : Bool) (p : HoopParams) : List Status :=
  (if d.applyBad h se p then [.badDescriptor] else []) ++ (if d.applyDenied h se p then [.accessDenied] else []) ++
  (if d.applyOver h se p || d.applyBelow h p || d.applyLowered h p then [.rejectNoCapacity] else [])

/-- New parameters in force: the bucket brought up to now, then cut to its new depth (R297). -/
def Dev.applyParams (d : Dev) (h : Nat) (se : Bool) (p : HoopParams) : Dev :=
  let x := (d.hoop h).refill d.now
  let x := { x with inForce := p, staged := p, isSealed := se }
  d.setHoop h { x with energy := min x.depth x.energy }

/-- APPLY (R286). -/
def Dev.hoopApply (d : Dev) (h : Nat) : Status × Dev :=
  let x := d.hoop h
  let p := x.staged
  if x.state = .free then (.badDescriptor, d)
  else
    let change := d.bindingChange h p
    opOr d (d.applyErrs h x.isSealed p ++ (if change && !d.authorised h 0x04 p.bytes 0 then [.authRequired] else []) ++
      (if change && d.hoopBusy h then [.rejectNoCapacity] else [])) (fun _ =>
        let d := if change then d.consume h else d
        (.ok, d.applyParams h x.isSealed p))

/-! ### The other operations of `HOOP_OP` (R285, R289, R304) -/

/-- CREATE. -/
def Dev.hoopCreate (d : Dev) (h : Nat) : Status × Dev :=
  if (d.hoop h).state ≠ .free then (.badDescriptor, d)
  else (.ok, (d.setHoop h { state := .active, refillNs := d.now }).setRegN pgHoop h 0x0170 0)

/-- EXCLUSIVE. -/
def Dev.hoopExclusive (d : Dev) (h : Nat) : Status × Dev :=
  let x := d.hoop h
  if x.state = .free || d.hoopBusyG h || (d.otherHoops h).any (fun g => (x.inForce.tiles &&& (d.hoop g).inForce.tiles) != 0) then (.badDescriptor, d)
  else (.ok, d.setHoop h { x with excl := true })

/-- INTERLEAVE. -/
def Dev.hoopInterleave (d : Dev) (h : Nat) : Status × Dev :=
  let x := d.hoop h
  if x.state = .free then (.badDescriptor, d) else (.ok, d.setHoop h { x with excl := false })

/-- RESET: cause 0x65 (R437, R444). -/
def Dev.hoopReset (d : Dev) (h : Nat) : Status × Dev :=
  if (d.hoop h).state = .free then (.badDescriptor, d)
  else (.ok, (d.rasLog { cause := 0x65, cls := 1, status := Status.hoopReset.code, hoop := h }).resetHoop h 0x65 none)

/-- DESTROY: a hoop other than hoop 0 that holds no context and no granted page; its owners and policy go with it (R256, R304, R410). -/
def Dev.hoopDestroy (d : Dev) (h : Nat) : Status × Dev :=
  if h = 0 || (d.hoop h).state = .free || d.ctxCount h != 0 || d.grantedTo h != 0 then (.badDescriptor, d)
  else (.ok, ((d.setHoop h {}).setHoopSec h {}).endDebugOf h)

/-- SEAL and UNSEAL: the staged parameters applied under the new sealed state, with authorisation 0x01 over them (R285, R411, log
entry 31). A joint hoop stays sealed (R413). -/
def Dev.hoopSeal (d : Dev) (h : Nat) (se : Bool) : Status × Dev :=
  let x := d.hoop h
  let p := x.staged
  if x.state = .free || x.isSealed == se || (!se && x.joint) then (.badDescriptor, d)
  else
    opOr d (d.applyErrs h se p ++ (if d.authorised h 0x01 p.bytes 0 then [] else [.authRequired]) ++
      (if d.lc.inForce = lcSecured then [] else [.lcInvalid]) ++
      (if d.hoopBusy h then [.rejectNoCapacity] else [])) (fun _ => (.ok, (d.consume h).applyParams h se p))

/-- An operation of the HOOP page from a port: code and hoop; it answers only the PF. -/
def Dev.hoopOp (d : Dev) (port code h : Nat) : Dev :=
  d.runOp port pgHoop 0x1004 0x1008 (code % 16 + h % 16 * 16) (port == portPf) (fun d =>
    match code % 16 with
    | 1 => d.hoopCreate (h % 16)
    | 2 => d.hoopApply (h % 16)
    | 3 => d.hoopExclusive (h % 16)
    | 4 => d.hoopInterleave (h % 16)
    | 5 => d.hoopReset (h % 16)
    | 6 => d.hoopDestroy (h % 16)
    | 7 => d.hoopSeal (h % 16) true
    | 8 => d.hoopSeal (h % 16) false
    | _ => (.badDescriptor, d))

/-- CREATE of a hoop (R304). -/
def execHoopCreate (port hoop now : Nat) (s : State) : Host.Outcome State Fault Refusal :=
  onDev s (fun d => (d.at now).whenLive (fun d => d.hoopOp port 1 hoop))

/-- APPLY (R286). -/
def execHoopApply (port hoop now : Nat) (s : State) : Host.Outcome State Fault Refusal :=
  onDev s (fun d => (d.at now).whenLive (fun d => d.hoopOp port 2 hoop))

/-- EXCLUSIVE (R289). -/
def execHoopExclusive (port hoop now : Nat) (s : State) : Host.Outcome State Fault Refusal :=
  onDev s (fun d => (d.at now).whenLive (fun d => d.hoopOp port 3 hoop))

/-- INTERLEAVE (R289). -/
def execHoopInterleave (port hoop now : Nat) (s : State) : Host.Outcome State Fault Refusal :=
  onDev s (fun d => (d.at now).whenLive (fun d => d.hoopOp port 4 hoop))

/-- RESET of a hoop (R444). -/
def execHoopReset (port hoop now : Nat) (s : State) : Host.Outcome State Fault Refusal :=
  onDev s (fun d => (d.at now).whenLive (fun d => d.hoopOp port 5 hoop))

/-- DESTROY of a hoop (R304). -/
def execHoopDestroy (port hoop now : Nat) (s : State) : Host.Outcome State Fault Refusal :=
  onDev s (fun d => (d.at now).whenLive (fun d => d.hoopOp port 6 hoop))

/-- SEAL (R285). -/
def execHoopSeal (port hoop now : Nat) (s : State) : Host.Outcome State Fault Refusal :=
  onDev s (fun d => (d.at now).whenLive (fun d => d.hoopOp port 7 hoop))

/-- UNSEAL (R285). -/
def execHoopUnseal (port hoop now : Nat) (s : State) : Host.Outcome State Fault Refusal :=
  onDev s (fun d => (d.at now).whenLive (fun d => d.hoopOp port 8 hoop))

/-! ### Withdrawal by time and replay (R295, R296) -/

/-- A class G command passes its deadline: `MISS` (R296). -/
def execDeadlinePassed (trk now : Nat) (s : State) : Host.Outcome State Fault Refusal :=
  onDev s (fun d => (d.at now).whenLive (fun d => d.missDeadline trk))

/-- Replay cycles that a command may see on each of its tiles: ceil(T × 4,096 ÷ 65,536) (R296). -/
def Cmd.replayAllowance (m : Cmd) : Nat := cdiv (m.tPrice * 4096) 65536

/-- The tile has had more replay cycles since the command's release than its allowance. -/
def Dev.replayOver (d : Dev) (m : Cmd) (t : Nat) : Bool := decide (m.replayAllowance < (d.tile t).replays - tabGet natDflt m.replayBase t)

/-- Tiles on which a command runs. -/
def Dev.cmdTiles (d : Dev) (m : Cmd) : List Nat :=
  match (d.ctx m.ctx).pricking with
  | none => []
  | some p => match p.entries.find? (fun e => e.id == m.entry) with
    | none => []
    | some e => e.tiles.map (·.1)

/-- Replay cycles on a tile exceed a command's allowance (R296, cause REPLAY). -/
def execReplayLimit (trk now : Nat) (s : State) : Host.Outcome State Fault Refusal :=
  onDev s (fun d => (d.at now).whenLive (fun d =>
    let m := d.cmd trk
    if m.live && m.typ == tyExec && m.released && (d.cmdTiles m).any (d.replayOver m) then d.withdraw trk wReplay else d))

/-- A lane of a tile in exclusive mode has run one context for 1,000,000 CCLK cycles: its turn is over at the next boundary (R289). -/
def execExclusiveSwitchTimeout (tile lane now : Nat) (s : State) : Host.Outcome State Fault Refusal :=
  onDev s (fun d => (d.at now).whenLive (fun d =>
    let x := d.tile tile
    if tabGet natDflt x.exclCur lane ≠ 0 ∧ x.exclDue.contains lane = false then d.setTile tile { x with exclDue := x.exclDue ++ [lane] } else d))

/-! ### Temperature (R299, R300, R513, R514) -/

/-- 105 °C, 95 °C, 115 °C and 100 °C in units of 0.25 °C. -/
def tHot : Nat := 420
def tCool : Nat := 380
def tTrip : Nat := 460
def tHbmTrip : Nat := 400

/-- The sensor reads above its trip. -/
def overTrip (sensor r : Nat) : Bool := decide ((if sensor < 56 then tTrip else tHbmTrip) < r)

/-- Every junction sensor reads at or below 95 °C. -/
def Therm.cool (t : Therm) : Bool := t.temps.all (fun e => decide (55 < e.1) || decide (e.2 ≤ tCool))

/-- A reading kept: its maximum, the samples in a row above the trip, and since when the junctions are cool. -/
def Therm.sample (t : Therm) (sensor r now : Nat) : Therm :=
  let t := { t with temps := tabPut natDflt t.temps sensor r, maxes := tabPut natDflt t.maxes sensor (max r (tabGet natDflt t.maxes sensor)),
                    beyond := tabPut natDflt t.beyond sensor (if overTrip sensor r then tabGet natDflt t.beyond sensor + 1 else 0) }
  { t with coolSince := if t.cool then some (t.coolSince.getD now) else none }

/-- The safe clock is entered (R299): every class G promise withdrawn. -/
def Dev.enterSafe (d : Dev) : Dev :=
  let t := d.therm
  if t.safe then d
  else
    let d := { d with therm := { t with safe := true, safeSince := d.now, emergencies := (t.emergencies + 1) % 2 ^ 24 } }
    d.withdrawAll wThermal (fun _ => true)

/-- A sample of a sensor, in units of 0.25 °C. -/
def Dev.sensorSample (d : Dev) (sensor r : Nat) : Dev :=
  if 63 < sensor then d
  else
    let r := min r 1023
    let d := { d with therm := d.therm.sample sensor r d.now }
    let d := if 56 ≤ sensor then d.setRegN (pgCel + (sensor - 56)) 0 0x1028 r else d
    let d := if 56 ≤ sensor && decide (tCool < r) then d.orReg pgTel 0 0x102C 8 else d
    let d := d.whenLive (fun d => if sensor < 56 && decide (tHot < r) then d.enterSafe else d)
    if d.coreOn && decide (2 ≤ tabGet natDflt d.therm.beyond sensor) then d.halt 0x13 sensor 0 0 0 else d

/-- Safe-clock nanoseconds of the present interval up to `t`. -/
def Therm.safeNs (x : Therm) (t : Nat) : Nat := x.safeAcc + (if x.safe then t - max x.safeSince x.intStart else 0)

/-- The safe clock ends 1 ms after every junction sensor has read at or below 95 °C without a break (R299). -/
def Dev.thermalRelease (d : Dev) : Dev :=
  let t := d.therm
  match t.coolSince with
  | some c => if t.safe && decide (c + 1000000 ≤ d.now) then { d with therm := { t with safe := false, safeAcc := t.safeNs d.now } } else d
  | none => d

/-- The safe clock ends (R299). -/
def execThermalRelease (now : Nat) (s : State) : Host.Outcome State Fault Refusal := onDev s (fun d => (d.at now).whenLive Dev.thermalRelease)

/-- The level of an interval: ceil(7 × safe-clock ACLK cycles ÷ 100,000) (R300). -/
def thermLevel (ns : Nat) : Nat := cdiv (7 * (ns / 10)) 100000

/-- Ports that see a hoop. -/
def Dev.portsOfHoop (d : Dev) (h : Nat) : List Nat := portsDevice ++ d.vfsOf h

/-- An interval of 1 ms ends: every hoop's `HOOP_THERM` receives the level, and a change of level raises the HOOP page's event (R300). -/
def Dev.intervalEnd (d : Dev) : Dev :=
  let t := d.therm
  let fin := t.intStart + 1000000
  if d.now < fin then d
  else
    let lvl := thermLevel (t.safeNs fin)
    let d := { d with therm := { t with intStart := fin, intNo := t.intNo + 1, safeAcc := 0 } }
    (List.range 16).foldl (fun d h =>
      let old := d.regN pgHoop h 0x0174 % 8
      let d := d.setRegN pgHoop h 0x0174 (lvl + t.intNo % 2 ^ 24 * 256)
      if old ≠ lvl ∧ (d.hoop h).state ≠ .free then d.event pgHoop 0 (d.portsOfHoop h) else d) d

/-- A thermal interval ends (R300). -/
def execThermalIntervalEnd (now : Nat) (s : State) : Host.Outcome State Fault Refusal := onDev s (fun d => (d.at now).whenLive Dev.intervalEnd)

end Sys2Proof.Machine
end

