-- ==== Sys2Proof/Machine/Coll.lean ====
section
/-! DEFINITION. Collective groups and commands (chapter 15): CREATE, DESTROY, FENCE and the lease, the ring operations, the picot path and handoff
between devices. -/
namespace Sys2Proof.Machine

/-! ### Groups (R339, R340) -/

/-- `SHUT_ARGn` of a port's bank. -/
def Dev.shArg (d : Dev) (port n : Nat) : Nat := d.bankN pgShut port (0x1014 + 4 * n)

/-- The group that the CREATE arguments describe (R339 Table 1). -/
def Dev.shNew (d : Dev) (port : Nat) : CGroup :=
  let a0 := d.shArg port 0
  let a1 := d.shArg port 1
  let a2 := d.shArg port 2
  let a3 := d.shArg port 3
  { state := .active, ctx := fld a0 11 0, hoop := (d.ctx (fld a0 11 0)).hoop, cls := fld a0 13 12, picot := bit a0 14, n := fld a1 12 0, rank := fld a1 27 16,
    next := fld a2 3 0, prev := fld a2 7 4, peerSlot := fld a2 15 8, sched := fld a2 23 16, key := fld a3 11 0, gen := fld a3 15 12,
    timeout := d.shArg port 4, lease := d.shArg port 5, renewed := d.now }

/-- Reserved fields of the CREATE arguments that are not zero. -/
def Dev.shReserved (d : Dev) (port : Nat) : Bool :=
  fld (d.shArg port 0) 31 15 != 0 || fld (d.shArg port 1) 15 13 != 0 || fld (d.shArg port 1) 31 28 != 0 || fld (d.shArg port 2) 31 24 != 0 ||
  fld (d.shArg port 3) 31 16 != 0

/-- A group slot is free. -/
def Dev.shFree (d : Dev) : Option Nat := lowest 256 (fun k => (d.grp k).state == .free)

/-- Why CREATE fails (R339 Table 2). -/
def Dev.shErrs (d : Dev) (port : Nat) : List Status :=
  let g := d.shNew port
  let used := d.groupTab.any (fun e => e.2.state != .free && e.2.picot && e.2.sched == g.sched)
  (if (d.ctx g.ctx).state != .active || decide (g.n < 2) || decide (4096 < g.n) || decide (g.n ≤ g.rank) || decide (g.timeout < 10000) ||
      decide (10000000 < g.timeout) || decide (g.lease < 100000) || decide (1000000 < g.lease) || (g.picot && decide (256 < g.n)) ||
      (g.picot && used) || d.shReserved port then [.badDescriptor] else []) ++
  (match d.keyCheck g.hoop useLink g.key g.gen with
   | some st => [st]
   | none => []) ++
  (if (d.lk g.next).state != .active || (d.lk g.prev).state != .active then [.linkDown] else []) ++
  (if d.shFree.isNone || decide ((d.hoop g.hoop).inForce.groups ≤ d.groupsOf g.hoop) then [.rejectNoCapacity] else [])

/-- CREATE: the lowest free slot, its lease started, its rate and share taken from the next port; its counters start at zero. -/
def Dev.shCreate (d : Dev) (port : Nat) : Status × Dev :=
  opOr d (d.shErrs port) (fun _ =>
    match d.shFree with
    | none => (.rejectNoCapacity, d)
    | some k =>
      let g := d.shNew port
      let d := d.setGrp k g
      let d := [0x0134, 0x0138, 0x013C, 0x0140, 0x0144, 0x0148].foldl (fun d o => d.setRegN pgShut k o 0) d
      let d := (d.setRegN pgShut k 0x0120 (d.lk g.next).rate).setRegN pgShut k 0x0124 (d.hoopPositions g.next g.hoop)
      (.ok, d.setBankN pgShut port 0x1030 k))

/-- Commands of a group that are accepted and not finished. -/
def Dev.shCmds (d : Dev) (k : Nat) : List Nat :=
  d.cmdsOf (fun m => m.typ == tyCollective && m.xcgid == k && m.stage != .finished)

/-- The group of `SHUT_OP` is the context's and in use. -/
def Dev.shNamed (d : Dev) (port : Nat) : Nat := fld (d.bankN pgShut port 0x1010) 15 8

/-- A group fenced (R340): its commands, and a checkpoint's operation, end with `GROUP_PARTITIONED`; logged as 0x89. -/
def Dev.shFenceGroup (d : Dev) (k : Nat) : Dev :=
  let g := d.grp k
  let d := d.rasLog { cause := 0x89, cls := 3, status := Status.groupPartitioned.code, unit := Client.shuttle.code, unum := k, hoop := g.hoop, ctx := g.ctx }
  let d := (d.shCmds k).foldl (fun d t => (if (d.cmd t).released then d.collStop t .groupPartitioned else d).finish t .groupPartitioned) d
  let d := if g.co.internal.isSome then d.shEnd k .groupPartitioned else d
  d.updGrp k (fun g => { g with state := .fenced, held := [], launches := [], credits := [] })

/-- DESTROY: the group's commands complete with `CONTEXT_ABORTED` and write no record, and the slot and its buffer are free (R340). -/
def Dev.shDestroyGroup (d : Dev) (k : Nat) : Dev :=
  ((d.shCmds k).foldl (fun d t => d.finish t .contextAborted) d).setGrp k {}

/-- `SHUT_OP` from a port: 1 CREATE, 2 DESTROY, 3 FENCE (R339). CREATE from a port other than the PF reports `ACCESS_DENIED`. -/
def Dev.shutOp (d : Dev) (port v : Nat) : Dev :=
  d.runOp port pgShut 0x1010 0x102C v (port == portPf || (v % 16 == 1 && portIsFunc port)) (fun d =>
    if port ≠ portPf then (.accessDenied, d)
    else
      let k := d.shNamed port
      match v % 16 with
      | 1 => d.shCreate port
      | 2 => if (d.grp k).state = .free then (.badDescriptor, d) else (.ok, d.shDestroyGroup k)
      | 3 => if (d.grp k).state = .free then (.badDescriptor, d) else (.ok, if (d.grp k).state = .active then d.shFenceGroup k else d)
      | _ => (.badDescriptor, d))

/-- CREATE of a group (R339). -/
def execShutCreate (port now : Nat) (s : State) : Host.Outcome State Fault Refusal :=
  onDev s (fun d => (d.at now).whenLive (fun d => d.shutOp port 1))

/-- DESTROY of a group (R340). -/
def execShutDestroy (port group now : Nat) (s : State) : Host.Outcome State Fault Refusal :=
  onDev s (fun d => (d.at now).whenLive (fun d => d.shutOp port (2 + group % 256 * 256)))

/-- FENCE of a group (R340). -/
def execShutFence (port group now : Nat) (s : State) : Host.Outcome State Fault Refusal :=
  onDev s (fun d => (d.at now).whenLive (fun d => d.shutOp port (3 + group % 256 * 256)))

/-- A write of `SHUT_G_LEASE` to the group behind the port's `BLK_SEL`: the PF's restarts the lease (R340, R359). -/
def Dev.leaseWrite (d : Dev) (port v : Nat) : Dev :=
  let k := d.sel pgShut port
  if port ≠ portPf then d.logErr port pgShut 0x0118 .port v
  else if bit v 0 && decide (k < 256) && (d.grp k).state == .active then d.updGrp k (fun g => { g with renewed := d.now }) else d

/-- A write to `SHUT_G_LEASE` (R340). -/
def execShutGLease (port now : Nat) (s : State) : Host.Outcome State Fault Refusal :=
  onDev s (fun d => (d.at now).whenLive (fun d => d.leaseWrite port 1))

/-- A lease has run out: the group is fenced (R340). -/
def execLeaseExpiry (group now : Nat) (s : State) : Host.Outcome State Fault Refusal :=
  onDev s (fun d => (d.at now).whenLive (fun d =>
    let g := d.grp group
    if g.state = .active ∧ g.renewed + g.lease * 10 ≤ d.now then (d.shFenceGroup group).orReg pgShut group 0x0148 4 else d))

/-! ### Ring operations (R341 to R351) -/

/-- A released command of an operation that has not started on its group, or that goes on after an answer to its page fault. -/
def Dev.collReady (d : Dev) (trk op : Nat) : Bool :=
  let m := d.cmd trk
  d.live && m.live && m.typ == tyCollective && m.xcop == op && m.released && m.stage == .running

/-- A ring operation starts on its group in its turn, or goes on (R341). -/
def Dev.ringStart (d : Dev) (trk op : Nat) : Dev :=
  let m := d.cmd trk
  let g := d.grp m.xcgid
  if !d.collReady trk op then d
  else if g.state = .free then d.finish trk .badDescriptor
  else if g.state = .fenced then (d.collStop trk .groupPartitioned).finish trk .groupPartitioned
  else if g.running = some trk then d.shGo m.xcgid
  else if g.running.isSome || d.shEarlier m.xcgid trk then d
  else if (d.lk g.next).state = .down ∨ (d.lk g.prev).state = .down then (d.collStop trk .linkDown).finish trk .linkDown
  else (d.shTake m.xcgid trk (d.collOf m)).shGo m.xcgid

/-- ALLREDUCE (R345). -/
def execAllreduce (trk now : Nat) (s : State) : Host.Outcome State Fault Refusal := onDev s (fun d => (d.at now).ringStart trk 1)

/-- ALLREDUCE_PAIR (R346). -/
def execAllreducePair (trk now : Nat) (s : State) : Host.Outcome State Fault Refusal := onDev s (fun d => (d.at now).ringStart trk 2)

/-- REDUCE_SCATTER (R344). -/
def execReduceScatter (trk now : Nat) (s : State) : Host.Outcome State Fault Refusal := onDev s (fun d => (d.at now).ringStart trk 3)

/-- ALLGATHER (R344). -/
def execAllgather (trk now : Nat) (s : State) : Host.Outcome State Fault Refusal := onDev s (fun d => (d.at now).ringStart trk 4)

/-- BROADCAST (R344). -/
def execBroadcast (trk now : Nat) (s : State) : Host.Outcome State Fault Refusal := onDev s (fun d => (d.at now).ringStart trk 5)

/-- `START_NS` is reached: a collective that was held begins to send (R351). -/
def execCollectiveStartTime (trk now : Nat) (s : State) : Host.Outcome State Fault Refusal :=
  onDev s (fun d => (d.at now).whenLive (fun d =>
    let k := (d.cmd trk).xcgid
    let g := d.grp k
    if g.running = some trk ∧ !g.begun ∧ g.co.start ≤ d.now then (d.setGrp k { g with begun := true, lastRx := d.now }).shGo k else d))

/-- The running command of a group has waited beyond the group timeout, or its deadline passed while it waits on another member (R351). -/
def Dev.shTimedOut (d : Dev) (g : CGroup) : Bool :=
  match g.running with
  | none => false
  | some t =>
    let m := d.cmd t
    m.stage == .running && g.begun &&
    (decide (g.lastRx + g.timeout * 10 ≤ d.now) || (m.typ == tyCollective && m.cls == 0 && m.released && decide (m.deadline < d.now)))

/-- The group timeout or the deadline of the running command (R351). -/
def execGroupTimeout (group now : Nat) (s : State) : Host.Outcome State Fault Refusal :=
  onDev s (fun d => (d.at now).whenLive (fun d =>
    if d.shTimedOut (d.grp group) then (d.shEnd group .groupTimeout).orReg pgShut group 0x0148 8 else d))

/-! ### The picot path (R353 to R356) -/

/-- Picot header bytes 16 to 31 (R354 Table 7). -/
def picotHead (op : Nat) (failed result : Bool) (hop inst gid k0 : Nat) : List Byte :=
  toBytes 1 op ++ toBytes 1 (b2n failed + 2 * b2n result) ++ toBytes 2 hop ++ toBytes 2 inst ++ toBytes 1 gid ++ [0] ++ toBytes 4 k0 ++ toBytes 4 0

/-- A frame waits for the next slot from `at'` whose schedule entry names its group; on a suspended link it travels as a VC2 record (R335, R356). -/
def Dev.picotQueue (d : Dev) (k at' : Nat) (head pay : List Byte) : Dev :=
  let g := d.grp k
  if (d.lk g.next).slotMode then d.setGrp k { g with launches := g.launches ++ [{ slot := at', head := head, payload := pay }] }
  else
    let r := d.sendRecord g.next g.hoop g.key g.gen 2 0 (shTgt g.peerSlot (bytesNat head 4 2) 0 false 0 0) (head ++ pay)
    match r.2 with
    | some st => d.shEnd k st
    | none => r.1.shCountTx k pay.length g.running

/-- What the picot buffer holds, combined with an arriving payload (R353). -/
def picotCombine (red : Nat) (a b : List Byte) : List Byte := bytes4 (((codes4 a).zip (codes4 b)).map (fun p => redOp red p.1 p.2))

/-- The result of the running picot operation written, and the command's work ended. -/
def Dev.picotFinish (d : Dev) (k : Nat) (w : List Byte) : Dev :=
  match d.shWrite k 0 (w.take (d.grp k).co.count) with
  | (d, none) => (d.chunkGood k 0).shDone k
  | (d, some e) => d.shFault k e

/-- A picot frame or record has reached its group: rank's addition on the way out, the result on the way back (R353 to R356). Slot `k'` is the one
it arrived in. -/
def Dev.picotArrive (d : Dev) (k k' : Nat) (head pay : List Byte) : Dev :=
  let g := d.grp k
  let op := bytesNat head 0 1
  let failed := bit (bytesNat head 1 1) 0
  let result := bit (bytesNat head 1 1) 1
  let hop := bytesNat head 2 2
  let k0 := bytesNat head 8 4
  if g.state != .active || !g.picot || bytesNat head 4 2 != g.inst then d.bumpRc pgShut k 0x0144 1
  else
    let d := d.bump64 pgShut k 0x013C pay.length 0x0148 0
    let d := (d.charge g.ctx 10 pay.length).updGrp k (fun g => { g with lastRx := d.now })
    let released := g.running.isSome && g.co.op == 6
    let fwd := fun (d : Dev) (f r : Bool) (w : List Byte) => d.picotQueue k (k' + 1) (picotHead op f r (hop + 1) g.inst g.peerSlot k0) w
    let last := decide (g.rank = g.n - 1)
    let ends := result && decide (g.rank + 2 = g.n)
    if !result then
      match (if released && !failed then g.picotSrc else none) with
      | none =>
        let d := fwd d true last pay
        if released then d.shEnd k .groupTimeout else d
      | some x =>
        let s := picotCombine g.co.red pay x
        let d := fwd d false last s
        if last then d.picotFinish k s else d
    else if failed then
      let d := if ends then d else fwd d true true pay
      if released then d.shEnd k .groupTimeout else d
    else
      let d := if ends then d else fwd d false true pay
      if released then d.picotFinish k pay else d

/-- The first record held for a picot group is a frame that travelled on VC2. -/
def Dev.picotHeld (d : Dev) (k : Nat) : Dev :=
  let g := d.grp k
  match g.front with
  | none => d
  | some h => (d.setGrp k g.pop).picotArrive k (d.now / 64) (h.payload.take 16) (h.payload.drop 16)

/-- PICOT_ALLREDUCE starts: the source is read into the picot buffer at release; rank 0's frame takes slot `START_NS` ÷ 64 (R353). -/
def Dev.picotStart (d : Dev) (trk : Nat) : Dev :=
  let m := d.cmd trk
  let k := m.xcgid
  let g := d.grp k
  if !d.collReady trk 6 then d
  else if g.state = .free then d.finish trk .badDescriptor
  else if g.state = .fenced then (d.collStop trk .groupPartitioned).finish trk .groupPartitioned
  else if g.running.isSome || d.shEarlier k trk then d
  else if (d.lk g.next).state = .down ∨ (d.lk g.prev).state = .down then (d.collStop trk .linkDown).finish trk .linkDown
  else
    let d := (d.shTake k trk (d.collOf m)).updGrp k (fun g => { g with begun := true })
    let g := d.grp k
    let go := fun (d : Dev) (failed : Bool) (w : List Byte) =>
      if g.rank = 0 then d.picotQueue k (m.xcstart / 64) (picotHead (m.xcred + 1) failed false 1 g.inst g.peerSlot (m.xcstart / 64)) w
      else d.picotHeld k
    match d.shRead g [(m.xcsrc, m.xccount)] with
    | .ok w => go (d.updGrp k (fun g => { g with picotSrc := some w })) false w
    | .error (.uncorrectable pa) => go ((d.shUe k pa).updGrp k (fun g => { g with status := stCombine g.status Status.uncorrectableMemory.code })) true [0, 0, 0, 0, 0, 0, 0, 0]
    | .error e => d.shFault k e

/-- PICOT_ALLREDUCE (R353). -/
def execPicotAllreduce (trk now : Nat) (s : State) : Host.Outcome State Fault Refusal := onDev s (fun d => (d.at now).picotStart trk)

/-! ### Handoff between devices (R357) -/

/-- `TGT` of a handoff record: group slot, tag, `CREDIT`, record index. -/
def hoTgt (gid tag : Nat) (credit : Bool) (idx : Nat) : Nat := gid % 256 + tag % 2 ^ 16 * 2 ^ 8 + b2n credit * 2 ^ 24 + idx * 2 ^ 25

/-- The index that marks a handoff whose counts differ; the mark of a failed segment is 2^22 plus its first record (log entry 36). -/
def hoRefuse : Nat := 0x7FFFFF

/-- The tag of a handoff command. -/
def Cmd.htag (m : Cmd) : Nat := m.xcroot % 65536

/-- Handoff commands of an operation and tag started on a group and not finished, the oldest release first. -/
def Dev.hoOldest (d : Dev) (k op tag : Nat) : Option Nat :=
  d.oldest ((d.shCmds k).filter (fun t => (d.cmd t).xcop == op && (d.cmd t).started && (d.cmd t).stage == .running && (d.cmd t).htag == tag))

/-- A handoff record sent: the next member's data, or the previous member's credit. -/
def Dev.hoSend (d : Dev) (k p tgt : Nat) (pay : List Byte) : Dev × Option Status :=
  let g := d.grp k
  d.sendRecord p g.hoop g.key g.gen 6 1 tgt pay

/-- A handoff command ends with a status that no class C fault carries. -/
def Dev.hoEnd (d : Dev) (trk : Nat) (st : Status) : Dev := (d.collStop trk st).finish trk st

/-- A stop of a handoff command. -/
def Dev.hoFault (d : Dev) (k trk : Nat) (e : ShStop) : Dev :=
  let m := d.cmd trk
  match e with
  | .page va l w =>
    let full := (lowest faultRecords (fun i => !(tabGet faultDflt (d.ctx m.ctx).faults i).pending)).isNone
    let d := if full then d.collStop trk .pageFault else d
    match d.pageFault m.ctx trk .shuttle k va w l (shInfo k va) with
    | (d, some _) => d.updCmd trk (fun m => { m with stage := .faulted })
    | (d, none) => d
  | .fault st va => (d.collStop trk st).classC m.ctx (some trk) (causeOf st) st (shInfo k va)
  | .status st => d.hoEnd trk st
  | .chunk st => d.hoEnd trk st
  | .uncorrectable _ => d.hoEnd trk .uncorrectableMemory
  | .halted => d

/-- Segments of an XSEND from its cursor on, each read and sent; an uncorrectable one is sent as failed. -/
def Dev.hoPush (d : Dev) (k trk : Nat) : Nat → Dev
  | 0 => d
  | n + 1 =>
    let m := d.cmd trk
    let g := d.grp k
    if m.hSegs ≤ m.cursor then (d.collRecord trk 0).finish trk .ok
    else
      let i := m.cursor
      let len := min 65536 (m.xccount - 65536 * i)
      match d.shRead g [(m.xcsrc + 65536 * i, len)] with
      | .error (.uncorrectable pa) =>
        match d.hoSend k g.next (hoTgt g.peerSlot m.htag false (2 ^ 22 + 16 * i)) [0, 0, 0, 0] with
        | (d, some st) => d.hoEnd trk st
        | (d, none) => (((d.shUe k pa).cmdStatus trk .uncorrectableMemory).updCmd trk (fun m => { m with failed := m.failed ++ [i], cursor := i + 1 })).hoPush k trk n
      | .error e => d.hoFault k trk e
      | .ok bs =>
        match d.sendRecords g.next g.hoop g.key g.gen 6 1 (fun s => hoTgt g.peerSlot m.htag false (16 * i + s)) bs with
        | (d, some st) => d.hoEnd trk st
        | (d, none) => ((d.shCountTx k len (some trk)).updCmd trk (fun m => { m with cursor := i + 1 })).hoPush k trk n

/-- The credits of a list without the first of a tag, and its count. -/
def takeCredit (tag : Nat) : List (Nat × Nat) → Option (Nat × List (Nat × Nat))
  | [] => none
  | c :: r => if c.1 = tag then some (c.2, r) else (takeCredit tag r).map (fun x => (x.1, c :: x.2))

/-- An XSEND moves its data once it holds the oldest credit of its tag; counts that differ end both (R357). -/
def Dev.hoXsend (d : Dev) (k trk : Nat) : Dev :=
  let m := d.cmd trk
  let g := d.grp k
  if m.scratch.headD 0 = 1 then d.hoPush k trk (m.hSegs + 1)
  else if d.hoOldest k 7 m.htag ≠ some trk then d
  else match takeCredit m.htag g.credits with
    | none => d
    | some c =>
      let d := (d.setGrp k { g with credits := c.2 }).updCmd trk (fun m => { m with scratch := [1] })
      if c.1 = m.xccount then d.hoPush k trk (m.hSegs + 1)
      else
        match d.hoSend k g.next (hoTgt g.peerSlot m.htag false hoRefuse) [0, 0, 0, 0] with
        | (d, some st) => d.hoEnd trk st
        | (d, none) => d.hoEnd trk .badDescriptor

/-- Segments that a record index skips over fail. -/
def Dev.hoSkip (d : Dev) (k trk idx : Nat) : Dev :=
  let m := d.cmd trk
  let e := m.scratch.headD 0
  if e < idx then
    let bad := ((List.range m.hSegs).filter (fun i => decide (e / 16 ≤ i) && decide (i ≤ (idx - 1) / 16))).filter (fun i => !m.failed.contains i)
    ((d.updCmd trk (fun m => { m with scratch := [idx], failed := m.failed ++ bad, cursor := idx / 16 })).cmdStatus trk .partialDone).orReg pgShut k 0x0148 16
  else d

/-- A data record taken by its XRECV: written at its place; the last one ends the command (R357). Answers whether it was taken. -/
def Dev.hoData (d : Dev) (k trk idx : Nat) (pay : List Byte) : Dev × Bool :=
  let m := d.cmd trk
  if idx = hoRefuse then (d.hoEnd trk .badDescriptor, true)
  else if 2 ^ 22 ≤ idx then
    let d := d.hoSkip k trk (min (idx - 2 ^ 22 + 16) (cdiv m.xccount 4096))
    let m := d.cmd trk
    (if cdiv m.xccount 4096 ≤ m.scratch.headD 0 then ((d.updCmd trk (fun m => { m with cursor := m.hSegs })).collRecord trk 0).finish trk .ok else d, true)
  else
    let len := min 4096 (m.xccount - 4096 * idx)
    if idx < m.scratch.headD 0 ∨ m.xccount ≤ 4096 * idx ∨ pay.length ≠ len then (d.hoEnd trk .badDescriptor, true)
    else
      let a := m.xcdst + 4096 * idx
      match d.reach m.ctx a len true with
      | .notMapped va l => (d.hoFault k trk (.page va l true), false)
      | .fail st va => (d.hoFault k trk (.fault st va), false)
      | .malformed va => (d.hoFault k trk (.fault .accessDenied va), false)
      | .ok ps =>
        let d := d.hoSkip k trk idx
        let r := d.putParts ps pay
        match r.2 with
        | .integrityHalt => (r.1, true)
        | .keyExhausted => (r.1.hoEnd trk .keyExhausted, true)
        | st =>
          let m := r.1.cmd trk
          let bad := st != .ok && !m.failed.contains (idx / 16)
          let d := if st = .ok then r.1 else r.1.cmdStatus trk st
          let d := d.updCmd trk (fun m => { m with scratch := [idx + 1], failed := if bad then m.failed ++ [idx / 16] else m.failed, cursor := (idx + 1) / 16 })
          (if m.xccount ≤ 4096 * (idx + 1) then ((d.updCmd trk (fun m => { m with cursor := m.hSegs })).collRecord trk 0).finish trk .ok else d, true)

/-- Handoff records held by a group, the first that some started XRECV of its tag can take. -/
def Dev.hoNext (d : Dev) (k : Nat) : Option (Nat × Held) :=
  (((List.range (d.grp k).held.length).zip (d.grp k).held).find? (fun e => e.2.engine == 1 && (d.hoOldest k 8 (fld e.2.tgt 23 8)).isSome))

/-- Handoff records held are taken while a receiver for them runs. -/
def Dev.hoGo (d : Dev) (k : Nat) : Nat → Dev
  | 0 => d
  | n + 1 =>
    match d.hoNext k with
    | none => d
    | some e =>
      match d.hoOldest k 8 (fld e.2.tgt 23 8) with
      | none => d
      | some t =>
        match d.hoData k t (fld e.2.tgt 47 25) e.2.payload with
        | (d, true) => (d.updGrp k (fun g => { g with held := g.held.take e.1 ++ g.held.drop (e.1 + 1) })).hoGo k n
        | (d, false) => d

/-- A handoff command may start or go on. -/
def Dev.hoReady (d : Dev) (trk op : Nat) : Option Nat :=
  let k := (d.cmd trk).xcgid
  if d.collReady trk op && (d.grp k).state == .active then some k else none

/-- A handoff command whose group is not active. -/
def Dev.hoDead (d : Dev) (trk op : Nat) : Dev :=
  if !d.collReady trk op then d
  else if (d.grp (d.cmd trk).xcgid).state = .fenced then d.hoEnd trk .groupPartitioned else d.finish trk .badDescriptor

/-- XSEND (R357): waits for its credit, then sends. -/
def execXsend (trk now : Nat) (s : State) : Host.Outcome State Fault Refusal :=
  onDev s (fun d =>
    let d := d.at now
    match d.hoReady trk 7 with
    | none => d.hoDead trk 7
    | some k => (d.updCmd trk (fun m => { m with started := true })).hoXsend k trk)

/-- XRECV (R357): posts its credit once, then takes its records. -/
def execXrecv (trk now : Nat) (s : State) : Host.Outcome State Fault Refusal :=
  onDev s (fun d =>
    let d := d.at now
    match d.hoReady trk 8 with
    | none => d.hoDead trk 8
    | some k =>
      let m := d.cmd trk
      let g := d.grp k
      let n := (d.grp k).held.length + 1
      if m.started then d.hoGo k n
      else
        match d.hoSend k g.prev (hoTgt g.peerSlot m.htag true 0) (toBytes 8 m.xccount) with
        | (d, some st) => d.hoEnd trk st
        | (d, none) => (d.updCmd trk (fun m => { m with started := true, scratch := [0] })).hoGo k n)

/-! ### Records for the shuttle (R338, R341, R357) -/

/-- Bytes a group's buffer holds. -/
def CGroup.buffered (g : CGroup) : Nat := g.held.foldl (fun a h => a + h.payload.length) 0

/-- A record for a group would overrun its 32 KiB: it stays in the link's buffer, and no credit is returned (R338). -/
def Dev.shFull (d : Dev) (tgt len : Nat) : Bool :=
  let g := d.grp (tgt % 256)
  g.state == .active && decide (32768 < g.buffered + len)

/-- A good record reaches the shuttle (engine 0 or 1): dropped where the group is not active or the instance is old, else held and taken as
far as the group's commands can (R338, R341, R357). -/
def Dev.shReceive (d : Dev) (engine tgt : Nat) (pay : List Byte) (cyc : Nat) : Dev :=
  let k := tgt % 256
  let g := d.grp k
  if g.state != .active then d.bumpRc pgShut k 0x0144 1
  else if engine = 0 && instOld (fld tgt 19 8) g.inst then d.bumpRc pgShut k 0x0144 1
  else
    let d := d.bump64 pgShut k 0x013C pay.length 0x0148 0
    let d := (d.charge g.ctx 10 pay.length).charge g.ctx 5 cyc
    if engine = 1 && bit tgt 24 then
      let d := d.setGrp k { g with credits := g.credits ++ [(fld tgt 23 8, bytesNat pay 0 8)] }
      match d.hoOldest k 7 (fld tgt 23 8) with
      | some t => d.hoXsend k t
      | none => d
    else
      let d := d.setGrp k { g with held := g.held ++ [{ tgt := tgt, engine := engine, payload := pay }] }
      if engine = 1 then d.hoGo k (g.held.length + 1)
      else if g.running.isSome && g.co.op == 6 then d.picotHeld k
      else d.shGo k

end Sys2Proof.Machine
end

