-- ==== Sys2Proof/Machine/Ckpt.lean ====
section
/-! DEFINITION. The checkpoint engine: CAPTURE with its plan, shards, digests, manifest and status reduction (R371 to R378), COPYOUT (R372), RESTORE
(R379 to R382), and the triggers (R370). -/
namespace Sys2Proof.Machine

/-- A CHECKPOINT command of an operation may start or go on. -/
def Dev.ckReady (d : Dev) (trk op : Nat) : Bool :=
  let m := d.cmd trk
  d.live && m.live && m.released && m.stage == .running && m.typ == tyCheckpoint && m.sop == op

/-- The command ends with a status of its own. -/
def Dev.ckEnd (d : Dev) (trk : Nat) (st : Status) : Dev := (d.storStop trk st).finish trk st

/-- A checkpoint is over with a status code: its record is written and its work ends. -/
def Dev.ckDone (d : Dev) (trk code : Nat) : Dev :=
  let d := d.updCmd trk (fun m => { m with status := stCombine m.status code })
  (((d.storRecord trk 0).captureOver trk ((d.cmd trk).finalStatus 0)).setCap trk {}).finish trk .ok

/-- A file at a place of a list. -/
def putFile (l : List StorFile) (i : Nat) (f : StorFile) : List StorFile := (l ++ List.replicate (i + 1 - l.length) ({} : StorFile)).set i f

/-- What the files of a command have come to. -/
def Capture.worst (c : Capture) : Nat := c.sts.foldl (fun a e => stCombine a e.2) 0

/-- A file's status. -/
def Capture.note (c : Capture) (file code : Nat) : Capture := { c with sts := tabPut natDflt c.sts file (stCombine (tabGet natDflt c.sts file) code) }

/-! ### Ring operations of a capture (R376, R378) -/

/-- A ring operation of the checkpoint's group asked of the shuttle, once the group is free for it: 4 ALLGATHER of `bs`, 1 ALLREDUCE `MAX`, 6
PICOT_ALLREDUCE `MAX`, whose frame takes the next slot. -/
def Dev.ckOp (d : Dev) (trk op count : Nat) (bs : List Byte) : Dev :=
  let m := d.cmd trk
  let k := m.kGid
  let g := d.grp k
  if g.state = .free ∨ g.ctx ≠ m.ctx then d.ckEnd trk .badDescriptor
  else if g.state = .fenced then d.ckEnd trk .groupPartitioned
  else if g.running.isSome then d
  else
    let o : CollOp := { op := op, red := 1, count := count, internal := some bs, start := d.now }
    let o := { o with segs := if op = 6 then 1 else d.collChunks m.ctx g.n o }
    if op = 6 then
      let d := (d.shTake k trk o).updGrp k (fun g => { g with begun := true, picotSrc := some bs })
      let g := d.grp k
      if g.rank = 0 then d.picotQueue k (d.now / 64 + 1) (picotHead 2 false false 1 g.inst g.peerSlot (d.now / 64 + 1)) bs else d.picotHeld k
    else (d.shTake k trk o).shGo k

/-- The result of the operation asked for, or the asking. -/
def Dev.ckAsk (d : Dev) (trk op count : Nat) (bs : List Byte) (k : Dev → Nat → Table (List Byte) → Dev) : Dev :=
  let run := fun (d : Dev) => match (d.cap trk).result with
    | some r => k (d.updCap trk (fun c => { c with result := none })) r.1 r.2
    | none => d
  if (d.cap trk).result.isSome then run d
  else if (d.grp (d.cmd trk).kGid).running = some trk then d
  else
    let d := d.ckOp trk op count bs
    if (d.cap trk).live then run d else d

/-- The parts that the members of a group gathered, cut into pieces of `w` bytes. -/
def gathered (n w : Nat) (t : Table (List Byte)) : List (List Byte) :=
  (List.range n).flatMap (fun r =>
    let bs := tabGet (fun _ => []) t r
    (List.range (bs.length / w)).map (fun i => (bs.drop (w * i)).take w))

/-- The plan of a member: (`CID`, rank) of each local shard, present, to 64 × 16 bytes. -/
def Cmd.plan (m : Cmd) (rank : Nat) : List Byte :=
  padTo 1024 ((List.range m.kShards).flatMap (fun j => toBytes 8 (m.kCid j) ++ toBytes 4 rank ++ toBytes 4 1))

/-- The plan of every member. -/
def readPlan (ps : List (List Byte)) : List (Nat × Nat) :=
  (ps.filter (fun p => bytesNat p 12 4 == 1)).map (fun p => (bytesNat p 0 8, bytesNat p 8 4))

/-- This member writes shard `j`: it is the lowest rank that lists its `CID` (R376). -/
def Dev.writerOf (d : Dev) (trk j : Nat) : Bool :=
  let m := d.cmd trk
  let rs := ((d.cap trk).plan.filter (fun p => p.1 == m.kCid j)).map (·.2)
  rs.all (fun r => decide ((d.grp m.kGid).rank ≤ r))

/-! ### Local shards (R372, R375, R376) -/

/-- The files of a capture's shards, with the lengths of their plaintexts. -/
def Dev.shardFiles (d : Dev) (m : Cmd) : List StorFile :=
  (List.range m.kShards).map (fun j => { d.readFile m.ctx (m.kFile j) with length := (d.entryTens m j).shardLen })

/-- The entry of a finished shard, and the next shard begins. -/
def Dev.shardDone (d : Dev) (trk j serial : Nat) (pt : List Byte) : Dev :=
  let m := d.cmd trk
  let c := d.cap trk
  let f := c.files.getD j {}
  let st := tabGet natDflt c.sts j
  let e := shardEntry (m.kCid j) (d.grp m.kGid).rank f.fileId f.nonce f.chunks (if stSuccess st && st == 0 then 0 else st) (d.entryTens m j) serial (digest pt)
  let d := if st = 0 then d else d.updCmd trk (fun m => { m with failed := m.failed ++ [j] })
  (d.updCap trk (fun c => { c with locals := c.locals ++ [e], total := 0 })).updCmd trk (fun m => { m with cursor := j + 1 })

/-- A shard's file is opened for writing: its descriptor, key and nonce; `NONCE` and `LENGTH` are written into the descriptor. -/
def Dev.openShard (d : Dev) (trk j : Nat) (k : Dev → StorFile → Dev) : Dev :=
  let m := d.cmd trk
  let a := if j = 64 then m.kManifest else m.kFile j
  match d.fileRead m.ctx a with
  | .error e => d.storFault trk e
  | .ok (raw, f) =>
    let f := { f with length := if j = 64 then (d.cap trk).manifest.length else (d.entryTens m j).shardLen }
    if d.fileBad false raw f then k (d.updCap trk (fun c => c.note j Status.badDescriptor.code)) {}
    else match d.keyCheck m.hoop useFile f.key f.gen with
      | some st => d.storFault trk (.fault st f.addr)
      | none => match d.drawNonce f.key f.chunks with
        | none => d.ckEnd trk .keyExhausted
        | some (d', nonce) => match d'.writeFile m.ctx { f with nonce := nonce } with
          | .error e => d.storFault trk e
          | .ok d' => k (d'.updCap trk (fun c => { c with files := putFile c.files j { f with nonce := nonce } })) { f with nonce := nonce }

/-- A shard staged: every chunk sealed, and its tag area, written to the staging region (R372). -/
def Dev.stageShard (d : Dev) (trk j : Nat) (f : StorFile) (pt : List Byte) : Dev × Option ShStop :=
  let m := d.cmd trk
  let cs := (List.range f.chunks).map (fun i => d.sealChunk f i ((pt.drop (65536 * i)).take (f.chunkLen i)))
  let a := m.kStage + (d.cap trk).stageOff j
  let bs := cs.flatMap (fun c => padTo 65536 c.1) ++ f.tagArea (cs.map (·.2))
  match d.reach m.ctx a bs.length true with
  | .notMapped va l => (d, some (.page va l true))
  | .fail st va => (d, some (.fault st va))
  | .malformed va => (d, some (.fault .accessDenied va))
  | .ok ps => match d.putParts ps bs with
    | (d, .ok) => (d, none)
    | (d, .integrityHalt) => (d, some .halted)
    | (d, st) => (d, some (.chunk st))

/-- The local shards one after another: written, staged or only hashed. -/
def Dev.shardRun (d : Dev) (trk serial : Nat) : Nat → Dev
  | 0 => d
  | n + 1 =>
    let m := d.cmd trk
    let c := d.cap trk
    let j := c.locals.length
    if !m.live || m.stage != .running || !c.live || decide (m.kShards ≤ j) then d
    else
      let key := (c.files.getD j {}).key
      match d.shardPlain m j c.step key with
      | .error (.uncorrectable pa) =>
        let d := (d.storUe trk pa).updCap trk (fun c => c.note j Status.uncorrectableMemory.code)
        (d.shardDone trk j serial []).shardRun trk serial n
      | .error e => d.storFault trk e
      | .ok pt =>
        if !d.writerOf trk j then (d.shardDone trk j serial pt).shardRun trk serial n
        else if m.kStage ≠ 0 then
          let d := d.openShard trk j (fun d f =>
            if f.chunks = 0 then d.shardDone trk j serial pt
            else match d.stageShard trk j f pt with
              | (d', none) => d'.shardDone trk j serial pt
              | (_, some e) => d.storFault trk e)
          d.shardRun trk serial n
        else if c.total = 0 then
          let d := d.openShard trk j (fun d f =>
            if f.chunks = 0 then d.shardDone trk j serial pt else d.updCap trk (fun c => c.begin j f.chunks))
          d.shardRun trk serial n
        else match d.fileGo trk with
          | (d, false) => d
          | (d, true) => (d.shardDone trk j serial pt).shardRun trk serial n

/-- The staged shards of this member copied to storage (R372). A shard that was not staged under its descriptor's nonce is left out. -/
def Dev.copyRun (d : Dev) (trk : Nat) : Nat → Dev
  | 0 => d
  | n + 1 =>
    let m := d.cmd trk
    let c := d.cap trk
    if !m.live || m.stage != .running || !c.live || decide (m.kShards ≤ c.file) then d
    else
      let f := c.cur
      let h := (d.readVa m.ctx (m.kStage + c.stageOff c.file + 65536 * f.chunks) 64).bytes
      if h.take 4 ≠ ascii "LRTG" ∨ bytesNat h 8 8 ≠ f.fileId ∨ bytesNat h 16 8 ≠ f.nonce ∨ tabGet natDflt c.sts c.file ≠ 0 then
        (d.updCap trk (fun c => c.begin (c.file + 1) 0)).copyRun trk n
      else if c.total = 0 then (d.updCap trk (fun c => c.begin c.file f.chunks)).copyRun trk n
      else match d.fileGo trk with
        | (d, false) => d
        | (d, true) =>
          let d := if (d.cap trk).bad.isEmpty then d else d.updCmd trk (fun m => { m with failed := m.failed ++ [c.file] })
          ((d.updCap trk (fun c => c.begin (c.file + 1) 0)).updCmd trk (fun m => { m with cursor := max m.cursor (c.file + 1) })).copyRun trk n

/-! ### Digests and the manifest (R376, R377) -/

/-- Two members disagree on the digest of a `CID`. -/
def mismatch (es : List (List Byte)) : Bool :=
  es.any (fun a => es.any (fun b => a.take 8 == b.take 8 && (a.drop 96).take 48 != (b.drop 96).take 48))

/-- One entry of each `CID`, its writer's: the members' entries come in rank order. -/
def writersOnly (es : List (List Byte)) : List (List Byte) :=
  es.foldl (fun acc e => if acc.any (fun x => x.take 8 == e.take 8) then acc else acc ++ [e]) []

/-- Every entry gathered is `OK`. -/
def allGood (es : List (List Byte)) : Bool := es.all (fun e => bytesNat e 12 4 == 0)

/-- The manifest of a capture, signed with the hoop's signing slot (R377). -/
def Dev.manifestOf (d : Dev) (trk key serial : Nat) (es : List (List Byte)) : List Byte :=
  let m := d.cmd trk
  let body := manifestBody m.kId (d.cap trk).step (d.grp m.kGid).n serial ((writersOnly es).map manifestEntry)
  body ++ d.manifestSigs key body

/-- Flush on every session that the manifest's extents name. -/
def Dev.ckFlush (d : Dev) (trk : Nat) : Dev :=
  let f := (d.cap trk).cur
  let d := d.updCap trk (fun c => { c.begin 64 0 with area := true })
  match f.extents.map (·.1) |>.eraseDups.foldl (fun (r : Dev × Option Status) s => match r.2 with
    | some st => (r.1, some st)
    | none => r.1.issueIo { trk := trk, file := 64, chunk := 0, kind := 2, session := s } []) (d, none) with
  | (d, none) => d
  | (d, some st) => d.storFail trk 0 st

/-! ### CAPTURE (R376 to R378) -/

/-- Status of this member so far: its command's, its files'. -/
def Dev.ckStatus (d : Dev) (trk : Nat) : Nat :=
  let s := stCombine (d.cap trk).status (d.cap trk).worst
  if stSuccess s then 0 else s

/-- A status code as FP32, and back. -/
def codeF32 (c : Nat) : Nat := f32Round .rne (.fin (exInt (c : Int)))
/-- The code that an FP32 value holds. -/
def f32Code (x : Nat) : Nat := match f32 x with
  | .fin e => e.num / e.den
  | _ => 0

/-- The read hold of a capture (R371): refused by an `INCOMPLETE` or `LOST` fence, taken in its turn. -/
def Dev.ckHold (d : Dev) (trk : Nat) : Dev :=
  let m := d.cmd trk
  let f := d.fence m.kFence
  if f.state = .free ∨ f.ctx ≠ m.ctx then d.ckEnd trk .accessDenied
  else if f.state = .incomplete ∨ f.state = .lost then d.ckEnd trk .contextAborted
  else if m.kStage ≠ 0 ∧ m.kStageLen < ((d.shardFiles m).map StorFile.stageLen).foldl (· + ·) 0 then d.ckEnd trk .badDescriptor
  else if f.readers.contains trk then d.updCap trk (fun c => { c with phase := 2, step := f.step })
  else if f.myTurn trk false then (d.setFence m.kFence (f.take trk false)).updCap trk (fun c => { c with phase := 2, step := f.step })
  else d

/-- The hold is given back. -/
def Dev.ckDrop (d : Dev) (trk : Nat) : Dev :=
  let k := (d.cmd trk).kFence
  d.setFence k { d.fence k with readers := (d.fence k).readers.filter (· != trk) }

/-- One phase of a capture: 1 hold, 2 plan, 3 shards, 4 copy-out, 5 digests, 6 manifest, 7 flush, 8 status (Table 10). -/
def Dev.capturePhase (d : Dev) (trk serial : Nat) : Dev :=
  let m := d.cmd trk
  let c := d.cap trk
  let g := d.grp m.kGid
  match c.phase with
  | 1 => d.ckHold trk
  | 2 => d.ckAsk trk 4 1024 (m.plan g.rank) (fun d st t =>
      d.updCap trk (fun c => { c with phase := 3, status := stCombine c.status st, plan := readPlan (gathered g.n 16 t), files := d.shardFiles m }))
  | 3 =>
    let d := d.shardRun trk serial (3 * m.kShards + 3)
    let c := d.cap trk
    if c.live && (d.cmd trk).stage == .running && c.locals.length == m.kShards then
      if m.kStage = 0 then (d.ckDrop trk).updCap trk (fun c => { c with phase := 5 })
      else (d.ckDrop trk).updCap trk (fun c => { c.begin 0 0 with phase := 4 })
    else d
  | 4 =>
    let d := d.copyRun trk (3 * m.kShards + 3)
    let c := d.cap trk
    if c.live && (d.cmd trk).stage == .running && decide (m.kShards ≤ c.file) then d.updCap trk (fun c => { c with phase := 5 }) else d
  | 5 =>
    -- a copy-out that failed shows in the entries exchanged
    let es := (List.range c.locals.length).zip c.locals |>.map (fun e => e.2.take 12 ++ toBytes 4 (tabGet natDflt c.sts e.1) ++ e.2.drop 16)
    d.ckAsk trk 4 (64 * shardEntryLen) (padTo (64 * shardEntryLen) (es.flatMap id)) (fun d st t =>
      let es := (gathered g.n shardEntryLen t).filter (fun e => bytesNat e 88 8 == 1)
      let d := if mismatch es then (d.orReg pgCkpt m.kFence 0x011C 2).updCap trk (fun c => { c with status := stCombine c.status Status.shardDigestMismatch.code }) else d
      let d := d.updCap trk (fun c => { c with status := stCombine c.status st, entries := es, phase := 8 })
      if g.rank ≠ 0 ∨ mismatch es ∨ !allGood es ∨ st ≠ 0 then d
      else match (d.signSlots m.hoop).head? with
        | none => d.updCap trk (fun c => { c with status := stCombine c.status Status.accessDenied.code })
        | some k => d.updCap trk (fun c => { c.begin 64 0 with manifest := d.manifestOf trk k serial es, phase := 6 }))
  | 6 =>
    if c.total = 0 then
      d.openShard trk 64 (fun d f =>
        if f.chunks = 0 then d.updCap trk (fun c => { c with phase := 8 }) else d.updCap trk (fun c => c.begin 64 f.chunks))
    else match d.fileGo trk with
      | (d, false) => d
      | (d, true) => if (d.cap trk).bad.isEmpty then (d.ckFlush trk).updCap trk (fun c => { c with phase := 7 }) else d.updCap trk (fun c => { c with phase := 8 })
  | 7 => match d.fileGo trk with
    | (d, false) => d
    | (d, true) => d.updCap trk (fun c => { c with phase := 8 })
  | 8 =>
    let w := toBytes 4 (codeF32 (d.ckStatus trk))
    d.ckAsk trk (if g.picot then 6 else 1) (if g.picot then 8 else 1) (if g.picot then w ++ w else w) (fun d st t =>
      d.ckDone trk (stCombine st (f32Code (bytesNat (tabGet (fun _ => []) t 0) 0 4))))
  | _ => d

/-- A capture goes on through its phases as far as it can. -/
def Dev.captureRun (d : Dev) (trk serial : Nat) : Nat → Dev
  | 0 => d
  | n + 1 => if d.ckReady trk 1 && (d.cap trk).live then (d.capturePhase trk serial).captureRun trk serial n else d

/-- CAPTURE (R376): without `ARMED` it starts when released; it goes on whenever this row comes. -/
def execCapture (trk now : Nat) (s : State) : Host.Outcome State Fault Refusal :=
  onDev s (fun d =>
    let d := d.at now
    if !d.ckReady trk 1 then d
    else
      let d := if (d.cap trk).live || (d.cmd trk).kArmed then d else d.captureStart trk
      d.captureRun trk s.fuses.serial 16)

/-! ### COPYOUT (R372) -/

/-- COPYOUT (R372): the staged shards of the same block written to storage again (log entry 42). -/
def execCopyout (trk now : Nat) (s : State) : Host.Outcome State Fault Refusal :=
  onDev s (fun d =>
    let d := d.at now
    if !d.ckReady trk 2 then d
    else
      let m := d.cmd trk
      let d := if (d.cap trk).live then d else d.setCap trk { live := true, files := d.shardFiles m }
      if m.kStage = 0 then d.ckEnd trk .badDescriptor
      else
        let d := d.copyRun trk (3 * m.kShards + 3)
        let c := d.cap trk
        if c.live && (d.cmd trk).stage == .running && decide (m.kShards ≤ c.file) then d.ckDone trk c.worst else d)

/-! ### RESTORE (R379 to R382) -/

/-- Bytes kept of a file, read over its chunks. -/
def Capture.keptBytes (c : Capture) (file off n : Nat) : List Byte :=
  ((List.range (if n = 0 then 0 else (off + n - 1) / 65536 - off / 65536 + 1)).flatMap (fun i =>
    padTo 65536 (tabGet (fun _ => []) c.kept (file * 2 ^ 32 + off / 65536 + i)))).drop (off % 65536) |>.take n

/-- Entries of the manifest. -/
def Capture.manEntries (c : Capture) : List ManEntry := (List.range (bytesNat c.manifest 12 4)).map (manEntry c.manifest)

/-- The file of an entry in the list of sources: its place there. -/
def Capture.fileFor (c : Capture) (e : ManEntry) : Option Nat :=
  (lowest (c.files.length - 65) (fun i => let f := c.files.getD (65 + i) {}; f.fileId == e.fileId && f.nonce == e.nonce && f.chunks == e.chunks)).map (· + 65)

/-- The targets of a restore. -/
def Dev.targets (d : Dev) (m : Cmd) : List LTens := (List.range m.kShards).map (d.entryTens m)

/-- The entries that some target selects. -/
def Dev.needed (d : Dev) (m : Cmd) (c : Capture) : List ManEntry := c.manEntries.filter (fun e => (d.targets m).any (fun t => selected t e))

/-- Chunks of the entry's file that the targets need: all of them under `VERIFY`. -/
def Dev.neededChunks (d : Dev) (m : Cmd) (c : Capture) (file : Nat) (e : ManEntry) : List Nat :=
  if m.kVerify then List.range e.chunks
  else (0 :: (d.targets m).flatMap (fun t => if selected t e then runChunks (targetRuns t e (c.keptBytes file 0 65536)) else [])).eraseDups

/-- The fence of a restore is taken in its turn as a STEP (R379): one `INCOMPLETE` by another command's work is refused (R382). -/
def Dev.restoreTake (d : Dev) (trk : Nat) : Dev :=
  let m := d.cmd trk
  let f := d.fence m.kFence
  if f.state = .free ∨ f.ctx ≠ m.ctx then d.ckEnd trk .accessDenied
  else if f.running ≠ some trk ∧ !f.myTurn trk true then d
  else
    let d := if f.running = some trk then d else d.setFence m.kFence (f.take trk true)
    if f.state = .incomplete ∧ !(f.listAddr == m.arg && f.listCount == 0) then d.ckEnd trk .badDescriptor
    else match d.fileRead m.ctx m.kManifest with
      | .error e => d.storFault trk e
      | .ok (raw, mf) =>
        if d.fileBad false raw mf then d.ckEnd trk .badDescriptor
        else match d.keyCheck m.hoop useFile mf.key mf.gen with
          | some st => d.storFault trk (.fault st mf.addr)
          | none => d.updCap trk (fun c => { c.begin 64 mf.chunks with phase := 2, files := putFile [] 64 mf, todo := List.range mf.chunks })

/-- The manifest has been read: it is judged, and the files of the list are found (R379, R380). -/
def Dev.restorePlan (d : Dev) (trk : Nat) : Dev :=
  let m := d.cmd trk
  let c := d.cap trk
  if !c.bad.isEmpty then
    let st := tabGet natDflt c.sts 64
    d.ckEnd trk (if st = Status.linkDown.code then .linkDown else .manifestIncomplete)
  else
    let c := { c with manifest := (List.range c.cur.chunks).flatMap (fun i => tabGet (fun _ => []) c.kept (64 * 2 ^ 32 + i)) }
    match d.manifestStatus m.hoop c.manifest with
    | some st => d.ckEnd trk st
    | none =>
      match d.readVa m.ctx m.kFiles (8 * m.kNfiles) with
      | .data bs =>
        let fs := (List.range m.kNfiles).map (fun i => d.fileRead m.ctx (bytesNat bs (8 * i) 8))
        match fs.find? (fun r => match r with
          | .error _ => true
          | _ => false) with
        | some (.error e) => d.storFault trk e
        | _ =>
          let fl := fs.map (fun r => match r with
            | .ok x => x
            | .error _ => ([], {}))
          let c := { c with files := c.files ++ fl.map (·.2) }
          let need := d.needed m c
          if (d.targets m).any (fun t => !covered t c.manEntries) || need.any (fun e => (c.fileFor e).isNone) ||
              need.any (fun e => match c.fileFor e with
                | some i => d.fileBad false (fl.getD (i - 65) ([], {})).1 (c.files.getD i {})
                | none => true) then
            (d.setCap trk c).ckEnd trk .badDescriptor
          else match need.filterMap (fun e => (c.fileFor e).bind (fun i => d.keyCheck m.hoop useFile (c.files.getD i {}).key (c.files.getD i {}).gen)) with
            | st :: _ => d.storFault trk (.fault st m.kFiles)
            | [] => d.setCap trk { c.begin 0 0 with phase := 3, locals := [] }
      | x => match x with
        | .notMapped va l => d.storFault trk (.page va l false)
        | _ => d.storFault trk (.fault (x.status.getD .accessDenied) m.kFiles)

/-- The needed files read one after another: phase 3 the first chunk of each, phase 4 the rest. `file` 0 means that the next of the needed entries,
the one after those done, is due; the number done is kept as the length of `locals`. -/
def Dev.restoreRead (d : Dev) (trk : Nat) : Nat → Dev
  | 0 => d
  | n + 1 =>
    let m := d.cmd trk
    let c := d.cap trk
    let need := d.needed m c
    let i := c.locals.length
    if !m.live || m.stage != .running || !c.live then d
    else if need.length ≤ i then d.updCap trk (fun c => { c.begin 0 0 with phase := c.phase + 1, locals := [] })
    else
      let e := need.getD i {}
      let file := (c.fileFor e).getD 0
      if c.file ≠ file then
        let l := if c.phase = 3 then [0] else (d.neededChunks m c file e).filter (· != 0)
        (d.updCap trk (fun c => { c.begin file l.length with todo := l })).restoreRead trk n
      else match d.fileGo trk with
        | (d, false) => d
        | (d, true) =>
          if (d.cap trk).bad.isEmpty then (d.updCap trk (fun c => { c.begin 0 0 with locals := c.locals ++ [[]] })).restoreRead trk n
          else d.ckEnd trk (if tabGet natDflt (d.cap trk).sts file = Status.linkDown.code then .linkDown else .partialDone)

/-- The entries selected for a target with their headers and how their bytes are read. -/
def Dev.sourcesOf (c : Capture) (t : LTens) : List (ManEntry × List Byte × (Nat → Nat → List Byte)) :=
  (c.manEntries.filter (selected t)).map (fun e =>
    let f := (c.fileFor e).getD 0
    (e, c.keptBytes f 0 65536, c.keptBytes f))

/-- Every target is judged, then written (R380 to R382). -/
def Dev.restoreWrite (d : Dev) (trk : Nat) : Dev :=
  let m := d.cmd trk
  let c := d.cap trk
  let ts := d.targets m
  let bad := (d.needed m c).any (fun e => match c.fileFor e with
    | some f => digest (c.keptBytes f 0 (c.files.getD f {}).length) != e.dig
    | none => true)
  if m.kVerify && bad then d.ckEnd trk .shardDigestMismatch
  else match ts.filterMap (fun t => targetStatus t ((Dev.sourcesOf c t).map (fun s => (s.1, s.2.1)))) with
    | st :: _ => d.ckEnd trk st
    | [] =>
      let ws := ((List.range m.kShards).zip ts).flatMap (fun p => targetWrites p.2 (Dev.sourcesOf c p.2) (m.kSource p.1))
      match d.reachFrom m.ctx true (ws.flatMap (fun w => pieces w.1 w.2.length)) with
      | .notMapped va l => d.storFault trk (.page va l true)
      | .fail st va => d.storFault trk (.fault st va)
      | .malformed va => d.storFault trk (.fault .accessDenied va)
      | .ok ps =>
        let f := d.fence m.kFence
        let d := (d.setFence m.kFence { f with state := .updating, listAddr := m.arg, listCount := 0 }).updCap trk (fun c => { c with written := true })
        match d.putParts ps (ws.flatMap (·.2)) with
        | (d, .ok) =>
          let d := d.setFence m.kFence { d.fence m.kFence with state := .idle, step := bytesNat c.manifest 24 4, running := none }
          (d.updCmd trk (fun m => { m with cursor := m.kShards })).ckDone trk 0
        | (d, .integrityHalt) => d
        | (d, st) => d.ckEnd trk st

/-- One phase of a restore: 1 fence, 2 manifest, 3 headers, 4 chunks, 5 writing. -/
def Dev.restorePhase (d : Dev) (trk : Nat) : Dev :=
  let c := d.cap trk
  match c.phase with
  | 1 => d.restoreTake trk
  | 2 => match d.fileGo trk with
    | (d, false) => d
    | (d, true) => d.restorePlan trk
  | 3 => d.restoreRead trk (3 * (d.needed (d.cmd trk) c).length + 3)
  | 4 => d.restoreRead trk (3 * (d.needed (d.cmd trk) c).length + 3)
  | 5 => d.restoreWrite trk
  | _ => d

/-- A restore goes on through its phases as far as it can. -/
def Dev.restoreRun (d : Dev) (trk : Nat) : Nat → Dev
  | 0 => d
  | n + 1 => if d.ckReady trk 3 && (d.cap trk).live then (d.restorePhase trk).restoreRun trk n else d

/-- RESTORE (R379). -/
def execRestore (trk now : Nat) (s : State) : Host.Outcome State Fault Refusal :=
  onDev s (fun d =>
    let d := d.at now
    if !d.ckReady trk 3 then d
    else
      let d := if (d.cap trk).live then d else (d.setCap trk { live := true, phase := 1 }).updCmd trk (fun m => { m with started := true })
      d.restoreRun trk 12)

/-! ### Triggers (R370) -/

/-- CKPT_TIMER_FIRE: the period has passed since the last capture began or the value was written. -/
def execCkptTimerFire (fence now : Nat) (s : State) : Host.Outcome State Fault Refusal :=
  onDev s (fun d => (d.at now).whenLive (fun d =>
    let p := d.regN pgCkpt fence 0x0100
    let t := d.trig fence
    if p = 0 ∨ d.now < t.since + p * 1000000 then d
    else (d.setTrig fence { t with since := d.now }).fireTrigger fence))

/-- The function that owns the context of a fence. -/
def Dev.ownsFence (d : Dev) (port f : Nat) : Bool := (d.fence f).state != .free && d.seesCtx port (d.fence f).ctx

/-- A write of `CKPT_TMS`: the period, counted from now. -/
def Dev.tmsWrite (d : Dev) (f v : Nat) : Dev := (d.setRegN pgCkpt f 0x0100 v).setTrig f { d.trig f with since := d.now }

/-- CKPT_TMS_WRITE, by a port that sees the fence; any other is discarded and logged (R65, R383). -/
def execCkptTmsWrite (port fence value now : Nat) (s : State) : Host.Outcome State Fault Refusal :=
  onDev s (fun d => (d.at now).whenLive (fun d =>
    if d.ownsFence port fence then d.tmsWrite fence value else d.logErr port pgCkpt 0x0100 .notVisible value))

end Sys2Proof.Machine
end

