-- ==== Sys2Proof/Machine/Lanes.lean ====
section
/-! DEFINITION. Ports and their lanes: training, spare swaps and x4 (R307 to R311), flits and retry (R312 to R314), shares and credits (R316 to
R318), records received (R321), a port going down (R323), and link health (R336). -/
namespace Sys2Proof.Machine

/-! ### Going down (R323) -/

/-- The command sends or receives on the port: a collective of a group with a neighbour there, or a relayed transfer. -/
def Dev.usesPort (d : Dev) (p : Nat) (m : Cmd) : Bool :=
  (m.typ == tyCollective && ((d.grp m.xcgid).next == p || (d.grp m.xcgid).prev == p)) ||
  (m.typ == tyCheckpoint && ((d.grp m.kGid).next == p || (d.grp m.kGid).prev == p)) ||
  (m.typ == tyStorage && bit m.srelay 7 && fld m.srelay 3 0 == p)

/-- Commands using the port end with `LINK_DOWN`: operations that run and handoffs that have begun, and relayed I/Os. -/
def Dev.endOnPort (d : Dev) (p : Nat) : Dev :=
  let ks := tabKeys (fun _ g => g.state == .active && (g.next == p || g.prev == p)) d.groupTab
  let d := ks.foldl (fun d k =>
    let d := if (d.grp k).running.isSome then d.shEnd k .linkDown else d
    let d := ((d.shCmds k).filter (fun t => (d.cmd t).handoff && (d.cmd t).started && (d.cmd t).stage != .finished)).foldl (fun d t => d.hoEnd t .linkDown) d
    d.updGrp k (fun g => if g.next = p then { g with launches := [] } else g)) d
  d.relayDown p

/-- Everything that a port loses when it leaves the link: queues, pairings, slot mode (R320, R323). -/
def Port.cleared (x : Port) : Port :=
  { x with retraining := false, wasActive := false, txSeq := 0, retry := [], ctlq := [], replays := 0, rxNext := 0, rxFailing := false, tx := [], used := [], rx := [],
           swapPending := false, peerStaged := none, pairs := [], tagFails := [], slotMode := false, resume := false, kept := [], landings := [], driftRun := 0,
           peerLocked := false, peerPub := none }

/-- A port goes `DOWN` (R323): logged under `cause`, its commands end, the epoch rises. -/
def Dev.goDown (d : Dev) (p cause : Nat) : Dev :=
  let x := d.lk p
  if x.state = .down ∨ x.state = .disabled then d
  else
    let d := (d.setLk p { x.cleared with state := .down }).lkFlag p 5
    let d := d.rasLog { cause := cause, cls := 3, status := Status.linkDown.code, unit := 8, unum := p }
    (d.endOnPort p).bumpEpoch

/-! ### Share tables (R316, R317) -/

/-- The bytes of a set of tables: the 32 slot words, the two hoop words, the enables (log entry 43). -/
def tableCrc (slots hoops en : Nat) : Nat := crc32 (toBytes 128 slots ++ toBytes 8 hoops ++ toBytes 4 en)

/-- CRC of the tables in force. -/
def Port.tableCrc (x : Port) : Nat := Sys2Proof.Machine.tableCrc x.slots x.shareHoop x.shareEn

/-- The staged tables of a port: owners, hoops, enables. -/
def Dev.stagedTables (d : Dev) (p : Nat) : Nat × Nat × Nat :=
  ((List.range 32).foldl (fun a n => a + d.regN pgVc p (0x0108 + 4 * n) * 2 ^ (32 * n)) 0, d.reg64 pgVc p 0x0188, d.regN pgVc p 0x0190)

/-- CRC of the staged tables. -/
def Dev.stagedCrc (d : Dev) (p : Nat) : Nat :=
  let t := d.stagedTables p
  tableCrc t.1 t.2.1 t.2.2

/-- Both ends of a port have published one epoch, and since the port reached `VC0_ONLY` (R331). -/
def Port.opened (x : Port) (published : Option Nat) : Bool :=
  match published with
  | none => false
  | some e => x.peerPub == some e && decide (x.upEpoch ≤ e)

/-- The port opens to data: it carries VC0, both ends have published the same epoch, and the tables agree (R317, R331). -/
def Dev.tryActive (d : Dev) (p : Nat) : Dev :=
  let x := d.lk p
  if x.state = .vc0Only ∧ x.opened d.fab.published ∧ !x.mismatch then d.setLk p { x with state := .active } else d

/-- Both ends swap to the staged tables. -/
def Dev.swapTables (d : Dev) (p : Nat) : Dev :=
  let t := d.stagedTables p
  let x := d.lk p
  ((d.setLk p { x with slots := t.1, shareHoop := t.2.1, shareEn := t.2.2, peerCrc := tableCrc t.1 t.2.1 t.2.2, mismatch := false, swapPending := false,
                       swapFailed := false, peerStaged := none }).tryActive p).pumpPort p

/-- Streams whose buffer the staged tables change have all their credits back. -/
def Dev.swapClear (d : Dev) (p : Nat) : Bool :=
  let x := d.lk p
  let t := d.stagedTables p
  let y := { x with slots := t.1, shareHoop := t.2.1, shareEn := t.2.2 }
  x.used.all (fun e => e.2 == 0 || x.streamBuf (e.1 / 8) (e.1 % 8) == y.streamBuf (e.1 / 8) (e.1 % 8))

/-- The leader swaps both ends once both report equal staged tables and the credits are back (R317); the instant is now. -/
def Dev.trySwap (d : Dev) (p : Nat) : Dev :=
  let x := d.lk p
  if x.swapPending ∧ x.leader ∧ x.peerStaged = some (d.stagedCrc p) ∧ d.swapClear p then
    (d.sendCtl p ctlSwap [d.stagedCrc p, max d.now 1]).swapTables p
  else d

/-! ### Training (R307 to R311) -/

/-- Physical lanes of a mask. -/
def goodLanes (m : Nat) : List Nat := (List.range 9).filter (fun i => bit m i)

/-- The map of logical lanes onto the lowest good ones: all eight, or four; unused nibbles 15. -/
def lmapOf (ls : List Nat) (n : Nat) : Nat :=
  (List.range 8).foldl (fun a i => a + (if i < n then ls.getD i 15 else 15) * 16 ^ i) 0

/-- Physical lane of a logical one. -/
def Port.lane (x : Port) (i : Nat) : Nat := fld x.lmap (4 * i + 3) (4 * i)

/-- Training starts from step 1 of Table 1. -/
def Dev.startTraining (d : Dev) (p : Nat) : Dev :=
  let x := d.lk p
  if x.state = .disabled ∨ x.state = .down then d.setLk p { x.cleared with state := .training, x4 := false, spareUsed := false } else d

/-- A port that answers the PF, RTP and BMC (with the JTAG path) only (R337). -/
def ctlPort (port : Nat) : Bool := portsDevice.contains port

/-- `ALNK_CTL` written: `ENABLE` set starts training, clear disables the port. -/
def Dev.alnkCtl (d : Dev) (p v : Nat) : Dev :=
  let d := d.setRegN pgAlnk p 0x011C (v % 2)
  if v % 2 = 1 then (d.stopLanes 0 p).startTraining p
  else
    let d := d.goDown p 0x82
    d.updLk p (fun x => { x with state := .disabled })

/-- ALNK_ENABLE (R309): `ENABLE` set on a port; a lane test on it stops. -/
def execAlnkEnable (port lport : Nat) (s : State) : Host.Outcome State Fault Refusal :=
  onDev s (fun d => d.whenLive (fun d => if ctlPort port && decide (lport < 16) then d.alnkCtl lport 1 else d))

/-- PORT_PEER_DETECT (R323): a `DOWN` port with `ENABLE` set trains again. -/
def execPortPeerDetect (lport : Nat) (s : State) : Host.Outcome State Fault Refusal :=
  onDev s (fun d => d.whenLive (fun d => if (d.lk lport).state = .down ∧ bit (d.regN pgAlnk lport 0x011C) 0 then d.startTraining lport else d))

/-- TRAINING_TIMEOUT: training begins again, with `TRAIN_FAIL`; a retrain that does not finish takes the port down (R309, R323). -/
def execTrainingTimeout (lport : Nat) (s : State) : Host.Outcome State Fault Refusal :=
  onDev s (fun d => d.whenLive (fun d =>
    let x := d.lk lport
    if x.state ≠ .training then d
    else if x.retraining then d.goDown lport 0x82
    else d.lkFlag lport 8))

/-- The port retrains on its four lowest good lanes (R309). -/
def Dev.degrade (d : Dev) (p : Nat) : Dev :=
  let x := d.lk p
  let ls := goodLanes x.good
  if ls.length < 4 then d.goDown p 0x82
  else
    let d := ((d.setLk p { x with x4 := true, lmap := lmapOf ls 4, spareUsed := false }).lkFlag p 4).retrain p
    d.withdrawAll wLanes (d.usesPort p)

/-- A physical lane goes bad (R308, R309): one that carries data is replaced by a good spare under traffic, else the port falls to four lanes. -/
def Dev.laneBad (d : Dev) (p lane : Nat) : Dev :=
  let x := d.lk p
  if !bit x.good lane then d
  else
    let x := { x with good := x.good - 2 ^ lane }
    let d := d.setLk p x
    if !x.vc0 then d
    else
      let width := if x.x4 then 4 else 8
      match lowest width (fun i => x.lane i == lane) with
      | none => d
      | some i =>
        match lowest 9 (fun l => bit x.good l && (List.range width).all (fun j => x.lane j != l)) with
        | some sp =>
          if x.x4 then d.degrade p
          else (d.setLk p { x with lmap := setFld x.lmap (4 * i + 3) (4 * i) sp, spareUsed := true }).lkFlag p 3
        | none => d.degrade p

/-- LANE_BAD (R308). -/
def execLaneBad (lport lane : Nat) (s : State) : Host.Outcome State Fault Refusal := onDev s (fun d => d.whenLive (fun d => d.laneBad lport lane))

/-- ALNK_RETRAIN (R309). -/
def execAlnkRetrain (port lport : Nat) (s : State) : Host.Outcome State Fault Refusal :=
  onDev s (fun d => d.whenLive (fun d => if ctlPort port then d.retrain lport else d))

/-- What a port learns in training: good lanes, the peer, the hop latency, the CRC of the peer's tables. -/
def Port.trained (x : Port) (p serial own good peer prio peerPort hoplat crc : Nat) : Port :=
  let ls := goodLanes good
  let x4 := decide (ls.length < 8)
  let mine := (own % 256 * 2 ^ 64 + serial)
  let its := (prio % 256 * 2 ^ 64 + peer)
  { x with state := .vc0Only, good := good % 512, x4 := x4, lmap := lmapOf ls (if x4 then 4 else 8),
           spareUsed := !x4 && (List.range 8).any (fun i => ls.getD i 15 == 8),
           peerSerial := peer, peerPort := peerPort % 16, peerPrio := prio % 256, hoplat := hoplat, peerCrc := crc, mismatch := crc != x.tableCrc,
           leader := decide (mine < its) || (mine == its && decide (p < peerPort)) }

/-- The end of training (R309, R310, R311, R327). -/
def Dev.trainingDone (d : Dev) (p serial good peer prio peerPort hoplat crc : Nat) : Dev :=
  let x := d.lk p
  if x.state ≠ .training then d
  else if x.retraining then
    ((d.setLk p { x with state := if x.wasActive then .active else .vc0Only, retraining := false, replays := 0 }).replayFlits p).pumpPort p
  else if (goodLanes good).length < 4 then d.lkFlag p 8
  else
    let y := x.trained p serial (d.regN pgAlnk 0 0x1004) good peer prio peerPort hoplat crc
    let d := d.setLk p { y with upEpoch := (d.fab.epoch + 1) % 2 ^ 32 }
    let d := if y.x4 then (d.lkFlag p 4).withdrawAll wLanes (d.usesPort p) else d
    d.bumpEpoch

/-- TRAINING_COMPLETE (R309, R327). -/
def execTrainingComplete (lport good peer prio peerPort hoplat crc : Nat) (s : State) : Host.Outcome State Fault Refusal :=
  onDev s (fun d => d.whenLive (fun d => d.trainingDone lport s.fuses.serial good peer prio peerPort hoplat crc))

/-! ### Flits (R313, R314) -/

/-- A flit is failed: its CRC, a reserved code or bit, or its sequence number. -/
def Port.flitFails (x : Port) (bs : List Byte) : Bool :=
  let h := bytesNat bs 0 12
  let typ := fld h 1 0
  let vc := fld h 4 2
  bs.length != 256 || bytesNat bs 252 4 != crc32c (bs.take 252) || typ == 3 || h / 2 ^ 66 != 0 ||
  (typ == 1 && decide (vc < 2)) || (typ != 1 && (vc != 0 || fld h 8 5 != 0)) || (bit h 9 && decide (239 < fld h 17 10)) || decide (239 < fld h 25 18) ||
  fld h 37 26 != x.rxNext

/-- Acknowledgement and credits of a good flit. -/
def Dev.flitAcks (d : Dev) (p h : Nat) : Dev :=
  let x := d.lk p
  let left := ackUnits (fld h 49 38) x.retry
  let k := streamKey (fld h 54 51) (fld h 57 55)
  let x := { x with retry := left, replays := if left.length < x.retry.length then 0 else x.replays,
                    used := if fld h 65 58 = 0 then x.used else tabPut natDflt x.used k (tabGet natDflt x.used k - fld h 65 58) }
  let d := (d.setLk p x).trySwap p
  let d := if bit h 50 then d.replayFlits p else d
  d.pumpPort p

/-- A good flit delivered: data into its stream's buffer, a control message of an unknown code counted; a known one follows as its own row. -/
def Dev.flitDeliver (d : Dev) (p h : Nat) (pay : List Byte) : Dev :=
  let x := d.lk p
  match fld h 1 0 with
  | 1 =>
    let n := fld h 25 18 + 1
    let k := streamKey (fld h 8 5) (fld h 4 2)
    let st := tabGet (fun _ => ({} : RxStream)) x.rx k
    let d := d.setLk p { x with rxNext := (x.rxNext + 1) % 4096, rx := tabPut (fun _ => ({} : RxStream)) x.rx k { bytes := st.bytes ++ pay.take n, fills := st.fills ++ [n] } }
    (d.bump64 pgAlnk p 0x0138 1 0x0128 0).sendIdle p false 0 0 0
  | 2 =>
    let c := bytesNat pay 0 1
    let d := (d.setLk p { x with rxNext := (x.rxNext + 1) % 4096 }).sendIdle p false 0 0 0
    if c = 0 ∨ 11 < c then d.bumpRc pgAlnk p 0x015C 1 else d
  | _ => d

/-- FLIT_RECEIVE (R314): a failed flit is discarded and answered with `NAK`, and so is every one until the replay. -/
def execFlitReceive (lport : Nat) (bytes : List Byte) (corrected uncorrectable : Nat) (s : State) : Host.Outcome State Fault Refusal :=
  onDev s (fun d => d.whenLive (fun d =>
    let x := d.lk lport
    if !x.vc0 then d
    else
      let d := (d.bumpRc pgAlnk lport 0x0148 corrected).bumpRc pgAlnk lport 0x014C uncorrectable
      if uncorrectable ≠ 0 ∨ x.flitFails bytes then
        if x.rxFailing then d else (d.setLk lport { x with rxFailing := true }).sendIdle lport true 0 0 0
      else
        let h := bytesNat bytes 0 12
        let d := d.setLk lport { x with rxFailing := false }
        (d.flitAcks lport h).flitDeliver lport h ((bytes.drop 12).take 240)))

/-- FLIT_REPLAY_TIMEOUT (R314). -/
def execFlitReplayTimeout (lport : Nat) (s : State) : Host.Outcome State Fault Refusal := onDev s (fun d => d.whenLive (fun d => d.replayFlits lport))

/-- RETRY_BUFFER_STALL (R314): the buffer is full and nothing is acknowledged. -/
def execRetryBufferStall (lport : Nat) (s : State) : Host.Outcome State Fault Refusal :=
  onDev s (fun d => d.whenLive (fun d => if 512 ≤ (d.lk lport).retry.length then d.retrain lport else d))

/-- CREDIT_WATCHDOG (R318): a stream with flits waiting and no credit; a second firing within 1 s takes the port down. -/
def execCreditWatchdog (lport share vc now : Nat) (s : State) : Host.Outcome State Fault Refusal :=
  onDev s (fun d => (d.at now).whenLive (fun d =>
    let x := d.lk lport
    let k := streamKey share vc
    if x.state ≠ .active ∨ (tabGet (fun _ => ({} : TxStream)) x.tx k).records.isEmpty ∨ tabGet natDflt x.used k < x.streamBuf share vc then d
    else
      let again := match x.creditTmo with
        | some t => decide (d.now < t + 1000000000)
        | none => false
      let d := d.lkFlag lport 2
      if again then d.goDown lport 0x81
      else
        let d := d.rasLog { cause := 0x81, cls := 3, status := 0, unit := 8, unum := lport }
        (d.setLk lport { x with creditTmo := some d.now }).retrain lport))

/-! ### Share swaps (R317) -/

/-- `VC_APPLY` written: the staged tables are armed, and their CRC is reported to the peer. -/
def Dev.vcApply (d : Dev) (p : Nat) : Dev :=
  ((d.updLk p (fun x => { x with swapPending := true, swapFailed := false })).sendCtl p ctlSwap [d.stagedCrc p, 0]).trySwap p

/-- VC_APPLY (R317). -/
def execVcApply (port lport : Nat) (s : State) : Host.Outcome State Fault Refusal :=
  onDev s (fun d => d.whenLive (fun d => if ctlPort port then d.vcApply lport else d))

/-- SHARE_SWAP (R317): the peer's staged CRC, or with an instant the leader's swap. -/
def execShareSwap (lport crc instant : Nat) (s : State) : Host.Outcome State Fault Refusal :=
  onDev s (fun d => d.whenLive (fun d =>
    let x := d.lk lport
    if !x.vc0 then d
    else if instant = 0 then (d.setLk lport { x with peerStaged := some crc }).trySwap lport
    else if x.swapPending && !x.leader && crc == d.stagedCrc lport then d.swapTables lport
    else d))

/-- SHARE_SWAP_TIMEOUT (R317): the swap is abandoned. -/
def execShareSwapTimeout (lport : Nat) (s : State) : Host.Outcome State Fault Refusal :=
  onDev s (fun d => d.whenLive (fun d =>
    let x := d.lk lport
    if x.swapPending then d.setLk lport { x with swapPending := false, swapFailed := true, peerStaged := none } else d))

/-! ### Records received (R319 to R321) -/

/-- A tag failure: the third within 1 s takes the port down. -/
def Dev.tagFail (d : Dev) (p : Nat) : Dev :=
  let x := d.lk p
  let l := (x.tagFails.filter (fun t => decide (d.now < t + 1000000000))) ++ [d.now]
  let d := (d.setLk p { x with tagFails := l }).bumpRc pgAlnk p 0x0158 1
  if 3 ≤ l.length then (d.lkFlag p 6).goDown p 0x82 else d

/-- A good record reaches its engine (R319 Table 4); engines 2 and 4 take no record that the device's chapters describe. -/
def Dev.recordTo (d : Dev) (p pairing engine tgt : Nat) (pay : List Byte) (cyc : Nat) : Dev :=
  match engine with
  | 0 => d.shReceive 0 tgt pay cyc
  | 1 => d.shReceive 1 tgt pay cyc
  | 3 => d.relayReceive p pairing tgt pay
  | _ => d

/-- LINK_RECORD_RECEIVE (R321): the first whole record of a stream is judged and taken; one for a full group stays in the link's buffer. -/
def execLinkRecordReceive (lport share vc cyc now : Nat) (s : State) : Host.Outcome State Fault Refusal :=
  onDev s (fun d => (d.at now).whenLive (fun d =>
    let x := d.lk lport
    match (x.rxStream share vc).record with
    | none => d
    | some r =>
      let take := fun (d : Dev) => d.takeRecord lport share vc r.length
      match x.checkRecord r with
      | .stale => (take d).bumpRc pgAlnk lport 0x0150 1
      | .counter => (take d).bumpRc pgAlnk lport 0x0154 1
      | .tag => (take d).tagFail lport
      | .good i e pay =>
        let engine := bytesNat r 3 1
        let tgt := bytesNat r 10 6
        if engine ≤ 1 && d.shFull tgt pay.length then d
        else ((take (d.setLk lport { x with pairs := tabPut pairDflt x.pairs i e })).recordTo lport i engine tgt pay cyc)))

/-! ### Health (R336) -/

/-- LINK_HEALTH_WINDOW (R336): `f` flit times counted of F = 2^24 × 8 ÷ 17. -/
def execLinkHealthWindow (lport f : Nat) (s : State) : Host.Outcome State Fault Refusal :=
  onDev s (fun d => d.whenLive (fun d =>
    let x := d.lk lport
    if !x.vc0 then d
    else
      let r := min 65536 (f * 17 / 2048)
      let slow := decide (r < 58982)
      let d := d.setLk lport { x with rate := r, slow := slow }
      if slow then d.lkFlag lport 7 else d))

end Sys2Proof.Machine
end

