-- ==== Sys2Proof/Machine/LifeCycle.lean ====
section
/-! DEFINITION. The life-cycle fuses, their decoding and the transitions between states (R419 to R427). -/
namespace Sys2Proof.Machine

/-! ### Fuse words (R421, R422) -/

/-- The 16-bit pattern of word W1 to W6, at index 0 to 5. -/
def lcPattern (k : Nat) : Nat := [0x0F0F, 0x3333, 0x5555, 0x00FF, 0x6969, 0x9696].getD k 0

/-- The constant of a word: its pattern eight times. -/
def lcConst (k : Nat) : Nat := (List.range 8).foldl (fun a j => a + lcPattern k * 2 ^ (16 * j)) 0

/-- The conditions of a word. -/
inductive WordCond where
  | clear | set | part | foreign
deriving DecidableEq, Repr

/-- Condition of a word's bits. -/
def wordCond (k w : Nat) : WordCond :=
  if w = 0 then .clear else if w = lcConst k then .set else if w ||| lcConst k = lcConst k then .part else .foreign

/-- Code of a condition in `LC_WORDS`. -/
def WordCond.code : WordCond → Nat
  | .clear => 0 | .set => 1 | .part => 2 | .foreign => 3

/-- Word k of the fuses, k from 0. -/
def Fuses.word (f : Fuses) (k : Nat) : Nat := tabGet natDflt f.words k

/-- Condition of a word. -/
def Fuses.cond (f : Fuses) (k : Nat) : WordCond := wordCond k (f.word k)

/-- Condition of each word. -/
def Fuses.conds (f : Fuses) : List WordCond := (List.range 6).map f.cond

/-- The state that the set of words reading `SET` decodes to (R422), W6 apart. -/
def lcOfSet (s : List Bool) : Nat :=
  match s with
  | [false, false, false, false, false] => lcBlank
  | [true, false, false, false, false] => lcTestUnlocked
  | [true, true, false, false, false] => lcTestLocked
  | [true, true, true, false, false] => lcManufactured
  | [true, true, true, true, false] => lcSecured
  | [true, true, true, false, true] => lcRma
  | [true, true, true, true, true] => lcRma
  | _ => lcInvalid

/-- The decoding of the six conditions (R422). -/
def lcDecode (c : List WordCond) : Nat :=
  if c.getD 5 .clear == .set then lcScrapped
  else if c.any (fun x => x == .part || x == .foreign) then lcInvalid
  else lcOfSet ((c.take 5).map (· == .set))

/-- The decoding of the fuses now. -/
def Fuses.decode (f : Fuses) : Nat := lcDecode f.conds

/-- Two senses of the six words: where a bit differs, INVALID, or SCRAPPED when W6 reads `SET` in both (R423). -/
def lcSense (a b : Fuses) : LcLatch :=
  if (List.range 6).all (fun k => a.word k == b.word k) then { inForce := a.decode, senseErr := false }
  else { inForce := if a.cond 5 == .set && b.cond 5 == .set then lcScrapped else lcInvalid, senseErr := true }

/-! ### Transitions (R424 to R427) -/

/-- Word index of a target state, from TEST_UNLOCKED to SCRAPPED. -/
def lcWord (target : Nat) : Nat := target - 1

/-- Targets that Table 3 allows from a state other than INVALID. -/
def lcAllows (from' target : Nat) : Bool :=
  (target == lcTestUnlocked && from' == lcBlank) || (target == lcTestLocked && from' == lcTestUnlocked) ||
  (target == lcManufactured && from' == lcTestLocked) || (target == lcSecured && from' == lcManufactured) ||
  (target == lcRma && (from' == lcManufactured || from' == lcSecured)) || (target == lcScrapped && from' != lcScrapped)

/-- The repeat of an interrupted transition (R427): only the target's word is `PARTIAL`, none `FOREIGN`, and the words that are `SET` decode to
a state from which the target is allowed. -/
def Fuses.repeatOk (f : Fuses) (target : Nat) : Bool :=
  (List.range 6).all (fun k => f.cond k != .foreign && (f.cond k == .part) == (k == lcWord target)) &&
  lcAllows (lcDecode (f.conds.map (fun c => if c = .part then .clear else c))) target

/-- Why a transition is refused: target not listed, or its condition not met (R424 Table 3). -/
def lcRefuses (f : Fuses) (d : Dev) (target vbat : Nat) : Option Status :=
  if d.lc.inForce = lcInvalid then
    if target = lcScrapped || f.repeatOk target then none else some .lcInvalid
  else if !lcAllows d.lc.inForce target then some .lcInvalid
  else if target = lcManufactured && (decide (vbat < 2500) || decide (3600 < vbat)) then some .lcInvalid
  else if target = lcRma && !d.dbg.rmaCert then some .authRequired
  else none

/-- Every key slot zeroized as a halt does, the root secret zeroized, every hoop destroyed with its contexts (R426). -/
def Dev.destroySecrets (d : Dev) : Dev :=
  let d := (d.destroyOf (fun _ => true)).zeroizeKeys
  let d := { d with batt := { d.batt with root := none } }
  (List.range 16).foldl (fun d h => (((d.setHoop h {}).setHoopSec h {}).clearHoopWide h).endDebugOf h) d

/-- The root secret drawn, unless the battery domain holds one or W3 is `SET` (R426). -/
def Dev.drawRoot (d : Dev) (f : Fuses) : Dev :=
  if d.batt.root.isSome || f.cond 2 == .set || !d.batt.osc then d
  else { d.ticks 32 with batt := { d.batt with root := some (d.freeBytes 32) } }

/-- What must precede programming (R426). -/
def Dev.lcBefore (d : Dev) (f : Fuses) (target : Nat) : Dev :=
  if target = lcManufactured then d.drawRoot f else if target = lcRma || target = lcScrapped then d.destroySecrets else d

/-- Bits that a transition programs: zero bits of the target's word that its constant sets, in increasing order (R425). -/
def lcTodo (k w : Nat) : List Nat := (List.range 128).filter (fun i => bit (lcConst k) i && !bit w i)

/-- Fuses blown; a bit of `bad` does not take. -/
def blow (bad : Nat) (w : Nat) (l : List Nat) : Nat := l.foldl (fun w i => if bit bad i then w else w ||| 2 ^ i) w

/-- The fuses with a word replaced. -/
def Fuses.setWord (f : Fuses) (k w : Nat) : Fuses := { f with words := tabPut natDflt f.words k w }

/-- Rights that a target state does not permit (R420 Table 2, R425, R435). -/
def Dev.lcClose (d : Dev) (target : Nat) : Dev :=
  if target = lcTestLocked || target = lcSecured || target = lcScrapped then d.endDebug
  else if target = lcManufactured then { d with dbg := { d.dbg with openClosed := true } }.dbgSettle
  else d

/-- Offsets of `LC_TARGET` and `LC_OP_STS`. -/
def oLcTarget : Nat := 0x1004
def oLcSts : Nat := 0x1008

/-- A transition (R425 Table 4). `lost`: power is lost after that many bits, and `BUSY` stays until the reset that follows; `fuseBad`: bits that do
not take. -/
def lcRun (f : Fuses) (d : Dev) (target fuseBad : Nat) (lost : Option Nat) : Fuses × Dev :=
  let k := lcWord target
  let d := d.lcBefore f target
  let todo := lcTodo k (f.word k)
  match lost with
  | some n =>
    let l := todo.take n
    (f.setWord k (blow fuseBad (f.word k) l), d.setRegN pgLc 0 oLcSts (2 ^ 16 + 2 ^ 17 * l.length))
  | none =>
    let g := f.setWord k (blow fuseBad (f.word k) todo)
    if g.cond k = .set then (g, (d.lcClose target).setRegN pgLc 0 oLcSts (2 ^ 17 * todo.length))
    else (g, d.setRegN pgLc 0 oLcSts (Status.lcInvalid.code + 2 ^ 17 * todo.length))

/-- A write to `LC_TARGET` from a port (R424): PF, BMC and JTAG may, others are discarded and logged; so is one while a transition runs. -/
def lcWrite (f : Fuses) (d : Dev) (port value vbat fuseBad : Nat) (lost : Option Nat) : Fuses × Dev :=
  if !d.aon.aonUp then (f, d)
  else if port ≠ portPf && port ≠ portBmc && port ≠ portJtag then (f, d.logErr port pgLc oLcTarget .port value)
  else if bit (d.regN pgLc 0 oLcSts) 16 then (f, d.logErr port pgLc oLcTarget .busy value)
  else
    let d := d.setRegN pgLc 0 oLcTarget (value % 16)
    match (if decide (1 ≤ value % 16) && decide (value % 16 ≤ 6) then lcRefuses f d (value % 16) vbat else some .lcInvalid) with
    | some st => (f, d.setRegN pgLc 0 oLcSts st.code)
    | none => lcRun f d (value % 16) fuseBad lost

/-- A transition as a command. -/
def onLc (s : State) (port target vbat fuseBad : Nat) (lost : Option Nat) (now : Nat) : Host.Outcome State Fault Refusal :=
  let r := lcWrite s.fuses (s.dev.at now) port target vbat fuseBad lost
  .next { s with fuses := r.1, dev := r.2 }

/-- A transition to TEST_UNLOCKED programs W1. -/
def execLcToTestUnlocked (port vbat fuseBad : Nat) (lost : Option Nat) (now : Nat) (s : State) : Host.Outcome State Fault Refusal :=
  onLc s port lcTestUnlocked vbat fuseBad lost now

/-- A transition to TEST_LOCKED programs W2. -/
def execLcToTestLocked (port vbat fuseBad : Nat) (lost : Option Nat) (now : Nat) (s : State) : Host.Outcome State Fault Refusal :=
  onLc s port lcTestLocked vbat fuseBad lost now

/-- A transition to MANUFACTURED writes the root secret and programs W3. -/
def execLcToManufactured (port vbat fuseBad : Nat) (lost : Option Nat) (now : Nat) (s : State) : Host.Outcome State Fault Refusal :=
  onLc s port lcManufactured vbat fuseBad lost now

/-- A transition to SECURED programs W4. -/
def execLcToSecured (port vbat fuseBad : Nat) (lost : Option Nat) (now : Nat) (s : State) : Host.Outcome State Fault Refusal :=
  onLc s port lcSecured vbat fuseBad lost now

/-- A transition to RMA destroys every secret and programs W5. -/
def execLcToRma (port vbat fuseBad : Nat) (lost : Option Nat) (now : Nat) (s : State) : Host.Outcome State Fault Refusal :=
  onLc s port lcRma vbat fuseBad lost now

/-- A transition to SCRAPPED destroys every secret and programs W6. -/
def execLcToScrapped (port vbat fuseBad : Nat) (lost : Option Nat) (now : Nat) (s : State) : Host.Outcome State Fault Refusal :=
  onLc s port lcScrapped vbat fuseBad lost now

end Sys2Proof.Machine
end

