-- ==== Sys2Proof/Machine/Boot.lean ====
section
/-! DEFINITION. Starts, boot steps, failure and retry, safe mode, the ledger (R458 to R470), power-good sequencing (R502) and the reset pins. -/
namespace Sys2Proof.Machine

/-! ### What a start destroys and keeps (R458, R460) -/

/-- Page of a register's key. -/
def keyPage (k : Nat) : Nat := k / (0x100000 * 0x10000)

/-- Registers of the always-on domain's own pages, and the spare tiles left in the attic (log entry 61); a warm start keeps what `TEST_HBM` says of the
last cold boot (R528). -/
def keepReg (cold : Bool) (k : Nat) : Bool := keyPage k == pgBoot || keyPage k == pgTel || k == rk pgAttic 0 0x1000 || (!cold && k == rk pgTest 0 0x102C)

/-- A tile as the repair record rebuilds it: the physical tile that serves it, its arrays and columns, and whether it is in service (R467). -/
def Tile.repaired (x : Tile) : Tile :=
  { out := x.out, phys := x.phys, arrMap := x.arrMap, colUsed := x.colUsed, spareArrays := x.spareArrays }

/-- The tiles of the repair record. -/
def repairTiles (t : Table Tile) : Table Tile := (t.map (fun (e : Nat × Tile) => (e.1, e.2.repaired))).filter (fun e => e.2 ≠ tileDflt e.1)

/-- The core in reset: all state outside the always-on and battery domains is lost; the flash, the fuses and the world outside stay. -/
def Dev.coreReset (d : Dev) (cold : Bool) : Dev :=
  { freeCtr := d.freeCtr, out := d.out, now := d.now, regs := d.regs.filter (fun e => keepReg cold e.1), hostMem := d.hostMem,
    tiles := repairTiles d.tiles, batt := d.batt, dbg := { scan := d.dbg.scan && !cold }, lc := d.lc,
    aon := { d.aon with ready := false, safe := false, pcieUp := false, romOnly := false, noOpcfg := false },
    therm := { temps := d.therm.temps, maxes := if cold then [] else d.therm.maxes, beyond := d.therm.beyond, coolSince := d.therm.coolSince.map (fun _ => 0) },
    tap := d.tap, flash := d.flash }

/-! ### The ledger (R469) -/

/-- Result codes of a step. -/
def rsOk : Nat := 1
def rsAlt : Nat := 2
def rsSkipped : Nat := 3
def rsFailed : Nat := 4
def rsTimeout : Nat := 5
def rsAborted : Nat := 6

/-- Outcome codes of an attempt. -/
def ocReady : Nat := 0
def ocFailed : Nat := 1
def ocHalted : Nat := 2
def ocAborted : Nat := 3
def ocSafe : Nat := 4

/-- The 64-byte record of the attempt (R469 Table 6). -/
def Dev.ledgerRecord (d : Dev) (outcome : Nat) : List Byte :=
  let b := d.aon.boot
  let kind := if b.trigger = 5 then (if b.cold then 2 else 3) else if b.cold then 0 else 1
  let r := ascii "HTBL" ++ toBytes 4 d.batt.bootCount ++ toBytes 1 d.aon.attempt ++ toBytes 1 kind ++ toBytes 1 b.trigger ++ toBytes 1 outcome ++
    toBytes 2 b.failStep ++ toBytes 2 0 ++ (List.range 15).flatMap (fun i => toBytes 2 (tabGet natDflt b.steps (i + 1))) ++ toBytes 2 b.alt ++
    toBytes 4 b.portFail ++ toBytes 4 b.skip ++ toBytes 4 (b.elapsed / 10000)
  r ++ toBytes 4 (crc32 r)

/-- An attempt ends: its record in the always-on domain and in the flash log, and a flash operation that waited runs. -/
def Dev.endAttempt (d : Dev) (outcome : Nat) (logBad : Bool) : Dev :=
  let r := d.ledgerRecord outcome
  let d := d.logWrite r logBad
  let b := d.aon.boot
  Dev.flashResume { d with aon := { d.aon with ledger := (r :: d.aon.ledger).take 4, boot := { b with step := 0 } } }

/-- The entry of a step kept. -/
def Dev.stepEntry (d : Dev) (k code : Nat) : Dev :=
  let b := d.aon.boot
  { d with aon := { d.aon with boot := { b with steps := tabPut natDflt b.steps k code } } }

/-- A step ran its alternative. -/
def Dev.stepAlt (d : Dev) (k : Nat) : Dev :=
  let b := d.aon.boot
  { d with aon := { d.aon with boot := { b with alt := b.alt ||| 2 ^ k } } }

/-! ### Steps (R461, R465 to R468) -/

/-- How a step leaves the attempt: it goes on, fails, or halts the device. -/
inductive StepEnd where
  | go | fail | halt
deriving DecidableEq, Repr

/-- The second sense of the fuses. -/
def Fuses.flipped (f : Fuses) (l : List (Nat × Nat)) : Fuses := l.foldl (fun f p => f.setWord p.1 (f.word p.1 ^^^ p.2)) f

/-- Step `FUSE`: the boot count, and the life-cycle state in force (R423, R470). -/
def Dev.stepFuse (f : Fuses) (d : Dev) (b : BootOp) : Nat × StepEnd × Dev :=
  let c := if d.batt.vbat then (d.batt.bootCount + 1) % 2 ^ 32 else d.batt.bootCount
  (rsOk, .go, { d with batt := { d.batt with bootCount := c }, lc := lcSense f (f.flipped b.flips) })

/-- Step `ENTROPY`: the start-up tests, and the DRBG seeded (R391). -/
def Dev.stepEntropy (d : Dev) (b : BootOp) : Nat × StepEnd × Dev :=
  if b.entropy then (rsOk, .go, { d with sec := { d.sec with seeded := true } }) else (rsFailed, .halt, d.halt 0x12 0 0 0 0)

/-- Step `ROM`: each core's ROM against the fused digest; `M_ROM` is that digest (R466). -/
def Dev.stepRom (f : Fuses) (d : Dev) (b : BootOp) : Nat × StepEnd × Dev :=
  match b.romBad with
  | some c => (rsFailed, .halt, d.halt 0x11 c 0 0 0)
  | none => (rsOk, .go, { d with sec := { d.sec with coreB := true, mRom := f.romDigest } })

/-- Firmware of a slot runs on core A. -/
def Dev.runSlot (d : Dev) (b : Bool) : Dev :=
  { d with aon := { d.aon with slotB := b, svnRunning := bytesNat (d.flashRead (slotBase b) 16) 12 4 },
           sec := { d.sec with coreA := true, mFw := d.fwMeasure (slotBase b), mDarn := digest Config.darnRom } }

/-- Step `FW`: the slots in order, slot B first as the alternative. In safe mode core A runs its ROM service where neither verifies (R464, R465). -/
def Dev.stepFw (f : Fuses) (d : Dev) (b : BootOp) : Nat × StepEnd × Dev :=
  let first := d.aon.altFw
  let good := fun (x : Bool) => !b.flashBad && d.fwGood f (slotBase x)
  let d := if first then d.stepAlt 4 else d
  if good first then ((if first then rsAlt + 8 else rsOk), .go, d.runSlot first)
  else if good !first then (rsAlt + 8 * b2n (!first), .go, d.runSlot !first)
  else if d.aon.attempt = 4 || lcShut d.lc.inForce then (rsFailed, .go, { d with aon := { d.aon with romOnly := true }, sec := { d.sec with coreA := false } })
  else (rsFailed, .fail, d)

/-- Step `DICE`. -/
def Dev.stepDice (d : Dev) (b : BootOp) : Nat × StepEnd × Dev :=
  if d.batt.root.isNone then (rsSkipped, .go, d) else if b.dice then (rsOk, .go, d) else (rsFailed, .fail, d)

/-- Step `OPCFG` (R462, R466). -/
def Dev.stepOpcfg (d : Dev) : Nat × StepEnd × Dev :=
  let c := d.flashRead opcfgBase opcfgBytes
  if d.opcfgGood then
    (rsOk, .go, { d.setRegN pgAlnk 0 0x1004 (bytesNat c 15 1) with
      aon := { d.aon with portsOp := bytesNat c 12 2, ethOp := bytesNat c 14 1 },
      sec := { d.sec with operEc := (c.drop 64).take 97, operPq := (c.drop 161).take 2592, mOper := digest c } })
  else (rsFailed, .go, { d with aon := { d.aon with noOpcfg := true, portsOp := 0, ethOp := 0 } })

/-- Step `CLOCKS`: V_OP over AVSBus, read back within 15 mV; the PLLs lock (R500), and the
fabric time base begins to advance (R325). -/
def Dev.stepClocks (f : Fuses) (d : Dev) (b : BootOp) : Nat × StepEnd × Dev :=
  let d := ((d.emit (.avs f.vop)).setRegN pgTel 0 0x1018 f.vop).setRegN pgTel 0 0x101C (b.vMeas % 4096)
  if f.vop + 15 < b.vMeas || b.vMeas + 15 < f.vop || !b.plls then (rsFailed, .fail, d)
  else (rsOk, .go, { d.setRegN pgClk 0 0x1000 (0x1F + b.refs % 32 * 32) with now := b.lock })

/-- Step `PCIE`. -/
def Dev.stepPcie (d : Dev) (b : BootOp) : Nat × StepEnd × Dev :=
  if b.pcie then (rsOk, .go, { d with aon := { d.aon with pcieUp := true } }) else (rsFailed, .fail, d)

/-- Step `MBIST`: what cannot be repaired is retired; on the warm profile only the pantries are tested, and the stored results are applied to the
other memories (R521, R522). -/
def Dev.stepMbist (d : Dev) (b : BootOp) : Nat × StepEnd × Dev :=
  let m : MbistRec := if d.aon.boot.cold then { crocks := b.crocks, larder := b.larder, darners := b.darners, ways := b.ways } else d.aon.mbist
  let d := b.units.foldl (fun d u => d.setTile u.1 { d.tile u.1 with retired := (d.tile u.1).retired ++ [u.2] }) d
  let d := m.crocks.foldl (fun d t => d.setTile t { d.tile t with standin := true }) d
  let d := m.darners.foldl (fun d n => d.setDarner n { out := true }) d
  let lines := m.larder.foldl (· + ·) 0
  let d := d.setRegN pgTest 0 0x1024 (b.units.length % 65536 + lines % 65536 * 65536)
  let d := d.setRegN pgTest 0 0x1028 ((m.darners.foldl (fun a n => a ||| 2 ^ (n % 8)) 0) + m.ways % 256 * 256 + b.rows % 65536 * 65536)
  (rsOk, .go, { d with larderOut := m.larder.foldl max 0, wayOut := m.ways, aon := { d.aon with mbist := m } })

/-- Step `ARRAY`: failing columns and arrays replaced; tiles that cannot serve leave service (R15, R454). -/
def Dev.stepArray (d : Dev) (b : BootOp) : Nat × StepEnd × Dev :=
  let d := b.arrays.foldl (fun d p => d.repairArray p.1 p.2) d
  let d := b.tilesOut.foldl (fun d t => d.setTile t { d.tile t with out := true }) d
  (rsOk, .go, d.setRegN pgTile 0 0x1000 ((List.range 96).filter (fun t => !(d.tile t).out)).length)

/-- A page of the retired list is redirected to its stack's spare pool again (R467). -/
def Dev.redirect (d : Dev) (ppn : Nat) : Dev :=
  let s := pgCel + ppn % 8
  (d.setRegN s 0 0x1008 (d.regN s 0 0x1008 - 1)).setRegN pgMmu 0 0x1008 (d.regN pgMmu 0 0x1008 - 1)

/-- Step `HBM`: training on the cold, warm or conservative profile; pages repaired return to service (R467). -/
def Dev.stepHbm (d : Dev) (b : BootOp) : Nat × StepEnd × Dev :=
  let alt := d.aon.altHbm
  let cold := d.aon.boot.cold || alt
  let bad := if cold || d.aon.trained then b.stacksBad % 256 else 0xFF
  let d := if alt then d.stepAlt 11 else d
  if bad ≠ 0 then (rsFailed + 8 * bad, .fail, d)
  else
    let kept := if cold && !alt then d.aon.retired.filter (fun p => !b.pagesBack.contains p) else d.aon.retired
    let d := (List.range 8).foldl (fun d s => d.setRegN (pgCel + s) 0 0x1000 (1 + 2 * b2n alt)) d
    let d := kept.foldl Dev.redirect { d with aon := { d.aon with trained := true, retired := kept } }
    let d := if cold then d.setRegN pgTest 0 0x102C (0xFF + b.stacksRep % 256 * 256 + b.rowsRep % 65536 * 65536) else d
    ((if alt then rsAlt else rsOk), .go, d)

/-- Step `META`: group blocks, nodes and ownership entries at their initial values under a new K_T (R236, R467). -/
def Dev.stepMeta (d : Dev) (b : BootOp) : Nat × StepEnd × Dev :=
  if !b.metaOk then (rsFailed, .fail, d)
  else
    let d := { d.ticks 32 with groups := [], pot := [], cellar := [], keys := tabPut keyDflt d.keys 0 { state := .active, usage := 6, base := beNat (d.freeBytes 32) } }
    (rsOk, .go, d)

/-- The entry of a step that is optional for each port: ports failed, ports skipped (R462). -/
def portEntry (bad skipped : Nat) : Nat := if bad ≠ 0 then rsFailed else if skipped ≠ 0 then rsAlt else rsOk

/-- Ports failed and skipped kept. -/
def Dev.notePorts (d : Dev) (k bad skipped : Nat) : Dev :=
  let b := d.aon.boot
  let d := { d with aon := { d.aon with boot := { b with portFail := b.portFail ||| bad, skip := b.skip ||| skipped } } }
  let d := d.setRegN pgBoot 0 0x1050 d.aon.boot.skip
  if skipped ≠ 0 then d.stepAlt k else d

/-- Step `ETH`. -/
def Dev.stepEth (d : Dev) (b : BootOp) : Nat × StepEnd × Dev :=
  let skip := d.aon.ethOp &&& (d.aon.skipPorts / 2 ^ 16)
  let bad := d.aon.ethOp &&& b.ethBad &&& (3 ^^^ skip)
  (portEntry bad skip, .go, d.notePorts 13 (bad * 2 ^ 16) (skip * 2 ^ 16))

/-- Step `ALNK`: ports that the operator configuration enables, but those that fail or are skipped; a port whose lane failed in the attempt before
starts with the map that swaps in its spare (R468). -/
def Dev.stepAlnk (d : Dev) (b : BootOp) : Nat × StepEnd × Dev :=
  let skip := d.aon.portsOp &&& d.aon.skipPorts % 65536
  let bad := d.aon.portsOp &&& b.alnkBad &&& (0xFFFF ^^^ skip)
  let alt := d.aon.laneAlt &&& d.aon.portsOp
  let d := d.notePorts 14 bad skip
  let d := if alt ≠ 0 then d.stepAlt 14 else d
  let on := (List.range 16).filter (fun p => bit d.aon.portsOp p && !bit bad p && !bit skip p)
  let d := on.foldl (fun d p => (d.alnkCtl p 1).updLk p (fun x => { x with spareUsed := bit alt p })) d
  (portEntry bad (skip ||| alt), .go, { d with aon := { d.aon with laneAlt := b.laneBad } })

/-- The values that hoop 0 holds when boot creates it (R286). -/
def hoop0 : HoopParams :=
  { funcs := 1, tiles := 2 ^ 96 - 1, sigma := 256, cslots := 0, dma := 0xFFFF, qbase := 0, qcount := 65536, ctxs := 4096, keys := 4095, groups := 256,
    sats := 4096, lsts := 16384, mcEntries := 1024, mcLines := 256, tcWays := 0, walkers := 0, pages := usablePages, power := 2000, gdepth := 0 }

/-- Step `READY`: hoop 0, pages 0 to 15 granted to it, the bootstrap key in slot 1, the capability list (R262, R286). -/
def Dev.stepReady (d : Dev) (b : BootOp) : Nat × StepEnd × Dev :=
  if !b.readyOk then (rsFailed, .fail, d)
  else
    let d := d.setHoop 0 { state := .active, inForce := hoop0, staged := hoop0, refillNs := d.now }
    let d := (List.range 16).foldl (fun d p => d.setPot p { granted := true, hoop := 0 }) d
    let d := (d.ticks 32).setKey 1 { state := .active, usage := useMem, hoop := 0, base := beNat (d.freeBytes 32) }
    let d := d.setRegN pgCap 0 0x0100 (d.regN pgCap 0 0x0100 + 2)
    (rsOk, .go, (d.event pgBoot 0 portsDevice))

/-- A step by its number. -/
def Dev.bootStep (f : Fuses) (d : Dev) (b : BootOp) (k : Nat) : Nat × StepEnd × Dev :=
  match k with
  | 1 => d.stepFuse f b
  | 2 => d.stepEntropy b
  | 3 => d.stepRom f b
  | 4 => d.stepFw f b
  | 5 => d.stepDice b
  | 6 => d.stepOpcfg
  | 7 => d.stepClocks f b
  | 8 => d.stepPcie b
  | 9 => d.stepMbist b
  | 10 => d.stepArray b
  | 11 => d.stepHbm b
  | 12 => d.stepMeta b
  | 13 => d.stepEth b
  | 14 => d.stepAlnk b
  | _ => d.stepReady b

/-! ### Attempts (R459 to R464) -/

/-- A failed attempt: recorded, counted, and what the next attempt of the series does instead (R462, R463). -/
def Dev.attemptFails (d : Dev) (k : Nat) (logBad : Bool) : Dev :=
  let b := d.aon.boot
  let d := { d with aon := { d.aon with boot := { b with failStep := k } } }
  let d := d.endAttempt ocFailed logBad
  { d with aon := { d.aon with series := d.aon.series + 1, altFw := k == 4, altHbm := k == 11, skipPorts := b.portFail, retryDue := true } }

/-- The attempt ends in safe mode (R464): only the always-on domain, PCIe and the RTP run. -/
def Dev.toSafe (d : Dev) (logBad : Bool) : Dev :=
  ({ d with aon := { d.aon with safe := true } }).endAttempt ocSafe logBad

/-- The attempt ends in `READY`: the series counter and every alternative and skip cleared. -/
def Dev.toReady (d : Dev) (logBad : Bool) : Dev :=
  let d := { d with aon := { d.aon with ready := true, series := 0, altFw := false, altHbm := false, skipPorts := 0, laneAlt := 0 } }
  d.endAttempt ocReady logBad

/-- The attempt goes to safe mode after step 8: its fourth of a series, or a life-cycle state without boot (R420, R463). -/
def Dev.safeBound (d : Dev) : Bool := d.aon.attempt == 4 || lcShut d.lc.inForce

/-- The step in progress. -/
def Dev.atStep (d : Dev) (k : Nat) : Dev := { d with aon := { d.aon with boot := { d.aon.boot with step := k } } }

/-- What follows a step that has ended. -/
def Dev.afterStep (d : Dev) (b : BootOp) (k code : Nat) (e : StepEnd) (go : Dev → Dev) : Dev :=
  let d := d.stepEntry k code
  match e with
  | .go => if k = 8 && d.safeBound then d.toSafe b.logBad else if 15 ≤ k then d.toReady b.logBad else go d
  | .fail => d.attemptFails k b.logBad
  | .halt =>
    let r := d.aon.boot
    let d := ({ d with aon := { d.aon with boot := { r with failStep := k } } }).endAttempt ocHalted b.logBad
    { d with aon := { d.aon with series := d.aon.series + 1, altFw := false, altHbm := false, skipPorts := 0 } }

/-- Steps run in order from the first of the list; the attempt stays at a step that does not end, and at `PCIE` while PERST_N is low. -/
def Dev.bootSteps (f : Fuses) (b : BootOp) : List Nat → Dev → Dev
  | [], d => d
  | k :: r, d =>
    let d := d.atStep k
    if b.hang = some k || (k == 8 && d.aon.perstLow) then d
    else
      let x := d.bootStep f b k
      x.2.2.afterStep b k x.1 x.2.1 (Dev.bootSteps f b r)

/-- The steps from a number on. -/
def stepsFrom (k : Nat) : List Nat := (List.range 16).filter (fun i => decide (k ≤ i) && i != 0)

/-- The attempt has taken `dur` ns more. -/
def Dev.moreBoot (d : Dev) (b : BootOp) : Dev :=
  let r := d.aon.boot
  { d with aon := { d.aon with boot := { r with elapsed := r.elapsed + b.dur } } }

/-- An attempt in progress ends `ABORTED`, its step with it (R459); how long it waited at its step is not known here: a free value. -/
def Dev.abortAttempt (d : Dev) (logBad : Bool) : Dev :=
  if d.aon.boot.step = 0 then d else 
    (((d.stepEntry d.aon.boot.step rsAborted).moreBoot { dur := d.freeVal }).tick).endAttempt ocAborted logBad

/-- An attempt that a halt from outside its steps meets ends `HALTED` there (R459, R469); its time is a free value as above. -/
def Dev.haltedBoot (d : Dev) : Dev :=
  if d.aon.halted && d.aon.boot.step != 0 then
    (((d.stepEntry d.aon.boot.step rsAborted).moreBoot { dur := d.freeVal }).tick).endAttempt ocHalted false
  else d

/-- The core is released from reset once no sequencing error holds it and, after a thermal trip, every junction reads at or below 95 °C (R502, R514). -/
def Dev.tripHeld (d : Dev) : Bool := d.aon.halted && d.aon.halt.cause == 0x13 && !d.therm.cool

/-- A start (R459): an attempt in progress is aborted, everything but what R460 keeps is lost, HALT_N is released, and the steps run. -/
def Dev.start (f : Fuses) (d : Dev) (b : BootOp) (trigger : Nat) (cold : Bool) : Dev :=
  let d := (d.abortAttempt b.logBad).coreReset cold
  let n := min 4 (d.aon.series + 1)
  let d := { d with aon := { d.aon with halted := false, attempt := n, retryDue := false, due := none, warmPending := false, tripHold := false,
                                        boot := { elapsed := b.dur, trigger := trigger, cold := cold } } }
  ({ d with now := 0 } : Dev).bootSteps f b (stepsFrom 1)

/-- A start as soon as nothing holds the core; until then it waits (R458, R502, R514). -/
def Dev.tryStart (f : Fuses) (d : Dev) (b : BootOp) (trigger : Nat) (cold : Bool) : Dev :=
  if d.aon.sysRstLow || (List.range 5).any (fun i => tabGet natDflt d.aon.pg i == 0) || d.aon.seqErr then
    { d with aon := { d.aon with due := some (trigger, cold) } }
  else if d.tripHeld then
    { d.orReg pgTel 0 0x102C 0x10 with aon := { d.aon with due := some (trigger, cold), tripHold := true } }
  else d.start f b trigger cold

/-- A start that was waiting begins when its conditions are met: SYS_RST_N high, every core power-good present (R458). -/
def execPowerOn (b : BootOp) (now : Nat) (s : State) : Host.Outcome State Fault Refusal :=
  onDev s (fun d => (d.at now).whenAon (fun d =>
    match d.aon.due with
    | some t => d.tryStart s.fuses b t.1 t.2
    | none => d))

/-- SYS_RST_N is released after being asserted: a cold attempt, trigger 1. -/
def execSysRstNRelease (b : BootOp) (now : Nat) (s : State) : Host.Outcome State Fault Refusal :=
  onDev s (fun d => (d.at now).whenAon (fun d =>
    if d.aon.sysRstLow then
      let d := { d with aon := { d.aon with sysRstLow := false }, tap := if d.tap.ir = 0 || d.tap.ir = 3 || d.tap.ir = 4 then { d.tap with ir := 1 } else d.tap }
      d.tryStart s.fuses b 1 true
    else d))

/-- SYS_RST_N goes low: the core is held in reset at once. -/
def execSysRstNAssert (now : Nat) (s : State) : Host.Outcome State Fault Refusal :=
  onDev s (fun d => (d.at now).whenAon (fun d => { d.coreReset true with aon := { (d.coreReset true).aon with sysRstLow := true, retryDue := false } }))

/-- A core power-good falls (R458, R502): the core's state is lost, and the start that follows its return has trigger 2. -/
def Dev.pgLoss (d : Dev) (rail : Nat) : Dev :=
  if tabGet natDflt d.aon.pg rail = 0 then d
  else
    let used := d.aon.ready || d.aon.safe || d.aon.halted || d.aon.boot.step != 0
    let d := if used then (d.coreReset true).orReg pgTel 0 0x102C 4 else d
    { d with aon := { d.aon with pg := tabPut natDflt d.aon.pg rail 0, retryDue := false, due := if used then some (2, true) else d.aon.due } }

/-- A core power-good input falls: 0 PG_CORE, 1 PG_SRAM, 2 PG_SERDESA, 3 PG_SERDESH, 4 PG_HBM. -/
def execPowerGoodLoss (rail now : Nat) (s : State) : Host.Outcome State Fault Refusal :=
  onDev s (fun d => (d.at now).whenAon (fun d => if rail < 5 then d.pgLoss rail else d))

/-- Power-good inputs rise in one ACLK cycle (R502): their rank is one more than the inputs already up; one that rises before an input that Table 4
places earlier is a sequencing error, which holds the core. -/
def Dev.pgRise (d : Dev) (rails : List Nat) : Dev :=
  let rs := (List.range 5).filter (fun r => rails.contains r && tabGet natDflt d.aon.pg r == 0)
  let rank := d.aon.pg.length + 1
  let pg := rs.foldl (fun t r => tabPut natDflt t r rank) d.aon.pg
  let bad := rs.any (fun r => (List.range r).any (fun q => tabGet natDflt pg q == 0))
  let d := { d with aon := { d.aon with pg := pg, seqErr := d.aon.seqErr || bad } }
  if bad then d.orReg pgTel 0 0x102C 2 else d

/-- A power-good input rises and its order is recorded. -/
def execPgRise (rails : List Nat) (now : Nat) (s : State) : Host.Outcome State Fault Refusal :=
  onDev s (fun d => (d.at now).whenAon (fun d => d.pgRise rails))

/-- Every power-good input has been low together for 1 ms: the hold of a sequencing error clears (R502). -/
def execSeqHoldRelease (now : Nat) (s : State) : Host.Outcome State Fault Refusal :=
  onDev s (fun d => (d.at now).whenAon (fun d => if d.aon.pg.isEmpty then { d with aon := { d.aon with seqErr := false } } else d))

/-- PERST_N is asserted: PCIe is in reset, and after `READY` or in safe mode a warm attempt starts when it is released (R459, R492). -/
def execPerstNAssert (now : Nat) (s : State) : Host.Outcome State Fault Refusal :=
  onDev s (fun d => (d.at now).whenAon (fun d =>
    { d with aon := { d.aon with perstLow := true, pcieUp := false, warmPending := d.aon.warmPending || d.aon.ready || d.aon.safe } }))

/-- PERST_N is released: the pending warm attempt starts, or the attempt that waited at `PCIE` goes on. -/
def execPerstNRelease (b : BootOp) (now : Nat) (s : State) : Host.Outcome State Fault Refusal :=
  onDev s (fun d => (d.at now).whenAon (fun d =>
    let d := { d with aon := { d.aon with perstLow := false } }
    if d.aon.warmPending then d.tryStart s.fuses b 3 false
    else if d.aon.boot.step = 8 && !d.aon.halted then ((d.at (d.now + b.dur)).moreBoot b).bootSteps s.fuses b (stepsFrom 8)
    else d))

/-- A write to `BOOT_CTL` (R459, R464, R473): `WARM` starts a warm attempt; with `CLEAR_SERIES` the series counter is cleared first. -/
def Dev.bootCtl (f : Fuses) (d : Dev) (b : BootOp) (port v : Nat) : Dev :=
  if port ≠ portPf && port ≠ portBmc && port ≠ portJtag then d.logErr port pgBoot 0x1058 .port v
  else if !bit v 0 then d
  else
    let d := if bit v 1 then { d with aon := { d.aon with series := 0, altFw := false, altHbm := false, skipPorts := 0, laneAlt := 0 } } else d
    d.tryStart f b 4 false

/-- `BOOT_CTL.WARM` is written. -/
def execBootCtlWarm (port : Nat) (b : BootOp) (now : Nat) (s : State) : Host.Outcome State Fault Refusal :=
  onDev s (fun d => (d.at now).whenAon (fun d => d.bootCtl s.fuses b port 1))

/-- `CLEAR_SERIES` is written with `WARM`: a warm attempt at series attempt 1. -/
def execClearSeries (port : Nat) (b : BootOp) (now : Nat) (s : State) : Host.Outcome State Fault Refusal :=
  onDev s (fun d => (d.at now).whenAon (fun d => d.bootCtl s.fuses b port 3))

/-- 100 ms after a failed attempt the always-on domain starts a retry on the failed attempt's profile (R462). -/
def execBootRetry (b : BootOp) (now : Nat) (s : State) : Host.Outcome State Fault Refusal :=
  onDev s (fun d => (d.at now).whenAon (fun d => if d.aon.retryDue && !d.aon.halted then d.tryStart s.fuses b 5 d.aon.boot.cold else d))

/-- The step in progress reaches its limit (R461, R462): a required step fails the attempt, an optional one is recorded and the attempt goes on. -/
def Dev.stepTimeout (f : Fuses) (d : Dev) (b : BootOp) : Dev :=
  let k := d.aon.boot.step
  let d0 := d
  let d := (if 7 < k then d.at (d.now + b.dur) else d).moreBoot b
  if k = 0 || d.aon.halted then d0
  else if k = 2 then (d.halt 0x12 0 0 0 0).afterStep b k rsTimeout .halt id
  else if k = 3 then (d.halt 0x11 (b.romBad.getD 0) 0 0 0).afterStep b k rsTimeout .halt id
  else if k = 6 || k = 13 || k = 14 then
    let x := if k = 6 then (rsTimeout, StepEnd.go, { d with aon := { d.aon with noOpcfg := true, portsOp := 0, ethOp := 0 } }) else d.bootStep f b k
    x.2.2.afterStep b k rsTimeout .go (Dev.bootSteps f b (stepsFrom (k + 1)))
  else d.afterStep b k rsTimeout .fail id

/-- A boot step still running at its limit fails with `TIMEOUT`. -/
def execBootStepTimeout (b : BootOp) (now : Nat) (s : State) : Host.Outcome State Fault Refusal :=
  onDev s (fun d => (d.at now).whenAon (fun d => d.stepTimeout s.fuses b))

/-! ### The rollback floor (R465) -/

/-- The code that commits the floor. -/
def svnCode : Nat := 0x53564E43

/-- Bits of the floor's fuse word that a commit to `svn` programs: the lowest that are zero. -/
def svnTodo (w svn : Nat) : List Nat := ((List.range 64).filter (fun i => !bit w i)).take (svn - svnFloor w)

/-- A write to `BOOT_SVN_COMMIT`: the floor rises to the running image's `SVN`; `lost`: power is lost after that many bits. -/
def svnCommit (f : Fuses) (d : Dev) (port v : Nat) (lost : Option Nat) : Fuses × Dev :=
  if !d.aon.aonUp then (f, d)
  else if port ≠ portPf && port ≠ portBmc && port ≠ portJtag then (f, d.logErr port pgBoot 0x105C .port v)
  else if v ≠ svnCode then (f, d.logErr port pgBoot 0x105C .value v)
  else if !d.sec.coreA then (f, d)
  else
    let todo := svnTodo f.svnWord d.aon.svnRunning
    ({ f with svnWord := blow 0 f.svnWord (match lost with | some n => todo.take n | none => todo) }, d)

/-- The firmware rollback floor is committed. -/
def execBootSvnCommit (port value : Nat) (lost : Option Nat) (now : Nat) (s : State) : Host.Outcome State Fault Refusal :=
  let r := svnCommit s.fuses (s.dev.at now) port value lost
  .next { s with fuses := r.1, dev := r.2 }

/-! ### The always-on and battery domains (R458, R460, R506, R507) -/

/-- The always-on domain leaves its power-on reset, samples the management straps and waits for a power-on start. -/
def execAlwaysOnResetRelease (i3c : Bool) (addr now : Nat) (s : State) : Host.Outcome State Fault Refusal :=
  onDev s (fun d =>
    let d := d.at now
    if d.aon.aonUp then d else { d with aon := { aonUp := true, i3c := i3c, mgmtAddr := 0x58 + addr % 4 } })

/-- VDD_AON or VDDIO_1V8 fails: the core's state and everything the always-on domain held are lost. -/
def execVddAonLoss (now : Nat) (s : State) : Host.Outcome State Fault Refusal :=
  onDev s (fun d =>
    let d := (d.at now).coreReset true
    { d with aon := { aonUp := false, due := none }, regs := d.regs.filter (fun e => e.1 == rk pgAttic 0 0x1000), dbg := {}, lc := {}, therm := {} })

/-- The battery domain's oscillator starts (R506); where VBAT had been removed, the domain starts empty (R389, R470). -/
def execOscillatorStart (applied : Bool) (now : Nat) (s : State) : Host.Outcome State Fault Refusal :=
  onDev s (fun d =>
    let d := d.at now
    { d with batt := if applied then { osc := true } else { d.batt with osc := true } })

end Sys2Proof.Machine
end

