-- ==== Sys2Proof/Machine/Keys.lean ====
section
/-! DEFINITION. The key cupboard (R397 to R404): slots created, imported, revoked, zeroized, their decks derived; link pairing (R405). -/
namespace Sys2Proof.Machine

/-! ### KEY_CREATE and KEY_DELIVER (R398, R529) -/

/-- The lowest `EMPTY` slot that no import reserves. -/
def Dev.freeKey (d : Dev) : Option Nat :=
  (lowestFrom (fun k => (d.key k).state == .empty && !d.sec.awaiting.any (fun a => a.slot == k)) 1 4095)

/-- Slots of a hoop in use or reserved. -/
def Dev.keysHeld (d : Dev) (h : Nat) : Nat := d.keysOf h + (d.sec.awaiting.filter (fun a => a.hoop == h)).length

/-- A slot becomes `ACTIVE` at phase 0, at the generation it holds. -/
def Dev.activate (d : Dev) (k usage h owner limit base : Nat) (imported : Bool) : Dev :=
  d.setKey k { state := .active, usage := usage, hoop := h, gen := (d.key k).gen, base := base, owner := owner, limit := limit, imported := imported }

/-- The response of KEY_CREATE: index and generation. -/
def slotResponse (k gen : Nat) : List Byte := toBytes 8 (k % 4096 + gen % 16 * 4096)

/-- KEY_CREATE's body is out of range (R398, R529). -/
def Dev.keyBodyBad (d : Dev) (bs : List Byte) : Bool :=
  let usage := bytesNat bs 32 1
  let owner := bytesNat bs 33 1
  let limit := bytesNat bs 40 8
  bs.length != 48 || usage == 0 || decide (5 < usage) || decide (8 < owner) || decide (1 < bytesNat bs 34 1) || bytesNat bs 35 5 != 0 ||
  (if usage = useCiph then limit == 0 || decide (2 ^ 32 < limit) else limit != 0) || (owner != 0 && !(d.ownersOf (reqHoop bs)).contains owner) ||
  (bytesNat bs 34 1 == 1 && decide (usage < useFile))

/-- What the life-cycle state holds against a new slot (R390, R420). -/
def Dev.keyLcErrs (d : Dev) (imported : Bool) : List Status :=
  (if lcShut d.lc.inForce || (imported && d.lc.inForce != lcManufactured && d.lc.inForce != lcSecured) then [.lcInvalid] else []) ++
  (if (d.lc.inForce == lcManufactured || d.lc.inForce == lcSecured) && d.batt.root.isNone then [.authRequired] else [])

/-- KEY_CREATE: a generated slot is active at once; an imported one waits for its KEY_DELIVER. -/
def keyCreateWork (r : RtpReq) (bs : List Byte) (d : Dev) : RtpWork :=
  let h := reqHoop bs
  let imp := bytesNat bs 34 1 == 1
  let k := d.freeKey.getD 0
  { errs := badIf (d.keyBodyBad bs) ++ (if d.freeKey.isNone || decide ((d.hoop h).inForce.keys ≤ d.keysHeld h) then [.rejectNoCapacity] else []) ++
      d.keyLcErrs imp,
    resp := slotResponse k (d.key k).gen, wait := imp,
    run := fun d =>
      if imp then
        { d with sec := { d.sec with awaiting := d.sec.awaiting ++ [({ slot := k, resp := bytesNat bs 8 8, time := d.now, req := r, hoop := h,
                                                                       usage := bytesNat bs 32 1, owner := bytesNat bs 33 1, limit := bytesNat bs 40 8 } : AwaitKey)] } }
      else (d.ticks 32).activate k (bytesNat bs 32 1) h (bytesNat bs 33 1) (bytesNat bs 40 8) (beNat (d.freeBytes 32)) false }

/-- KEY_CREATE creates a slot. -/
def execKeyCreate (now : Nat) (s : State) : Host.Outcome State Fault Refusal :=
  onDev s (fun d => (d.at now).whenLive (fun d => d.rtpServe 2 keyCreateWork))

/-- An import ends: its reservation is dropped. -/
def Dev.unawait (d : Dev) (slot : Nat) : Dev := { d with sec := { d.sec with awaiting := d.sec.awaiting.filter (fun a => a.slot != slot) } }

/-- 60 s in ns. -/
def deliverLife : Nat := 60000000000

/-- The session may deliver the secret: bound to the hoop, and to the owner where one is named, in time (R395, R398). -/
def deliverOk (b : SpdmSession) (a : AwaitKey) (now : Nat) : Bool :=
  (match b.bound with
    | some p => p.1 == a.hoop && (a.owner == 0 || a.owner == p.2)
    | none => false) && decide (now ≤ a.time + deliverLife)

/-- An import that fails: KEY_CREATE completes with `AUTH_REQUIRED` and the slot is `EMPTY` (R398). -/
def Dev.importFails (d : Dev) (a : AwaitKey) : Dev := (d.unawait a.slot).rtpEnd a.req Status.authRequired.code 0 []

/-- A secret delivered. -/
def Dev.deliver (d : Dev) (b : SpdmSession) (a : AwaitKey) (secret : List Byte) : Dev :=
  if deliverOk b a d.now then
    (((d.unawait a.slot).activate a.slot a.usage a.hoop a.owner a.limit (beNat (fit 32 secret)) true).rtpEnd a.req 0 a.resp
      (slotResponse a.slot (d.key a.slot).gen)).emit (.spdm b.mctp .ok [])
  else (d.importFails a).emit (.spdm b.mctp .unspecified [])

/-- KEY_DELIVER_TIMEOUT: 60 s passed with no KEY_DELIVER. -/
def execKeyDeliverTimeout (slot now : Nat) (s : State) : Host.Outcome State Fault Refusal :=
  onDev s (fun d =>
    let d := d.at now
    match d.sec.awaiting.find? (fun a => a.slot == slot) with
    | some a => if a.time + deliverLife < d.now then d.importFails a else d
    | none => d)

/-! ### Decks and drains (R400, R403) -/

/-- The RTP derives the deck of an active slot, and the phase that waited for it begins. -/
def Dev.deriveDeck (d : Dev) (k : Nat) : Dev :=
  let x := d.key k
  if x.state = .active && decide (1 ≤ x.usage) && decide (x.usage ≤ 4) && decide (x.phase < 255) && !x.deckReady && d.rtpUp then
    (d.setKey k { x with deckReady := true }).keyAtLimit k
  else d

/-- DECK_DERIVE at internal priority (R400). -/
def execDeckDerive (slot now : Nat) (s : State) : Host.Outcome State Fault Refusal :=
  onDev s (fun d => (d.at now).whenLive (fun d => d.deriveDeck slot))

/-- A slot starts to drain at the next generation (R282, R403). Revoke keeps its keys until writes in flight have landed; zeroize destroys them.
Entries of the model cache bound to it are dropped and link peers told (R195, R321). -/
def Dev.drainKey (d : Dev) (k : Nat) (keep : Bool) : Dev :=
  let x := d.key k
  let d := d.setKey k { x with state := .draining, gen := (x.gen + 1) % 16, deckReady := false, sweeping := false, prevKept := keep,
                               base := if keep then x.base else 0 }
  (d.mcDropKey k).unpairKey k

/-- KEY_REVOKE. -/
def keyRevokeWork (_ : RtpReq) (bs : List Byte) (d : Dev) : RtpWork :=
  let k := bytesNat bs 32 2
  { errs := badIf (bs.length != 40 || decide (4096 ≤ k) || bytesNat bs 34 6 != 0 || bytesNat bs 8 8 != 0 || bytesNat bs 16 4 != 0) ++
      (if d.ownSlot (reqHoop bs) (k % 4096) then [] else [.accessDenied]),
    run := fun d => if (d.key k).state = .draining then d else d.drainKey k true }

/-- KEY_REVOKE starts the drain of a slot. -/
def execKeyRevoke (now : Nat) (s : State) : Host.Outcome State Fault Refusal :=
  onDev s (fun d => (d.at now).whenLive (fun d => d.rtpServe 3 keyRevokeWork))

/-- Offset of `KEYS_ZEROIZE`, and of `KEYS_ZSTS`. -/
def oZeroize : Nat := 0x1008
def oZsts : Nat := 0x100C

/-- A zeroize that the port may ask for: PF and RTP any slot, a VF its own hoop's; neither slot 0 nor an `EMPTY` slot (R403). -/
def Dev.mayZeroize (d : Dev) (port k : Nat) : Bool :=
  k != 0 && (d.key k).state != .empty && (port == portPf || port == portRtp || (portIsFunc port && d.vfHoop port == some (d.key k).hoop))

/-- A write to `KEYS_ZEROIZE` (R403): by hardware, without the RTP. -/
def Dev.zeroize (d : Dev) (port v : Nat) : Dev :=
  let k := v % 4096
  if !bit v 31 then d
  else if !d.mayZeroize port k then (d.logErr port pgKeys oZeroize .port v).setBankN pgKeys port oZsts Status.accessDenied.code
  else (if (d.key k).state = .draining then d else d.drainKey k false).setBankN pgKeys port oZsts 0

/-- A write to `KEYS_ZEROIZE` destroys a slot's keys and drains it. -/
def execKeysZeroize (port value now : Nat) (s : State) : Host.Outcome State Fault Refusal :=
  onDev s (fun d => if d.aon.ready then (d.at now).zeroize port value else d.at now)

/-! ### Link pairing (R405) -/

/-- A pairing entry of a port serves a slot that is still the one it was made for. -/
def Dev.pairLive (d : Dev) (p i : Nat) : Bool :=
  let e := tabGet pairDflt (d.lk p).pairs i
  e.valid && (d.key e.slot).state != .empty && (d.key e.slot).state != .draining

/-- A pairing in progress holds the entry. -/
def Dev.pairPending (d : Dev) (p i : Nat) : Bool := d.sec.pairs.any (fun x => x.linkPort == p && x.pairing == i)

/-- The KEYX of this device: its ECDH key, then its encapsulation key, or the ciphertext it encapsulated; its digest; its alias signatures. -/
def Dev.sendKeyx (d : Dev) (serial : Nat) (w : PairWait) (ct : Option (List Byte)) : Dev :=
  let ec := Config.ecdsaPublic w.ecSeed
  let kem := ct.getD (Config.mlkemPublic w.kemSeed)
  let pol := d.policyDigest (d.key w.slot).hoop
  d.sendCtl w.linkPort ctlKeyx [w.peerPairing, w.pairing, serial, (d.key w.slot).gen, beNat ec, b2n ct.isSome, beNat kem, beNat pol,
    beNat (d.aliasSign serial (ec ++ kem ++ pol))]

/-- A pairing in progress ends with a status. -/
def Dev.pairEnd (d : Dev) (w : PairWait) (st : Nat) : Dev :=
  { d with sec := { d.sec with pairs := d.sec.pairs.filter (fun x => !(x.linkPort == w.linkPort && x.pairing == w.pairing)) } }.rtpEnd w.req st 0 []

/-- The base secret of a pairing: both serials in increasing order and both pairing ids in that order as context. -/
def pairBase (serial : Nat) (w : PairWait) (dh kem : List Byte) : List Byte :=
  let mine := (toBytes 8 serial, toBytes 2 w.pairing)
  let its := (toBytes 8 w.peerSerial, toBytes 2 w.peerPairing)
  let c := if serial ≤ w.peerSerial then mine.1 ++ its.1 ++ mine.2 ++ its.2 else its.1 ++ mine.1 ++ its.2 ++ mine.2
  kdf (dh ++ kem) "HT-PAIR" c 256

/-- The pairing is agreed: both entries written with phase 0 (R320, R405). -/
def Dev.pairDone (d : Dev) (w : PairWait) (peerGen : Nat) (base : List Byte) : Dev :=
  let x := d.lk w.linkPort
  let e : Pairing := { valid := true, slot := w.slot, txGen := (d.key w.slot).gen, rxGen := peerGen % 16, peer := w.peerPairing, base := base }
  (d.setLk w.linkPort { x with pairs := tabPut pairDflt x.pairs w.pairing e }).pairEnd w 0

/-- The pairing in progress, its peer's offer kept. -/
def Dev.keepOffer (d : Dev) (w : PairWait) (m : KeyxMsg) : Dev :=
  { d with sec := { d.sec with pairs := d.sec.pairs.map (fun x => if x = w then { x with offer := some m } else x) } }

/-- A peer's KEYX for a pairing in progress. The device with the lower pair of R310 encapsulates. -/
def Dev.keyxTake (d : Dev) (serial : Nat) (w : PairWait) (m : KeyxMsg) : Dev :=
  let h := (d.key w.slot).hoop
  if (d.lk w.linkPort).state != .active then d.pairEnd w Status.linkDown.code
  else if !m.good || ((d.hoop h).isSealed && m.policy != d.policyDigest h) then d.pairEnd w Status.authRequired.code
  else if (d.key w.slot).state != .active then d.pairEnd w Status.keyRevoked.code
  else if (d.lk w.linkPort).leader then
    if m.ct then d
    else
      let e := Config.mlkemEncap m.kem (d.freeBytes 32)
      ((d.ticks 32).sendKeyx serial w (some e.2)).pairDone w m.gen (pairBase serial w (Config.ecdh w.ecSeed m.ec) e.1)
  else if !m.ct then d.keepOffer w m
  else match w.offer with
    | some o => d.pairDone w o.gen (pairBase serial w (Config.ecdh w.ecSeed o.ec) (Config.mlkemDecap w.kemSeed m.kem))
    | none => d

/-- The message is for the pairing. -/
def keyxFor (w : PairWait) (p : Nat) (m : KeyxMsg) : Bool :=
  w.linkPort == p && w.pairing == m.pairing && w.peerPairing == m.peerPairing && w.peerSerial == m.serial

/-- A KEYX message: for a pairing in progress, or kept until the local request comes (R405). -/
def Dev.keyx (d : Dev) (serial p : Nat) (m : KeyxMsg) : Dev :=
  match d.sec.pairs.find? (fun w => keyxFor w p m) with
  | some w => d.keyxTake serial w m
  | none =>
    if m.ct then d
    else { d with sec := { d.sec with offers := d.sec.offers.filter (fun o => !(o.1 == p && o.2.pairing == m.pairing)) ++ [(p, m)] } }

/-- A KEYX message arrives on a port. -/
def execKeyx (lport : Nat) (msg : KeyxMsg) (now : Nat) (s : State) : Host.Outcome State Fault Refusal :=
  onDev s (fun d => (d.at now).whenLive (fun d => if (d.lk lport).vc0 && d.rtpUp then d.keyx s.fuses.serial lport msg else d))

/-- PAIR_LINK opens a pairing: it sends this device's KEYX and takes the peer's where it is already here. -/
def Dev.pairOpen (d : Dev) (serial : Nat) (w : PairWait) : Dev :=
  let w := { w with ecSeed := d.freeBytes 48, kemSeed := (d.ticks 48).freeBytes 64 }
  let d := d.ticks 112
  let d := ({ d with sec := { d.sec with pairs := d.sec.pairs ++ [w] } } : Dev).sendKeyx serial w none
  match d.sec.offers.find? (fun o => keyxFor w o.1 o.2) with
  | some o => ({ d with sec := { d.sec with offers := d.sec.offers.filter (· != o) } } : Dev).keyxTake serial w o.2
  | none => d

/-- PAIR_LINK. -/
def pairLinkWork (serial lport slot pairing peerPairing peerSerial : Nat) (r : RtpReq) (bs : List Byte) (d : Dev) : RtpWork :=
  { errs := badIf (decide (15 < lport) || decide (1024 ≤ pairing) || decide (1024 ≤ peerPairing)) ++
      (d.keyCheck (reqHoop bs) useLink slot (d.key slot).gen).toList ++
      (if (d.lk lport).state == .active then [] else [.linkDown]) ++
      (if d.pairLive lport pairing || d.pairPending lport pairing then [.rejectNoCapacity] else []) ++ (if d.hasIdentity then [] else [.authRequired]),
    wait := true,
    run := fun d => d.pairOpen serial { linkPort := lport, slot := slot, pairing := pairing, peerPairing := peerPairing, peerSerial := peerSerial,
                                        time := d.now, req := r } }

/-- PAIR_LINK pairs a link slot with a peer device. -/
def execPairLink (lport slot pairing peerPairing peerSerial now : Nat) (s : State) : Host.Outcome State Fault Refusal :=
  onDev s (fun d => (d.at now).whenLive (fun d => d.rtpServe 6 (pairLinkWork s.fuses.serial lport slot pairing peerPairing peerSerial)))

/-- PAIR_LINK_TIMEOUT: no matching request of the peer within 10 s. -/
def execPairLinkTimeout (lport pairing now : Nat) (s : State) : Host.Outcome State Fault Refusal :=
  onDev s (fun d =>
    let d := d.at now
    match d.sec.pairs.find? (fun w => w.linkPort == lport && w.pairing == pairing) with
    | some w => if w.time + 10000000000 < d.now then d.pairEnd w Status.groupTimeout.code else d
    | none => d)

end Sys2Proof.Machine
end

