-- ==== Sys2Proof/Machine/Cipher.lean ====
section
/-! DEFINITION. The cipher engine (R406 to R409, R418): its queues, doorbells, requests and completion records. -/
namespace Sys2Proof.Machine

/-! ### Queues (R409) -/

/-- A register of a hoop's CIPHU page. -/
def Dev.cu (d : Dev) (h off : Nat) : Nat := d.regN (pgCiphu + h) 0 off

/-- A port sees the CIPHU page of a hoop: the PF, the RTP and the hoop's VF (R406). -/
def Dev.seesCiphu (d : Dev) (port h : Nat) : Bool :=
  port == portPf || port == portRtp || (portIsFunc port && d.vfHoop port == some h)

/-- Binary logarithm of a queue's size, and its context. -/
def Dev.cuLog2 (d : Dev) (h : Nat) : Nat := fld (d.cu h 0x1000) 11 8
def Dev.cuCtx (d : Dev) (h : Nat) : Nat := fld (d.cu h 0x1000) 23 12

/-- A bit of `CIPHU_FLAGS` set. -/
def Dev.cuFlag (d : Dev) (h b : Nat) : Dev := d.orReg (pgCiphu + h) 0 0x1028 (2 ^ b)

/-- Descriptors of a queue already taken. -/
def Dev.cuTaken (d : Dev) (h : Nat) : Nat := tabGet natDflt d.sec.cipherDecided h

/-- A write to `CIPHU_TAIL`: the doorbell, under R267's rules of a `RING` queue. -/
def Dev.cipherTail (d : Dev) (port h v : Nat) : Dev :=
  let t := v % 2 ^ 32
  let adv := (t + 2 ^ 32 - d.cu h 0x1014) % 2 ^ 32
  if !d.seesCiphu port h then d
  else if !bit (d.cu h 0x1000) 0 || adv == 0 then d.cuFlag h 1
  else if decide (64 < adv) || decide (2 ^ d.cuLog2 h < (t + 2 ^ 32 - d.cu h 0x101C) % 2 ^ 32) then d.cuFlag h 0
  else d.setRegN (pgCiphu + h) 0 0x1014 t

/-- A write to `CIPHU_TAIL` is the doorbell of a hoop's cipher queue. -/
def execCiphuTail (port hoop value now : Nat) (s : State) : Host.Outcome State Fault Refusal :=
  onDev s (fun d => (d.at now).whenLive (fun d => if hoop < 16 then d.cipherTail port hoop value else d))

/-! ### Requests (R407 Table 11) -/

/-- A cipher request. -/
structure CReq where
  op : Nat
  key : Nat
  gen : Nat
  phase : Nat
  src : Nat
  dst : Nat
  len : Nat
  aadLen : Nat
  aad : Nat
  ivFix : List Byte
  iv : List Byte
  tag : Nat
  bad : Bool

/-- Operation codes. -/
def opGcmEnc : Nat := 1
def opGcmDec : Nat := 2
def opSha : Nat := 3
def opHmac : Nat := 4

/-- A descriptor read; `bad` when a reserved field is not zero or a length is out of range. -/
def creqOf (b : List Byte) : CReq :=
  let op := bytesNat b 0 1
  { op := op, key := bytesNat b 2 2 % 4096, gen := bytesNat b 2 2 / 4096, phase := bytesNat b 4 1, src := bytesNat b 8 8, dst := bytesNat b 16 8,
    len := bytesNat b 24 4, aadLen := bytesNat b 28 4, aad := bytesNat b 32 8, ivFix := (b.drop 40).take 4, iv := (b.drop 44).take 12,
    tag := bytesNat b 56 8,
    bad := op == 0 || decide (4 < op) || bytesNat b 1 1 != 0 || bytesNat b 5 3 != 0 || (op == 3 && bytesNat b 2 2 != 0) ||
      (op != 2 && (bytesNat b 4 1 != 0 || bytesNat b 44 12 != 0)) || (op != 1 && bytesNat b 40 4 != 0) ||
      decide (2 ^ 24 < bytesNat b 24 4) || decide (65536 < bytesNat b 28 4) }

/-- SCLK cycles of a request (R408 Table 12). -/
def CReq.cycles (q : CReq) : Nat :=
  if q.op = opSha then 48 + 40 * cdiv (q.len + 17) 128
  else if q.op = opHmac then 128 + 40 * cdiv (q.len + 17) 128
  else 64 + cdiv (q.aadLen + q.len) 16

/-- What the slot holds against a request (R402, R407): the codes that apply. A GCM_ENC or HMAC384 of a phase that is spent is `KEY_EXHAUSTED`. -/
def Dev.creqKeyErrs (d : Dev) (h : Nat) (q : CReq) : List Status :=
  if q.op = opSha then []
  else
    (d.keyCheck h (d.key q.key).usage q.key q.gen).toList ++
    badIf ((d.key q.key).state != .empty && (d.key q.key).usage != useCiph) ++
    (if q.op != opGcmDec && (d.key q.key).usage == useCiph && (d.key q.key).state != .empty && d.keySpent q.key then [.keyExhausted] else [])

/-- The working key of a phase (R392 Table 4), and as the bytes of an HMAC key. -/
def Dev.ciphKey (d : Dev) (k phase : Nat) : List Byte := kdf (beBytes 32 (d.key k).base) "HT-CIPH" (beBytes 1 phase) 256

/-- The IV of a request: its own for GCM_DEC; for GCM_ENC the fixed field and the phase's count. -/
def Dev.creqIv (d : Dev) (q : CReq) : List Byte :=
  if q.op = opGcmDec then q.iv else if q.op = opGcmEnc then q.ivFix ++ toBytes 8 (d.key q.key).uses else List.replicate 12 0

/-- What a request reads: input, and for GCM its associated data, and a tag to compare. -/
def Dev.creqReads (d : Dev) (c : Nat) (q : CReq) : List RdAns :=
  [d.readVa c q.src q.len] ++ (if q.op ≤ 2 then [d.readVa c q.aad q.aadLen] else []) ++ (if q.op = opGcmDec then [d.readVa c q.tag 16] else [])

/-- What a request writes: address and length. -/
def CReq.writes (q : CReq) : List (Nat × Nat) :=
  if q.op = opGcmEnc then [(q.dst, q.len), (q.tag, 16)] else if q.op = opGcmDec then [(q.dst, q.len)] else [(q.dst, 48)]

/-- The codes of the translations that fail (R216). -/
def Dev.creqFaults (d : Dev) (c : Nat) (q : CReq) : List Status :=
  (d.creqReads c q).filterMap RdAns.status ++ q.writes.filterMap (fun w => (d.reach c w.1 w.2 true).status)

/-- A source page of a joint hoop that no policy entry lets leave under the request's key (R415). -/
def Dev.creqEgressBad (d : Dev) (h c : Nat) (q : CReq) : Bool :=
  q.op == opGcmEnc && (match d.reach c q.src q.len false with
    | .ok ps => ps.any (fun p => !d.mayLeave h relCipher p.2.2 q.key 0)
    | _ => false)

/-- `DST` is left undefined by a request that faults: its pages that can be written hold free values (R408). -/
def Dev.creqUndefined (d : Dev) (c : Nat) (q : CReq) : Dev :=
  (q.writes.take 1).foldl (fun d w => (pieces w.1 w.2).foldl (fun (d : Dev) (p : Nat × Nat) => ((d.ticks p.2).writeVa c p.1 (d.freeBytes p.2)).1) d) d

/-- A GCM_DEC whose tag fails. -/
def Dev.tagBad (d : Dev) (c : Nat) (q : CReq) : Bool :=
  let r := d.creqReads c q
  let at' := fun (i : Nat) => ((r[i]?).map RdAns.bytes).getD []
  gcmTag (beNat (d.ciphKey q.key q.phase)) (beNat q.iv) (at' 1) (at' 0) != at' 2

/-- The output of a request that runs: what is written where. -/
def Dev.creqOut (d : Dev) (c : Nat) (q : CReq) : List (Nat × List Byte) :=
  let r := d.creqReads c q
  let src := ((r[0]?).map RdAns.bytes).getD []
  let aad := ((r[1]?).map RdAns.bytes).getD []
  let k := beNat (d.ciphKey q.key (if q.op = opGcmDec then q.phase else (d.key q.key).phase))
  let iv := beNat (d.creqIv q)
  if q.op = opGcmEnc then
    let ct := gcmCrypt k iv src
    [(q.dst, ct), (q.tag, gcmTag k iv aad ct)]
  else if q.op = opGcmDec then [(q.dst, if d.tagBad c q then List.replicate q.len 0 else gcmCrypt k iv src)]
  else if q.op = opSha then [(q.dst, digest src)]
  else [(q.dst, hmac384 (d.ciphKey q.key (d.key q.key).phase) src)]

/-! ### Completion (R408, R418) -/

/-- The 32-byte record of request `s`. -/
def creqRecord (log2 st phase s : Nat) (iv : List Byte) : List Byte :=
  toBytes 2 st ++ toBytes 1 phase ++ toBytes 1 (1 - s / 2 ^ log2 % 2) ++ toBytes 4 s ++ iv ++ List.replicate 12 0

/-- A counter of the CIPH page, of a hoop; bit 0 of the page's flags when it wraps. -/
def Dev.ciphBump (d : Dev) (h off n : Nat) : Dev :=
  let v := d.reg64 pgCiph h off
  let d := d.setReg64 pgCiph h off ((v + n) % 2 ^ 64)
  if 2 ^ 64 ≤ v + n then d.orReg pgCiph 0 0x1030 1 else d

/-- Engine time of a request: its hoop's slots, or those of another open hoop that lent them; stalls for masking bits lengthen it (R406, R418). -/
def Dev.cipherTime (d : Dev) (h cyc own lender stall : Nat) : Dev :=
  let total := cyc + stall
  let lent := if (d.hoop h).isSealed || (d.hoop lender).isSealed || lender == h || decide (15 < lender) then 0 else total - min own total
  let d := (d.ciphBump h 0x1010 (total - lent)).bumpRc pgCiph 0 0x102C stall
  let d := if lent = 0 then d else d.ciphBump lender 0x1018 lent
  if stall = 0 then d else d.orReg pgCiph 0 0x1030 2

/-- A request completes: its record, the counters, and the interrupt that a record written raises. -/
def Dev.creqEnd (d : Dev) (h c s st phase len : Nat) (iv : List Byte) : Dev :=
  let g := pgCiphu + h
  let a := d.cu h 0x100C + d.cu h 0x1010 % 65536 * 2 ^ 32 + 32 * (s % 2 ^ d.cuLog2 h)
  let w := d.writeVa c a (creqRecord (d.cuLog2 h) st phase s iv)
  let d := ((if w.2.isNone then w.1.setRegN g 0 0x1018 ((d.regN g 0 0x1018 + 1) % 2 ^ 32) else w.1.cuFlag h 2).bump64 g 0 0x1020 len 0x1028 3).ciphBump h 0x1020 1
  if bit (d.cu h 0x1000) 31 && w.2.isNone then d.emit (.msix (d.ctx c).func 0) else d

/-- The request runs, or completes with the code that applies. -/
def Dev.creqRun (d : Dev) (h c s own lender stall : Nat) (q : CReq) : Dev :=
  let errs := badIf q.bad ++ d.creqKeyErrs h q
  let phase := if q.op = opGcmDec then q.phase else if q.op = opSha then 0 else (d.key q.key).phase
  if !errs.isEmpty then d.creqEnd h c s (stAll errs) 0 0 (List.replicate 12 0)
  else
    let fl := d.creqFaults c q
    let d := d.cipherTime h q.cycles own lender stall
    if !fl.isEmpty then (d.creqUndefined c q).creqEnd h c s (stAll fl) phase 0 (List.replicate 12 0)
    else if d.creqEgressBad h c q then
      (d.creqEnd h c s Status.accessDenied.code phase 0 (List.replicate 12 0)).classC c none (causeOf .accessDenied) .accessDenied { unit := 9, addr := q.src }
    else
      let bad := q.op == opGcmDec && d.tagBad c q
      let iv := d.creqIv q
      let d := (d.creqOut c q).foldl (fun (d : Dev) (w : Nat × List Byte) => (d.writeVa c w.1 w.2).1) d
      let d := if q.op = opGcmEnc || q.op = opHmac then d.keyUse q.key 1 else d
      let d := if bad then d.bumpRc pgCiph 0 0x1028 1 else d
      d.creqEnd h c s (if bad then Status.authRequired.code else 0) phase q.len iv

/-- The head of a hoop's queue is served when it holds the row's operation. A descriptor that cannot be read or names no operation completes with
its code whichever row serves it (log entry 58). -/
def Dev.cipherServe (d : Dev) (op h own lender stall : Nat) : Dev :=
  let s := d.cuTaken h
  let c := d.cuCtx h
  if decide (15 < h) || !bit (d.cu h 0x1000) 0 || s == d.cu h 0x1014 || (d.ctx c).state != .active then d
  else
    let take := { d with sec := { d.sec with cipherDecided := tabPut natDflt d.sec.cipherDecided h ((s + 1) % 2 ^ 32) } }
    let r := d.readVa c (d.cu h 0x1004 + d.cu h 0x1008 % 65536 * 2 ^ 32 + 64 * (s % 2 ^ d.cuLog2 h)) 64
    match r.status with
    | some st => take.creqEnd h c s st.code 0 0 (List.replicate 12 0)
    | none =>
      let q := creqOf r.bytes
      if q.op == 0 || decide (4 < q.op) then take.creqEnd h c s Status.badDescriptor.code 0 0 (List.replicate 12 0)
      else if q.op ≠ op then d
      else take.creqRun h c s own lender stall q

/-- GCM_ENC: AES-256-GCM under a counted IV. -/
def execGcmEnc (hoop own lender stall now : Nat) (s : State) : Host.Outcome State Fault Refusal :=
  onDev s (fun d => (d.at now).whenLive (fun d => d.cipherServe opGcmEnc hoop own lender stall))

/-- GCM_DEC: decryption, the output zeros when the tag fails. -/
def execGcmDec (hoop own lender stall now : Nat) (s : State) : Host.Outcome State Fault Refusal :=
  onDev s (fun d => (d.at now).whenLive (fun d => d.cipherServe opGcmDec hoop own lender stall))

/-- SHA384: the digest of the input. -/
def execSha384 (hoop own lender stall now : Nat) (s : State) : Host.Outcome State Fault Refusal :=
  onDev s (fun d => (d.at now).whenLive (fun d => d.cipherServe opSha hoop own lender stall))

/-- HMAC384: the HMAC of the input under a slot's key. -/
def execHmac384 (hoop own lender stall now : Nat) (s : State) : Host.Outcome State Fault Refusal :=
  onDev s (fun d => (d.at now).whenLive (fun d => d.cipherServe opHmac hoop own lender stall))

end Sys2Proof.Machine
end

