-- ==== Sys2Proof/Machine/Debug.lean ====
section
/-! DEFINITION. Debug rights: certificates, the legacy challenge and response, halting lanes (R428 to R436). -/
namespace Sys2Proof.Machine

/-- A hoop's staged record authorises a grant of code 0x05 (R432): its parameters, the operator, and the owners named. -/
def Dev.grantRecord (d : Dev) (h : Nat) (params : List Byte) (owners : List Nat) : Bool :=
  match (d.hoopSec h).record with
  | none => false
  | some r => r.code == 0x05 && r.params == params && (0 :: owners).all (fun o => r.signers.contains o) && d.nonceGood h r.nonce

/-- Hoops of a scope. -/
def scopeHoops (scope : Nat) : List Nat := (List.range 16).filter (bit scope)

/-- In SECURED, what a grant's records lack (R432): the operator's against hoop 0 for an empty scope, else each hoop's. -/
def Dev.recordsMissing (d : Dev) (scope : Nat) (params : List Byte) : Bool :=
  d.lc.inForce == lcSecured &&
  (if scope = 0 then !d.grantRecord 0 params [] else (scopeHoops scope).any (fun h => !d.grantRecord h params (d.ownersOf h)))

/-- The records of a grant consumed, in SECURED. -/
def Dev.consumeGrant (d : Dev) (scope : Nat) : Dev :=
  if d.lc.inForce ≠ lcSecured then d
  else if scope = 0 then d.consume 0 else (scopeHoops scope).foldl Dev.consume d

/-- A certificate is malformed (R431 Table 6). -/
def certBad (c : List Byte) : Bool :=
  let r := bytesNat c 20 1
  c.take 8 != ascii "HTDBGCRT" || bytesNat c 8 4 != 0x00010000 || decide (0x3F < r) || (bit r 5 && r != 0x20) || bit (bytesNat c 21 1) 7 ||
  ((c.drop 32).take 32).any (· != 0) || ((c.drop 4787).take 13).any (· != 0) || c.length != 4800

/-- A certificate that is not for this device, state or boot, or not signed by Ezunvis (R431). -/
def Dev.certDenied (d : Dev) (serial : Nat) (c : List Byte) : Bool :=
  bytesNat c 12 8 != serial || !sigsVerify (Config.ezDebugEc, Config.ezDebugPq) (c.take 64) ((c.drop 64).take 96) ((c.drop 160).take 4627) ||
  !bit (bytesNat c 21 1) d.lc.inForce || decide (d.batt.bootCount < bytesNat c 24 4) || decide (bytesNat c 28 4 < d.batt.bootCount)

/-- Scan may be granted: no hoop but hoop 0, and no context in it (R429). -/
def Dev.scanFree (d : Dev) : Bool := (List.range 15).all (fun h => (d.hoop (h + 1)).state == .free) && d.ctxCount 0 == 0

/-- The RTP's queue of the port that brings a certificate has no room (R431); the TAP and the BMC have none. -/
def Dev.certFull (d : Dev) (port : Nat) : Bool := (port == portPf || port == portRtp) && decide (mbRoom port ≤ d.mbTaken port)

/-- The codes that apply to a certificate (R420, R429, R431, R432). -/
def Dev.certErrs (d : Dev) (serial : Nat) (full : Bool) (c : List Byte) : List Status :=
  badIf (certBad c || (bit (bytesNat c 20 1) 4 && !d.scanFree)) ++
  (if d.certDenied serial c || d.recordsMissing (bytesNat c 22 2) (digest (c.take 64)) then [.authRequired] else []) ++
  (if d.rtpUp && !full then [] else [.rtpBusy]) ++ (if lcShut d.lc.inForce then [.lcInvalid] else [])

/-- A certificate accepted: rights and scope in force become its own; an RMA certificate opens none; scan zeroizes every key first (R429, R431). -/
def Dev.certTake (d : Dev) (c : List Byte) : Dev :=
  let r := bytesNat c 20 1
  let sc := bytesNat c 22 2
  let d := d.consumeGrant sc
  let d := if bit r 4 then d.zeroizeKeys else d
  Dev.dbgSettle { d with dbg := { d.dbg with rights := r % 32, scope := sc, legacy := false, rmaCert := d.dbg.rmaCert || bit r 5,
                                             recorded := if d.lc.inForce = lcSecured then sc else 0,
                                             ended := d.dbg.ended &&& (0xFFFF ^^^ sc), scan := d.dbg.scan || bit r 4 } }

/-- A certificate from a PF buffer or the TAP: its status, and the device after it. -/
def Dev.enableCert (d : Dev) (serial : Nat) (full : Bool) (c : List Byte) : Status × Dev := opOr d (d.certErrs serial full c) (fun _ => (.ok, d.certTake c))

/-- Ports that operate the DBG page (R436). -/
def dbgPort (port : Nat) : Bool := port == portPf || port == portRtp || port == portBmc || port == portJtag

/-- A write to `DBG_OP`: code, context, logical tile. -/
def Dev.dbgOp (d : Dev) (port code ctx tile : Nat) (f : Dev → Status × Dev) : Dev :=
  let v := code + ctx % 4096 * 2 ^ 8 + tile % 128 * 2 ^ 20
  if !dbgPort port then d.logErr port pgDbg 0x1004 .port v
  else
    let d := d.setRegN pgDbg 0 0x1004 v
    let r := f d
    let d := if stSuccess r.1.code then r.2 else d
    d.setRegN pgDbg 0 0x1010 r.1.code

/-- A buffer of the PF context that an operation names (R431, R530). -/
def Dev.dbgBuffer (d : Dev) (ctx n : Nat) (f : List Byte → Status × Dev) : Status × Dev :=
  if (d.ctx ctx).state = .free || (d.ctx ctx).func != portPf then (.accessDenied, d)
  else
    let r := d.readVa ctx (d.reg64 pgDbg 0 0x1008) n
    match r.status with
    | some st => (st, d)
    | none => f r.bytes

/-- ENABLE: a debug certificate of 4,800 bytes. -/
def execDbgEnable (port ctx now : Nat) (s : State) : Host.Outcome State Fault Refusal :=
  onDev s (fun d => (d.at now).whenLive (fun d => d.dbgOp port 1 ctx 0 (fun d => d.dbgBuffer ctx 4800 (d.enableCert s.fuses.serial (d.certFull port)))))

/-- CHALLENGE: a fresh nonce (R434). -/
def Dev.challenge (d : Dev) : Status × Dev :=
  (.ok, { d.ticks 32 with dbg := { d.dbg with chal := d.freeBytes 32, chalTime := d.now, chalValid := true } })

/-- CHALLENGE draws a 32-byte legacy nonce. -/
def execDbgChallenge (port now : Nat) (s : State) : Host.Outcome State Fault Refusal :=
  onDev s (fun d => (d.at now).whenLive (fun d => d.dbgOp port 2 0 0 Dev.challenge))

/-- The codes that apply to a legacy response (R434). -/
def Dev.responseErrs (d : Dev) (serial : Nat) (sig : List Byte) : List Status :=
  (if d.lc.inForce = lcManufactured || d.lc.inForce = lcSecured then [] else [.lcInvalid]) ++
  (if d.dbg.chalValid && decide (d.now ≤ d.dbg.chalTime + nonceLife) &&
      Config.ecdsaVerify Config.ezLegacyEc (ascii "HT8100LG" ++ toBytes 8 serial ++ d.dbg.chal) sig &&
      !(d.lc.inForce == lcSecured && !d.grantRecord 0 (digest sig) []) then [] else [.authRequired])

/-- The legacy set granted: profile counters and trace, with an empty scope. -/
def Dev.legacyTake (d : Dev) : Dev :=
  let d := d.consumeGrant 0
  Dev.dbgSettle { d with dbg := { d.dbg with rights := 3, scope := 0, recorded := 0, legacy := true, chalValid := false } }

/-- A legacy response from a PF buffer or the TAP. -/
def Dev.legacyResponse (d : Dev) (serial : Nat) (sig : List Byte) : Status × Dev := opOr d (d.responseErrs serial sig) (fun _ => (.ok, d.legacyTake))

/-- The nonce is used by a response to it, accepted or not (log entry 60). -/
def Dev.spendChal (d : Dev) : Dev := { d with dbg := { d.dbg with chalValid := false } }

/-- RESPONSE verifies a legacy signature of 96 bytes. -/
def execDbgResponse (port ctx now : Nat) (s : State) : Host.Outcome State Fault Refusal :=
  onDev s (fun d => (d.at now).whenLive (fun d =>
    let e := d.dbgOp port 3 ctx 0 (fun d => d.dbgBuffer ctx 96 (d.legacyResponse s.fuses.serial))
    if dbgPort port then e.spendChal else e))

/-- REVOKE ends every right in force (R435). -/
def execDbgRevoke (port now : Nat) (s : State) : Host.Outcome State Fault Refusal :=
  onDev s (fun d => (d.at now).whenLive (fun d => d.dbgOp port 4 0 0 (fun d => (.ok, d.endDebug))))

/-- The lanes of a context on a logical tile halted or resumed. -/
def Dev.haltLanes (d : Dev) (c t : Nat) (on : Bool) : Dev :=
  (d.slotsOf c).foldl (fun (d : Dev) (p : Nat × Nat) =>
    if p.1 = t then d.setSlot p.1 p.2 { d.slot p.1 p.2 with halted := on } else d) d

/-- HALT or RESUME (R428, R429): where the right does not reach the context, discarded and logged; in interleave mode `BAD_DESCRIPTOR`. -/
def Dev.dbgHalt (d : Dev) (port code ctx tile : Nat) (on : Bool) : Dev :=
  let h := (d.ctx ctx).hoop
  if dbgPort port && ((d.ctx ctx).state == .free || !d.dbgReaches 2 h) then d.logErr port pgDbg 0x1004 .notVisible (code + ctx * 2 ^ 8 + tile * 2 ^ 20)
  else d.dbgOp port code ctx tile (fun d => if (d.hoop h).excl then (.ok, d.haltLanes ctx tile on) else (.badDescriptor, d))

/-- HALT stops a context's lanes on a tile at instruction boundaries. -/
def execDbgHalt (port ctx tile now : Nat) (s : State) : Host.Outcome State Fault Refusal :=
  onDev s (fun d => (d.at now).whenLive (fun d => d.dbgHalt port 5 (ctx % 4096) (tile % 128) true))

/-- RESUME restarts a halted context's lanes. -/
def execDbgResume (port ctx tile now : Nat) (s : State) : Host.Outcome State Fault Refusal :=
  onDev s (fun d => (d.at now).whenLive (fun d => d.dbgHalt port 6 (ctx % 4096) (tile % 128) false))

end Sys2Proof.Machine
end

