-- ==== Sys2Proof/Machine/Fabric.lean ====
section
/-! DEFINITION. The fabric: time base, servo and grandmaster (R325 to R329), discovery and publication (R327, R330, R331), and the picot path of a link
(R332 to R335). -/
namespace Sys2Proof.Machine

/-- The fabric state changed. -/
def Dev.updFab (d : Dev) (f : Fabric → Fabric) : Dev := { d with fab := f d.fab }

/-! ### Slot mode (R333, R335) -/

/-- This device's time base serves slots: it is locked, or it is the grandmaster (log entry 45). -/
def Fabric.locked (f : Fabric) : Bool := f.time == .locked || f.gm

/-- The conditions of R333 hold on a port. -/
def Dev.eligible (d : Dev) (p : Nat) : Bool :=
  let x := d.lk p
  d.fab.locked && x.peerLocked && x.state == .active && decide (x.hoplat ≤ 832)

/-- Slot mode starts where the conditions hold and it is not suspended. -/
def Dev.trySlots (d : Dev) (p : Nat) : Dev :=
  if d.eligible p && !(d.lk p).suspended then d.updLk p (fun x => { x with slotMode := true }) else d

/-- Frames of a port that wait for a slot travel as VC2 records, in slot order (R335). -/
def Dev.spillFrames (d : Dev) (p : Nat) : Dev :=
  (tabKeys (fun _ g => g.state == .active && g.picot && g.next == p && !g.launches.isEmpty) d.groupTab).foldl (fun d k =>
    let l := (d.grp k).launches
    l.foldl (fun d f => d.picotQueue k f.slot f.head f.payload) (d.updGrp k (fun g => { g with launches := [] }))) d

/-- A link suspends slot mode: both ends are told, and promises on it are withdrawn (R335). -/
def Dev.suspendSlots (d : Dev) (p : Nat) (tell : Bool) : Dev :=
  let x := d.lk p
  if !x.slotMode then d
  else
    let d := d.setLk p { x with slotMode := false, suspended := true, landings := [], driftRun := 0 }
    let d := (d.orReg pgPicot p 0x0114 2).event pgPicot 0 portsDevice
    let d := if tell then d.sendCtl p ctlPicot [1] else d
    (d.spillFrames p).withdrawAll wPicot (d.usesPort p)

/-- The time base of this device steps or returns to `FREE`: every link suspends slot mode (R333). -/
def Dev.timeStep (d : Dev) : Dev := (List.range 16).foldl (fun d p => d.suspendSlots p true) d

/-! ### Time (R325, R326, R328, R329) -/

/-- The order of the pairs of R310. -/
def pairOf (prio serial : Nat) : Nat := prio % 256 * 2 ^ 64 + serial

/-- The lowest pair known: the grandmaster's, or the device's own. -/
def Dev.bestPair (d : Dev) (serial : Nat) : Nat × Nat × Nat :=
  if d.fab.known then (d.fab.gmPrio, d.fab.gmSerial, d.fab.hops) else (d.regN pgAlnk 0 0x1004 % 256, serial, 0)

/-- An exchange on the upstream port: 64 in a row within 0.125 ns lock a device at most 16 hops away; one beyond begins the count again. -/
def Fabric.exchange (f : Fabric) (off : Int) : Fabric :=
  let n := if off.natAbs ≤ 32 then f.good + 1 else 0
  { f with offset := off, good := n, joined := true,
           time := if 64 ≤ n ∧ !f.far then .locked else if f.time = .holdover ∧ 32 < off.natAbs then .holdover else .locking }

/-- SYNC (R326): offset and path delay from the four timestamps, in 1/256 ns; on the upstream port it steers the servo, and a device that joins steps
once. The message also tells what the peer says of itself (log entry 44). -/
def execSync (lport : Nat) (t1 t2 t3 t4 : Int) (peerLocked : Bool) (peerPub : Option Nat) (s : State) : Host.Outcome State Fault Refusal :=
  onDev s (fun d => d.whenLive (fun d =>
    let x := d.lk lport
    if !x.vc0 then d
    else
      let d := (d.setLk lport { x with peerLocked := peerLocked, peerPub := peerPub }).tryActive lport
      let off := ((t2 - t1) - (t4 - t3)) / 2
      let d := if d.fab.gm || !d.fab.known || d.fab.upstream != lport then d
        else if !d.fab.joined && (List.range 16).all (fun p => !(d.lk p).slotMode) then
          { d with now := ((d.now : Int) + off / 256).toNat, fab := { d.fab with joined := true, offset := off, time := .locking, good := 0 } }
        else d.updFab (fun f => f.exchange off)
      d.trySlots lport))

/-- SYNC_TIMER (R326): an exchange starts on a port that carries VC0. -/
def execSyncTimer (lport now : Nat) (s : State) : Host.Outcome State Fault Refusal :=
  onDev s (fun d => (d.at now).whenLive (fun d => d.sendCtl lport ctlSync [d.now]))

/-- The pair of a message adopted: `hops` links away on port `p`; more than 16 are `FAR`, and such a device is never `LOCKED` (R326, R328). -/
def Fabric.adopt (f : Fabric) (prio ps hops p now : Nat) : Fabric :=
  { f with known := true, gm := false, gmPrio := prio % 256, gmSerial := ps, hops := hops, upstream := p, heard := now, good := 0, far := decide (16 < hops),
           time := if f.time = .holdover then .holdover else .locking }

/-- ANNOUNCE (R328): the lowest pair wins; its upstream port is the one with the fewest hops, then the lowest number; adopted, it is flooded on. A
message is discarded after 16 hops (R324). -/
def Dev.announce (d : Dev) (serial p prio ps hops : Nat) : Dev :=
  let f := d.fab
  let b := d.bestPair serial
  let new := pairOf prio ps
  let old := pairOf b.1 b.2.1
  if !(d.lk p).vc0 ∨ 16 < hops then d
  else if new < old then
    let d := d.updFab (fun f => f.adopt prio ps (hops + 1) p d.now)
    if hops < 16 then d.flood p ctlAnnounce [prio, ps, hops + 1] else d
  else if new = old ∧ f.known then
    if hops + 1 < f.hops ∨ (hops + 1 = f.hops ∧ p < f.upstream) then d.updFab (fun f => { f with hops := hops + 1, upstream := p, heard := d.now, good := 0, far := decide (15 < hops) })
    else if p = f.upstream then
      d.updFab (fun f => { f with hops := hops + 1, heard := d.now, far := decide (15 < hops), time := if 15 < hops ∧ f.time = .locked then .locking else f.time })
    else d
  else d

/-- ANNOUNCE (R328). -/
def execAnnounce (lport prio peer hops now : Nat) (s : State) : Host.Outcome State Fault Refusal :=
  onDev s (fun d => (d.at now).whenLive (fun d => d.announce s.fuses.serial lport prio peer hops))

/-- ANNOUNCE_TIMER (R328): the lowest pair known and the hops to it; a device that knows no lower pair than its own is the grandmaster. -/
def execAnnounceTimer (lport now : Nat) (s : State) : Host.Outcome State Fault Refusal :=
  onDev s (fun d => (d.at now).whenLive (fun d =>
    let b := d.bestPair s.fuses.serial
    let d := if d.fab.known then d else d.updFab (fun f => { f with gm := true, gmPrio := b.1, gmSerial := b.2.1, hops := 0 })
    d.sendCtl lport ctlAnnounce [b.1, b.2.1, b.2.2]))

/-- GRANDMASTER_TIMEOUT (R328): no refresh for 100 µs: `HOLDOVER`, and the election begins afresh. -/
def execGrandmasterTimeout (now : Nat) (s : State) : Host.Outcome State Fault Refusal :=
  onDev s (fun d => (d.at now).whenLive (fun d =>
    if !d.fab.known ∨ d.now < d.fab.heard + 100000 then d
    else d.updFab (fun f => { f with known := false, gm := true, far := false, time := .holdover, good := 0, hops := 0, gmPrio := d.regN pgAlnk 0 0x1004 % 256, gmSerial := s.fuses.serial })))

/-- `PICOT_TIME_LOAD` written (R329): the grandmaster steps to the start value before publication; else discarded and logged. -/
def Dev.timeLoad (d : Dev) (port : Nat) : Dev :=
  if d.fab.gm && d.fab.published.isNone then ({ d with now := d.reg64 pgPicot 0 0x1008 } : Dev).timeStep
  else d.logErr port pgPicot 0x1010 .value 1

/-- PICOT_TIME_LOAD (R329). -/
def execPicotTimeLoad (port : Nat) (s : State) : Host.Outcome State Fault Refusal :=
  onDev s (fun d => d.whenLive (fun d => if ctlPort port then d.timeLoad port else d))

/-! ### Discovery (R327, R330, R331) -/

/-- TOPO_CHANGE (R327): a greater epoch is adopted and flooded on; any other is not forwarded. -/
def execTopoChange (lport epoch hops : Nat) (s : State) : Host.Outcome State Fault Refusal :=
  onDev s (fun d => d.whenLive (fun d =>
    if !(d.lk lport).vc0 ∨ epoch ≤ d.fab.epoch then d
    else
      let d := ((d.updFab (fun f => { f with epoch := epoch })).staleProbes).orReg pgAlnk 0 0x1028 1
      if hops < 16 then d.flood lport ctlTopo [epoch, hops + 1] else d))

/-- Port states as a reply codes them: 2 bits a port, the codes 1 to 4 of `ALNK_STS` less 1, `DISABLED` as 3 (log entry 46). -/
def Dev.portStates (d : Dev) : Nat :=
  (List.range 16).foldl (fun a p => a + (match (d.lk p).state with
    | .training => 0 | .vc0Only => 1 | .active => 2 | .down => 3 | .disabled => 3) * 4 ^ p) 0

/-- `FAB_INDEX` with its valid bit. -/
def Dev.fabIndex (d : Dev) : Nat := d.regN pgAlnk 0 0x102C % 4096 + b2n d.fab.published.isSome * 4096

/-- PROBE (R330): forwarded along its route, or answered by the last device; `at'` hops are behind it, `back` holds the ports of the reverse route. -/
def execProbe (lport slot hops at' route back epoch : Nat) (s : State) : Host.Outcome State Fault Refusal :=
  onDev s (fun d => d.whenLive (fun d =>
    if !(d.lk lport).vc0 ∨ 16 < at' then d
    else if hops ≤ at' then
      d.sendCtl lport ctlReply [slot, at' - 1, back, d.fab.epoch, s.fuses.serial, d.regN pgAlnk 0 0x1004 % 256, d.fabIndex, d.portStates]
    else d.sendCtl (fld route (4 * at' + 3) (4 * at')) ctlProbe [slot, hops, at' + 1, route, back + lport * 16 ^ (at' - 1), epoch]))

/-- Probe slot `k`. -/
def Dev.probe (d : Dev) (k : Nat) : Probe := tabGet (fun _ => ({} : Probe)) d.fab.probes k
/-- Probe slot `k` replaced. -/
def Dev.setProbe (d : Dev) (k : Nat) (x : Probe) : Dev := d.updFab (fun f => { f with probes := tabPut (fun _ => ({} : Probe)) f.probes k x })

/-- PROBE_REPLY (R330): sent on along the reverse route, or it completes its slot; a reply of another epoch is discarded and the slot fails. -/
def execProbeReply (lport slot left back epoch serial prio index states : Nat) (s : State) : Host.Outcome State Fault Refusal :=
  onDev s (fun d => d.whenLive (fun d =>
    if !(d.lk lport).vc0 then d
    else if left ≠ 0 then d.sendCtl (fld back (4 * (left - 1) + 3) (4 * (left - 1))) ctlReply [slot, left - 1, back, epoch, serial, prio, index, states]
    else
      let x := d.probe slot
      if x.state ≠ 1 then d
      else if epoch ≠ x.epoch then d.setProbe slot { x with state := 3, status := Status.epochStale.code }
      else d.setProbe slot { x with state := 2, status := 0, reply := [serial % 2 ^ 32, serial / 2 ^ 32, prio, epoch, states, index] }))

/-- `FAB_P_CTL` written with start: the selected slot's probe is sent (R330); a hop count out of range is discarded and logged. -/
def Dev.probeStart (d : Dev) (port v : Nat) : Dev :=
  let k := d.bankN pgAlnk port 0x1040 % 64
  let n := v % 32
  if !bit v 31 then d
  else if n = 0 ∨ 16 < n then d.logErr port pgAlnk 0x104C .value v
  else
    let route := d.regN pgAlnk k 0x1044 + 2 ^ 32 * d.regN pgAlnk k 0x1048
    (d.setProbe k { state := 1, epoch := d.fab.epoch, since := d.now }).sendCtl (route % 16) ctlProbe [k, n, 1, route, 0, d.fab.epoch]

/-- FAB_PROBE_START (R330). -/
def execFabProbeStart (port value now : Nat) (s : State) : Host.Outcome State Fault Refusal :=
  onDev s (fun d => (d.at now).whenLive (fun d => if ctlPort port then d.probeStart port value else d))

/-- PROBE_TIMEOUT (R330). -/
def execProbeTimeout (slot now : Nat) (s : State) : Host.Outcome State Fault Refusal :=
  onDev s (fun d => (d.at now).whenLive (fun d =>
    let x := d.probe slot
    if x.state = 1 ∧ x.since + 20000 ≤ d.now then d.setProbe slot { x with state := 3, status := Status.groupTimeout.code } else d))

/-- `FAB_PUBLISH` written (R331). -/
def Dev.publish (d : Dev) (epoch : Nat) : Dev :=
  if epoch ≠ d.fab.epoch ∨ 4096 < d.regN pgAlnk 0 0x1030 then d.orReg pgAlnk 0 0x1028 2
  else (List.range 16).foldl (fun d p => d.tryActive p) (d.updFab (fun f => { f with published := some epoch }))

/-- FAB_PUBLISH (R331). -/
def execFabPublish (port epoch : Nat) (s : State) : Host.Outcome State Fault Refusal :=
  onDev s (fun d => d.whenLive (fun d => if ctlPort port then d.publish epoch else d))

/-- UNPAIR (R321): the peer's key slot has drained; the entries of the pairing take the new generation. -/
def execUnpair (lport pairing gen : Nat) (s : State) : Host.Outcome State Fault Refusal :=
  onDev s (fun d => d.whenLive (fun d =>
    let x := d.lk lport
    let e := tabGet pairDflt x.pairs pairing
    if x.vc0 && e.valid then d.setLk lport { x with pairs := tabPut pairDflt x.pairs pairing { e with txGen := gen % 16, rxGen := gen % 16 } } else d))

/-! ### Picot frames (R332 to R335) -/

/-- Nearest integer of n/d, halves away from zero. -/
def roundDiv (n d : Int) : Int := if 0 ≤ n then (2 * n + d) / (2 * d) else -((2 * -n + d) / (2 * d))

/-- LCLK cycles of an offset in 1/16 ns: o ÷ 0.5714 ns (R334). -/
def lclkOf (o : Int) : Int := roundDiv (o * 7) 64

/-- The launch offset: 52 ns less d, and the trim, in LCLK cycles (R333). -/
def Port.launch (x : Port) : Int := lclkOf (832 - (x.hoplat : Int)) + x.trim

/-- The trim after a notice of offset `o` (R334). -/
def Port.retrim (x : Port) (o : Int) : Port := { x with trim := max (-16) (min 16 (x.trim - lclkOf o)) }

/-- A frame's 320 bytes (R332); header bytes 0 to 15 are laid out as log entry 47 says. -/
def Pairing.frame (e : Pairing) (gid k : Nat) (head pay : List Byte) : List Byte :=
  let h := toBytes 1 gid ++ toBytes 1 (e.txPhase % 2) ++ toBytes 2 (e.peer + e.txGen * 4096) ++ toBytes 4 k ++ toBytes 4 e.rctr ++ toBytes 2 pay.length ++ [0, 0] ++ head
  let iv := e.iv e.txPhase e.rctr
  let ct := gcmCrypt (e.key e.txPhase) iv (padTo 256 pay)
  h ++ ct ++ gcmTag (e.key e.txPhase) iv h ct ++ List.replicate 16 0

/-- A frame received, judged as a record is (R321, R322). -/
def Port.checkFrame (x : Port) (f : List Byte) : RecordCheck :=
  let id := bytesNat f 2 2 % 4096
  let e := tabGet pairDflt x.pairs id
  if 1024 ≤ id ∨ !e.valid ∨ e.rxGen ≠ bytesNat f 2 2 / 4096 then .stale
  else
    let same := decide (bytesNat f 1 1 % 2 = e.rxPhase % 2)
    let c := bytesNat f 8 4
    let beyond := match e.rxLast with
      | none => true
      | some l => decide (l < c)
    if same && !beyond then .counter
    else
      let ph := if same then e.rxPhase else e.rxPhase + 1
      let ct := (f.drop 32).take 256
      if ph < 256 ∧ gcmTag (e.key ph) (e.iv ph c) (f.take 32) ct = (f.drop 288).take 16 then
        .good id { e with rxPhase := ph, rxLast := some c } ((gcmCrypt (e.key ph) (e.iv ph c) ct).take (bytesNat f 12 2))
      else .tag

/-- The group whose frames a port's schedule gives slot `k` to, and its first frame that may take the slot. -/
def Dev.slotFrame (d : Dev) (p k : Nat) : Option (Nat × Launch) :=
  let e := tabGet natDflt (d.lk p).sched (k % 1024)
  if !bit e 8 then none
  else match (tabKeys (fun _ g => g.state == .active && g.picot && g.next == p && g.sched == e % 256) d.groupTab).head? with
    | none => none
    | some g => ((d.grp g).launches.find? (fun l => if l.resend then l.slot == k else decide (l.slot ≤ k))).map (fun l => (g, l))

/-- The list without the first of equal elements. -/
def dropOne (x : Launch) : List Launch → List Launch
  | [] => []
  | y :: r => if y = x then r else y :: dropOne x r

/-- PICOT_SLOT_LAUNCH (R333): the frame scheduled for slot `k` is sealed and sent, and kept for two slots. -/
def Dev.slotLaunch (d : Dev) (p k : Nat) : Dev :=
  let x := d.lk p
  if !x.slotMode then d
  else match d.slotFrame p k with
    | none => d
    | some (g, l) =>
      let c := d.grp g
      let d := d.updGrp g (fun g => { g with launches := dropOne l g.launches })
      match d.txEntry p c.hoop c.key c.gen with
      | .error st => d.shEnd g st
      | .ok (i, e) =>
        let x := { x with pairs := tabPut pairDflt x.pairs i { e with rctr := e.rctr + 1 }, kept := (x.kept.filter (fun f => decide (k ≤ f.1 + 2))) ++ [(k, g, l.head, l.payload)] }
        let d := ((d.setLk p x).linkUse { e with rctr := e.rctr + 1 }).emit (.picotFrame p k (e.frame c.peerSlot k l.head l.payload))
        let d := (d.bump64 pgPicot p 0x0128 1 0x0114 3).shCountTx g l.payload.length c.running
        -- the slot the collective would take without any shift is k0 and one per hop
        if bytesNat l.head 8 4 + bytesNat l.head 2 2 - 1 + 4 < k % 2 ^ 32 then
          (match c.running with
           | some t => d.withdraw t wPicot
           | none => d).orReg pgPicot p 0x0114 4
        else d

/-- PICOT_SLOT_LAUNCH (R333). -/
def execPicotSlotLaunch (lport slot now : Nat) (s : State) : Host.Outcome State Fault Refusal :=
  onDev s (fun d => (d.at now).whenLive (fun d => d.slotLaunch lport slot))

/-- A frame discarded in slot `k` (R334, R335): counted, noticed; three distinct slots within 1,024 suspend slot mode. -/
def Dev.guardLanding (d : Dev) (p k : Nat) (o : Int) : Dev :=
  let x := d.lk p
  let l := (x.landings.filter (fun j => decide (k < j + 1024) && j != k)) ++ [k]
  let d := ((d.setLk p { x with landings := l }).bumpRc pgPicot p 0x010C 1).sendCtl p ctlGuard [k, unsint 16 o]
  if 3 ≤ l.length then d.suspendSlots p true else d

/-- PICOT_FRAME_RECEIVE (R334): the arrival offset `o`, in 1/16 ns, is measured; a frame past 4 ns or of another slot lands in the guard; an accepted
frame is judged as a record and reaches its group. -/
def Dev.frameReceive (d : Dev) (p k : Nat) (o : Int) (f : List Byte) : Dev :=
  let x := d.lk p
  if !x.slotMode then d
  else
    let run := if 64 < o.natAbs then x.driftRun + 1 else 0
    let d := d.setLk p { x with lastOfs := o, driftRun := run, drift := x.drift || decide (o < -64) }
    let d := if 64 < o ∨ bytesNat f 4 4 ≠ k % 2 ^ 32 then d.guardLanding p k o
      else
        let d := if o < -64 then ((d.bumpRc pgPicot p 0x0110 1).orReg pgPicot p 0x0114 1).sendCtl p ctlDrift [unsint 16 o] else d
        let x := d.lk p
        match x.checkFrame f with
        | .stale => d.bumpRc pgAlnk p 0x0150 1
        | .counter => d.bumpRc pgAlnk p 0x0154 1
        | .tag => d.tagFail p
        | .good i e pay => (d.setLk p { x with pairs := tabPut pairDflt x.pairs i e }).picotArrive (bytesNat f 0 1) k ((f.drop 16).take 16) pay
    if 64 ≤ run then d.suspendSlots p true else d

/-- PICOT_FRAME_RECEIVE (R334). -/
def execPicotFrameReceive (lport slot : Nat) (offset : Int) (frame : List Byte) (now : Nat) (s : State) : Host.Outcome State Fault Refusal :=
  onDev s (fun d => (d.at now).whenLive (fun d => d.frameReceive lport slot offset frame))

/-- GUARD_NOTICE (R334): the trim moves, and the frame is sent again in slot k + 2. -/
def execGuardNotice (lport slot : Nat) (offset : Int) (s : State) : Host.Outcome State Fault Refusal :=
  onDev s (fun d => d.whenLive (fun d =>
    let x := d.lk lport
    if !x.vc0 then d
    else
      let d := d.setLk lport (x.retrim offset)
      match x.kept.find? (fun f => f.1 == slot) with
      | none => d
      | some f => d.updGrp f.2.1 (fun g => { g with launches := { slot := slot + 2, resend := true, head := f.2.2.1, payload := f.2.2.2 } :: g.launches })))

/-- DRIFT_NOTICE (R334): the trim moves. -/
def execDriftNotice (lport : Nat) (offset : Int) (s : State) : Host.Outcome State Fault Refusal :=
  onDev s (fun d => d.whenLive (fun d => if (d.lk lport).vc0 then d.updLk lport (fun x => x.retrim offset) else d))

/-- PICOT_STATE (R335): the peer has suspended slot mode, or resumed it. -/
def execPicotState (lport : Nat) (suspended : Bool) (s : State) : Host.Outcome State Fault Refusal :=
  onDev s (fun d => d.whenLive (fun d => if suspended then d.suspendSlots lport false else d))

/-- `PICOT_RESUME` written (R335): while the conditions of R333 hold, slot mode resumes at the next schedule swap. -/
def Dev.picotResume (d : Dev) (p : Nat) : Dev := if (d.lk p).suspended && d.eligible p then d.updLk p (fun x => { x with resume := true }) else d

/-- PICOT_RESUME (R335). -/
def execPicotResume (port lport : Nat) (s : State) : Host.Outcome State Fault Refusal :=
  onDev s (fun d => d.whenLive (fun d => if ctlPort port then d.picotResume lport else d))

/-- `PICOT_SWAP_ARM` written (R333, Table 9): an instant not a multiple of 65,536 ns, or past, is discarded and logged. -/
def Dev.swapArm (d : Dev) (port : Nat) : Dev :=
  let t := d.reg64 pgPicot 0 0x102C
  if t % 65536 ≠ 0 ∨ t ≤ d.now then d.logErr port pgPicot 0x1034 .value 1 else d.updFab (fun f => { f with swapAt := some t })

/-- PICOT_SWAP_ARM (R333). -/
def execPicotSwapArm (port now : Nat) (s : State) : Host.Outcome State Fault Refusal :=
  onDev s (fun d => (d.at now).whenLive (fun d => if ctlPort port then d.swapArm port else d))

/-- PICOT_SCHEDULE_SWAP (R333, R335): the banks of every port swap, and slot mode resumes where it was asked for. -/
def execPicotScheduleSwap (now : Nat) (s : State) : Host.Outcome State Fault Refusal :=
  onDev s (fun d => (d.at now).whenLive (fun d =>
    match d.fab.swapAt with
    | none => d
    | some t =>
      if d.now < t then d
      else (List.range 16).foldl (fun d p =>
        let x := d.lk p
        let go := x.resume && d.eligible p
        let d := d.setLk p { x with sched := x.schedStaged, schedStaged := x.sched, resume := false, suspended := x.suspended && !go, slotMode := x.slotMode || go }
        if go then d.sendCtl p ctlPicot [0] else d) (d.updFab (fun f => { f with swapAt := none }))))

end Sys2Proof.Machine
end

