-- ==== Sys2Proof/Machine/Decide.lean ====
section
/-! DEFINITION. The dispatcher (chapters 12 and 13): the decision of a descriptor with its checks, its prices and its energy estimate (R268, R271,
R291 to R294, R297), the release of a command (R269, R293), and its completion (R270). -/
namespace Sys2Proof.Machine

/-! ### The descriptor's form (R271 Tables 6 and 7) -/

/-- `HOLD` is allowed for the type. -/
def Cmd.mayHoldFence (m : Cmd) : Bool :=
  m.typ == tyExec || m.typ == tyDma || m.typ == tyCollective || m.typ == tyStorage || m.typ == tyCheckpoint

/-- The type runs in class S only. -/
def Cmd.classSOnly (m : Cmd) : Bool := m.typ == tyLoad || m.typ == tyUnload || m.typ == tyMmu

/-- An event and value field whose valid bit is clear, and which is not zero. -/
def Cmd.strayEvent (m : Cmd) : Bool :=
  (!bit m.deps 0 && (m.df 32 2 != 0 || m.df 40 8 != 0)) || (!bit m.deps 1 && (m.df 34 2 != 0 || m.df 48 8 != 0)) ||
  (!bit m.deps 2 && (m.df 36 2 != 0 || m.df 56 8 != 0))

/-- A descriptor rule of R271 that the fields alone break. -/
def Cmd.formBad (m : Cmd) : Bool :=
  m.typ == 0 || decide (tySignal < m.typ) || m.cls == 3 || fld (m.df 1 1) 7 5 != 0 || fld m.deps 7 3 != 0 || m.df 38 2 != 0 ||
  (m.eval && (m.typ != tyExec || m.hold)) || (m.hold && !m.mayHoldFence) || (!m.hold && m.fence != 0) || (!m.eval && m.arg2 != 0) ||
  (m.typ != tyExec && (m.entry != 0 || m.nmodel != 0)) || decide (16 < m.nmodel) || m.strayEvent ||
  (m.classSOnly && m.cls != 1) || ((m.typ == tyUnload || m.typ == tySignal) && m.arg != 0) || (m.storing && m.cls == 0)

/-- An event named that the context may not use (R274). -/
def Dev.eventsBad (d : Dev) (m : Cmd) : Bool :=
  (bit m.deps 0 && !d.evtUsable m.ctx (m.df 32 2)) || (bit m.deps 1 && !d.evtUsable m.ctx (m.df 34 2)) ||
  (bit m.deps 2 && !d.evtUsable m.ctx (m.df 36 2))

/-- What naming update fence `f` finds: out of range or `FREE`, `BAD_DESCRIPTOR`; another context's, `ACCESS_DENIED` (R183, R271). -/
def Dev.fenceErrs (d : Dev) (c f : Nat) : List Status :=
  if 1023 < f ∨ (d.fence f).state = .free then [.badDescriptor] else if (d.fence f).ctx ≠ c then [.accessDenied] else []

/-- The entry point that an EXEC names in its context's pricking. -/
def Dev.execEntry (d : Dev) (m : Cmd) : Option (Pricking × PEntry) :=
  match (d.ctx m.ctx).pricking with
  | none => none
  | some p => (p.entries.find? (fun e => e.id == m.entry)).map (fun e => (p, e))

/-! ### Blocks (R268, R272) -/

/-- Length and alignment of the block that `ARG` names; none for the types without one. -/
def Cmd.blockLen (m : Cmd) : Option (Nat × Nat) :=
  if m.typ = tyExec ∨ m.typ = tyLoad ∨ m.typ = tyUpdate ∨ m.typ = tyCheckpoint then some (128, 128)
  else if m.typ = tyDma ∨ m.typ = tyCollective ∨ m.typ = tyStorage then some (64, 64)
  else if m.typ = tyMmu then some (64, 64)
  else if m.typ = tyCache then some (32, 32)
  else none

/-- A block read at decision: its bytes, or the status of the read (R530). -/
def Dev.readBlock (d : Dev) (c a n align : Nat) : Except Status (List Byte) :=
  if a % align ≠ 0 then .error .badDescriptor
  else match d.readVa c a n with
    | .data bs => .ok bs
    | r => .error (r.status.getD .badDescriptor)

/-- The block of `ARG`, a CHECKPOINT's with its shard entries. -/
def Dev.readArg (d : Dev) (m : Cmd) : Except Status (List Byte) :=
  match m.blockLen with
  | none => .ok []
  | some (n, align) => match d.readBlock m.ctx m.arg n align with
    | .ok bs => if m.typ = tyCheckpoint then d.readBlock m.ctx m.arg (128 + 64 * min 64 (bytesNat bs 6 2)) align else .ok bs
    | e => e

/-- The eval block's form (R205 Table 3). -/
def evalBad (bs : List Byte) : Bool :=
  let n := bytesNat bs 2 2
  bs.length != 80 || n == 0 || decide (4 < n) || bytesNat bs 8 8 != 0 ||
  (List.range 4).any (fun i => bytesNat bs (16 + 16 * i) 8 % 256 != 0 || bytesNat bs (24 + 16 * i) 8 % 256 != 0 ||
    (decide (n ≤ i) && (bytesNat bs (16 + 16 * i) 8 != 0 || bytesNat bs (24 + 16 * i) 8 != 0)))

/-- Fence that an eval block names. -/
def Cmd.evFence (m : Cmd) : Nat := bytesNat m.block2 0 2
/-- `STEP_EXPECT`. -/
def Cmd.evStep (m : Cmd) : Nat := bytesNat m.block2 4 4

/-- Model list of an EXEC block (R272 Table 8). -/
def Cmd.models (m : Cmd) : List Nat := (List.range 16).map (fun i => m.bf (64 + 4 * i) 4)

/-! ### Collectives (R342, R343, R346, R353) -/

/-- Two source and destination records that R346 does not let pair. -/
def pairBad (a b : PRec) : Bool := a.rows != b.rows || a.cols != b.cols || a.grow != b.grow || a.gcol != b.gcol || a.gcols != b.gcols

/-- A record list of an ALLREDUCE_PAIR fails R173. -/
def Dev.pairListBad (d : Dev) (c list n : Nat) : Bool :=
  (List.range n).any (fun i =>
    let a := ofBytes (d.readVa c (list + 8 * i) 8).bytes
    let raw := (d.readVa c a 256).bytes
    d.precBad c 2 (PRec.ofBytes a raw) raw)

/-- `COUNT` is out of its range (R343 Table 4). -/
def Cmd.xcountBad (m : Cmd) : Bool :=
  let n := m.xccount
  n == 0 || (if m.xcop = 1 ∨ m.xcop = 3 then decide (2 ^ 36 < n) else if m.xcop = 2 then decide (1024 < n)
    else if m.xcop = 6 then decide (n < 8) || decide (256 < n) || n % 4 != 0 else decide (2 ^ 32 < n))

/-- A reduction or rounding code that the operation does not allow (R343). -/
def Cmd.xcodeBad (m : Cmd) : Bool :=
  fld (m.bf 3 1) 7 4 != 0 ||
  (if m.xcop = 1 ∨ m.xcop = 3 then m.xcred == 3 || m.xcrnd != 0
   else if m.xcop = 2 then m.xcred != 0 || m.xcrnd == 3
   else if m.xcop = 6 then m.xcrnd != 0
   else m.xcred != 0 || m.xcrnd != 0)

/-- `ROOT` used where the operation does not use it, or beyond its field (R342 Table 3). -/
def Cmd.xrootBad (m : Cmd) (n : Nat) : Bool :=
  if m.xcop = 5 then decide (n ≤ m.xcroot) else if m.handoff then decide (65535 < m.xcroot) else m.xcroot != 0

/-- The group as it would carry the command. -/
def Dev.grpFor (d : Dev) (m : Cmd) : CGroup := { d.grp m.xcgid with co := d.collOf m }

/-- Chunks of the whole operation. -/
def Dev.xchunks (d : Dev) (m : Cmd) : Nat :=
  if m.handoff ∨ m.xcop = 6 then m.hSegs else d.collChunks m.ctx (d.grp m.xcgid).n { d.collOf m with segs := 0 }

/-- Chunks that the command processes. -/
def Dev.xrange (d : Dev) (m : Cmd) : List Nat := (List.range (d.collOf m).segs).map (· + m.xcfirst)

/-- Source bytes of the command at this rank. -/
def Dev.xsrcRuns (d : Dev) (m : Cmd) : List (Nat × Nat) :=
  let g := d.grpFor m
  if m.xcop = 8 then [] else if m.xcop = 6 ∨ m.xcop = 7 then [(m.xcsrc, m.xccount)]
  else ((d.xrange m).filter (fun i => if m.xcop = 4 ∨ m.xcop = 5 then d.chunkHome g i == g.rank else true)).flatMap (d.chunkSrc g)

/-- Destination bytes of the command at this rank. -/
def Dev.xdstRuns (d : Dev) (m : Cmd) : List (Nat × Nat) :=
  let g := d.grpFor m
  if m.xcop = 7 then [] else if m.xcop = 6 ∨ m.xcop = 8 then [(m.xcdst, m.xccount)]
  else (d.xrange m).flatMap (d.chunkDst g)

/-- The whole source and destination ranges of an operation, which must not overlap (R343): of its records for ALLREDUCE_PAIR. -/
def Dev.xwhole (d : Dev) (m : Cmd) : List (Nat × Nat) × List (Nat × Nat) :=
  let n := m.xccount
  let g := d.grp m.xcgid
  let pr := fun (l : Nat) => (d.pairRecs m.ctx l n).flatMap (fun r => r.pairRuns r.whole)
  if m.xcop = 1 ∨ m.xcop = 3 then ([(m.xcsrc, 4 * n)], [(m.xcdst, if m.xcop = 1 then 4 * n else 65536 * cdiv (d.xchunks m) g.n)])
  else if m.xcop = 2 then (pr m.xcsrc, pr m.xcdst)
  else if m.xcop = 4 then ([(m.xcsrc, n)], [(m.xcdst, g.n * n)])
  else if m.xcop = 5 then (if m.xcroot = g.rank then ([(m.xcsrc, n)], if m.xcdst = 0 then [] else [(m.xcdst, n)]) else ([], [(m.xcdst, n)]))
  else if m.xcop = 6 then ([(m.xcsrc, n)], [(m.xcdst, n)])
  else if m.xcop = 7 then ([(m.xcsrc, n)], [])
  else ([], [(m.xcdst, n)])

/-- R353: a PICOT_ALLREDUCE on a group without `PICOT`, with a start slot too near, or that rank 0's schedule does not give to the group. -/
def Dev.picotBad (d : Dev) (m : Cmd) : Bool :=
  let g := d.grp m.xcgid
  let e := tabGet natDflt (d.lk g.next).sched (m.xcstart / 64 % 1024)
  !g.picot || m.xcstart % 64 != 0 || decide (m.xcstart < d.now + 2000) || m.xcfirst != 0 || decide (1 < m.xcchunks) ||
  (g.rank == 0 && !(bit e 8 && e % 256 == g.sched))

/-- The block of a COLLECTIVE breaks R342, R343, R346 or R353. -/
def Dev.collBad (d : Dev) (m : Cmd) : Bool :=
  let g := d.grp m.xcgid
  m.block.length != 64 || m.xcop == 0 || decide (8 < m.xcop) || m.xcountBad || m.xcodeBad || m.xrootBad g.n || m.bf 56 8 != 0 ||
  m.xcresult % 256 != 0 ||
  (let w := d.xwhole m
   (w.1 ++ w.2).any (fun r => vaBad r.1 r.2) || w.1.any (fun a => w.2.any (fun b => rangesMeet a.1 a.2 b.1 b.2))) ||
  decide (2 ^ 22 < d.xchunks m) || decide (d.xchunks m < m.xcfirst + (if m.xcop = 6 then 0 else m.xcchunks)) ||
  (m.xcop == 2 && (d.pairListBad m.ctx m.xcsrc m.xccount || d.pairListBad m.ctx m.xcdst m.xccount ||
    ((d.pairRecs m.ctx m.xcsrc m.xccount).zip (d.pairRecs m.ctx m.xcdst m.xccount)).any (fun p => pairBad p.1 p.2))) ||
  (m.xcop == 6 && d.picotBad m)

/-! ### The checks of each type -/

/-- What the fields of an EXEC find (R205, R271, R272). -/
def Dev.execErrs (d : Dev) (m : Cmd) : List Status :=
  (if (d.execEntry m).isNone then [.badDescriptor] else []) ++
  (if (m.models.drop m.nmodel).any (· != 0) then [.badDescriptor] else []) ++
  (if m.eval then (if evalBad m.block2 then [.badDescriptor] else []) ++ d.fenceErrs m.ctx m.evFence else [])

/-- What an UPDATE finds: its block, its fence, and a list of up to 1,024 records (R173, R174, R183, R291). -/
def Dev.updateErrs (d : Dev) (m : Cmd) : List Status :=
  (if m.ublockBad then [.badDescriptor] else []) ++
  (if m.uop = 3 then d.fenceErrs m.ctx m.ufence else []) ++
  (if m.cls = 0 ∧ 1024 < m.ucount then [.badDescriptor] else []) ++
  (if 1024 < m.ucount then []
   else match (d.readVa m.ctx m.ulist (8 * m.ucount)).status with
    | some st => [st]
    | none => match (List.range m.ucount).findSome? (fun i => (d.readVa m.ctx (d.recAddr m i) 256).status) with
      | some st => [st]
      | none => if d.listBad m || d.entriesBad m then [.badDescriptor] else [])

/-- What a COLLECTIVE finds (R342). -/
def Dev.collErrs (d : Dev) (m : Cmd) : List Status :=
  let g := d.grp m.xcgid
  if g.state = .free then [.badDescriptor] else if g.ctx ≠ m.ctx then [.accessDenied] else if d.collBad m then [.badDescriptor] else []

/-- What a STORAGE command finds: its block and, of a READ, a chunk beyond the file (R366). -/
def Dev.storErrs (d : Dev) (m : Cmd) : List Status :=
  if m.storBad then [.badDescriptor]
  else if m.sop = 1 then (match (d.readVa m.ctx m.sfile 64).status with
    | some st => [st]
    | none => if (d.readFile m.ctx m.sfile).chunks < m.sfirst + m.scount then [.badDescriptor] else [])
  else []

/-- What the block of the command's type finds. -/
def Dev.typeErrs (d : Dev) (m : Cmd) : List Status :=
  if m.typ = tyExec then d.execErrs m
  else if m.typ = tyUpdate then d.updateErrs m
  else if m.typ = tyDma then (if m.dmaBad then [.badDescriptor] else [])
  else if m.typ = tyCollective then d.collErrs m
  else if m.typ = tyStorage then d.storErrs m
  else if m.typ = tyCheckpoint then (if m.ckptBad then [.badDescriptor] else d.fenceErrs m.ctx m.kFence)
  else []

/-! ### Pins (R291, R202) -/

/-- A byte range lies inside one CELLAR range of a pricking. -/
def inRanges (rs : List (Nat × Nat × Nat)) (r : Nat × Nat) : Bool := r.2 == 0 || rs.any (fun q => decide (q.1 ≤ r.1) && decide (r.1 + r.2 ≤ q.1 + q.2.1))

/-- Bytes of an UPDATE's list, records and copies. -/
def Dev.updateRuns (d : Dev) (m : Cmd) : List (Nat × Nat) :=
  (m.ulist, 8 * m.ucount) :: (List.range m.ucount).map (fun i => (d.recAddr m i, 256)) ++
  (d.precs m).flatMap (fun r => r.reads m.uop r.whole ++ r.writes m.uop r.whole)

/-- Cellar ranges that a DMA, UPDATE or COLLECTIVE touches. -/
def Dev.touched (d : Dev) (m : Cmd) : List (Nat × Nat) :=
  if m.typ = tyDma then (if m.dSrcSp = 0 then [(m.dSrc, m.dSrcSpan)] else []) ++ (if m.dDstSp = 0 then [(m.dDst, m.dDstSpan)] else [])
  else if m.typ = tyUpdate then d.updateRuns m
  else if m.typ = tyCollective then (d.xwhole m).1 ++ (d.xwhole m).2
  else []

/-- A model list entry that is not pinned (R202). -/
def Dev.modelUnpinned (d : Dev) (m : Cmd) (id : Nat) : Bool :=
  match d.mcFind m.hoop id with
  | some k => !(d.mce k).pinned
  | none => true

/-- A class G command whose context has unpinned pages, or that names something outside its ranges or not pinned. -/
def Dev.notPinned (d : Dev) (m : Cmd) : Bool :=
  m.cls == 0 &&
  ((d.ctx m.ctx).unpinned != 0 || (d.touched m).any (fun r => !inRanges (((d.ctx m.ctx).pricking.map (·.ranges)).getD []) r) ||
   (m.typ == tyExec && (m.models.take m.nmodel).any (d.modelUnpinned m)))

/-! ### Counts of a command -/

/-- Runs of rows in memory: one run where the pitch is the row. -/
def pitched (a rows width pitch : Nat) : List (Nat × Nat) :=
  if pitch = width ∨ rows ≤ 1 then [(a, rows * width)] else (List.range rows).map (fun i => (a + i * pitch, width))

/-- Natural runs joined where they touch. -/
def joinRuns (l : List (Nat × Nat)) : List (Nat × Nat) := (joinSpans (l.map (fun r => ((r.1 : Int), r.2)))).map (fun r => (r.1.toNat, r.2))

/-- Runs that a command reads from and writes to the cellar, contiguous pieces joined. -/
def Dev.cellarRuns (d : Dev) (m : Cmd) : List (Nat × Nat) × List (Nat × Nat) :=
  if m.typ = tyDma then
    (if m.dSrcSp = 0 then pitched m.dSrc m.dRows m.dRowB m.dSrcP else [],
     if m.dDstSp = 0 then pitched m.dDst m.dShape.1 m.dShape.2 m.dDstP else [])
  else if m.typ = tyUpdate then
    (joinRuns ((d.precs m).flatMap (fun r => r.reads m.uop r.whole)), joinRuns ((d.precs m).flatMap (fun r => r.writes m.uop r.whole)))
  else if m.typ = tyCollective then (joinRuns (d.xsrcRuns m), joinRuns (d.xdstRuns m))
  else ([], [])

/-- Read and written granules of runs, counted as R151 and R292 count them. -/
def granuleCounts (rd wr : List (Nat × Nat)) : Nat × Nat :=
  (rd.foldl (fun a r => a + granules r.1 r.2) 0 + wr.foldl (fun a r => a + partialGranules r.1 r.2) 0,
   wr.foldl (fun a r => a + granules r.1 r.2) 0)

/-- Read and written granules of a command. -/
def Dev.granulesOf (d : Dev) (m : Cmd) : Nat × Nat :=
  if m.typ = tyExec then (match d.execEntry m with
    | some (_, e) => (e.cellarRd / 256, e.cellarWr / 256)
    | none => (0, 0))
  else granuleCounts (d.cellarRuns m).1 (d.cellarRuns m).2

/-- Payload bytes of each chunk send of this rank (R347, R358). -/
def Dev.sends (d : Dev) (m : Cmd) : List Nat :=
  let g := d.grpFor m
  if m.handoff then (List.range m.hSegs).map (fun i => min ((i + 1) * 65536) m.xccount - i * 65536)
  else if m.xcop = 6 then List.replicate 2 m.xccount
  else (List.range 2).flatMap (fun p => ((d.xrange m).filter (d.sendsIn g p)).map (fun i =>
    g.co.wireLen (g.co.pairForm p (p == 0 && g.chunkFirst i == g.rank)) (d.chunkUnits g.ctx g.co i)))

/-- Payload bytes that this rank sends. -/
def Dev.txBytes (d : Dev) (m : Cmd) : Nat := (d.sends m).foldl (· + ·) 0

/-- Flits of what this rank sends (R358). -/
def Dev.txFlits (d : Dev) (m : Cmd) : Nat := cdiv ((d.sends m).foldl (fun a n => a + n + 32 * cdiv n 4096) 0) 240

/-- Additions of this rank (R345, R346, R353). -/
def Dev.additions (d : Dev) (m : Cmd) : Nat :=
  let g := d.grpFor m
  if m.handoff then 0
  else if m.xcop = 6 then (if g.rank = 0 then 0 else m.xccount / 4)
  else ((d.xrange m).filter (d.receivesIn g 0)).foldl (fun a i => a + d.chunkUnits g.ctx g.co i * (if m.xcop = 2 then 32 else 1)) 0

/-! ### Prices (R292, R358), in eighths of a nanosecond -/

/-- Resources: 0 tiles, 1 cellar, 2 darners, 3 DMA, 4 link, 5 ring, 6 shuttle. -/
def resTiles : Nat := 0
def resCellar : Nat := 1
def resDarners : Nat := 2
def resDma : Nat := 3
def resLink : Nat := 4
def resRing : Nat := 5
def resShuttle : Nat := 6

/-- T of an EXEC: the stand-in estimate when some tile of the pricking stands in (R150, R152). -/
def Dev.tOf (d : Dev) (p : Pricking) (e : PEntry) : Nat := if p.tiles.any (fun t => (d.tile t.1).standin) then e.tStandin else e.tCmd

/-- The rate of a pricking: the lowest of its tiles, less the allowance; none at 0 or less. -/
def Dev.rateOf (d : Dev) (p : Pricking) : Option Nat :=
  let r := p.tiles.foldl (fun a t => min a (d.tile t.1).rate) 65536
  if r ≤ 4096 then none else some (r - 4096)

/-- W_til in eighths of a nanosecond. -/
def Dev.priceTiles (d : Dev) (m : Cmd) : Option Nat :=
  match d.execEntry m with
  | none => none
  | some (p, e) => match d.rateOf p with
    | none => none
    | some rate =>
      let sigma := (d.hoop m.hoop).sigma
      if sigma = 0 then none else some (4 * cdiv (cdiv (d.tOf p e * 65536) rate * 256) sigma)

/-- Accesses of the cellar term, in sixteenths: 8 per read granule, 8.5 per written granule, an eighth of them on one stack (R292). -/
def stackAccesses (rd wr ranges : Nat) : Nat := 16 * rd + 17 * wr + 16 * 2176 * ranges

/-- W_cel in eighths of a nanosecond. -/
def priceCellar (rd wr ranges c : Nat) : Option Nat :=
  if c = 0 then none else some (8 * 1024 * (cdiv (stackAccesses rd wr ranges) (16 * 128 * c) + 1))

/-- CELLAR ranges of the cellar term. -/
def Dev.rangesOf (d : Dev) (m : Cmd) : Nat :=
  if m.typ = tyExec then ((d.execEntry m).map (fun p => p.2.ranges)).getD 0
  else if m.typ = tyUpdate then m.ucount
  else if m.typ = tyDma ∧ m.dSrcSp = 0 ∧ m.dDstSp = 0 then 2
  else 1

/-- Shares of positions times the ring's slowest rate, in 1/65,536 positions per frame; none at 0 or less (R358). -/
def Dev.linkSpeed (d : Dev) (m : Cmd) : Option Nat :=
  let k := m.xcgid
  let r := min (d.regN pgShut k 0x0120) (d.lk (d.grp k).next).rate
  let v := d.regN pgShut k 0x0124
  if r ≤ 4096 ∨ v = 0 then none else some (v * (r - 4096))

/-- Flits of one full chunk on its largest pass (R358 Table 9). -/
def Dev.chunkFlits (d : Dev) (m : Cmd) : Nat := if m.xcop = 2 ∧ (d.grp m.xcgid).n = 2 then 140 else 276

/-- The link, ring and adder terms of a collective. -/
def Dev.priceLinks (d : Dev) (m : Cmd) : Option (List (Nat × Nat)) :=
  let n := if m.handoff then 2 else (d.grp m.xcgid).n
  let sh := (resShuttle, 5 * cdiv (d.additions m) 512)
  if m.xcop = 6 then some [(resLink, 8 * (64 * (2 * n + 1) + 210)), sh]
  else match d.linkSpeed m with
    | none => none
    | some s =>
      let fr := cdiv (d.txFlits m * 65536) s
      let passes := if m.handoff then 1 else 2
      some [(resLink, 8 * cdiv ((fr + 2) * 2176) 7), (resRing, 8 * cdiv (passes * (n - 1) * (cdiv (d.chunkFlits m * 65536) s + 1) * 2176) 7), sh]

/-- The prices of a class G command by resource; none when it is unpriceable. -/
def Dev.priced (d : Dev) (m : Cmd) : Option (List (Nat × Nat)) :=
  let c := (d.hoop m.hoop).inForce.cslots
  let gr := d.granulesOf m
  let cel : Option (List (Nat × Nat)) :=
    if gr.1 + gr.2 = 0 then some [] else (priceCellar gr.1 gr.2 (d.rangesOf m) c).map (fun w => [(resCellar, w)])
  let own : Option (List (Nat × Nat)) :=
    if m.typ = tyExec then (d.priceTiles m).map (fun w => [(resTiles, w)])
    else if m.typ = tyUpdate then (if c = 0 then none else some [(resDarners, 4 * cdiv (d.updEstimate m * 64) c)])
    else if m.typ = tyDma then some [(resDma, 8 * cdiv (m.dmaEst * 5) 8)]
    else if m.typ = tyCollective then d.priceLinks m
    else some []
  match cel, own with
  | some a, some b => some (b ++ a)
  | _, _ => none

/-! ### Energy estimate (R297) -/

/-- Energy estimate in pJ. -/
def Dev.estimatePj (d : Dev) (m : Cmd) : Nat :=
  let gr := d.granulesOf m
  let cel := 256 * (gr.1 + gr.2) * d.ec 4
  if m.typ = tyExec then (match d.execEntry m with
    | some (_, e) => e.matrix * d.ec 0 + e.vector * d.ec 1 + e.move * d.ec 2 + cel
    | none => 0)
  else if m.typ = tyUpdate then d.updBusy m * d.ec 3 + cel
  else if m.typ = tyDma then
    (b2n (m.dSrcSp == 0) + b2n (m.dDstSp == 0)) * m.dTotal * d.ec 4 + (b2n (m.dSrcSp == 1) + b2n (m.dDstSp == 1)) * m.dTotal * d.ec 7
  else if m.typ = tyCollective then (if m.xcop = 8 then 0 else d.txBytes m) * d.ec 5 + cel
  else if m.typ = tyStorage then (if m.sop = 1 then 65536 * m.scount else if m.sop = 2 then m.slen else 0) * (d.ec 6 + d.ec 4)
  else 0

/-- Energy estimate in whole µJ, rounded up. -/
def Dev.estimateUj (d : Dev) (m : Cmd) : Nat := cdiv (d.estimatePj m) 1000000

/-! ### The decision (R268, R294) -/

/-- The candidate command that a descriptor describes. -/
def Dev.candidate (d : Dev) (qn seq : Nat) (desc : List Byte) : Cmd :=
  let c := (d.queue qn).ctx
  { live := true, ctx := c, hoop := (d.ctx c).hoop, queue := qn, seq := seq, desc := desc }

/-- Blocks read into the candidate, and the statuses of failed reads. -/
def Dev.withBlocks (d : Dev) (m : Cmd) : Cmd × List Status :=
  let a := d.readArg m
  let b : Except Status (List Byte) := if m.typ = tyExec ∧ m.eval = true then d.readBlock m.ctx m.arg2 80 16 else .ok []
  match a, b with
  | .ok x, .ok y => ({ m with block := x, block2 := y }, [])
  | .error e, .ok _ => (m, [e])
  | .ok _, .error e => (m, [e])
  | .error e, .error f => (m, [e, f])

/-- Every check of R271 to R273 and of the types, but for capacity: the candidate with its blocks, and what fails. -/
def Dev.checks (d : Dev) (m : Cmd) : Cmd × List Status :=
  let form := (if m.formBad || d.eventsBad m then [Status.badDescriptor] else []) ++ (if m.hold then d.fenceErrs m.ctx m.fence else [])
  let r := if m.typ = 0 ∨ tySignal < m.typ then (m, []) else d.withBlocks m
  let m := r.1
  let more := if r.2.isEmpty && !m.formBad then d.typeErrs m ++ (if d.notPinned m then [.notPinned] else []) ++
      (if m.typ = tyExec ∧ m.cls = 0 ∧ ((d.execEntry m).map (fun p => p.2.bounded)) = some false then [.badDescriptor] else [])
    else []
  (m, form ++ r.2 ++ more)

/-- Sums of accepted and new prices: Σ over r of (A_r + W_r), in eighths of a nanosecond. -/
def Hoop.wouldHold (h : Hoop) (w : List (Nat × Nat)) : Nat := tabSum h.accepted + w.foldl (fun a e => a + e.2) 0

/-- Admission lacks a resource: no tracker, no energy, no DMA channel; of class G, the hoop's mode, the safe clock, the price or the depth (R294). -/
def Dev.noCapacity (d : Dev) (m : Cmd) : Bool :=
  let h := d.hoop m.hoop
  d.freeTracker.isNone || decide (h.energy < (d.estimateUj m : Int)) || (m.typ == tyDma && h.inForce.dma == 0) ||
  (m.cls == 0 && (h.excl || d.therm.safe ||
    (match d.priced m with
     | none => true
     | some w => decide (8 * h.inForce.gdepth < h.wouldHold w))))

/-- T that the tile price was made on. -/
def Dev.pricedT (d : Dev) (m : Cmd) : Nat :=
  match d.execEntry m with
  | some (p, e) => if m.typ = tyExec then d.tOf p e else 0
  | none => 0

/-- What an accepted command leaves on its fence: a STEP, a RESTORE or a read hold, in acceptance order (R184), and the STEP's estimate (R183). -/
def Dev.fenceAccept (d : Dev) (trk : Nat) (m : Cmd) : Dev :=
  let wait := fun (d : Dev) (f : Nat) (step : Bool) => d.setFence f { d.fence f with waiting := (d.fence f).waiting ++ [(trk, step)] }
  let d := if m.hold then wait d m.fence false else d
  let d := if m.eval then wait d m.evFence false else d
  let d := if m.typ = tyUpdate ∧ m.uop = 3 then
      let e := if 1024 < m.ucount then 0 else d.updEstimate m
      wait (d.setFence m.ufence { d.fence m.ufence with est := e }) m.ufence true else d
  if m.typ = tyCheckpoint ∧ m.sop = 3 then wait d m.kFence true else d

/-- An accepted command takes a tracker; its energy and its prices are charged (R294). -/
def Dev.accept (d : Dev) (trk : Nat) (m : Cmd) : Dev :=
  let w : Table Nat := if m.cls = 0 then (d.priced m).getD [] else []
  let w := pricesAdd [] w
  let e := d.estimateUj m
  let ord := d.cmdSeq
  let m := { m with accOrder := ord, prices := w, estimate := e, tPrice := d.pricedT m, lookup := if m.typ = tyExec then m.models.take m.nmodel else [] }
  let h := d.hoop m.hoop
  let d := d.setHoop m.hoop { h with energy := h.energy - (e : Int), accepted := pricesAdd h.accepted w }
  ({ d with cmdSeq := ord + 1 }.setCmd trk m).fenceAccept trk m

/-- One descriptor of a queue decided, in sequence order (R268). -/
def Dev.decideOne (d : Dev) (qn : Nat) : Dev :=
  let q := d.queue qn
  if !q.valid || q.error || q.destroying || q.decided == q.tail || (d.ctx q.ctx).state != .active then d
  else match d.fetchDesc qn q.decided with
    | none => (d.setQueue qn { q with error := true }).orReg pgQue qn 0x012C 4
    | some desc =>
      let d := (d.setQueue qn { q with decided := (q.decided + 1) % 2 ^ 32, pushed := q.pushed.tail }).refillHoop (d.ctx q.ctx).hoop
      let r := d.checks (d.candidate qn q.decided desc)
      if !r.2.isEmpty then d.reject qn q.decided desc (stAll r.2)
      else match d.freeTracker with
        | none => d.reject qn q.decided desc Status.rejectNoCapacity.code
        | some trk => if d.noCapacity r.1 then d.reject qn q.decided desc Status.rejectNoCapacity.code else d.accept trk r.1

/-- DESCRIPTOR_DECISION (R268). -/
def execDescriptorDecision (queue now : Nat) (s : State) : Host.Outcome State Fault Refusal :=
  onDev s (fun d => (d.at now).whenLive (fun d => d.decideOne queue))

/-! ### The release (R269, R293) -/

/-- The event waits of a command are met (R275). -/
def Dev.waitsMet (d : Dev) (m : Cmd) : Bool :=
  (!bit m.deps 0 || decide (m.df 40 8 ≤ (d.evt (m.df 32 2)).value)) && (!bit m.deps 1 || decide (m.df 48 8 ≤ (d.evt (m.df 34 2)).value))

/-- No earlier command of the queue waits (R269). -/
def Dev.queueTurn (d : Dev) (m : Cmd) : Bool :=
  d.cmds.all (fun e => !(e.2.live && e.2.queue == m.queue && decide (e.2.accOrder < m.accOrder) && e.2.stage == .waiting))

/-- The fence that orders a command, and whether it takes it as a STEP (R184); a CAPTURE takes its hold when it starts (R371). -/
def Cmd.ordering (m : Cmd) : Option (Nat × Bool) :=
  if m.hold then some (m.fence, false)
  else if m.eval then some (m.evFence, false)
  else if m.typ = tyUpdate ∧ m.uop = 3 then some (m.ufence, true)
  else if m.typ = tyCheckpoint ∧ m.sop = 3 then some (m.kFence, true)
  else none

/-- What the fence says of a command: it may start, it waits, or its hold ends it. -/
inductive FenceSay where
  | go
  | wait
  | stop (st : Status)
deriving DecidableEq, Repr

/-- The fence rules of R184 and R206. -/
def Dev.fenceSays (d : Dev) (trk : Nat) : FenceSay :=
  let m := d.cmd trk
  match m.ordering with
  | none => .go
  | some (k, step) =>
    let f := d.fence k
    if !step && (f.state == .incomplete || f.state == .lost) then .stop .contextAborted
    else if !f.myTurn trk step then .wait
    else if m.eval && m.evStep != 0xFFFFFFFF && m.evStep != f.step then .stop .badDescriptor
    else .go

/-- A tile that the command's context is resident on holds for a remap (R455). -/
def Dev.tileHeld (d : Dev) (m : Cmd) : Bool := (d.slotsOf m.ctx).any (fun p => (d.tile p.1).holding)

/-- Conditions of the release other than fences and lookups. -/
def Dev.mayRelease (d : Dev) (trk : Nat) : Bool :=
  let m := d.cmd trk
  m.live && m.stage == .waiting && !m.released && d.waitsMet m && d.queueTurn m && (d.ctx m.ctx).state == .active && !d.ctxHeld m.ctx && !d.tileHeld m

/-- The release itself: the command runs, B_r rises, and the deadline is fixed (R293). -/
def Dev.releaseNow (d : Dev) (trk : Nat) : Dev :=
  let m := d.cmd trk
  let h := d.hoop m.hoop
  let rel := pricesAdd h.released m.prices
  let start := if m.typ = tyCollective then max d.now m.xcstart else d.now
  let base : Table Nat := if m.typ = tyExec then (d.cmdTiles m).foldl (fun t k => tabPut natDflt t k (d.tile k).replays) [] else []
  let d := match m.ordering with
    | some (k, step) => d.setFence k ((d.fence k).take trk step)
    | none => d
  let d := d.setHoop m.hoop { h with released := rel }
  let d := { d with cmdSeq := d.cmdSeq + 1 }.setCmd trk
    { m with released := true, relTime := d.now, relOrder := d.cmdSeq, stage := .running, replayBase := base, deadline := start + 8192 + tabSum rel / 8 }
  if m.typ = tyCheckpoint ∧ m.sop = 1 ∧ m.kArmed = false then d.captureStart trk else d

/-- A command released when its conditions are met; its lookups are made once they are (R196). -/
def Dev.release (d : Dev) (trk : Nat) : Dev :=
  if !d.mayRelease trk then d
  else match d.fenceSays trk with
    | .wait => d
    | .stop st => d.finish trk st
    | .go =>
      let d := d.lookup trk
      if (d.cmd trk).stage == .waiting && d.lookupsMet trk then d.releaseNow trk else d

/-- COMMAND_RELEASE (R293). -/
def execCommandRelease (trk now : Nat) (s : State) : Host.Outcome State Fault Refusal :=
  onDev s (fun d => (d.at now).whenLive (fun d => d.release trk))

/-- A CAPTURE that completes with `OK` begins the hold of the armed tiles that its context is resident on (R455). -/
def Dev.captureMark (d : Dev) (m : Cmd) : Dev :=
  if m.typ = tyCheckpoint ∧ m.sop = 1 ∧ m.finalStatus m.status = 0 then
    (d.slotsOf m.ctx).foldl (fun d p => if (d.tile p.1).armed then d.setTile p.1 { d.tile p.1 with holding := true } else d) d
  else d

/-- COMMAND_COMPLETE: a command whose work has ended completes (R270); a trace record names its engine by 0x100 plus its type (log entry 52). -/
def execCommandComplete (trk now : Nat) (s : State) : Host.Outcome State Fault Refusal :=
  onDev s (fun d => (d.at now).whenLive (fun d => if (d.cmd trk).live && (d.cmd trk).stage == .finished then ((d.trace (d.cmd trk).ctx (0x100 + (d.cmd trk).typ) trk).captureMark (d.cmd trk)).complete trk 0 false else d))

end Sys2Proof.Machine
end

