-- ==== Sys2Proof/Machine/Pkg.lean ====
section
/-! DEFINITION. The core regulator (R500), clocks that fail (R438, R505), PCIe completions that do not come (R254), and crossings of which one side is
in reset (R489 to R493). -/
namespace Sys2Proof.Machine

/-! ### The core regulator (R500) -/

/-- The new target is one the rule allows: within V_OP ± 25 mV and at most 5 mV from the target before. -/
def avsAllowed (vop old target : Nat) : Bool :=
  decide (target ≤ vop + 25) && decide (vop ≤ target + 25) && decide (target ≤ old + 5) && decide (old ≤ target + 5)

/-- An update of the target: `retries` transactions were retried; `failed`, the third retry failed as well. -/
def Dev.avsUpdate (d : Dev) (vop target retries : Nat) (failed : Bool) : Dev :=
  if d.therm.safe || !avsAllowed vop (d.regN pgTel 0 0x1018) target then d
  else
    let d := (d.emit (.avs target)).bumpRc pgTel 0 0x1030 (if failed then 3 else min retries 3)
    if failed then d.orReg pgTel 0 0x102C 1 else d.setRegN pgTel 0 0x1018 target

/-- AVS_UPDATE (R500): the target from the fused temperature table; held while the safe clock is in force. -/
def execAvsUpdate (target retries : Nat) (failed : Bool) (now : Nat) (s : State) : Host.Outcome State Fault Refusal :=
  onDev s (fun d => (d.at now).whenAon (fun d => if d.aon.ready || d.aon.safe then d.avsUpdate s.fuses.vop target retries failed else d))

/-- ICORE_READ (R500): the VDD_CORE current, in units of 0.25 A. -/
def execIcoreRead (amps now : Nat) (s : State) : Host.Outcome State Fault Refusal :=
  onDev s (fun d => (d.at now).whenAon (fun d => d.setRegN pgTel 0 0x1020 (amps % 2 ^ 14)))

/-! ### Clocks and PCIe -/

/-- PLL_LOCK_LOSS (R438): 0 CCLK, 1 NCLK, 2 MCLK, 3 SCLK, locked since step `CLOCKS`: halt, cause 0x14. -/
def execPllLockLoss (pll now : Nat) (s : State) : Host.Outcome State Fault Refusal :=
  onDev s (fun d =>
    let d := d.at now
    if d.coreOn && (d.aon.ready || d.aon.safe || decide (7 < d.aon.boot.step)) && decide (pll < 4) then
      ((d.clrReg pgClk 0 0x1000 (2 ^ pll)).halt 0x14 pll 0 0 0).haltedBoot
    else d)

/-- A queue whose descriptor fetch got no completion enters `ERROR` (R266, R269). -/
def Dev.fetchError (d : Dev) (q : Nat) : Dev :=
  if (d.queue q).valid then (d.setQueue q { d.queue q with error := true }).orReg pgQue q 0x012C 4 else d

/-- COMPLETION_TIMEOUT (R254): of the host source of a DMA channel's segment, or of a queue's descriptor fetch. -/
def execCompletionTimeout (fetch : Bool) (unit cyc now : Nat) (s : State) : Host.Outcome State Fault Refusal :=
  onDev s (fun d => (d.at now).whenLive (fun d => if fetch then d.fetchError unit else d.dmaSegment unit 0 true cyc))

/-! ### Crossings (R489 to R493) -/

/-- Number of crossings. -/
def crossings : Nat := 145

/-- `CLK_X_STS` of a crossing. -/
def Dev.xSts (d : Dev) (x : Nat) : Nat := d.regN pgClk x 0x0104

/-- The crossing is open. -/
def Dev.xOpen (d : Dev) (x : Nat) : Bool := bit (d.xSts x) 3

/-- PEER_RESET_ENTRY (R492): `side` 0 source, 1 destination enters reset; `drops` writes into the crossing are dropped. -/
def Dev.peerReset (d : Dev) (x side drops : Nat) : Dev :=
  let d := d.setRegN pgClk x 0x0104 ((d.xSts x ||| 2 ^ side) &&& 7)
  if drops = 0 then d else (d.bumpRc pgClk x 0x0108 drops).orReg pgClk x 0x0110 1

/-- A side of a crossing enters reset. -/
def execPeerResetEntry (crossing side drops now : Nat) (s : State) : Host.Outcome State Fault Refusal :=
  onDev s (fun d => (d.at now).whenLive (fun d => if crossing < crossings ∧ side < 2 then d.peerReset crossing side drops else d))

/-- A side leaves reset (R493): with the other side out of reset too, the handshake ends with the crossing open and `RESYNC_EVT` set. -/
def Dev.reopen (d : Dev) (x side : Nat) : Dev :=
  let s := d.xSts x
  if !bit s side then d
  else
    let s := s - 2 ^ side
    if s % 4 = 0 then (d.setRegN pgClk x 0x0104 8).orReg pgClk x 0x0110 2 else d.setRegN pgClk x 0x0104 s

/-- CROSSING_REOPEN (R493). -/
def execCrossingReopen (crossing side now : Nat) (s : State) : Host.Outcome State Fault Refusal :=
  onDev s (fun d => (d.at now).whenLive (fun d => if crossing < crossings ∧ side < 2 then d.reopen crossing side else d))

end Sys2Proof.Machine
end

