-- ==== Sys2Proof/Machine/Ras.lean ====
section
/-! DEFINITION. Watchdogs (R440), requested halts (R438, R450, R504), the rows of the RTP's and the sensors' halts, and the tile remap of the attic (R455). -/
namespace Sys2Proof.Machine

/-! ### Watchdogs (R440 Table 3) -/

/-- A unit works for a context and no wait of R440 holds it back: a tile's slot with issued or ready work (kind 0), a DMA channel that runs a
command (1), a darner that holds a strip of a command (2). -/
def Dev.unitWorks (d : Dev) (kind unit c : Nat) : Bool :=
  if kind = 0 then
    !(d.tile unit).holding && (d.slotsOf c).any (fun p => p.1 == unit && (d.slot p.1 p.2).running.isSome && (d.slot p.1 p.2).suspended.isNone &&
      !(d.slot p.1 p.2).halted)
  else if kind = 1 then (d.channel unit).busy && !(d.channel unit).suspended && (d.cmd (d.channel unit).tracker).ctx == c
  else kind == 2 && !(d.cmdsOf (fun m => m.ctx == c && m.typ == tyUpdate && m.released && m.stage == .running)).isEmpty

/-- The engine watchdog of a context and unit fires: class C, cause 0x44. -/
def execEngineWatchdog (kind unit ctx now : Nat) (s : State) : Host.Outcome State Fault Refusal :=
  onDev s (fun d => (d.at now).whenLive (fun d =>
    if (d.ctx ctx).state == .active && !d.ctxHeld ctx && d.unitWorks kind unit ctx then
      d.classC ctx none 0x44 .contextAborted { unit := kind, unum := unit }
    else d))

/-- A command waits on its queue watchdog: not started, or a handoff that waits. -/
def Cmd.waits (m : Cmd) : Bool := m.live && m.stage != .finished && (!m.started || (m.typ == tyCollective && (m.xcop == 7 || m.xcop == 8)))

/-- The queue watchdog fires on a command: class C, cause 0x45. -/
def execQueueWatchdog (trk now : Nat) (s : State) : Host.Outcome State Fault Refusal :=
  onDev s (fun d => (d.at now).whenLive (fun d =>
    let m := d.cmd trk
    if m.waits then d.classC m.ctx (some trk) 0x45 .contextAborted { unit := Client.internal.code } else d))

/-! ### Requested halts -/

/-- The code that halts the device. -/
def haltCode : Nat := 0x48414C54

/-- A write to `RAS_HALT_REQ` (R438, R450): the halt code from the PF or BMC. -/
def Dev.haltReq (d : Dev) (port v : Nat) : Dev :=
  if port ≠ portPf && port ≠ portBmc && port ≠ portJtag then d.logErr port pgRas 0x1030 .port v
  else if v ≠ haltCode then d.logErr port pgRas 0x1030 .value v
  else d.halt 0x15 (if port = portPf then 0 else 1) 0 0 0

/-- A write to `RAS_HALT_REQ`. -/
def execRasHaltReq (port value now : Nat) (s : State) : Host.Outcome State Fault Refusal :=
  onDev s (fun d => (d.at now).whenAon (fun d => (d.haltReq port value).haltedBoot))

/-- A write to `RAS_HALT_STS`: writing 1 to `VALID` zeroes the halt record (R450). -/
def Dev.haltClear (d : Dev) (port v : Nat) : Dev :=
  if (port == portPf || port == portRtp || port == portBmc || port == portJtag) && bit v 0 then { d with aon := { d.aon with halt := {} } } else d

/-- Clearing `RAS_HALT_STS.VALID`. -/
def execRasHaltStsClear (port value : Nat) (s : State) : Host.Outcome State Fault Refusal :=
  onDev s (fun d => d.whenAon (fun d => d.haltClear port value))

/-- HALT_N is held low while the device does not drive it (R438, R504). -/
def execHaltNLow (now : Nat) (s : State) : Host.Outcome State Fault Refusal :=
  onDev s (fun d => (d.at now).whenAon (fun d =>
    if !d.aon.halted && bit (d.regN pgRas 0 0x102C) 0 then (d.halt 0x16 0 0 0 0).haltedBoot else d))

/-! ### Halts that the RTP and the sensors raise (R387, R389, R391, R514) -/

/-- The watchdog of an RTP core fires: 0 core A, 1 core B; `dur` is how long the restart takes, ns. -/
def execRtpWatchdog (core dur now : Nat) (s : State) : Host.Outcome State Fault Refusal :=
  onDev s (fun d => if (if core = 0 then d.sec.coreA else d.sec.coreB) then ((d.at now).rtpWatchdog core dur).haltedBoot else d.at now)

/-- A tamper source of R389 Table 3 trips at a BCLK count. -/
def execTamperTrip (source bclk now : Nat) (s : State) : Host.Outcome State Fault Refusal :=
  onDev s (fun d => if d.batt.vbat && decide (1 ≤ source) && decide (source ≤ 6) then ((d.at now).tamper source bclk).haltedBoot else d.at now)

/-- An entropy health test fails. -/
def execEntropyHealthFail (startup : Bool) (now : Nat) (s : State) : Host.Outcome State Fault Refusal :=
  onDev s (fun d => if d.aon.aonUp then ((d.at now).entropyFail startup).haltedBoot else d.at now)

/-- A temperature sensor is sampled (R513, R514). -/
def execSensorSample (sensor reading now : Nat) (s : State) : Host.Outcome State Fault Refusal := onDev s (fun d => ((d.at now).sensorSample sensor reading).haltedBoot)

/-! ### Tile remap (R455) -/

/-- Mesh row of a logical tile (R14). -/
def tileRow (t : Nat) : Nat := t / 12

/-- A remap is armed in the row. -/
def Dev.rowArmed (d : Dev) (r : Nat) : Bool := (List.range 12).any (fun i => (d.tile (12 * r + i)).armed)

/-- REMAP_TILE: the codes that apply, else the remap is armed; with `NOW` its hold begins. -/
def Dev.remapTile (d : Dev) (t : Nat) (immediate : Bool) : Status × Dev :=
  opOr d (badIf (decide (95 < t) || (d.tile t).out || d.rowArmed (tileRow t)) ++
    (if bit (d.regN pgAttic 0 0x1000) (tileRow t) then [] else [.rejectNoCapacity]))
    (fun _ => (.ok, d.setTile t { d.tile t with armed := true, holding := immediate }))

/-- CANCEL disarms a remap and releases its hold. -/
def Dev.remapCancel (d : Dev) (t : Nat) : Status × Dev := (.ok, d.setTile t { d.tile t with armed := false, holding := false })

/-- A write to `ATTIC_OP`: only the PF's is accepted. -/
def Dev.atticOp (d : Dev) (port v : Nat) : Dev :=
  d.runOp port pgAttic 0x1004 0x1008 v (port == portPf) (fun d =>
    match v % 16 with
    | 1 => d.remapTile (fld v 10 4) (bit v 16)
    | 2 => d.remapCancel (fld v 10 4)
    | _ => (.badDescriptor, d))

/-- REMAP_TILE arms the move of a logical tile onto its row's spare. -/
def execRemapTile (port tile : Nat) (immediate : Bool) (now : Nat) (s : State) : Host.Outcome State Fault Refusal :=
  onDev s (fun d => (d.at now).whenLive (fun d => d.atticOp port (1 + tile % 128 * 2 ^ 4 + b2n immediate * 2 ^ 16)))

/-- CANCEL of a remap. -/
def execRemapCancel (port tile now : Nat) (s : State) : Host.Outcome State Fault Refusal :=
  onDev s (fun d => (d.at now).whenLive (fun d => d.atticOp port (2 + tile % 128 * 2 ^ 4)))

/-- No released command of a context resident on the tile remains incomplete. -/
def Dev.tileQuiet (d : Dev) (t : Nat) : Bool :=
  (d.cmdsOf (fun m => m.released && (d.slotsOf m.ctx).any (fun p => p.1 == t))).isEmpty

/-- The remap: units and slots go to the spare of the row (column 12 at manufacture), whose arrays are fresh; `TILE_PHYS`, stand-in and the health
counters follow, the old tile is retired, the hold ends. -/
def Dev.remapRun (d : Dev) (t : Nat) : Dev :=
  let x := d.tile t
  let d := d.setTile t { x with phys := 13, standin := false, retired := [], rate := 65536, cohort := 65536, winNom := 0, winElapsed := 0, arrMap := [],
                                colUsed := [], spareArrays := 2, armed := false, holding := false }
  let d := [0x0180, 0x0188, 0x0190].foldl (fun d o => d.setReg64 pgTile t o 0) (d.setRegN pgTile t 0x0198 0)
  (d.clrReg pgAttic 0 0x1000 (2 ^ tileRow t)).event pgAttic 0 portsDevice

/-- The held tile has no released work left: it moves. -/
def execTileRemapExecute (tile now : Nat) (s : State) : Host.Outcome State Fault Refusal :=
  onDev s (fun d => (d.at now).whenLive (fun d => if (d.tile tile).holding && d.tileQuiet tile then d.remapRun tile else d))

end Sys2Proof.Machine
end

