-- ==== Sys2Proof/Machine/Test.lean ====
section
/-! DEFINITION. Production and field test (chapter 23): lane patterns and loopbacks, memory self-test of one tile, the cellar test, and the test
access port. -/
namespace Sys2Proof.Machine

/-! ### Lanes (R517 to R520) -/

/-- Registers of the TEST page. -/
def oLsel : Nat := 0x1000
def oLctl : Nat := 0x1004
def oTestOp : Nat := 0x1018
def oTestSts : Nat := 0x101C
def oTestFlags : Nat := 0x1030

/-- An unlisted lane: not under test. -/
def laneDflt (_ : Nat) : LaneTest := {}

def Dev.lane (d : Dev) (k : Nat) : LaneTest := tabGet laneDflt d.laneTests k
def Dev.setLane (d : Dev) (k : Nat) (x : LaneTest) : Dev := { d with laneTests := tabPut laneDflt d.laneTests k x }

/-- A selection names a lane that exists (R518): 16 Acaunel ports of 9 lanes, 2 Ethernet ports of 8, one PCIe port of 16. -/
def laneExists (v : Nat) : Bool :=
  let p := fld v 7 4
  let l := fld v 11 8
  match v % 4 with
  | 0 => decide (l < 9)
  | 1 => decide (p < 2) && decide (l < 8)
  | 2 => p == 0
  | _ => false

/-- Key of the lane that a selection names. -/
def selLane (v : Nat) : Nat := laneKey (v % 4) (fld v 7 4) (fld v 11 8)

/-- A write to `TEST_LSEL` in a port's bank: a lane beyond the port is discarded and logged (R528). -/
def Dev.laneSel (d : Dev) (port v : Nat) : Dev :=
  if laneExists v then d.setBankN pgTest port oLsel (v &&& 0xFF3) else d.logErr port pgTest oLsel .selRange v

/-- The port of a lane is in use (R519). -/
def Dev.laneInUse (d : Dev) (kind p : Nat) : Bool :=
  match kind with
  | 0 => !((d.lk p).state == .disabled || (d.lk p).state == .down) || bit (d.regN pgAlnk p 0x011C) 0
  | 1 => bit d.ethUp p || d.sessions.any (fun e => e.2.port == p && e.2.state != .closed)
  | _ => false

/-- Boot holds the lane's port in reset (R462). -/
def Dev.laneHeld (d : Dev) (kind p : Nat) : Bool :=
  let m := d.aon.boot.portFail ||| d.aon.boot.skip
  match kind with
  | 0 => bit m p
  | 1 => bit m (16 + p)
  | _ => false

/-- The codes that refuse a write of a lane's control (R519, R520). -/
def Dev.laneErrs (d : Dev) (port sel v : Nat) : List Status :=
  let kind := sel % 4
  let p := fld sel 7 4
  (if d.laneInUse kind p then [.accessDenied] else []) ++
  (if (kind == 2 && (!lcOpen d.lc.inForce || port != portJtag)) || lcShut d.lc.inForce then [.lcInvalid] else []) ++
  (if d.laneHeld kind p then [.linkDown] else []) ++ badIf (decide (4 ≤ fld v 6 4))

/-- The PCIe link is out of L0 while a lane of it is under test, and retrains when the test is left (R519). -/
def Dev.pcieTested (d : Dev) (kind : Nat) : Dev :=
  if kind = 2 then { d with aon := { d.aon with pcieUp := !(d.laneTests.any (fun e => e.1 / 4096 == 2 && e.2.active)) && !d.aon.perstLow } } else d

/-- A write to `TEST_LCTL` (R519): refused with its status in `LAST`, or taken with the counts cleared. -/
def Dev.laneCtl (d : Dev) (port v : Nat) : Dev :=
  let sel := d.bankN pgTest port oLsel
  let k := selLane sel
  let errs := d.laneErrs port sel v
  if !errs.isEmpty then (d.setLane k { d.lane k with last := stAll errs }).logErr port pgTest oLctl .value v
  else (d.setLane k { ctl := v % 256 }).pcieTested (sel % 4)

/-- TEST_LSEL_WRITE (R528). -/
def execTestLselWrite (port value now : Nat) (s : State) : Host.Outcome State Fault Refusal :=
  onDev s (fun d => (d.at now).whenLive (fun d => if ctlPort port then d.laneSel port value else d))

/-- TEST_LCTL_WRITE (R519). -/
def execTestLctlWrite (port value now : Nat) (s : State) : Host.Outcome State Fault Refusal :=
  onDev s (fun d => (d.at now).whenLive (fun d => if ctlPort port then d.laneCtl port value else d))

/-- The checker of a lane runs: on, with a pattern (R518). -/
def LaneTest.checks (x : LaneTest) : Bool := bit x.ctl 3 && x.ctl % 4 != 0

/-- Bits checked and bits that mismatched, counted (R518, R528). -/
def LaneTest.count (x : LaneTest) (errs bits : Nat) : LaneTest :=
  { x with errs := satAdd 32 x.errs errs, bits := (x.bits + bits) % 2 ^ 64 }

/-- CHECKER_LOCK (R518): 64 matching bits in a row; from then on `bits` bits are checked, `errs` of them mismatching. -/
def execCheckerLock (kind lport lane errs bits : Nat) (s : State) : Host.Outcome State Fault Refusal :=
  onDev s (fun d => d.whenLive (fun d =>
    let k := laneKey kind lport lane
    let x := d.lane k
    if x.checks && !x.lock then d.setLane k { x.count errs bits with lock := true } else d))

/-- CHECKER_LOSS_OF_LOCK (R518): after `bits` more bits, `errs` of them mismatching, the checker loses lock; the counts keep their values. -/
def execCheckerLossOfLock (kind lport lane errs bits : Nat) (s : State) : Host.Outcome State Fault Refusal :=
  onDev s (fun d => d.whenLive (fun d =>
    let k := laneKey kind lport lane
    let x := d.lane k
    if x.checks && x.lock then d.setLane k { x.count errs bits with lock := false } else d))

/-! ### Memories (R521 to R525) -/

/-- The tile is named in the tile bitmap of a hoop (R304, R523). -/
def Dev.tileNamed (d : Dev) (t : Nat) : Bool := d.hoops.any (fun e => e.2.state != .free && bit e.2.inForce.tiles t)

/-- What a self-test of a tile finds: pantry units to retire, spare rows used, crock banks beyond repair, columns and arrays replaced, and
`TEST_MB_RESULT` of it. -/
def mbResult (units rows cols arrays : Nat) (crock : Bool) : Nat :=
  units % 128 + rows % 128 * 2 ^ 8 + b2n crock * 2 ^ 16 + cols % 64 * 2 ^ 18 + arrays % 8 * 2 ^ 24

/-- Physical arrays of a tile whose check fails: how many take their spare column, how many a spare array. -/
def Tile.colsFor (x : Tile) (arrays : List Nat) : Nat := (arrays.filter (fun a => !tabGet (fun _ => false) x.colUsed a)).length

/-- MBIST_TILE on a logical tile that no hoop names (R522, R523). -/
def Dev.mbistRun (d : Dev) (t : Nat) (units : List Nat) (rows : Nat) (crock : Bool) (arrays : List Nat) : Dev :=
  let cols := (d.tile t).colsFor arrays
  let d := d.setTile t { d.tile t with retired := units, standin := crock }
  let d := arrays.foldl (fun d a => d.repairArray t a) d
  let d := { d with pantry := memZero d.pantry (t * 2 ^ 22) (2 ^ 22) }
  d.setRegN pgTest 0 0x1020 (mbResult units.length rows cols (arrays.length - cols) crock)

/-- MBIST_TILE and its failures. -/
def Dev.mbistTile (d : Dev) (t : Nat) (units : List Nat) (rows : Nat) (crock : Bool) (arrays : List Nat) : Status × Dev :=
  opOr d (badIf (decide (96 ≤ t) || d.tileNamed t) ++ (if lcShut d.lc.inForce then [.lcInvalid] else []))
    (fun _ => (.ok, d.mbistRun t units rows crock arrays))

/-- The metadata of a stack at its initial values: every granule reads zeros, no page is owned (R467, R525). -/
def Dev.stackMeta (d : Dev) (k : Nat) : Dev :=
  { d with groups := tabClear (fun g => paStack (g * 16384) == k) d.groups, pot := tabClear (fun p => p % 8 == k) d.pot,
           cellar := tabClear (fun a => paStack a == k) d.cellar }

/-- HBM_TEST and its failures (R525): `pass` the interface loopback's outcome, `lanes` that lanes were repaired, `rows` the rows repaired. -/
def Dev.hbmTest (d : Dev) (k : Nat) (hard pass lanes : Bool) (rows : Nat) : Status × Dev :=
  opOr d (badIf (!d.scanFree) ++ (if lcOpen d.lc.inForce then [] else [.lcInvalid])) (fun _ =>
    let v := d.regN pgTest 0 0x102C
    let v := setFld (setFld (setFld v k k (b2n pass)) (8 + k) (8 + k) (b2n lanes)) 31 16 (if hard then rows % 65536 else 0)
    (.ok, (d.setRegN pgTest 0 0x102C v).stackMeta k))

/-- A write to `TEST_OP` (R528): a code of no operation completes with `BAD_DESCRIPTOR`. -/
def Dev.testOp (d : Dev) (v : Nat) (f : Dev → Status × Dev) : Dev :=
  let d := d.setRegN pgTest 0 oTestOp (v &&& 0x177FF)
  let r := f d
  let d := if stSuccess r.1.code then r.2 else d
  d.setRegN pgTest 0 oTestSts r.1.code

/-- MBIST_TILE (R523): `units` pantry units that the test retires, `rows` spare rows used, `crock` a crock bank beyond repair, `arrays` the physical
arrays whose check fails. -/
def execMbistTile (port tile : Nat) (units : List Nat) (rows : Nat) (crock : Bool) (arrays : List Nat) (now : Nat) (s : State) :
    Host.Outcome State Fault Refusal :=
  onDev s (fun d => (d.at now).whenLive (fun d =>
    if ctlPort port then d.testOp (1 + tile % 128 * 16) (fun d => d.mbistTile (tile % 128) units rows crock arrays) else d))

/-- HBM_TEST (R525). -/
def execHbmTest (port stack : Nat) (hard pass lanes : Bool) (rows now : Nat) (s : State) : Host.Outcome State Fault Refusal :=
  onDev s (fun d => (d.at now).whenLive (fun d =>
    if ctlPort port then d.testOp (2 + stack % 8 * 2 ^ 12 + b2n hard * 2 ^ 16) (fun d => d.hbmTest (stack % 8) hard pass lanes rows) else d))

/-! ### The test access port (R526, R527) -/

/-- TAP instruction codes (Table 5). -/
def tapExtest : Nat := 0x00
def tapIdcode : Nat := 0x01
def tapSample : Nat := 0x02
def tapClampIr : Nat := 0x03
def tapHighz : Nat := 0x04
def tapRegacc : Nat := 0x10
def tapDbgcert : Nat := 0x11
def tapDbgtap : Nat := 0x12
def tapBypass : Nat := 0xFF

/-- The contents of `IDCODE`: stepping A, part 0x9624, manufacturer 0x3D5, a one. -/
def idcode : Nat := 0x096247AB

/-- The TAP instruction in force. -/
def Dev.setIr (d : Dev) (ir : Nat) : Dev := { d with tap := { d.tap with ir := ir } }

/-- `EXTEST`, `CLAMP` and `HIGHZ` take effect (Table 1). -/
def Dev.drives (d : Dev) : Bool := lcOpen d.lc.inForce || d.aon.sysRstLow

/-- An instruction that drives the lands: elsewhere it selects `BYPASS` and is flagged. -/
def Dev.tapDrive (d : Dev) (ir : Nat) (f : Dev → Dev) : Dev :=
  if d.drives then f (d.setIr ir) else (d.setIr tapBypass).orReg pgTest 0 oTestFlags 1

/-- TAP_RESET (R509): `IDCODE` is selected. -/
def execTapReset (s : State) : Host.Outcome State Fault Refusal := onDev s (fun d => d.whenAon (fun d => d.setIr tapIdcode))

/-- EXTEST: `cells` shifted into the boundary register drive the outputs. -/
def execExtest (cells : Nat) (s : State) : Host.Outcome State Fault Refusal :=
  onDev s (fun d => d.whenAon (fun d => d.tapDrive tapExtest (fun d => { d.emit (.tap tapExtest cells) with tap := { d.tap with cells := cells } })))

/-- CLAMP: the outputs are held from the boundary register. -/
def execTapClamp (s : State) : Host.Outcome State Fault Refusal :=
  onDev s (fun d => d.whenAon (fun d => d.tapDrive tapClampIr (fun d => d.emit (.tap tapClampIr d.tap.cells))))

/-- HIGHZ: the outputs are released. -/
def execHighz (s : State) : Host.Outcome State Fault Refusal := onDev s (fun d => d.whenAon (fun d => d.tapDrive tapHighz id))

/-- SAMPLE/PRELOAD: the boundary register samples the lands, and takes what is shifted in. -/
def execSamplePreload (lands preload : Nat) (s : State) : Host.Outcome State Fault Refusal :=
  onDev s (fun d => d.whenAon (fun d =>
    let d := (d.setIr tapSample).emit (.tap tapSample lands)
    { d with tap := { d.tap with cells := preload } }))

/-- IDCODE. -/
def execIdcode (s : State) : Host.Outcome State Fault Refusal :=
  onDev s (fun d => d.whenAon (fun d => (d.setIr tapIdcode).emit (.tap tapIdcode idcode)))

/-- BYPASS, and every code that Table 5 does not give. -/
def execBypass (s : State) : Host.Outcome State Fault Refusal := onDev s (fun d => d.whenAon (fun d => d.setIr tapBypass))

/-- DBGCERT (R431, R434): `bytes` of a certificate, or of a legacy response of 96 bytes, through the certificate data register. -/
def Dev.tapCert (d : Dev) (serial : Nat) (bytes : List Byte) : Dev :=
  let r := if bytes.length = 96 then d.legacyResponse serial bytes else d.enableCert serial false bytes
  let e := if stSuccess r.1.code then r.2 else if bytes.length = 96 then d.spendChal else d
  e.emit (.tap tapDbgcert r.1.code)

/-- DBGCERT selects the certificate data register. Core A verifies what is shifted in, while the core runs. -/
def execDbgcert (bytes : List Byte) (now : Nat) (s : State) : Host.Outcome State Fault Refusal :=
  onDev s (fun d => (d.at now).whenAon (fun d => (d.setIr tapDbgcert).whenLive (fun d => d.tapCert s.fuses.serial bytes)))

/-- DBGTAP connects the debug TAP, with the rights in force (R429); the scan chains stand behind it while scan is granted. -/
def execDbgtap (s : State) : Host.Outcome State Fault Refusal :=
  onDev s (fun d => d.whenAon (fun d => (d.setIr tapDbgtap).emit (.tap tapDbgtap ((if d.live then d.dbgRights else 0) ||| b2n d.dbg.scan * 16))))

end Sys2Proof.Machine
end

