-- ==== Sys2Proof/Machine/View.lean ====
section
/-! DEFINITION. What each register reads as: the fields that the chapters' tables give, taken from the objects of the state. A register that is not
computed here reads as its word in the register file. -/
namespace Sys2Proof.Machine

/-- Word `k` of a value, 32 bits each. -/
def wordOf (v k : Nat) : Nat := v / 2 ^ (32 * k) % 2 ^ 32

/-- Word of a 64-bit value at an offset, whose low word stands at `lo`. -/
def half (v lo off : Nat) : Nat := wordOf v ((off - lo) / 4)

/-- Words of a record's bytes: the word at `off`, the record beginning at `lo`. -/
def recWord (bs : List Byte) (lo off : Nat) : Nat := bytesNat bs (off - lo) 4

/-! ### Safeguards, tiles, darners, caches -/

/-- NUM (R64). -/
def Dev.viewNum (d : Dev) (e off : Nat) : Option Nat :=
  let x := d.sat e
  match off with
  | 0x0104 => some (x.ctx + x.hoop * 2 ^ 16 + b2n x.assigned * 2 ^ 31)
  | 0x0138 => some x.tensor
  | _ => none

/-- LST (R191). -/
def Dev.viewLst (d : Dev) (e off : Nat) : Option Nat :=
  let x := d.lst e
  match off with
  | 0x0104 => some (x.ctx + x.hoop * 2 ^ 16 + b2n x.assigned * 2 ^ 31)
  | 0x0108 => some (d.lstSumsq e)
  | _ => none

/-- A logical tile belongs to a sealed hoop: which. -/
def Dev.sealedTile (d : Dev) (t : Nat) : Option Nat := lowest 16 (fun h => (d.hoop h).state != .free && (d.hoop h).isSealed && bit (d.hoop h).inForce.tiles t)

/-- A slot is another hoop's than the port's (R103). -/
def Dev.slotHidden (d : Dev) (port : Nat) (s : Slot) : Bool := !d.seesHoop port s.hoop

/-- Units of a tile by a rule on the owning slot plus 1, as a 64-bit map. -/
def unitMap (p : Nat → Bool) : Nat := (List.range 64).foldl (fun a u => if p u then a + 2 ^ u else a) 0

/-- Slot plus 1 that a unit reads as owned by on a port. -/
def Dev.unitOwner (d : Dev) (port t u : Nat) : Nat :=
  let n := tabGet natDflt (d.tile t).owner u
  if n = 0 ∨ d.slotHidden port (d.slot t (n - 1)) then 0 else n

/-- `TILE_SLOTn`. -/
def Dev.slotWord (d : Dev) (port t k : Nat) : Nat :=
  let s := d.slot t k
  if !s.valid || d.slotHidden port s then 0 else s.ctx + s.hoop * 2 ^ 16 + s.units.length * 2 ^ 20 + 2 ^ 31

/-- TILE (R103). -/
def Dev.viewTile (d : Dev) (port t off : Nat) : Option Nat :=
  let x := d.tile t
  if 0x1000 ≤ off then none
  else if x.out then some 0
  else if 0x0118 ≤ off ∧ off ≤ 0x0134 then
    some ((List.range 8).foldl (fun a i => a + (d.unitOwner port t (8 * ((off - 0x0118) / 4) + i) - 1) * 16 ^ i) 0)
  else if 0x0140 ≤ off ∧ off ≤ 0x017C then some (d.slotWord port t ((off - 0x0140) / 4))
  else
    match off with
    | 0x0100 => some (1 + b2n x.standin * 2 + b2n (bit (d.regN pgTile t 0x01A4) 0) * 4 + b2n (x.slots.all (fun e => e.2.flight.isEmpty)) * 8 +
        b2n (d.sealedTile t).isSome * 16 + (x.slots.filter (fun e => e.2.valid)).length * 32 + (d.sealedTile t).getD 0 * 2 ^ 16)
    | 0x0104 => some ((if x.phys = 0 then t % 12 else x.phys - 1) + t / 12 * 16)
    | 0x0108 => some (32 + x.spareArrays * 2 ^ 8 + ((List.range 32).filter (fun i => !tabGet (fun _ => false) x.colUsed (tabGet id x.arrMap i))).length * 2 ^ 16)
    | 0x0110 => some (wordOf (unitMap (fun u => tabGet natDflt x.owner u == 0 && !x.retired.contains u)) 0)
    | 0x0114 => some (wordOf (unitMap (fun u => tabGet natDflt x.owner u == 0 && !x.retired.contains u)) 1)
    | 0x019C => some x.rate
    | 0x01A0 => some x.cohort
    | 0x01A8 => some ((List.range 32).foldl (fun a i => a + b2n (x.recvq i).owner.isSome * 2 ^ i) 0)
    | _ => none

/-- ATTIC (R457). -/
def Dev.viewAttic (d : Dev) (t off : Nat) : Option Nat :=
  let x := d.tile t
  if 0x0100 ≤ off ∧ off ≤ 0x011C then
    some ((List.range 4).foldl (fun a j =>
      let p := tabGet id x.arrMap (off - 0x0100 + j)
      a + (p % 64 + b2n (tabGet (fun _ => false) x.colUsed p) * 64) * 256 ^ j) 0)
  else if off = 0x0120 then some (b2n x.armed * 2 + b2n x.holding * 4)
  else if off = 0x1010 then some (d.retireQ.length % 2 ^ 16)
  else none

/-- Code of a fence's state. -/
def FenceState.code : FenceState → Nat
  | .free => 0 | .idle => 1 | .updating => 2 | .incomplete => 3 | .lost => 4

/-- DARN (R191): a darner, and the fence that `DARN_FSEL` names. -/
def Dev.viewDarn (d : Dev) (port n off : Nat) : Option Nat :=
  let f := d.fence (d.bankN pgDarn port 0x1010 % 1024)
  match off with
  | 0x0100 => some (b2n (!(d.darner n).out))
  | 0x1020 => some (f.state.code + f.ctx * 2 ^ 16 + f.hoop * 2 ^ 28)
  | 0x1024 => some (f.step % 2 ^ 32)
  | 0x1028 => some (if f.state = .incomplete then f.cursor % 2 ^ 32 else 0)
  | 0x102C => some (f.readers.length % 2 ^ 16 + f.waiting.length % 2 ^ 16 * 2 ^ 16)
  | 0x1030 => some (wordOf f.est 0)
  | 0x1034 => some (wordOf f.est 1)
  | _ => none

/-- MCACHE (R208): an entry, and the quotas of the hoop of the context that `MC_CSEL` names. -/
def Dev.viewMcache (d : Dev) (port e off : Nat) : Option Nat :=
  let x := d.mce e
  let p := x.pages.headD (0, 0, 0)
  let h := (d.ctx (d.bankN pgMcache port 0x1010 % 4096)).hoop
  if 0x1040 ≤ off ∧ off ≤ 0x105C then
    let s := (off - 0x1040) / 4
    some (d.mcQuota h + (d.mcQuota h - d.mcLines h s McEntry.holdsLines) * 2 ^ 16)
  else
    match off with
    | 0x0100 => some (b2n x.resident + b2n x.filling * 2 + b2n x.pinned * 4 + b2n x.unpinPend * 8 + b2n x.dropping * 16)
    | 0x0104 => some (x.ctx + x.hoop * 2 ^ 16 + b2n x.assigned * 2 ^ 31)
    | 0x0108 => some (x.model % 2 ^ 32)
    | 0x010C => some (wordOf x.vaddr 0)
    | 0x0110 => some (wordOf x.vaddr 1)
    | 0x0114 => some x.pages.length
    | 0x0118 => some (p.2.1 % 4096 + p.2.2 % 16 * 4096)
    | 0x011C => some (x.holders.length % 2 ^ 16)
    | 0x0120 => some (wordOf x.stamp 0)
    | 0x0124 => some (wordOf x.stamp 1)
    | _ => none

/-! ### Translation, DMA, encryption -/

/-- A page ownership entry as its word (R212 Table 3). -/
def Pot.word (x : Pot) : Nat := b2n x.granted + b2n x.bound * 2 + x.hoop % 16 * 4 + x.key % 4096 * 2 ^ 6 + x.maps % 4096 * 2 ^ 18

/-- `MMU_F_INFO`. -/
def FaultRec.info (f : FaultRec) : Nat :=
  b2n f.write + f.level % 4 * 2 + b2n f.pending * 8 + f.client.code * 16 + f.unit % 128 * 2 ^ 8

/-- MMU (R232). -/
def Dev.viewMmu (d : Dev) (port c off : Nat) : Option Nat :=
  let x := d.ctx c
  let f := d.faultOf c (d.bankN pgMmu port 0x0110 % 16)
  let root := x.root * 65536
  match off with
  | 0x0100 => some (b2n (x.state != .free) + (x.faults.filter (fun e => e.2.pending)).length * 2 + x.hoop * 2 ^ 16)
  | 0x0104 => some (wordOf root 0)
  | 0x0108 => some (wordOf root 1 % 128 + x.tblKey % 4096 * 2 ^ 16 + x.tblGen % 16 * 2 ^ 28)
  | 0x0114 => some (wordOf f.va 0)
  | 0x0118 => some (wordOf f.va 1 % 2 ^ 16)
  | 0x011C => some f.info
  | 0x0120 => some (f.tracker % 2 ^ 16)
  | 0x0128 | 0x0130 => some (wordOf d.freeVal 0)
  | 0x012C | 0x0134 => some (wordOf d.freeVal 1)
  | 0x1014 => some (d.potOf (d.bankN pgMmu port 0x1010)).word
  | _ => none

/-- DMA (R233). -/
def Dev.viewDma (d : Dev) (n off : Nat) : Option Nat :=
  let ch := d.channel n
  let m := d.cmd ch.tracker
  match off with
  | 0x0100 => some (b2n ch.busy + b2n (ch.busy && ch.suspended) * 2 + (d.dmaHoop n).getD 0 * 2 ^ 16)
  | 0x0104 => some (if ch.busy then m.ctx + 2 ^ 31 else 0)
  | 0x0108 => some (if ch.busy then ch.tracker else 0)
  | 0x010C => some (if ch.busy then m.cursor else 0)
  | 0x0110 => some (if ch.busy then m.dSegs else 0)
  | 0x0114 => some (if ch.busy then m.failed.length else 0)
  | _ => none

/-- A sealed hoop holds a page in a run of 128 PPNs in which another hoop holds one (R241). -/
def Dev.sharedRun (d : Dev) (h : Nat) : Bool :=
  (d.hoop h).isSealed && d.pot.any (fun e => e.2.granted && e.2.hoop == h &&
    d.pot.any (fun f => f.1 / 128 == e.1 / 128 && f.2.granted && f.2.hoop != h))

/-- Pages bound to a key slot. -/
def Dev.keyPages (d : Dev) (k : Nat) : Nat := (d.pot.filter (fun e => e.2.bound && e.2.key == k)).length

/-- MENC (R253): a stack, and the slot that `MENC_KSEL` names. -/
def Dev.viewMenc (d : Dev) (port s off : Nat) : Option Nat :=
  let k := d.bankN pgMenc port 0x1020 % 4096
  let x := d.key k
  let scrub := (d.pot.filter (fun e => e.1 % 8 == s && e.2.bound && (d.key e.2.key).state == .draining)).length
  if 0x1010 ≤ off ∧ off ≤ 0x101C then
    some ((List.range 4).foldl (fun a j => a + (d.hoop (off - 0x1010 + j)).inForce.tcWays % 256 * 256 ^ j) 0)
  else
    match off with
    | 0x0100 => some (1 + b2n (d.keys.any (fun e => e.2.sweeping)) * 2 + b2n (scrub != 0) * 4)
    | 0x012C => some scrub
    | 0x100C => some ((List.range 16).foldl (fun a h => a + b2n (d.sharedRun h) * 2 ^ h) 0)
    | 0x1024 => some (b2n x.deckReady + b2n x.sweeping * 2 + b2n x.epoch * 4 + b2n (x.state == .exhausted) * 8)
    | 0x1028 => some (wordOf x.uses 0)
    | 0x102C => some (wordOf x.uses 1)
    | 0x1030 => some x.sweepCur
    | 0x1034 => some (if x.sweeping then (d.pot.filter (fun e => e.2.bound && e.2.key == k && decide (x.sweepCur ≤ e.1))).length else 0)
    | _ => none

/-! ### Host interface, hoops, scheduling -/

/-- Code of a context's state. -/
def CtxState.code : CtxState → Nat
  | .free => 0 | .active => 1 | .resetting => 2 | .destroying => 3 | .draining => 4

/-- The words of a host window. -/
def Window.word (w : Window) (k : Nat) : Nat :=
  match k with
  | 0 => wordOf w.base 0
  | 1 => wordOf w.base 1
  | 2 => w.pages
  | _ => b2n w.r + b2n w.w * 2 + b2n w.priv * 4 + b2n (w.pages != 0) * 2 ^ 31

/-- CTX (R263): the PF reads function and hoop of every context, and nothing else of a context that is not its own. -/
def Dev.viewCtx (d : Dev) (port c off : Nat) : Option Nat :=
  let x := d.ctx c
  let who := x.func * 2 ^ 8 + x.hoop * 2 ^ 16
  if 0x1000 ≤ off then none
  else if port = portPf ∧ x.func ≠ portPf then some (if off = 0x0100 then who else 0)
  else if 0x0200 ≤ off ∧ off < 0x0300 then some ((tabGet windowDflt x.windows ((off - 0x0200) / 16)).word (off % 16 / 4))
  else if off = 0x0100 then some (x.state.code + who + b2n x.pricking.isSome * 2 ^ 31)
  else if off = 0x0104 then some (d.cmdsOf (fun m => m.ctx == c)).length
  else none

/-- QUE (R266). -/
def Dev.viewQue (d : Dev) (n off : Nat) : Option Nat :=
  let q := d.queue n
  match off with
  | 0x0100 => some (b2n q.valid + b2n q.error * 2 + b2n q.destroying * 4 + q.hoop * 2 ^ 16)
  | 0x0104 => some q.ctx
  | 0x0108 => some (q.log2 + b2n q.push * 32 + b2n q.ringHost * 64 + b2n q.cplHost * 128 + q.vec * 2 ^ 8)
  | 0x010C => some (wordOf q.ring 0)
  | 0x0110 => some (wordOf q.ring 1)
  | 0x0114 => some (wordOf q.cpl 0)
  | 0x0118 => some (wordOf q.cpl 1)
  | 0x011C => some (q.tail % 2 ^ 32)
  | 0x0120 => some (q.decided % 2 ^ 32)
  | 0x0124 => some (q.done % 2 ^ 32)
  | 0x0128 => some (q.cplHead % 2 ^ 32)
  | _ => none

/-- A command waits on an event. -/
def Dev.waitsOn (d : Dev) (e : Nat) (m : Cmd) : Bool :=
  m.live && !m.released && ((bit m.deps 0 && m.df 32 2 == e && decide ((d.evt e).value < m.df 40 8)) ||
    (bit m.deps 1 && m.df 34 2 == e && decide ((d.evt e).value < m.df 48 8)))

/-- Events (R274). -/
def Dev.viewEvt (d : Dev) (e off : Nat) : Option Nat :=
  let x := d.evt e
  match off with
  | 0x0100 => some (b2n x.valid + b2n x.shared * 2 + x.hoop * 2 ^ 16 + x.ctx * 2 ^ 20)
  | 0x0104 => some (wordOf x.value 0)
  | 0x0108 => some (wordOf x.value 1)
  | 0x0118 => some (d.cmdsOf (d.waitsOn e)).length
  | _ => none

/-- HOOP (R304): the values in force; a VF reads the functions as zero; the window of a `FREE` hoop reads zero. -/
def Dev.viewHoop (d : Dev) (port h off : Nat) : Option Nat :=
  let x := d.hoop h
  if 0x1000 ≤ off then none
  else if x.state = .free then some 0
  else
    match off with
    | 0x0100 => some ((if x.state = .active then 1 else 2) + b2n x.isSealed * 4 + b2n x.joint * 8 + b2n x.excl * 16 + b2n (decide (x.staged ≠ x.inForce)) * 32)
    | 0x0118 => some x.sigma
    | 0x0160 => some (wordOf (unsint 64 (x.refill d.now).energy) 0)
    | 0x0164 => some (wordOf (unsint 64 (x.refill d.now).energy) 1)
    | 0x0168 => some (min (tabSum x.accepted / 8) (2 ^ 32 - 1))
    | 0x016C => some (min (tabSum x.released / 8) (2 ^ 32 - 1))
    | _ => if (off = 0x0104 ∨ off = 0x0108) ∧ portIsFunc port ∧ port ≠ portPf then some 0 else x.inForce.word off

/-- Sum of a share over every hoop. -/
def Dev.hoopSum (d : Dev) (f : HoopParams → Nat) : Nat := d.hoops.foldl (fun a e => if e.2.state = .free then a else a + f e.2.inForce) 0

/-- SCHED (R304): the tracker that `SCHED_TSEL` names. -/
def Dev.viewSched (d : Dev) (port off : Nat) : Option Nat :=
  let m := d.cmd (d.bankN pgSched port 0x1040 % 65536)
  match off with
  | 0x1008 => some (60 - d.hoopSum (·.cslots))
  | 0x100C => some (2000 - d.hoopSum (·.power))
  | 0x1010 => some (b2n d.therm.safe + d.therm.emergencies % 2 ^ 24 * 2 ^ 8)
  | 0x1044 => some (m.cls + b2n m.released * 4 + b2n (m.cause != 0) * 8 + m.cause % 16 * 16 + m.hoop * 2 ^ 16 + m.ctx * 2 ^ 20)
  | 0x1048 => some (wordOf m.relTime 0)
  | 0x104C => some (wordOf m.relTime 1)
  | 0x1050 => some (wordOf m.deadline 0)
  | 0x1054 => some (wordOf m.deadline 1)
  | 0x1058 => some (min (tabSum m.prices / 8) (2 ^ 32 - 1))
  | 0x105C => some (min m.estimate (2 ^ 32 - 1))
  | _ => none

/-- Units of the accounting counters (R301 Table 7): cycles, bytes, and pJ for energy. -/
def acctUnit (n : Nat) : Nat := [128, 128, 128, 8, 16, 1, 1, 8192, 8192, 8192, 8192, 8192, 8192, 1000000].getD n 1

/-- ACCT (R301, R302). -/
def Dev.viewAcct (d : Dev) (c off : Nat) : Option Nat :=
  if 0x0100 ≤ off ∧ off ≤ 0x016C then
    let n := (off - 0x0100) / 8
    some (wordOf (tabGet natDflt (d.ctx c).acct n / acctUnit n) (off / 4 % 2))
  else none

/-! ### Links, collectives, storage -/

/-- Code of a port's state. -/
def PortState.code : PortState → Nat
  | .disabled => 0 | .training => 1 | .vc0Only => 2 | .active => 3 | .down => 4

/-- ALNK and FAB registers (R337). -/
def Dev.viewAlnk (d : Dev) (port p off : Nat) : Option Nat :=
  let x := d.lk p
  let r := d.probe (d.bankN pgAlnk port 0x1040 % 64)
  if 0x1054 ≤ off ∧ off ≤ 0x1068 then some (r.reply.getD ((off - 0x1054) / 4) 0 % 2 ^ 32)
  else
    match off with
    | 0x0100 => some (x.state.code + b2n x.leader * 8 + b2n x.x4 * 16 + b2n x.slow * 32 + b2n x.mismatch * 64 + b2n x.spareUsed * 128)
    | 0x0104 => some (x.good % 512)
    | 0x0108 => some (x.lmap % 2 ^ 32)
    | 0x010C => some (wordOf x.peerSerial 0)
    | 0x0110 => some (wordOf x.peerSerial 1)
    | 0x0114 => some (x.peerPort % 16 + x.peerPrio % 256 * 2 ^ 8)
    | 0x0118 => some (x.hoplat % 2 ^ 16)
    | 0x0124 => some (x.rate % 2 ^ 17)
    | 0x1020 => some (d.fab.epoch % 2 ^ 32)
    | 0x1024 => some (b2n d.fab.published.isSome)
    | 0x1050 => some (r.state % 4 + r.status % 2 ^ 16 * 2 ^ 16)
    | _ => none

/-- VC (R316, R317). -/
def Dev.viewVc (d : Dev) (p off : Nat) : Option Nat :=
  let x := d.lk p
  match off with
  | 0x0194 => some x.tableCrc
  | 0x0198 => some (x.peerCrc % 2 ^ 32)
  | 0x01A0 => some (b2n x.swapPending + b2n x.swapFailed * 2)
  | _ => none

/-- Code of the time base's state. -/
def TimeState.code : TimeState → Nat
  | .free => 0 | .locking => 1 | .locked => 2 | .holdover => 3

/-- PICOT (R335, R337). -/
def Dev.viewPicot (d : Dev) (port p off : Nat) : Option Nat :=
  let x := d.lk p
  let f := d.fab
  match off with
  | 0x0100 => some (b2n x.slotMode + b2n x.suspended * 2 + b2n x.drift * 4 + b2n (d.eligible p) * 8 + unsint 8 x.trim * 2 ^ 8)
  | 0x0104 => some (unsint 8 x.launch)
  | 0x0108 => some (unsint 16 x.lastOfs)
  | 0x0124 => some (tabGet natDflt x.schedStaged (d.bankN pgPicot port 0x0120 % 1024))
  | 0x1000 => some (wordOf d.now 0)
  | 0x1004 => some (wordOf d.now 1)
  | 0x1014 => some (f.time.code + b2n f.gm * 4 + b2n f.far * 8 + f.hops % 32 * 16 + f.upstream % 16 * 2 ^ 16)
  | 0x1018 => some (wordOf f.gmSerial 0)
  | 0x101C => some (wordOf f.gmSerial 1)
  | 0x1020 => some (f.gmPrio % 256)
  | 0x1024 => some (unsint 16 f.offset)
  | _ => none

/-- Code of a group's state. -/
def GroupState.code : GroupState → Nat
  | .free => 0 | .active => 1 | .fenced => 2

/-- SHUT (R359). -/
def Dev.viewShut (d : Dev) (k off : Nat) : Option Nat :=
  let g := d.grp k
  match off with
  | 0x0100 => some (g.state.code + g.cls % 4 * 4 + b2n g.picot * 16 + b2n g.running.isSome * 32 + g.hoop * 2 ^ 16 + g.ctx * 2 ^ 20)
  | 0x0104 => some (g.n % 2 ^ 13 + g.rank % 4096 * 2 ^ 16)
  | 0x0108 => some (g.next % 16 + g.prev % 16 * 16 + g.peerSlot % 256 * 2 ^ 8 + g.sched % 256 * 2 ^ 16)
  | 0x010C => some (g.key % 4096 + g.gen % 16 * 4096)
  | 0x0110 => some g.timeout
  | 0x0114 => some g.lease
  | 0x011C => some (if g.state = .active then g.lease - (d.now - g.renewed) / 10 else 0)
  | 0x0128 => some (g.inst % 4096)
  | 0x012C => some (g.cursor % 2 ^ 22)
  | 0x0130 => some (g.failed.length % 2 ^ 23)
  | _ => none

/-- Code of a session's state. -/
def SessState.code : SessState → Nat
  | .closed => 0 | .opening => 1 | .opened => 2 | .down => 3

/-- STOR (R383). -/
def Dev.viewStor (d : Dev) (s off : Nat) : Option Nat :=
  let x := d.sess s
  match off with
  | 0x0100 => some (x.state.code + x.port % 2 * 4 + x.ioq % 16 * 2 ^ 8)
  | 0x0104 => some (x.nsid % 2 ^ 32)
  | 0x0108 => some (x.lba % 16)
  | 0x1000 => some (d.ethUp % 4)
  | _ => none

/-- A checkpoint command of an operation runs on a fence. -/
def Dev.ckptRuns (d : Dev) (f op : Nat) : Bool :=
  !(d.cmdsOf (fun m => m.typ == tyCheckpoint && m.sop == op && m.kFence == f && m.started && m.stage == .running)).isEmpty

/-- CKPT (R370, R383): armed captures that wait, the trigger, what runs, and the ms left of the timer. -/
def Dev.viewCkpt (d : Dev) (f off : Nat) : Option Nat :=
  let t := d.trig f
  let p := d.regN pgCkpt f 0x0100
  match off with
  | 0x0108 => some (b2n (!(d.cmdsOf (fun m => m.typ == tyCheckpoint && m.sop == 1 && m.kArmed && m.kFence == f && !m.started)).isEmpty) + b2n t.fired * 2 +
      b2n (d.ckptRuns f 1) * 4 + b2n (d.ckptRuns f 2) * 8 + b2n (d.ckptRuns f 3) * 16)
  | 0x0110 => some (if p = 0 then 0 else cdiv (t.since + p * 1000000 - d.now) 1000000)
  | _ => none

/-! ### Security, life cycle, debug -/

/-- Code of a slot's state. -/
def SlotState.code : SlotState → Nat
  | .empty => 0 | .active => 1 | .draining => 2 | .exhausted => 3

/-- KEYS (R404). -/
def Dev.viewKeys (d : Dev) (k off : Nat) : Option Nat :=
  let x := d.key k
  match off with
  | 0x0100 => some (x.usage % 8 + x.hoop % 16 * 8 + x.state.code * 2 ^ 7 + x.gen % 16 * 2 ^ 9 + x.phase % 256 * 2 ^ 13 + b2n x.deckReady * 2 ^ 21 +
      b2n x.imported * 2 ^ 22 + x.owner % 16 * 2 ^ 23)
  | 0x0104 => some (wordOf x.uses 0)
  | 0x0108 => some (wordOf x.uses 1)
  | 0x010C => some (wordOf x.limit 0)
  | 0x0110 => some (wordOf x.limit 1)
  | 0x0114 => some (d.keyPages k)
  | 0x1004 => some (4096 - (d.keys.filter (fun e => e.2.state != .empty)).length)
  | _ => none

/-- SEC (R417): the RTP's state and the tamper log; a VF reads them as zero. -/
def Dev.viewSec (d : Dev) (port off : Nat) : Option Nat :=
  if off < 0x1014 then none
  else if !ctlPort port then some 0
  else if off = 0x1014 then
    some (b2n d.rtpUp + b2n (d.sec.coreA && decide (d.now < d.sec.restartEnd)) * 2 + b2n d.sec.coreB * 4 + d.sec.restarts % 256 * 2 ^ 8)
  else if off = 0x1018 then some (d.batt.tamperHead % 8 + d.batt.trips % 256 * 2 ^ 8)
  else if 0x1020 ≤ off ∧ off ≤ 0x105C then
    let e := tabGet (fun _ => ((0 : Nat), (0 : Nat))) d.batt.tamperLog ((off - 0x1020) / 8)
    some (if off % 8 = 0 then e.1 % 16 + e.2 % 2 ^ 16 * 2 ^ 16 else e.2 / 2 ^ 16 % 2 ^ 32)
  else none

/-- LC (R421 to R427). -/
def Dev.viewLc (f : Fuses) (d : Dev) (off : Nat) : Option Nat :=
  match off with
  | 0x1000 => some (d.lc.inForce % 16 + f.decode % 16 * 16 + b2n (f.decode != d.lc.inForce) * 256 + b2n d.batt.root.isSome * 512 + b2n d.lc.senseErr * 1024)
  | 0x100C => some ((List.range 6).foldl (fun a k => a + (f.cond k).code * 4 ^ k) 0)
  | 0x1010 => some (wordOf f.serial 0)
  | 0x1014 => some (wordOf f.serial 1)
  | _ => none

/-- The 64-bit pantry word that DBG shows: a halted slot of a hoop in exclusive mode that pantry read reaches (R429); else zero. -/
def Dev.pantryWord (d : Dev) : Nat :=
  let s := d.regN pgDbg 0 0x1040
  let t := s % 128
  let x := d.slot t (fld s 11 8)
  if x.valid && x.halted && d.dbgReaches 3 x.hoop && (d.hoop x.hoop).excl then ofBytes (d.shelfRead t x (d.regN pgDbg 0 0x1044) 8) else 0

/-- DBG (R428 to R434); a profile count is a free value (log entry 52). -/
def Dev.viewDbg (d : Dev) (off : Nat) : Option Nat :=
  if 0x1020 ≤ off ∧ off ≤ 0x103C then some (recWord d.dbg.chal 0x1020 off)
  else
    match off with
    | 0x1000 => some (d.dbgRights % 32 + b2n d.dbg.legacy * 32 + b2n d.dbg.rmaCert * 64 + d.dbgScope % 2 ^ 16 * 2 ^ 16)
    | 0x1048 => some (wordOf d.pantryWord 0)
    | 0x104C => some (wordOf d.pantryWord 1)
    | 0x1068 => some (if bit d.dbgRights 0 then wordOf d.freeVal 0 else 0)
    | 0x106C => some (if bit d.dbgRights 0 then wordOf d.freeVal 1 else 0)
    | _ => none

/-! ### Faults, boot, package, test -/

/-- The halt record as its bytes (R249 Table 10). -/
def HaltRec.bytes (h : HaltRec) : List Byte :=
  if h.valid then
    toBytes 2 Status.integrityHalt.code ++ toBytes 1 h.cause ++ toBytes 1 (h.wher % 64 + b2n h.multi * 64) ++ toBytes 4 h.addr ++ toBytes 2 h.key ++
    toBytes 2 h.client ++ toBytes 4 h.boot ++ toBytes 8 h.time ++ toBytes 8 0
  else toBytes 32 0

/-- RAS (R249, R450, R451). -/
def Dev.viewRas (d : Dev) (port off : Nat) : Option Nat :=
  if 0x1000 ≤ off ∧ off ≤ 0x101C then some (recWord d.aon.halt.bytes 0x1000 off)
  else if 0x1040 ≤ off ∧ off ≤ 0x105C then
    let i := d.bankN pgRas port 0x1038 % 256
    some (if d.ras.entries.any (fun e => e.1 == i) then recWord (tabGet logDflt d.ras.entries i).bytes 0x1040 off else 0)
  else if off = 0x1020 then some (b2n d.aon.halt.valid)
  else if off = 0x1034 then some (d.ras.head % 256 + d.ras.written % 2 ^ 24 * 2 ^ 8)
  else none

/-- DIAG (R452): the last sample and the last fault record of a context. -/
def Dev.viewDiag (d : Dev) (c off : Nat) : Option Nat :=
  let x := d.ctx c
  if 0x0120 ≤ off ∧ off ≤ 0x013C then some (recWord (x.lastFault.getD []) 0x0120 off)
  else if off = 0x0110 then
    some (b2n x.sampleValid + b2n x.sampleTrunc * 2 + b2n x.sampleNoBuf * 4 + x.sampleTiles % 256 * 2 ^ 8 + x.samples % 2 ^ 16 * 2 ^ 16)
  else none

/-- BOOT (R469, R473). -/
def Dev.viewBoot (f : Fuses) (d : Dev) (port off : Nat) : Option Nat :=
  let a := d.aon
  if 0x1010 ≤ off ∧ off ≤ 0x104C then some (recWord (a.ledger.getD (d.bankN pgBoot port 0x1008 % 4) []) 0x1010 off)
  else
    match off with
    | 0x1000 => some (b2n a.ready + b2n a.safe * 2 + b2n a.pcieUp * 4 + b2n a.slotB * 8 + b2n a.romOnly * 16 + b2n a.logErr * 32 + b2n a.noOpcfg * 64 +
        a.attempt % 8 * 2 ^ 8 + a.boot.step % 16 * 2 ^ 16)
    | 0x1004 => some d.batt.bootCount
    | 0x1054 => some (svnFloor f.svnWord + a.svnRunning % 128 * 2 ^ 8)
    | _ => none

/-- The hottest junction sensor and its number. -/
def Therm.hottest (t : Therm) : Nat × Nat :=
  t.temps.foldl (fun (p : Nat × Nat) e => if e.1 < 56 ∧ p.1 < e.2 then (e.2, e.1) else p) (0, 0)

/-- TEL (R516). -/
def Dev.viewTel (f : Fuses) (d : Dev) (port off : Nat) : Option Nat :=
  let t := d.therm
  let s := d.bankN pgTel port 0x1008
  match off with
  | 0x1000 => some (b2n t.safe + b2n (t.safe || t.temps.any (fun e => decide (55 < e.1) && decide (tCool < e.2))) * 2 + b2n (d.aon.seqErr || d.aon.tripHold) * 4)
  | 0x1004 => some (t.hottest.1 + t.hottest.2 * 2 ^ 16)
  | 0x100C => some (if s ≤ 63 then tabGet natDflt t.temps s + tabGet natDflt t.maxes s * 2 ^ 16 else 0)
  | 0x1024 => some (f.vop % 4096)
  | 0x1028 => some ((List.range 5).foldl (fun a i => a + tabGet natDflt d.aon.pg i % 8 * 8 ^ i) 0)
  | _ => none

/-- TEST (R528): the lane that the port's `TEST_LSEL` names. -/
def Dev.viewTest (d : Dev) (port off : Nat) : Option Nat :=
  let x := d.lane (selLane (d.bankN pgTest port oLsel))
  match off with
  | 0x1004 => some x.ctl
  | 0x1008 => some (b2n x.lock + b2n x.active * 2 + x.last % 2 ^ 16 * 2 ^ 16)
  | 0x100C => some x.errs
  | 0x1010 => some (wordOf x.bits 0)
  | 0x1014 => some (wordOf x.bits 1)
  | _ => none

/-- DEV (R494) and CAP (R276). -/
def viewDev (f : Fuses) (port off : Nat) : Option Nat :=
  match off with
  | 0x1000 => some port
  | 0x1004 => some (wordOf f.serial 0)
  | 0x1008 => some (wordOf f.serial 1)
  | _ => none

/-- `CAP_GEN` is odd until step `READY` has written the list. -/
def Dev.viewCap (d : Dev) (port off : Nat) : Option Nat :=
  let gen := d.regN pgCap 0 0x0100
  if off = 0x0100 then some (gen + b2n (!d.aon.ready))
  else if off = 0x0104 ∨ 0x1000 ≤ off then some (Config.capWord gen port off).toNat
  else none

/-- What a register is computed from, by page, port, instance and offset. -/
def Dev.computed (f : Fuses) (d : Dev) (port page i off : Nat) : Option Nat :=
  if off < 0x0100 then none
  else if 0x060 ≤ page ∧ page ≤ 0x06F then none
  else
    match page with
    | 0x000 => viewDev f port off
    | 0x001 => d.viewCap port off
    | 0x002 => d.viewQue i off
    | 0x003 => d.viewEvt i off
    | 0x004 => d.viewCtx port i off
    | 0x005 => d.viewHoop port i off
    | 0x006 => d.viewSched port off
    | 0x007 => d.viewAcct i off
    | 0x010 => d.viewTile port i off
    | 0x011 => d.viewAttic i off
    | 0x018 => d.viewNum i off
    | 0x028 => d.viewMmu port i off
    | 0x029 => d.viewDma i off
    | 0x02A => d.viewMenc port i off
    | 0x030 => d.viewDarn port i off
    | 0x031 => d.viewLst i off
    | 0x032 => d.viewMcache port i off
    | 0x040 => d.viewAlnk port i off
    | 0x041 => d.viewVc i off
    | 0x042 => d.viewPicot port i off
    | 0x043 => d.viewShut i off
    | 0x048 => d.viewStor i off
    | 0x049 => d.viewCkpt i off
    | 0x050 => d.viewSec port off
    | 0x052 => d.viewKeys i off
    | 0x053 => d.viewLc f off
    | 0x054 => d.viewDbg off
    | 0x058 => d.viewRas port off
    | 0x059 => d.viewDiag i off
    | 0x05A => d.viewBoot f port off
    | 0x05B => d.viewTel f port off
    | 0x05C => if off = 0x010C then some (wordOf d.freeVal 0) else if off = 0x1000 then some (d.regN pgClk 0 0x1000 + b2n d.therm.safe * 2 ^ 16) else none
    | 0x05D => d.viewTest port off
    | _ => none

end Sys2Proof.Machine
end

