-- ==== Sys2Proof/Machine/Registers.lean ====
section
/-! DEFINITION. The register bus (R4 to R8, R65, R474 to R488): which port reaches which register, what a read answers and clears, what a write
changes, stages, locks or starts. -/
namespace Sys2Proof.Machine

/-! ### Where a register lies -/

/-- An offset of the window behind `BLK_SEL`. -/
def isWindow (off : Nat) : Bool := decide (0x0100 ≤ off) && decide (off < 0x1000)

/-- Operation registers that are not banked by their chapter, and are kept in the PF's bank; the group operations in each function's own. -/
def homeBank (port page off : Nat) : Option Nat :=
  if page = pgShut ∧ 0x1010 ≤ off ∧ off ≤ 0x1030 then some (bank (if portIsFunc port then port else portPf))
  else if (page = pgAttic ∧ (off = 0x1004 ∨ off = 0x1008)) ∨ (page = pgStor ∧ 0x1010 ≤ off ∧ off ≤ 0x1020) ∨
    (page = pgHoop ∧ (off = 0x1004 ∨ off = 0x1008)) then some (bank portPf)
  else none

/-- The instance of a register that a port's access reaches: its bank, the instance behind `BLK_SEL`, or what another select register names. -/
def Dev.instOf (d : Dev) (port page off : Nat) (banked : Bool) : Nat :=
  if banked then bank port
  else match homeBank port page off with
    | some b => b
    | none =>
      if isWindow off then d.sel page port
      else if page = pgMcache ∧ 0x1014 ≤ off ∧ off ≤ 0x105C then d.bankN pgMcache port 0x1010 % 4096
      else if page = pgAlnk ∧ (off = 0x1044 ∨ off = 0x1048) then d.bankN pgAlnk port 0x1040 % 64
      else if page = pgCiph ∧ 0x1010 ≤ off ∧ off ≤ 0x1024 then d.bankN pgCiph port 0x100C % 16
      else if page = pgDarn ∧ 0x1020 ≤ off ∧ off ≤ 0x1034 then d.bankN pgDarn port 0x1010 % 1024
      else if page = pgSched ∧ 0x1044 ≤ off ∧ off ≤ 0x105C then d.bankN pgSched port 0x1040 % 65536
      else 0

/-- The select registers of a page beside `BLK_SEL` (R480). -/
def selectOffs (page : Nat) : List Nat :=
  if page = pgDarn ∨ page = pgMcache then [0x1010]
  else if page = pgMmu then [0x0110, 0x1010]
  else if page = pgMenc then [0x1020]
  else if page = pgSched ∨ page = pgAlnk then [0x1040]
  else if page = pgPicot then [0x0120]
  else if page = pgCiph then [0x100C]
  else if page = pgRas then [0x1038]
  else if page = pgBoot ∨ page = pgTel then [0x1008]
  else if page = pgTest then [0x1000]
  else []

/-! ### Visibility (R65 and the chapters' access rules) -/

/-- What a port sees of a register: all of it; nothing, with an entry logged for a read and a write alike; nothing, with an entry for a write only; nothing at
all, silently. -/
inductive See where
  | yes | hidden | quiet | silent
deriving DecidableEq, Repr

/-- The rule of R65 for a window of an object whose visibility to a function's port is `own`. -/
def seeOwn (port : Nat) (own : Bool) : See :=
  if portIsFunc port then (if own then .yes else .hidden) else if port = portRtp then .yes else .quiet

/-- The rule of R65 for the NUM and LST windows: the RTP sees the owner only. -/
def seeFigures (port off : Nat) (own : Bool) : See :=
  if portIsFunc port then (if own then .yes else .hidden) else if port = portRtp && off == 0x0104 then .yes else .quiet

/-- A rule that hides from a VF what is not its own hoop's. -/
def seeHoop (port : Nat) (own : Bool) : See := if portIsFunc port && port != portPf && !own then .hidden else .yes

/-- A page or register that answers the PF, RTP and BMC ports only (R233). -/
def seeCtl (port : Nat) : See := if ctlPort port then .yes else .silent

/-- What a port sees of instance `i` of a register beyond the common layout. -/
def Dev.seesAt (d : Dev) (port page i off : Nat) : See :=
  let w := isWindow off
  match page with
  | 0x002 => if w then seeOwn port ((d.queue i).valid && d.seesCtx port (d.queue i).ctx) else .yes
  | 0x003 => if w then seeOwn port (d.seesEvt port i) else .yes
  | 0x004 => if w then (if port = portPf then .yes else seeOwn port (d.seesCtx port i)) else .yes
  | 0x005 => if w then seeHoop port (d.seesHoop port i) else .yes
  | 0x006 =>
    if 0x1044 ≤ off then seeOwn port ((d.cmd i).live && d.seesCtx port (d.cmd i).ctx)
    else if off = 0x1040 then .yes else seeCtl port
  | 0x007 => if w then seeOwn port (d.seesCtx port i) else .yes
  | 0x010 => if w then seeHoop port ((d.vfHoop port).any (fun h => bit (d.hoop h).inForce.tiles i)) else .yes
  | 0x018 => if w then seeFigures port off ((d.sat i).assigned && d.seesCtx port (d.sat i).ctx) else .yes
  | 0x031 => if w then seeFigures port off ((d.lst i).assigned && d.seesCtx port (d.lst i).ctx) else .yes
  | 0x028 =>
    if off = 0x0110 then .yes
    else if w then seeOwn port (d.seesCtx port i)
    else if off = 0x1010 ∨ off = 0x1014 then (if port = portPf ∨ port = portRtp then .yes else .silent) else .yes
  | 0x029 => if w then seeHoop port (d.vfHoop port == d.dmaHoop i && (d.dmaHoop i).isSome) else .yes
  | 0x030 => if 0x1020 ≤ off ∧ off ≤ 0x1034 then seeOwn port (d.ownsFence port i) else .yes
  | 0x032 =>
    if w then seeOwn port ((d.mce i).assigned && d.seesCtx port (d.mce i).ctx)
    else if 0x1014 ≤ off ∧ off ≤ 0x105C then seeOwn port (d.seesCtx port i) else .yes
  | 0x042 => if off = 0x1000 ∨ off = 0x1004 then .yes else seeCtl port
  | 0x043 =>
    if w && !(port == portPf && 0x0118 ≤ off && off ≤ 0x0124) then seeOwn port ((d.grp i).state != .free && d.seesCtx port (d.grp i).ctx) else .yes
  | 0x049 => if w then seeOwn port (d.ownsFence port i) else .yes
  | 0x052 => if w then seeHoop port ((d.key i).state != .empty && d.vfHoop port == some (d.key i).hoop) else .yes
  | 0x058 => if w then seeHoop port (d.seesHoop port i) else seeCtl port
  | 0x059 => if w then seeOwn port (d.seesCtx port i) else .yes
  | _ => .yes

/-- A page that answers the PF, RTP and BMC ports only, its common layout included: CEL, MENC, ALNK, VC, STOR, CIPH, DBG, ATTIC, TEL, CLK, TEST. -/
def ctlPage (page : Nat) : Bool :=
  (decide (0x020 ≤ page) && decide (page ≤ 0x027)) || [pgMenc, pgAlnk, pgVc, pgStor, pgCiph, pgDbg, pgAttic, pgTel, pgClk, pgTest].contains page

/-- What a port sees of a register: a page that does not answer it is silent, whatever the offset. -/
def Dev.sees (d : Dev) (port page i off : Nat) : See :=
  if ctlPage page && !ctlPort port then .silent
  else if pgCiphu ≤ page ∧ page < pgCiphu + 16 ∧ d.seesCiphu port (page - pgCiphu) = false then .silent
  else if off < 0x0100 then .yes
  else d.seesAt port page i off

/-- The ports that see instance `i` of a register (R480, R487). -/
def Dev.seers (d : Dev) (page i off : Nat) : List Nat := (List.range 0x43).filter (fun p => d.sees p page i off == .yes)

/-! ### What answers (R461, R464, R474, R492) -/

/-- An access of a port arrives: the always-on domain runs; a function's needs PCIe, the JTAG port's its data register selected. -/
def Dev.arrives (d : Dev) (port : Nat) : Bool :=
  d.aon.aonUp && portValid port && (!portIsFunc port || d.aon.pcieUp) && (port != portJtag || d.tap.ir == tapRegacc)

/-- The page answers a port now: before `READY` and in safe mode DEV, CAP, BOOT, LC, SEC and RAS do, and TEL for the ports that use no BAR0 (log
entry 64); the ROM service answers BOOT, LC and RAS. -/
def Dev.answers (d : Dev) (port page : Nat) : Bool :=
  if d.aon.ready then true
  else if d.aon.romOnly then [pgBoot, pgLc, pgRas].contains page
  else [pgDev, pgCap, pgBoot, pgLc, pgSec, pgRas].contains page || (!portIsFunc port && page == pgTel)

/-- The register crossing that an access to a block uses (R490 Table 11); Acaunel and Ethernet ports hold their registers outside theirs (log entry 65). -/
def Dev.crossingOf (d : Dev) (page i off : Nat) : Option Nat :=
  if page = pgTile then
    (if isWindow off ∧ i < 96 then some (i / 12 * 13 + (if (d.tile i).phys = 0 then i % 12 else (d.tile i).phys - 1)) else none)
  else if page = pgDarn then (if isWindow off ∧ i < 8 then some (104 + i) else none)
  else if page = pgMenc then (if isWindow off ∧ i < 8 then some (112 + i) else none)
  else if 0x020 ≤ page ∧ page ≤ 0x027 then some (112 + (page - 0x020))
  else if page = pgSec ∨ page = pgCiph ∨ page = pgKeys ∨ (pgCiphu ≤ page ∧ page < pgCiphu + 16) then some 139
  else if page = pgBoot ∨ page = pgTel ∨ page = pgLc then some 141
  else if [pgQue, pgEvt, pgCtx, pgHoop, pgSched, pgAcct, pgNum, pgMmu, pgDma, pgLst, pgMcache, pgShut, pgCkpt, pgDiag].contains page then some 138
  else none

/-- The block's side of its register crossing is reached. -/
def Dev.reached (d : Dev) (page i off : Nat) : Bool :=
  match d.crossingOf page i off with
  | none => true
  | some x => d.xOpen x

/-- Boot holds the port behind an Acaunel page's window (R462). -/
def Dev.heldPort (d : Dev) (page i : Nat) : Bool := [pgAlnk, pgVc, pgPicot].contains page && decide (i < 16) && d.laneHeld 0 i

/-- `BLK_CTL.IN_SERVICE` for the instance that a port selects. -/
def Dev.inService (d : Dev) (port page : Nat) : Bool := let i := d.sel page port; d.reached page i 0x0100 && !d.heldPort page i

/-! ### Collisions and overflow (R486, Table 10) -/

/-- The flag register of a page with counters: offset, the bit of `COLLIDE` where it has one, the mask of its overflow flags. -/
def countFlags (page : Nat) : Option (Nat × Option Nat × Nat) :=
  if 0x020 ≤ page ∧ page ≤ 0x027 then some (0x102C, some 1, 1)
  else if 0x060 ≤ page ∧ page ≤ 0x06F then some (0x1028, none, 8)
  else match page with
    | 0x018 => some (0x011C, some 3, 7)
    | 0x010 => some (0x01A4, some 3, 4)
    | 0x030 => some (0x011C, some 1, 1)
    | 0x031 => some (0x0130, some 3, 7)
    | 0x032 => some (0x1014, some 1, 1)
    | 0x028 => some (0x0138, some 1, 1)
    | 0x029 => some (0x0120, some 1, 1)
    | 0x02A => some (0x0130, some 1, 1)
    | 0x040 => some (0x0128, some 1, 1)
    | 0x042 => some (0x0114, some 4, 8)
    | 0x043 => some (0x0148, some 1, 1)
    | 0x048 => some (0x0118, some 1, 1)
    | 0x007 => some (0x0170, none, 1)
    | 0x049 => some (0x011C, none, 4)
    | 0x051 => some (0x1030, none, 1)
    | _ => none

/-- Software-writable counters of a page: hardware adds to them. -/
def isCounter (page off : Nat) : Bool :=
  let r := fun (a b : Nat) => decide (a ≤ off) && decide (off ≤ b)
  if 0x020 ≤ page ∧ page ≤ 0x027 then r 0x1018 0x1024
  else match page with
    | 0x018 => r 0x0108 0x0118 || r 0x0128 0x0134
    | 0x010 => r 0x0180 0x0194
    | 0x030 => r 0x0108 0x0114
    | 0x031 => r 0x010C 0x012C
    | 0x032 => r 0x1018 0x1034
    | 0x028 => r 0x0128 0x0134
    | 0x029 => r 0x0118 0x011C
    | 0x02A => r 0x0104 0x0120
    | 0x040 => r 0x0130 0x0144
    | 0x042 => r 0x0128 0x012C
    | 0x043 => r 0x0134 0x0140
    | 0x048 => r 0x010C 0x0110
    | _ => false

/-- A write met a hardware update of the same register in the same cycle: the write stood, the update is dropped, the collision bits are set (R8, R485, R487). -/
def Dev.collision (d : Dev) (page i off : Nat) : Dev :=
  let d := match countFlags page with
    | some (fo, some b, _) => if isWindow fo == isWindow off then d.orReg page i fo (2 ^ b) else d
    | _ => d
  d.event page 31 (d.seers page i off)

/-- A flag that the port can see is set in some instance of the page's flag register. -/
def Dev.flagSeen (d : Dev) (port page fo m : Nat) : Bool :=
  d.regs.any (fun e => e.1 / 0x1000000000 == page && e.1 % 0x10000 == fo && (e.2.toNat &&& m) != 0 &&
    d.sees port page (e.1 / 0x10000 % 0x100000) fo == .yes)

/-- `BLK_STS` as a port reads it (R477 Table 5): `ERRLOG_NEW` is kept, the others are computed. -/
def Dev.blkSts (d : Dev) (port page : Nat) : Nat :=
  let f := countFlags page
  let col := bit (d.bankN page port 0x0018) 31 || (match f with
    | some (fo, some b, _) => d.flagSeen port page fo (2 ^ b)
    | _ => false)
  let ovf := match f with
    | some (fo, _, m) => d.flagSeen port page fo m
    | none => false
  b2n (!d.reached page (d.sel page port) 0x0100) + b2n col * 2 + b2n ovf * 4 + d.bankN page port 0x0014 / 8 % 2 * 8

/-! ### Reads (R4, R481, R484, R488) -/

/-- No word is latched. -/
def latchDflt (_ : Nat) : Latch := {}

/-- Key of the read latch of a port and page. -/
def latchKey (port page : Nat) : Nat := port * 0x400 + page

/-- A word of a register as a port reads it, the block reached. -/
def Dev.wordAt (f : Fuses) (d : Dev) (port page i off : Nat) : Nat :=
  if off = 0x0014 then d.blkSts port page
  else if off = 0x0010 then d.regN page 0 0x0010 / 2 * 2 + b2n (d.inService port page)
  else (Dev.computed f d port page i off).getD (d.regN page i off) % 2 ^ 32

/-- Registers that read as free values: a profile count, walks and translation-cache misses, merged pulses (log entries 52, 125, 127). -/
def freeReg (page off : Nat) : Bool :=
  (page == pgDbg && (off == 0x1068 || off == 0x106C)) || (page == pgMmu && decide (0x0128 ≤ off) && decide (off ≤ 0x0134)) || (page == pgClk && off == 0x010C)

/-- What a read leaves behind: a read-clear register is cleared, reading the log's head clears `ERRLOG_NEW`, and a register that reads as a free value
steps the free values on. -/
def Dev.readDone (d : Dev) (port page i off : Nat) (a : Acc) : Dev :=
  let d := if a = .rc then
      (if page = pgTest then (let k := selLane (d.bankN pgTest port oLsel); d.setLane k { d.lane k with errs := 0 }) else d.setRegN page i off 0)
    else d
  let d := if off = 0x0080 then d.clrReg page (bank port) 0x0014 8 else d
  if freeReg page off then d.tick else d

/-- A read of a register that the port sees: the lowest word of a wide value latches the others, another word of the value last latched answers the latch;
`lpage` is the page whose latch serves. -/
def Dev.readReg (f : Fuses) (d : Dev) (port lpage page i : Nat) (r : RegDef) : Nat × Dev :=
  let k := latchKey port lpage
  let l := tabGet latchDflt d.latches k
  let me := rk page i r.low + 1
  if 1 < r.words ∧ r.off = r.low then
    let rest := (List.range (r.words - 1)).map (fun n => (BitVec.ofNat 32 (d.wordAt f port page i (r.off + 4 * (n + 1))) : Word))
    (d.wordAt f port page i r.off, ({ d with latches := tabPut latchDflt d.latches k { low := me, rest := rest } }).readDone port page i r.off r.acc)
  else if 1 < r.words ∧ l.low = me then ((l.rest.getD ((r.off - r.low) / 4 - 1) 0).toNat, d)
  else (d.wordAt f port page i r.off, d.readDone port page i r.off r.acc)

/-- The window or register that a page and offset name: HOOPV pages show the HOOP and RAS windows of their hoop (R476). -/
def aliasOf (page off : Nat) : Option (Nat × Nat) :=
  if 0x100 ≤ page ∧ page ≤ 0x13F ∧ isWindow off then
    (if page % 4 = 0 then some (pgHoop, (page - 0x100) / 4) else if page % 4 = 1 then some (pgRas, (page - 0x100) / 4) else none)
  else none

/-- A VF reaches the HOOPV pages of its own hoop only (R257). -/
def Dev.hoopvSilent (d : Dev) (port page : Nat) : Bool := decide (0x100 ≤ page) && decide (page ≤ 0x13F) && !d.seesHoop port ((page - 0x100) / 4)

/-- What a read of a register at instance `i` answers, by the port's view of it. -/
def Dev.readSeen (f : Fuses) (d : Dev) (port lpage page i off : Nat) (r : RegDef) (sel : Nat) : Nat × Dev :=
  if r.acc = .wo ∨ off = 0x0020 then (0, d)
  else if isWindow off ∧ (pageSelMax page < sel ∨ d.heldPort page i) then (0, d)
  else match d.sees port page i off with
    | .silent => (0, d)
    | .quiet => (0, d)
    | .hidden => (0, d.logErr port page off .notVisible 0)
    | .yes =>
      if 0x0100 ≤ off ∧ d.reached page i off = false then (if isWindow off then 0 else (regReset page i off).toNat, d)
      else d.readReg f port lpage page i r

/-- The word that a port's aligned 32-bit read answers (R6: reserved offsets and pages read zero). -/
def Dev.readWord (f : Fuses) (d : Dev) (port page off : Nat) : Nat × Dev :=
  if !d.answers port page || d.hoopvSilent port page then (0, d)
  else match aliasOf page off with
    | some (p, h) => match regDef p off with
      | none => (0, d)
      | some r => d.readSeen f port page p h off r 0
    | none =>
      if page = pgCap ∧ 0x0100 ≤ off then ((Dev.computed f d port page 0 off).getD 0 % 2 ^ 32, d)
      else match regDef page off with
        | none => (0, d)
        | some r => d.readSeen f port page page (d.instOf port page off r.banked) off r (d.sel page port)

/-- A read by a port: its answer leaves the block. -/
def Dev.busRead (f : Fuses) (d : Dev) (port page off : Nat) : Dev :=
  if !d.arrives port then d
  else
    let r := d.readWord f port page off
    r.2.emit (.readData port page off (BitVec.ofNat 32 r.1))

/-! ### The common layout (R477, R478, R480) -/

/-- A soft reset of a page: `LOCK`, interrupt state, error logs and select registers, in every bank. -/
def Dev.softReset (d : Dev) (page : Nat) : Dev :=
  let offs := [0x0018, 0x001C, 0x0030, 0x0080] ++ (List.range 16).map (fun n => 0x0040 + 4 * n) ++ selectOffs page
  ({ d with regs := tabClear (fun k => k / 0x1000000000 == page && offs.contains (k % 0x10000)) d.regs } : Dev).clrReg page 0 0x0010 4

/-- A write to `BLK_CTL`: from the PF and RTP ports only. -/
def Dev.blkCtl (d : Dev) (port page v : Nat) : Dev :=
  if v / 2 % 4 = 0 then d
  else if port ≠ portPf ∧ port ≠ portRtp then d.logErr port page 0x0010 .port v
  else
    let d := if bit v 1 then d.softReset page else d
    if bit v 2 then d.orReg page 0 0x0010 4 else d

/-- A write to `BLK_INT_STS`, `BLK_INT_EN` or `BLK_INT_SET`; the write of a clear wins over an event of the same cycle (R487). -/
def Dev.blkInt (d : Dev) (port page off v : Nat) (collide : Bool) : Dev :=
  let d := d.withInt port (fun d =>
    if off = 0x0018 then d.clrReg page (bank port) 0x0018 v
    else if off = 0x001C then d.setBankN page port 0x001C v
    else d.orReg page (bank port) 0x0018 v)
  if collide && off == 0x0018 then d.eventAt page 31 port else d

/-- A write to `BLK_SEL`: kept as written; above the limit, `SEL_RANGE` is logged once. -/
def Dev.blkSel (d : Dev) (port page v : Nat) : Dev :=
  let d := d.setBankN page port 0x0030 v
  if pageSelMax page < v then d.logErr port page 0x0030 .selRange v else d

/-- A write to another select register of a page. -/
def Dev.selWrite (d : Dev) (port page off v mask : Nat) : Dev :=
  if page = pgTest then d.laneSel port v
  else
    let d := d.setBankN page port off (v &&& mask)
    if page = pgTel ∧ 63 < v then d.logErr port page off .selRange v else d

/-! ### Writes that start something -/

/-- A write that gives two entries one `SRC_SAT` with `SRC_EN` set, or names a saturation entry that the context does not own (R188). -/
def Dev.lstBad (d : Dev) (e v : Nat) : Bool :=
  bit v 20 && (!((d.sat (fld v 19 8)).assigned && (d.sat (fld v 19 8)).ctx == (d.lst e).ctx) ||
    d.lsts.any (fun x => x.1 != e && x.2.assigned && bit (d.regN pgLst x.1 0x0100) 20 && fld (d.regN pgLst x.1 0x0100) 19 8 == fld v 19 8))

/-- A write to `STOR_OP`. -/
def Dev.storOp (d : Dev) (port v : Nat) (e : WrEnv) : Dev :=
  d.runOp port pgStor 0x1010 0x101C v (port == portPf) (fun d =>
    match v % 16 with
    | 1 => d.storOpen port e.ctx e.connect e.nsOk e.lba e.blocks
    | 2 => d.storClose (fld v 13 8)
    | _ => (.badDescriptor, d))

/-- A write to `DBG_OP` (R428 to R436). -/
def Dev.dbgWrite (d : Dev) (serial port v : Nat) : Dev :=
  let c := fld v 19 8
  let t := fld v 26 20
  match v % 16 with
  | 1 => d.dbgOp port 1 c t (fun d => d.dbgBuffer c 4800 (d.enableCert serial (d.certFull port)))
  | 2 => d.dbgOp port 2 c t Dev.challenge
  | 3 => (d.dbgOp port 3 c t (fun d => d.dbgBuffer c 96 (d.legacyResponse serial))).spendChal
  | 4 => d.dbgOp port 4 c t (fun d => (.ok, d.endDebug))
  | 5 => d.dbgHalt port 5 c t true
  | 6 => d.dbgHalt port 6 c t false
  | n => d.dbgOp port n c t (fun d => (.badDescriptor, d))

/-- A write to `TEST_OP` (R523, R525, R528). -/
def Dev.testWrite (d : Dev) (v : Nat) (e : WrEnv) : Dev :=
  d.testOp v (fun d =>
    match v % 16 with
    | 1 => d.mbistTile (fld v 10 4) e.units e.rows e.crock e.arrays
    | 2 => d.hbmTest (fld v 14 12) (bit v 16) e.pass e.lanes e.rows
    | _ => (.badDescriptor, d))

/-- A write to a register of the core that has behaviour of its own; none: the register is plain. -/
def Dev.coreWrite (d : Dev) (serial port page i off v : Nat) (e : WrEnv) : Option Dev :=
  if pgCiphu ≤ page ∧ page < pgCiphu + 16 then (if off = 0x1014 then some (d.cipherTail port (page - pgCiphu) v) else none)
  else match page, off with
    | 0x002, 0x0128 => some (d.setQueue i { d.queue i with cplHead := v })
    | 0x002, 0x1004 => some (d.queOp port (v % 16))
    | 0x003, 0x0110 => some (d.signalFrom port v)
    | 0x003, 0x1004 => some (d.evtOp port v)
    | 0x004, 0x1004 => some (d.ctxOp port (v % 16))
    | 0x004, 0x1030 => some (d.aperWrite port v)
    | 0x005, 0x1004 => some (d.hoopOp port (v % 16) (fld v 7 4))
    | 0x011, 0x1004 => some (d.atticOp port v)
    | 0x028, 0x0124 => some (d.faultAnswer port v)
    | 0x031, 0x0100 => if d.lstBad i v then some (d.logErr port pgLst 0x0100 .value v) else none
    | 0x040, 0x011C => some (d.alnkCtl i v)
    | 0x040, 0x0120 => some (if bit v 0 then d.retrain i else d)
    | 0x040, 0x1034 => some (d.publish v)
    | 0x040, 0x104C => some (d.probeStart port v)
    | 0x041, 0x019C => some (if bit v 0 then d.vcApply i else d)
    | 0x042, 0x0118 => some (if bit v 0 then d.picotResume i else d)
    | 0x042, 0x0124 => some (d.updLk i (fun x => { x with schedStaged := tabPut natDflt x.schedStaged (d.bankN pgPicot port 0x0120 % 1024) (v % 512) }))
    | 0x042, 0x1010 => some (if bit v 0 then d.timeLoad port else d)
    | 0x042, 0x1034 => some (if bit v 0 then d.swapArm port else d)
    | 0x043, 0x0118 => some (d.leaseWrite port v)
    | 0x043, 0x1010 => some (d.shutOp port v)
    | 0x048, 0x1010 => some (d.storOp port v e)
    | 0x049, 0x0100 => some (d.tmsWrite i v)
    | 0x054, 0x1004 => some (d.dbgWrite serial port v)
    | 0x05D, 0x1004 => some (d.laneCtl port v)
    | 0x05D, 0x1018 => some (d.testWrite v e)
    | _, _ => none

/-- A write to a register that acts outside the core, or on the fuses; none: not such a register. -/
def deviceWrite (f : Fuses) (d : Dev) (port page off v : Nat) (e : WrEnv) : Option (Fuses × Dev) :=
  match page, off with
  | 0x052, 0x1008 => some (f, if d.aon.ready then d.zeroize port v else d)
  | 0x050, 0x100C => some (f, d.mbServed (fun d => d.mbGo port v))
  | 0x053, 0x1004 => some (lcWrite f d port v e.vbat e.fuseBad e.lost)
  | 0x058, 0x1020 => some (f, d.haltClear port v)
  | 0x058, 0x1030 => some (f, (d.haltReq port v).haltedBoot)
  | 0x05A, 0x1058 => some (f, Dev.bootCtl f d e.boot port v)
  | 0x05A, 0x105C => some (svnCommit f d port v e.lost)
  | 0x05A, 0x1060 => some (f, d.flashOp port (v % 4) (fun d => d.flashRun (v % 4)))
  | _, _ => none

/-! ### Writes (R6, R7, R485, R487) -/

/-- The BOOT and LC pages are written from the PF, BMC and JTAG ports only (R436, R473). -/
def bootLcClosed (port page : Nat) : Bool := (page == pgBoot || page == pgLc) && port != portPf && port != portBmc && port != portJtag

/-- A port that a register does not accept writes from: `PORT` (R232, R304, R359, R417, R440). -/
def portBad (port page off : Nat) : Bool :=
  if page = pgHoop then isWindow off && port != portPf
  else if page = pgMmu then off == 0x1000 && port != portPf
  else if page = pgShut then ((0x0118 ≤ off && off ≤ 0x0124) || (0x1014 ≤ off && off ≤ 0x1028)) && port != portPf
  else if page = pgRas then (off == 0x1024 || off == 0x1028) && port != portPf
  else if page = pgSec then decide (0x1000 ≤ off) && decide (off ≤ 0x100C) && !(portIsFunc port || port == portRtp)
  else false

/-- A value that a rule of the page discards: `VALUE` (R232, R304, R361, R409, R440, R452). -/
def Dev.valueBad (d : Dev) (page i off v : Nat) : Bool :=
  if page = pgMmu then off == 0x1000 && (decide (v < 100000) || decide (4000000 < v))
  else if page = pgRas then
    (off == 0x1024 && (decide (v < 100000) || decide (100000000 < v))) || (off == 0x1028 && (decide (v < 1000000) || decide (4000000000 < v)))
  else if page = pgStor then off == 0x100C && (decide (v < 1000000) || decide (3000000000 < v))
  else if page = pgHoop then off == 0x0150 && v % 256 == 0
  else if page = pgDiag then
    (off == 0x0104 && v % 65536 != 0) || (off == 0x010C && v % 2 ^ 17 == 0 && bit (d.regN pgDiag i 0x0100) 0) ||
    (off == 0x0100 && bit v 0 && d.regN pgDiag i 0x010C == 0)
  else if pgCiphu ≤ page ∧ page < pgCiphu + 16 then decide (off ≤ 0x1010) && bit (d.regN page 0 0x1000) 0 && (off != 0x1000 || bit v 0)
  else false

/-- One word of a register written: the bits that its access type and mask let a write reach (R6, R7); a hoop's parameters are staged (R304). -/
def Dev.putWord (d : Dev) (page i : Nat) (r : RegDef) (v : Nat) : Dev :=
  if page = pgHoop ∧ isWindow r.off then
    d.setHoop i { d.hoop i with staged := (d.hoop i).staged.put r.off v }
  else if r.acc = .w1c then d.clrReg page i r.off (v &&& r.mask)
  else if r.acc = .w1s then d.orReg page i r.off (v &&& r.mask)
  else d.setRegN page i r.off (v &&& r.mask)

/-- The words of a wide value committed by a write of its highest word (R485). -/
def Dev.commit (d : Dev) (port page i : Nat) (r : RegDef) (v : Nat) : Dev :=
  let d := (List.range (r.words - 1)).foldl (fun d k =>
    let o := r.low + 4 * k
    match tabGet stagedDflt d.stagedWords (stagedKey port page i o), regDef page o with
    | some w, some ro => (d.unstage port page i o).putWord page i ro w.toNat
    | _, _ => d) d
  d.putWord page i r v

/-- A plain register written: a word of a wide value is staged, or commits it. -/
def Dev.plainWrite (d : Dev) (port page i : Nat) (r : RegDef) (v : Nat) (collide : Bool) : Dev :=
  if 1 < r.words ∧ r.off ≠ r.low + 4 * (r.words - 1) then d.stage port page i r.off v
  else
    let d := if 1 < r.words then d.commit port page i r v else d.putWord page i r v
    if collide && (isCounter page r.off || r.acc = .w1c) then d.collision page i r.off else d

/-- A register that the port sees and its block answers for, written. -/
def writeReg (f : Fuses) (d : Dev) (port page i : Nat) (r : RegDef) (v : Nat) (e : WrEnv) : Fuses × Dev :=
  match deviceWrite f d port page r.off v e with
  | some x => x
  | none =>
    match d.coreWrite f.serial port page i r.off v e with
    | some d' => (f, if d.live then d' else d)
    | none => (f, d.plainWrite port page i r v e.collide)

/-- The offset is one of the common layout that a write reaches, or a select register. -/
def Dev.layoutWrite (d : Dev) (port page : Nat) (r : RegDef) (v : Nat) (collide : Bool) : Option Dev :=
  if r.off = 0x0010 then some (d.blkCtl port page v)
  else if r.off = 0x0018 ∨ r.off = 0x001C ∨ r.off = 0x0020 then some (d.blkInt port page r.off v collide)
  else if r.off = 0x0030 then some (d.blkSel port page v)
  else if (selectOffs page).contains r.off then some (d.selWrite port page r.off v r.mask)
  else none

/-- A write to a register in use, by the port's view of it. -/
def writeSeen (f : Fuses) (d : Dev) (port page : Nat) (r : RegDef) (v : Nat) (e : WrEnv) : Fuses × Dev :=
  let i := d.instOf port page r.off r.banked
  if d.sees port page i r.off = .silent then (f, d)
  else match d.layoutWrite port page r v e.collide with
    | some d' => (f, d')
    | none =>
      if r.acc = .ro ∨ r.acc = .rc then (f, d)
      else if isWindow r.off ∧ (pageSelMax page < d.sel page port ∨ d.heldPort page i) then (f, d)
      else if d.reached page i r.off = false then (f, d.logErr port page r.off .peerReset v)
      else if d.sees port page i r.off ≠ .yes then (f, d.logErr port page r.off .notVisible v)
      else if portBad port page r.off then (f, d.logErr port page r.off .port v)
      else if d.valueBad page i r.off v then (f, d.logErr port page r.off .value v)
      else if page = pgTile ∧ isWindow r.off ∧ (d.tile i).out then (f, d)
      else writeReg f d port page i r v e

/-- A port's aligned 32-bit write. -/
def busWrite (f : Fuses) (d : Dev) (port page off v : Nat) (e : WrEnv) : Fuses × Dev :=
  if !d.arrives port || !d.answers port page || d.hoopvSilent port page then (f, d)
  else if bootLcClosed port page then (f, d.logErr port page off .port v)
  else if (aliasOf page off).isSome then (f, d.logErr port page off .port v)
  else match regDef page off with
    | none => (f, d)
    | some r => writeSeen f d port page r (v % 2 ^ 32) e

/-- A write as a command. -/
def onBus (s : State) (port page off v : Nat) (e : WrEnv) (now : Nat) : Host.Outcome State Fault Refusal :=
  let r := busWrite s.fuses (s.dev.at now) port page off v e
  .next { s with fuses := r.1, dev := r.2 }

/-! ### The commands -/

/-- A write to a register. -/
def execRegisterWrite (port page off value : Nat) (e : WrEnv) (now : Nat) (s : State) : Host.Outcome State Fault Refusal :=
  onBus s port page off value e now

/-- An access of BAR0 that is not 32 bits wide or not aligned (R5): logged in the DEV page with the page accessed, counted; a read answers zero. -/
def Dev.widthError (d : Dev) (port page off : Nat) (write : Bool) (v : Nat) : Dev :=
  if !d.arrives port then d
  else
    let d := (d.logEntry pgDev port (errEntry page off .width port (if write then v else 0))).bumpRc pgDev 0 0x100C 1
    if write then d else d.emit (.readData port page off 0)

/-- An access of BAR0 that is not 32 bits wide or not aligned. -/
def execWidthErrorAccess (port page off : Nat) (write : Bool) (value now : Nat) (s : State) : Host.Outcome State Fault Refusal :=
  onDev s (fun d => (d.at now).widthError port page off write value)

/-- A read of a read-clear register (R488). -/
def execRcRead (port page off now : Nat) (s : State) : Host.Outcome State Fault Refusal :=
  onDev s (fun d => (d.at now).busRead s.fuses port page off)

/-- A read of the low word of a wide value (R484). -/
def execLowWordRead (port page off now : Nat) (s : State) : Host.Outcome State Fault Refusal :=
  onDev s (fun d => (d.at now).busRead s.fuses port page off)

/-- A write to the highest word of a wide value (R485). -/
def execHighWordCommit (port page off value : Nat) (e : WrEnv) (now : Nat) (s : State) : Host.Outcome State Fault Refusal :=
  onBus s port page off value e now

/-- A write to a select register (R480). -/
def execSelectWrite (port page off value now : Nat) (s : State) : Host.Outcome State Fault Refusal := onBus s port page off value {} now

/-- `BLK_CTL.SOFT_RESET` written (R478). -/
def execSoftReset (port page now : Nat) (s : State) : Host.Outcome State Fault Refusal := onBus s port page 0x0010 2 {} now

/-- `BLK_CTL.LOCK` written (R478). -/
def execBlkLock (port page now : Nat) (s : State) : Host.Outcome State Fault Refusal := onBus s port page 0x0010 4 {} now

/-- A write to `BLK_INT_SET` (R477). -/
def execBlkIntSet (port page value now : Nat) (s : State) : Host.Outcome State Fault Refusal := onBus s port page 0x0020 value {} now

/-- A write to `LST_CTL` (R188). -/
def execLstCtlWrite (port value : Nat) (e : WrEnv) (now : Nat) (s : State) : Host.Outcome State Fault Refusal := onBus s port pgLst 0x0100 value e now

/-- REGACC: the register-access data register of the JTAG port is selected (R474, R526). -/
def execRegacc (s : State) : Host.Outcome State Fault Refusal := onDev s (fun d => d.whenAon (fun d => d.setIr tapRegacc))

/-! ### The management bus (R385, R507, R508) -/

/-- MCTP message type that carries register messages: vendor defined (log entry 67). -/
def mctpRegister : Nat := 0x7E

/-- An answer leaves at once when the device wins the bus, behind those that wait; else it waits. -/
def Dev.mgmtSend (d : Dev) (won : Bool) (xs : List (Nat × List Byte)) : Dev :=
  let q := d.aon.mgmtQ ++ xs
  if won then q.foldl (fun d m => d.emit (.mctp m.1 m.2)) { d with aon := { d.aon with mgmtQ := [] } }
  else { d with aon := { d.aon with mgmtQ := q } }

/-- A message that the device takes, and its answer: a read's value, a write's acknowledgement. -/
def mgmtTake (f : Fuses) (d : Dev) (m : MgmtMsg) (won : Bool) : Fuses × Dev :=
  match m with
  | .read page off =>
    let r := d.readWord f portBmc page off
    (f, r.2.mgmtSend won [(mctpRegister, toBytes 4 r.1)])
  | .write page off v e =>
    let r := busWrite f d portBmc page off v e
    (r.1, r.2.mgmtSend won [(mctpRegister, [])])
  | .spdm => (f, d.mgmtSend won [])
  | .other _ => (f, d.mgmtSend won [])

/-- An MCTP message arrives on the management bus; `won`: the device wins the bus for what it has to send. -/
def execMctpMessage (msg : MgmtMsg) (won : Bool) (now : Nat) (s : State) : Host.Outcome State Fault Refusal :=
  let d := s.dev.at now
  let r := if d.aon.aonUp then mgmtTake s.fuses d msg won else (s.fuses, d)
  .next { s with fuses := r.1, dev := r.2 }

/-- A packet not sent within 10 ms is dropped: the one that has waited longest. -/
def execMctpSendTimeout (now : Nat) (s : State) : Host.Outcome State Fault Refusal :=
  onDev s (fun d => (d.at now).whenAon (fun d => { d with aon := { d.aon with mgmtQ := d.aon.mgmtQ.drop 1 } }))

end Sys2Proof.Machine
end

