-- ==== Sys2Proof/Machine/Spdm.lean ====
section
/-! DEFINITION. The device as an SPDM 1.3 responder (R394 to R396, R398). The SPDM key schedule and the encodings of its messages are outside the
spec: a row carries what the spec's rules need (log entry 57). -/
namespace Sys2Proof.Machine

def spdmDflt (_ : Nat) : SpdmSession := {}

/-- A session. -/
def Dev.session (d : Dev) (n : Nat) : SpdmSession := tabGet spdmDflt d.sec.sessions n

/-- A session replaced; one that ends is at its reset value. -/
def Dev.setSession (d : Dev) (n : Nat) (x : SpdmSession) : Dev := { d with sec := { d.sec with sessions := tabPut spdmDflt d.sec.sessions n x } }

/-- An SPDM answer. -/
def Dev.answer (d : Dev) (mctp : Bool) (a : SpdmAns) (p : List Byte) : Dev := d.emit (.spdm mctp a p)

/-- The version field of SPDM 1.3. -/
def spdm13 : Nat := 0x13

/-- Messages above 65,536 bytes are too large (R394). -/
def spdmMax : Nat := 65536

/-- A message that core B also answers while core A restarts (R384); `Busy` otherwise, and nothing before the RTP has started. -/
def Dev.spdmServe (d : Dev) (mctp attest : Bool) (f : Dev → Dev) : Dev :=
  if d.rtpUp || (attest && d.attestUp) then f d else if d.attestUp then d.answer mctp .busy [] else d

/-- GET_VERSION reports 1.3. -/
def execGetVersion (mctp : Bool) (now : Nat) (s : State) : Host.Outcome State Fault Refusal :=
  onDev s (fun d => (d.at now).spdmServe mctp true (fun d => d.answer mctp .ok (toBytes 1 spdm13)))

/-- NEGOTIATE_ALGORITHMS: every algorithm the device supports must be offered (R394 Table 5). -/
def Dev.negotiate (d : Dev) (mctp : Bool) (version : Nat) (all : Bool) : Dev :=
  if version ≠ spdm13 then d.answer mctp .versionMismatch []
  else if !all then d.answer mctp .invalidRequest []
  else
    let n := b2n mctp
    ({ d with sec := { d.sec with negotiated := if d.sec.negotiated.contains n then d.sec.negotiated else d.sec.negotiated ++ [n] } } : Dev).answer mctp .ok []

/-- NEGOTIATE_ALGORITHMS: whether the requester offers ECDSA P-384 both ways, SHA-384, secp384r1, AES-256-GCM and SHA-384 measurements. -/
def execNegotiateAlgorithms (mctp : Bool) (version : Nat) (baseAsym reqAsym baseHash dhe aead measHash : Bool) (now : Nat) (s : State) :
    Host.Outcome State Fault Refusal :=
  onDev s (fun d => (d.at now).spdmServe mctp true (fun d =>
    d.negotiate mctp version (baseAsym && reqAsym && baseHash && dhe && aead && measHash)))

/-- KEY_EXCHANGE: certificate slots 0 and 1, at most 32 sessions; its data secret is drawn from the ephemeral exchange. -/
def Dev.keyExchange (d : Dev) (serial : Nat) (mctp : Bool) (version slot len : Nat) (peer : List Byte) : Dev :=
  if version ≠ spdm13 then d.answer mctp .versionMismatch []
  else if spdmMax < len then d.answer mctp .responseTooLarge []
  else if !d.sec.negotiated.contains (b2n mctp) then d.answer mctp .unexpectedRequest []
  else if 1 < slot then d.answer mctp .invalidRequest []
  else if !d.hasIdentity then d.answer mctp .unspecified []
  else match lowest 32 (fun n => (d.session n).stage == .none) with
    | none => d.answer mctp .sessionLimitExceeded []
    | some n =>
      let seed := d.freeBytes 48
      let pub := Config.ecdsaPublic seed
      let key := if slot = 0 then d.devidSeed serial else d.aliasSeed serial
      ((d.ticks 48).setSession n { stage := .exchanged, mctp := mctp, secret := Config.ecdh seed peer }).answer mctp .ok
        (toBytes 2 n ++ pub ++ Config.ecdsaSign key (peer ++ pub))

/-- KEY_EXCHANGE opens a secured session. -/
def execKeyExchange (mctp : Bool) (version slot len : Nat) (peer : List Byte) (now : Nat) (s : State) : Host.Outcome State Fault Refusal :=
  onDev s (fun d => (d.at now).spdmServe mctp false (fun d => d.keyExchange s.fuses.serial mctp version slot len peer))

/-- FINISH: the handshake verified, with the requester's leaf key under mutual authentication. -/
def Dev.spdmFinishes (d : Dev) (n : Nat) (good : Bool) (leaf : List Byte) : Dev :=
  let x := d.session n
  match x.stage with
  | .exchanged =>
    if good then (d.setSession n { x with stage := .finished, leaf := leaf }).answer x.mctp .ok []
    else (d.setSession n {}).answer x.mctp .unspecified []
  | .none => d
  | _ => d.answer x.mctp .unexpectedRequest []

/-- FINISH completes a session handshake. -/
def execSpdmFinish (session : Nat) (good : Bool) (leaf : List Byte) (now : Nat) (s : State) : Host.Outcome State Fault Refusal :=
  onDev s (fun d => (d.at now).spdmServe (d.session session).mctp false (fun d => d.spdmFinishes session good leaf))

/-- The hoop and owner whose ECDSA key is the requester's leaf key (R395): the lowest hoop, then its first owner. -/
def Dev.bindOf (d : Dev) (leaf : List Byte) : Option (Nat × Nat) :=
  if leaf.isEmpty then none
  else ((List.range 16).filterMap (fun h => ((d.hoopSec h).owners.find? (fun o => o.2.1 == leaf)).map (fun o => (h, o.1)))).head?

/-- KEM_ENCAP (R395): the data secret combined with the decapsulated secret, and the session bound. -/
def Dev.kemEncap (d : Dev) (serial n : Nat) (ct : List Byte) : Dev :=
  let x := d.session n
  match x.stage with
  | .finished =>
    if !d.hasIdentity then d.answer x.mctp .unspecified []
    else
      let ss := Config.mlkemDecap (d.kemSeed serial) ct
      (d.setSession n { x with stage := .kem, secret := kdf x.secret "HT-PQ" ss 384, bound := d.bindOf x.leaf }).answer x.mctp .ok []
  | .none => d
  | _ => d.answer x.mctp .unexpectedRequest []

/-- KEM_ENCAP mixes an ML-KEM secret into the session's keys. -/
def execKemEncap (session : Nat) (ct : List Byte) (now : Nat) (s : State) : Host.Outcome State Fault Refusal :=
  onDev s (fun d => (d.at now).spdmServe (d.session session).mctp false (fun d => d.kemEncap s.fuses.serial session ct))

/-- A message inside a session runs after KEM_ENCAP only; before it, an application message ends the session (R395). Outside a session it runs. -/
def Dev.inSession (d : Dev) (n : Option Nat) (f : Dev → Dev) : Dev :=
  match n with
  | none => f d
  | some n => match (d.session n).stage with
    | .kem => f d
    | .finished => d.setSession n {}
    | _ => d

/-- The hoop that a report in a session covers (R396). -/
def Dev.sessionScope (d : Dev) (n : Option Nat) : Option Nat := n.bind (fun n => (d.session n).bound.map (·.1))

/-- The report, where the device has an identity. -/
def Dev.reportOver (d : Dev) (serial : Nat) (mctp : Bool) (n : Option Nat) (nonce : List Byte) (wrap : List Byte → List Byte) : Dev :=
  if d.hasIdentity then d.answer mctp .ok (wrap (d.report serial nonce (d.sessionScope n))) else d.answer mctp .unspecified []

/-- The REPORT vendor message. -/
def execSpdmReport (mctp : Bool) (session : Option Nat) (nonce : List Byte) (now : Nat) (s : State) : Host.Outcome State Fault Refusal :=
  onDev s (fun d => (d.at now).spdmServe mctp true (fun d =>
    d.inSession session (fun d => d.reportOver s.fuses.serial mctp session nonce id)))

/-- GET_MEASUREMENTS: the report at index 0xF0, signed by the ECDSA alias key; indexes 0 (how many) and 0xFF (all) follow SPDM (log entry 57). -/
def Dev.measurements (d : Dev) (serial : Nat) (mctp : Bool) (version len : Nat) (n : Option Nat) (index : Nat) (nonce : List Byte) : Dev :=
  let sign := fun (b : List Byte) => b ++ fit 96 (Config.ecdsaSign (d.aliasSeed serial) b)
  if version ≠ spdm13 then d.answer mctp .versionMismatch []
  else if spdmMax < len then d.answer mctp .responseTooLarge []
  else if index = 0 then d.answer mctp .ok (toBytes 1 1)
  else if index = 0xF0 || index = 0xFF then d.reportOver serial mctp n nonce sign
  else d.answer mctp .invalidRequest []

/-- GET_MEASUREMENTS returns measurement blocks. -/
def execGetMeasurements (mctp : Bool) (version len : Nat) (session : Option Nat) (index : Nat) (nonce : List Byte) (now : Nat) (s : State) :
    Host.Outcome State Fault Refusal :=
  onDev s (fun d => (d.at now).spdmServe mctp true (fun d =>
    d.inSession session (fun d => d.measurements s.fuses.serial mctp version len session index nonce)))

/-- PQ_CERT: what the ML-DSA-87 certificates of both chains certify; their encoding is Ezunvis's (log entry 57). -/
def Dev.pqCert (d : Dev) (serial : Nat) (mctp : Bool) : Dev :=
  if d.hasIdentity then
    d.answer mctp .ok (fit 2592 (Config.mldsaPublic ((d.devidSeed serial).take 32)) ++ fit 2592 (Config.mldsaPublic ((d.aliasSeed serial).take 32)))
  else d.answer mctp .unspecified []

/-- PQ_CERT returns the ML-DSA-87 certificates of both chains. -/
def execPqCert (mctp : Bool) (session : Option Nat) (now : Nat) (s : State) : Host.Outcome State Fault Refusal :=
  onDev s (fun d => (d.at now).spdmServe mctp true (fun d => d.inSession session (fun d => d.pqCert s.fuses.serial mctp)))

/-- KEY_DELIVER in a session: for a slot whose KEY_CREATE waits (R398). -/
def Dev.keyDeliver (d : Dev) (n slot : Nat) (secret : List Byte) : Dev :=
  d.inSession (some n) (fun d =>
    match d.sec.awaiting.find? (fun a => a.slot == slot) with
    | some a => if secret.length = 32 then d.deliver (d.session n) a secret else d.answer (d.session n).mctp .invalidRequest []
    | none => d.answer (d.session n).mctp .invalidRequest [])

/-- KEY_DELIVER imports a slot's base secret. -/
def execKeyDeliver (session slot : Nat) (secret : List Byte) (now : Nat) (s : State) : Host.Outcome State Fault Refusal :=
  onDev s (fun d => (d.at now).whenLive (fun d => d.spdmServe (d.session session).mctp false (fun d => d.keyDeliver session slot secret)))

/-- A session whose heartbeat period of 10 s passes with no message ends (R394). -/
def execHeartbeatTimeout (session now : Nat) (s : State) : Host.Outcome State Fault Refusal :=
  onDev s (fun d => (d.at now).setSession session {})

end Sys2Proof.Machine
end

