-- ==== Sys2Proof/Machine/Dispatch.lean ====
section
/-! DEFINITION. The dispatch: one arm per command, each one direct call of its meaning. -/
namespace Sys2Proof.Machine

def exec (i : Instr) (s : State) : Host.Outcome State Fault Refusal :=
  match i with
  | .registerWrite port page off value e now => Sys2Proof.Machine.execRegisterWrite port page off value e now s
  | .widthErrorAccess port page off write value now => Sys2Proof.Machine.execWidthErrorAccess port page off write value now s
  | .rcRead port page off now => Sys2Proof.Machine.execRcRead port page off now s
  | .lowWordRead port page off now => Sys2Proof.Machine.execLowWordRead port page off now s
  | .highWordCommit port page off value e now => Sys2Proof.Machine.execHighWordCommit port page off value e now s
  | .selectWrite port page off value now => Sys2Proof.Machine.execSelectWrite port page off value now s
  | .softReset port page now => Sys2Proof.Machine.execSoftReset port page now s
  | .blkLock port page now => Sys2Proof.Machine.execBlkLock port page now s
  | .blkIntSet port page value now => Sys2Proof.Machine.execBlkIntSet port page value now s
  | .nop tile slot => Sys2Proof.Machine.execNop tile slot s
  | .setx tile slot => Sys2Proof.Machine.execSetx tile slot s
  | .addx tile slot => Sys2Proof.Machine.execAddx tile slot s
  | .loopIns tile slot => Sys2Proof.Machine.execLoopIns tile slot s
  | .fence tile slot => Sys2Proof.Machine.execFence tile slot s
  | .tileEnd tile slot => Sys2Proof.Machine.execTileEnd tile slot s
  | .mma tile slot ue chk => Sys2Proof.Machine.execMma tile slot ue chk s
  | .mmg tile slot ue chk => Sys2Proof.Machine.execMmg tile slot ue chk s
  | .knot tile slot ue => Sys2Proof.Machine.execKnot tile slot ue s
  | .stch tile slot ue => Sys2Proof.Machine.execStch tile slot ue s
  | .attf tile slot ue chk => Sys2Proof.Machine.execAttf tile slot ue chk s
  | .attb tile slot ue chk => Sys2Proof.Machine.execAttb tile slot ue chk s
  | .ld tile slot ue => Sys2Proof.Machine.execLd tile slot ue s
  | .st tile slot ue => Sys2Proof.Machine.execSt tile slot ue s
  | .mov tile slot ue => Sys2Proof.Machine.execMov tile slot ue s
  | .ldq tile slot ue => Sys2Proof.Machine.execLdq tile slot ue s
  | .wld tile slot ue => Sys2Proof.Machine.execWld tile slot ue s
  | .send tile slot ue => Sys2Proof.Machine.execSend tile slot ue s
  | .recv tile slot ue => Sys2Proof.Machine.execRecv tile slot ue s
  | .rel tile slot => Sys2Proof.Machine.execRel tile slot s
  | .vew tile slot ue => Sys2Proof.Machine.execVew tile slot ue s
  | .vred tile slot ue => Sys2Proof.Machine.execVred tile slot ue s
  | .vstat tile slot ue => Sys2Proof.Machine.execVstat tile slot ue s
  | .instructionRetire tile slot lane elapsed wait ce sentinel parity => Sys2Proof.Machine.execInstructionRetire tile slot lane elapsed wait ce sentinel parity s
  | .handoffUnpark tile slot => Sys2Proof.Machine.execHandoffUnpark tile slot s
  | .tileHealthWindow tile => Sys2Proof.Machine.execTileHealthWindow tile s
  | .doorbellRing fn queue off width tail now => Sys2Proof.Machine.execDoorbellRing fn queue off width tail now s
  | .doorbellPush fn queue off bytes now => Sys2Proof.Machine.execDoorbellPush fn queue off bytes now s
  | .descriptorDecision queue now => Sys2Proof.Machine.execDescriptorDecision queue now s
  | .commandRelease trk now => Sys2Proof.Machine.execCommandRelease trk now s
  | .cacheFillDone entry now => Sys2Proof.Machine.execCacheFillDone entry now s
  | .commandComplete trk now => Sys2Proof.Machine.execCommandComplete trk now s
  | .execCmd trk now => Sys2Proof.Machine.execExecCmd trk now s
  | .loadCmd trk nclk now => Sys2Proof.Machine.execLoadCmd trk nclk now s
  | .unloadCmd trk now => Sys2Proof.Machine.execUnloadCmd trk now s
  | .signalCmd trk now => Sys2Proof.Machine.execSignalCmd trk now s
  | .ctxCreate port now => Sys2Proof.Machine.execCtxCreate port now s
  | .ctxDestroy port now => Sys2Proof.Machine.execCtxDestroy port now s
  | .ctxReset port now => Sys2Proof.Machine.execCtxReset port now s
  | .setWindow port now => Sys2Proof.Machine.execSetWindow port now s
  | .bindFence port now => Sys2Proof.Machine.execBindFence port now s
  | .unbindFence port now => Sys2Proof.Machine.execUnbindFence port now s
  | .fabricDrainEnd ctx now => Sys2Proof.Machine.execFabricDrainEnd ctx now s
  | .queCreate port now => Sys2Proof.Machine.execQueCreate port now s
  | .queDestroy port now => Sys2Proof.Machine.execQueDestroy port now s
  | .evtCreate port shared ctx now => Sys2Proof.Machine.execEvtCreate port shared ctx now s
  | .evtDestroy port now => Sys2Proof.Machine.execEvtDestroy port now s
  | .evtSigHi port hi now => Sys2Proof.Machine.execEvtSigHi port hi now s
  | .aperCtxWrite port value now => Sys2Proof.Machine.execAperCtxWrite port value now s
  | .bar4Read fn addr len now => Sys2Proof.Machine.execBar4Read fn addr len now s
  | .bar4Write fn addr bytes now => Sys2Proof.Machine.execBar4Write fn addr bytes now s
  | .flrVf fn now => Sys2Proof.Machine.execFlrVf fn now s
  | .flrPf now => Sys2Proof.Machine.execFlrPf now s
  | .vfEnableClear enable num now => Sys2Proof.Machine.execVfEnableClear enable num now s
  | .d3hotEntry fn now => Sys2Proof.Machine.execD3hotEntry fn now s
  | .ideIntegrityFailure stream now => Sys2Proof.Machine.execIdeIntegrityFailure stream now s
  | .stopInterface fn now => Sys2Proof.Machine.execStopInterface fn now s
  | .doeObject dw body now => Sys2Proof.Machine.execDoeObject dw body now s
  | .foldCmd trk now => Sys2Proof.Machine.execFoldCmd trk now s
  | .scanCmd trk now => Sys2Proof.Machine.execScanCmd trk now s
  | .stepCmd trk now => Sys2Proof.Machine.execStepCmd trk now s
  | .darnerStripCommit trk ce ue now => Sys2Proof.Machine.execDarnerStripCommit trk ce ue now s
  | .darnerSramUe darner => Sys2Proof.Machine.execDarnerSramUe darner s
  | .lstCtlWrite port value e now => Sys2Proof.Machine.execLstCtlWrite port value e now s
  | .cacheRegister trk now => Sys2Proof.Machine.execCacheRegister trk now s
  | .cacheDrop trk now => Sys2Proof.Machine.execCacheDrop trk now s
  | .cachePin trk now => Sys2Proof.Machine.execCachePin trk now s
  | .cacheUnpin trk now => Sys2Proof.Machine.execCacheUnpin trk now s
  | .cachePrefetch trk now => Sys2Proof.Machine.execCachePrefetch trk now s
  | .mmuGrant trk now => Sys2Proof.Machine.execMmuGrant trk now s
  | .mmuReclaim trk now => Sys2Proof.Machine.execMmuReclaim trk now s
  | .mmuMap trk now => Sys2Proof.Machine.execMmuMap trk now s
  | .mmuUnmap trk now => Sys2Proof.Machine.execMmuUnmap trk now s
  | .mmuProtect trk now => Sys2Proof.Machine.execMmuProtect trk now s
  | .mmuInvalidationDone trk now => Sys2Proof.Machine.execMmuInvalidationDone trk now s
  | .mmuDeferredProceed trk now => Sys2Proof.Machine.execMmuDeferredProceed trk now s
  | .mmuFRespResume port now => Sys2Proof.Machine.execMmuFRespResume port now s
  | .mmuFRespAbort port now => Sys2Proof.Machine.execMmuFRespAbort port now s
  | .faultAnswerTimeout ctx rec' now => Sys2Proof.Machine.execFaultAnswerTimeout ctx rec' now s
  | .dmaCopy trk now => Sys2Proof.Machine.execDmaCopy trk now s
  | .dmaTranspose trk now => Sys2Proof.Machine.execDmaTranspose trk now s
  | .dmaFill trk now => Sys2Proof.Machine.execDmaFill trk now s
  | .dmaSegmentComplete chan ue hostBad cyc now => Sys2Proof.Machine.execDmaSegmentComplete chan ue hostBad cyc now s
  | .cellarRead req chk now => Sys2Proof.Machine.execCellarRead req chk now s
  | .cellarWrite req bytes chk now => Sys2Proof.Machine.execCellarWrite req bytes chk now s
  | .cellarPartialWrite req bytes chk now => Sys2Proof.Machine.execCellarPartialWrite req bytes chk now s
  | .rekeySweepComplete key now => Sys2Proof.Machine.execRekeySweepComplete key now s
  | .scrubAfterDrain key now => Sys2Proof.Machine.execScrubAfterDrain key now s
  | .pageRetireCopy ppn ue now => Sys2Proof.Machine.execPageRetireCopy ppn ue now s
  | .requestDrop ctx cause write pa fence now => Sys2Proof.Machine.execRequestDrop ctx cause write pa fence now s
  | .hoopCreate port hoop now => Sys2Proof.Machine.execHoopCreate port hoop now s
  | .hoopApply port hoop now => Sys2Proof.Machine.execHoopApply port hoop now s
  | .hoopExclusive port hoop now => Sys2Proof.Machine.execHoopExclusive port hoop now s
  | .hoopInterleave port hoop now => Sys2Proof.Machine.execHoopInterleave port hoop now s
  | .hoopReset port hoop now => Sys2Proof.Machine.execHoopReset port hoop now s
  | .hoopDestroy port hoop now => Sys2Proof.Machine.execHoopDestroy port hoop now s
  | .hoopSeal port hoop now => Sys2Proof.Machine.execHoopSeal port hoop now s
  | .hoopUnseal port hoop now => Sys2Proof.Machine.execHoopUnseal port hoop now s
  | .deadlinePassed trk now => Sys2Proof.Machine.execDeadlinePassed trk now s
  | .replayLimit trk now => Sys2Proof.Machine.execReplayLimit trk now s
  | .exclusiveSwitchTimeout tile lane now => Sys2Proof.Machine.execExclusiveSwitchTimeout tile lane now s
  | .thermalIntervalEnd now => Sys2Proof.Machine.execThermalIntervalEnd now s
  | .sensorSample sensor reading now => Sys2Proof.Machine.execSensorSample sensor reading now s
  | .thermalRelease now => Sys2Proof.Machine.execThermalRelease now s
  | .alnkEnable port lport => Sys2Proof.Machine.execAlnkEnable port lport s
  | .portPeerDetect lport => Sys2Proof.Machine.execPortPeerDetect lport s
  | .trainingTimeout lport => Sys2Proof.Machine.execTrainingTimeout lport s
  | .laneBad lport lane => Sys2Proof.Machine.execLaneBad lport lane s
  | .alnkRetrain port lport => Sys2Proof.Machine.execAlnkRetrain port lport s
  | .flitReceive lport bytes corrected uncorrectable => Sys2Proof.Machine.execFlitReceive lport bytes corrected uncorrectable s
  | .flitReplayTimeout lport => Sys2Proof.Machine.execFlitReplayTimeout lport s
  | .retryBufferStall lport => Sys2Proof.Machine.execRetryBufferStall lport s
  | .creditWatchdog lport share vc now => Sys2Proof.Machine.execCreditWatchdog lport share vc now s
  | .vcApply port lport => Sys2Proof.Machine.execVcApply port lport s
  | .shareSwapTimeout lport => Sys2Proof.Machine.execShareSwapTimeout lport s
  | .linkRecordReceive lport share vc cyc now => Sys2Proof.Machine.execLinkRecordReceive lport share vc cyc now s
  | .sync lport t1 t2 t3 t4 peerLocked peerPub => Sys2Proof.Machine.execSync lport t1 t2 t3 t4 peerLocked peerPub s
  | .syncTimer lport now => Sys2Proof.Machine.execSyncTimer lport now s
  | .announce lport prio peer hops now => Sys2Proof.Machine.execAnnounce lport prio peer hops now s
  | .announceTimer lport now => Sys2Proof.Machine.execAnnounceTimer lport now s
  | .grandmasterTimeout now => Sys2Proof.Machine.execGrandmasterTimeout now s
  | .topoChange lport epoch hops => Sys2Proof.Machine.execTopoChange lport epoch hops s
  | .probe lport slot hops behind route back epoch => Sys2Proof.Machine.execProbe lport slot hops behind route back epoch s
  | .probeReply lport slot left back epoch serial prio index states => Sys2Proof.Machine.execProbeReply lport slot left back epoch serial prio index states s
  | .fabProbeStart port value now => Sys2Proof.Machine.execFabProbeStart port value now s
  | .probeTimeout slot now => Sys2Proof.Machine.execProbeTimeout slot now s
  | .fabPublish port epoch => Sys2Proof.Machine.execFabPublish port epoch s
  | .picotTimeLoad port => Sys2Proof.Machine.execPicotTimeLoad port s
  | .unpair lport pairing gen => Sys2Proof.Machine.execUnpair lport pairing gen s
  | .keyx lport msg now => Sys2Proof.Machine.execKeyx lport msg now s
  | .shareSwap lport crc instant => Sys2Proof.Machine.execShareSwap lport crc instant s
  | .guardNotice lport slot offset => Sys2Proof.Machine.execGuardNotice lport slot offset s
  | .driftNotice lport offset => Sys2Proof.Machine.execDriftNotice lport offset s
  | .picotState lport suspended => Sys2Proof.Machine.execPicotState lport suspended s
  | .picotSlotLaunch lport slot now => Sys2Proof.Machine.execPicotSlotLaunch lport slot now s
  | .picotFrameReceive lport slot offset frame now => Sys2Proof.Machine.execPicotFrameReceive lport slot offset frame now s
  | .picotResume port lport => Sys2Proof.Machine.execPicotResume port lport s
  | .picotSwapArm port now => Sys2Proof.Machine.execPicotSwapArm port now s
  | .picotScheduleSwap now => Sys2Proof.Machine.execPicotScheduleSwap now s
  | .linkHealthWindow lport f => Sys2Proof.Machine.execLinkHealthWindow lport f s
  | .shutCreate port now => Sys2Proof.Machine.execShutCreate port now s
  | .shutDestroy port group now => Sys2Proof.Machine.execShutDestroy port group now s
  | .shutFence port group now => Sys2Proof.Machine.execShutFence port group now s
  | .shutGLease port now => Sys2Proof.Machine.execShutGLease port now s
  | .leaseExpiry group now => Sys2Proof.Machine.execLeaseExpiry group now s
  | .allreduce trk now => Sys2Proof.Machine.execAllreduce trk now s
  | .allreducePair trk now => Sys2Proof.Machine.execAllreducePair trk now s
  | .reduceScatter trk now => Sys2Proof.Machine.execReduceScatter trk now s
  | .allgather trk now => Sys2Proof.Machine.execAllgather trk now s
  | .broadcast trk now => Sys2Proof.Machine.execBroadcast trk now s
  | .picotAllreduce trk now => Sys2Proof.Machine.execPicotAllreduce trk now s
  | .xsend trk now => Sys2Proof.Machine.execXsend trk now s
  | .xrecv trk now => Sys2Proof.Machine.execXrecv trk now s
  | .groupTimeout group now => Sys2Proof.Machine.execGroupTimeout group now s
  | .collectiveStartTime trk now => Sys2Proof.Machine.execCollectiveStartTime trk now s
  | .storOpen port ctx connect nsOk lba blocks now => Sys2Proof.Machine.execStorOpen port ctx connect nsOk lba blocks now s
  | .storClose port session now => Sys2Proof.Machine.execStorClose port session now s
  | .keepAliveTimer session ok now => Sys2Proof.Machine.execKeepAliveTimer session ok now s
  | .nvmeCompletion session rkey ok cyc now => Sys2Proof.Machine.execNvmeCompletion session rkey ok cyc now s
  | .nvmeIoTimeout rkey now => Sys2Proof.Machine.execNvmeIoTimeout rkey now s
  | .storageRead trk now => Sys2Proof.Machine.execStorageRead trk now s
  | .storageWrite trk now => Sys2Proof.Machine.execStorageWrite trk now s
  | .storageFlush trk now => Sys2Proof.Machine.execStorageFlush trk now s
  | .rdmaRead session rkey off len now => Sys2Proof.Machine.execRdmaRead session rkey off len now s
  | .rdmaWrite session rkey off bytes now => Sys2Proof.Machine.execRdmaWrite session rkey off bytes now s
  | .sendWithInvalidate session rkey ok cyc now => Sys2Proof.Machine.execSendWithInvalidate session rkey ok cyc now s
  | .ethernetFrame port len tags fragment => Sys2Proof.Machine.execEthernetFrame port len tags fragment s
  | .capture trk now => Sys2Proof.Machine.execCapture trk now s
  | .copyout trk now => Sys2Proof.Machine.execCopyout trk now s
  | .restore trk now => Sys2Proof.Machine.execRestore trk now s
  | .ckptTimerFire fence now => Sys2Proof.Machine.execCkptTimerFire fence now s
  | .ckptTmsWrite port fence value now => Sys2Proof.Machine.execCkptTmsWrite port fence value now s
  | .secMbGo port value now => Sys2Proof.Machine.execSecMbGo port value now s
  | .getNonce now => Sys2Proof.Machine.execGetNonce now s
  | .keyCreate now => Sys2Proof.Machine.execKeyCreate now s
  | .keyRevoke now => Sys2Proof.Machine.execKeyRevoke now s
  | .authorise now => Sys2Proof.Machine.execAuthorise now s
  | .keyPolicy slot owner limit now => Sys2Proof.Machine.execKeyPolicy slot owner limit now s
  | .pairLink lport slot pairing peerPairing peerSerial now => Sys2Proof.Machine.execPairLink lport slot pairing peerPairing peerSerial now s
  | .pairLinkTimeout lport pairing now => Sys2Proof.Machine.execPairLinkTimeout lport pairing now s
  | .approve owner measure ecSig pqSig now => Sys2Proof.Machine.execApprove owner measure ecSig pqSig now s
  | .releasePolicy now => Sys2Proof.Machine.execReleasePolicy now s
  | .attest nonce now => Sys2Proof.Machine.execAttest nonce now s
  | .ownerAdd owner ec pq now => Sys2Proof.Machine.execOwnerAdd owner ec pq now s
  | .ownerRemove owner now => Sys2Proof.Machine.execOwnerRemove owner now s
  | .consent flags now => Sys2Proof.Machine.execConsent flags now s
  | .rtpWatchdog core dur now => Sys2Proof.Machine.execRtpWatchdog core dur now s
  | .deckDerive slot now => Sys2Proof.Machine.execDeckDerive slot now s
  | .keyDeliver session slot secret now => Sys2Proof.Machine.execKeyDeliver session slot secret now s
  | .keyDeliverTimeout slot now => Sys2Proof.Machine.execKeyDeliverTimeout slot now s
  | .kemEncap session ct now => Sys2Proof.Machine.execKemEncap session ct now s
  | .spdmReport mctp session nonce now => Sys2Proof.Machine.execSpdmReport mctp session nonce now s
  | .pqCert mctp session now => Sys2Proof.Machine.execPqCert mctp session now s
  | .getVersion mctp now => Sys2Proof.Machine.execGetVersion mctp now s
  | .negotiateAlgorithms mctp version baseAsym reqAsym baseHash dhe aead measHash now => Sys2Proof.Machine.execNegotiateAlgorithms mctp version baseAsym reqAsym baseHash dhe aead measHash now s
  | .keyExchange mctp version slot len peer now => Sys2Proof.Machine.execKeyExchange mctp version slot len peer now s
  | .spdmFinish session good leaf now => Sys2Proof.Machine.execSpdmFinish session good leaf now s
  | .getMeasurements mctp version len session index nonce now => Sys2Proof.Machine.execGetMeasurements mctp version len session index nonce now s
  | .tamperTrip source bclk now => Sys2Proof.Machine.execTamperTrip source bclk now s
  | .entropyHealthFail startup now => Sys2Proof.Machine.execEntropyHealthFail startup now s
  | .keysZeroize port value now => Sys2Proof.Machine.execKeysZeroize port value now s
  | .ciphuTail port hoop value now => Sys2Proof.Machine.execCiphuTail port hoop value now s
  | .gcmEnc hoop own lender stall now => Sys2Proof.Machine.execGcmEnc hoop own lender stall now s
  | .gcmDec hoop own lender stall now => Sys2Proof.Machine.execGcmDec hoop own lender stall now s
  | .sha384 hoop own lender stall now => Sys2Proof.Machine.execSha384 hoop own lender stall now s
  | .hmac384 hoop own lender stall now => Sys2Proof.Machine.execHmac384 hoop own lender stall now s
  | .lcToTestUnlocked port vbat fuseBad lost now => Sys2Proof.Machine.execLcToTestUnlocked port vbat fuseBad lost now s
  | .lcToTestLocked port vbat fuseBad lost now => Sys2Proof.Machine.execLcToTestLocked port vbat fuseBad lost now s
  | .lcToManufactured port vbat fuseBad lost now => Sys2Proof.Machine.execLcToManufactured port vbat fuseBad lost now s
  | .lcToSecured port vbat fuseBad lost now => Sys2Proof.Machine.execLcToSecured port vbat fuseBad lost now s
  | .lcToRma port vbat fuseBad lost now => Sys2Proof.Machine.execLcToRma port vbat fuseBad lost now s
  | .lcToScrapped port vbat fuseBad lost now => Sys2Proof.Machine.execLcToScrapped port vbat fuseBad lost now s
  | .dbgEnable port ctx now => Sys2Proof.Machine.execDbgEnable port ctx now s
  | .dbgChallenge port now => Sys2Proof.Machine.execDbgChallenge port now s
  | .dbgResponse port ctx now => Sys2Proof.Machine.execDbgResponse port ctx now s
  | .dbgRevoke port now => Sys2Proof.Machine.execDbgRevoke port now s
  | .dbgHalt port ctx tile now => Sys2Proof.Machine.execDbgHalt port ctx tile now s
  | .dbgResume port ctx tile now => Sys2Proof.Machine.execDbgResume port ctx tile now s
  | .engineWatchdog kind unit ctx now => Sys2Proof.Machine.execEngineWatchdog kind unit ctx now s
  | .queueWatchdog trk now => Sys2Proof.Machine.execQueueWatchdog trk now s
  | .rasHaltReq port value now => Sys2Proof.Machine.execRasHaltReq port value now s
  | .rasHaltStsClear port value => Sys2Proof.Machine.execRasHaltStsClear port value s
  | .haltNLow now => Sys2Proof.Machine.execHaltNLow now s
  | .remapTile port tile immediate now => Sys2Proof.Machine.execRemapTile port tile immediate now s
  | .remapCancel port tile now => Sys2Proof.Machine.execRemapCancel port tile now s
  | .tileRemapExecute tile now => Sys2Proof.Machine.execTileRemapExecute tile now s
  | .powerOn b now => Sys2Proof.Machine.execPowerOn b now s
  | .sysRstNRelease b now => Sys2Proof.Machine.execSysRstNRelease b now s
  | .sysRstNAssert now => Sys2Proof.Machine.execSysRstNAssert now s
  | .powerGoodLoss rail now => Sys2Proof.Machine.execPowerGoodLoss rail now s
  | .pgRise rails now => Sys2Proof.Machine.execPgRise rails now s
  | .perstNAssert now => Sys2Proof.Machine.execPerstNAssert now s
  | .perstNRelease b now => Sys2Proof.Machine.execPerstNRelease b now s
  | .bootCtlWarm port b now => Sys2Proof.Machine.execBootCtlWarm port b now s
  | .clearSeries port b now => Sys2Proof.Machine.execClearSeries port b now s
  | .bootRetry b now => Sys2Proof.Machine.execBootRetry b now s
  | .bootStepTimeout b now => Sys2Proof.Machine.execBootStepTimeout b now s
  | .bootSvnCommit port value lost now => Sys2Proof.Machine.execBootSvnCommit port value lost now s
  | .flashErase port now => Sys2Proof.Machine.execFlashErase port now s
  | .flashProgram port now => Sys2Proof.Machine.execFlashProgram port now s
  | .flashRead port now => Sys2Proof.Machine.execFlashRead port now s
  | .flashBusyTimeout port op now => Sys2Proof.Machine.execFlashBusyTimeout port op now s
  | .peerResetEntry crossing side drops now => Sys2Proof.Machine.execPeerResetEntry crossing side drops now s
  | .crossingReopen crossing side now => Sys2Proof.Machine.execCrossingReopen crossing side now s
  | .avsUpdate target retries failed now => Sys2Proof.Machine.execAvsUpdate target retries failed now s
  | .icoreRead amps now => Sys2Proof.Machine.execIcoreRead amps now s
  | .mctpMessage msg won now => Sys2Proof.Machine.execMctpMessage msg won now s
  | .mctpSendTimeout now => Sys2Proof.Machine.execMctpSendTimeout now s
  | .testLctlWrite port value now => Sys2Proof.Machine.execTestLctlWrite port value now s
  | .testLselWrite port value now => Sys2Proof.Machine.execTestLselWrite port value now s
  | .mbistTile port tile units rows crock arrays now => Sys2Proof.Machine.execMbistTile port tile units rows crock arrays now s
  | .hbmTest port stack hard pass lanes rows now => Sys2Proof.Machine.execHbmTest port stack hard pass lanes rows now s
  | .tapReset => Sys2Proof.Machine.execTapReset s
  | .extest cells => Sys2Proof.Machine.execExtest cells s
  | .tapClamp => Sys2Proof.Machine.execTapClamp s
  | .highz => Sys2Proof.Machine.execHighz s
  | .samplePreload lands preload => Sys2Proof.Machine.execSamplePreload lands preload s
  | .idcode => Sys2Proof.Machine.execIdcode s
  | .bypass => Sys2Proof.Machine.execBypass s
  | .regacc => Sys2Proof.Machine.execRegacc s
  | .dbgcert bytes now => Sys2Proof.Machine.execDbgcert bytes now s
  | .dbgtap => Sys2Proof.Machine.execDbgtap s
  | .pllLockLoss pll now => Sys2Proof.Machine.execPllLockLoss pll now s
  | .alwaysOnResetRelease i3c addr now => Sys2Proof.Machine.execAlwaysOnResetRelease i3c addr now s
  | .vddAonLoss now => Sys2Proof.Machine.execVddAonLoss now s
  | .oscillatorStart applied now => Sys2Proof.Machine.execOscillatorStart applied now s
  | .trainingComplete lport good peer prio peerPort hoplat crc => Sys2Proof.Machine.execTrainingComplete lport good peer prio peerPort hoplat crc s
  | .completionTimeout fetch unit cyc now => Sys2Proof.Machine.execCompletionTimeout fetch unit cyc now s
  | .ethernetLinkUp port rateOk => Sys2Proof.Machine.execEthernetLinkUp port rateOk s
  | .ethernetLinkDown port => Sys2Proof.Machine.execEthernetLinkDown port s
  | .seqHoldRelease now => Sys2Proof.Machine.execSeqHoldRelease now s
  | .checkerLock kind lport lane errs bits => Sys2Proof.Machine.execCheckerLock kind lport lane errs bits s
  | .checkerLossOfLock kind lport lane errs bits => Sys2Proof.Machine.execCheckerLossOfLock kind lport lane errs bits s
  | .heartbeatTimeout session now => Sys2Proof.Machine.execHeartbeatTimeout session now s

end Sys2Proof.Machine
end

