-- ==== Sys2Proof/WellFormed.lean ====
section
/-! DEFINITION. Well-formed commands: every operand that names a numbered thing of the device lies in the range the spec gives that thing. A meaning
is total, and answers ill-formed operands too: as a command that names nothing. -/
namespace Sys2Proof

/-- An access port: 64 functions, the RTP, the BMC, JTAG (R474). -/
def portOk (p : Nat) : Bool := decide (p ≤ 0x42)

/-- An instant of the 64-bit fabric time base, ns (R325). -/
def timeOk (t : Nat) : Bool := decide (t < 2 ^ 64)

/-- An in-flight tracker (R268). -/
def trackerOk (t : Nat) : Bool := decide (t < 65536)

/-- A logical tile (R14). -/
def tileOk (t : Nat) : Bool := decide (t < 96)

/-- A slot of a tile (R103). -/
def slotOk (k : Nat) : Bool := decide (k < 16)

/-- An Acaunel port (R337). -/
def linkPortOk (p : Nat) : Bool := decide (p < 16)

/-- A hoop (R304). -/
def hoopOk (h : Nat) : Bool := decide (h < 16)

/-- A context (R261). -/
def ctxOk (c : Nat) : Bool := decide (c < 4096)

/-- A PCIe function (R254). -/
def funcOk (f : Nat) : Bool := decide (f < 64)

/-- A page of BAR0 (R475). -/
def pageOk (p : Nat) : Bool := decide (p < 1024)

/-- A byte offset in a page of 64 KiB (R475). -/
def offOk (o : Nat) : Bool := decide (o < 65536)

/-- A register word (R4). -/
def wordOk (w : Nat) : Bool := decide (w < 2 ^ 32)

/-- A darner (R191). -/
def darnerOk (n : Nat) : Bool := decide (n < 8)

/-- A DMA channel (R233). -/
def channelOk (n : Nat) : Bool := decide (n < 16)

/-- A crossing (R490). -/
def crossingOk (x : Nat) : Bool := decide (x < 145)

/-- A cellar stack (R233). -/
def stackOk (k : Nat) : Bool := decide (k < 8)

/-- An Ethernet port (R360). -/
def ethOk (p : Nat) : Bool := decide (p < 2)

/-- A group slot of the shuttle (R339). -/
def groupOk (g : Nat) : Bool := decide (g < 256)

/-- The command is well formed. -/
def Instr.wf : Instr → Bool
  | .registerWrite port page off value _ now => portOk port && pageOk page && offOk off && wordOk value && timeOk now
  | .widthErrorAccess port page off _ value now => portOk port && pageOk page && offOk off && wordOk value && timeOk now
  | .rcRead port page off now => portOk port && pageOk page && offOk off && timeOk now
  | .lowWordRead port page off now => portOk port && pageOk page && offOk off && timeOk now
  | .highWordCommit port page off value _ now => portOk port && pageOk page && offOk off && wordOk value && timeOk now
  | .selectWrite port page off value now => portOk port && pageOk page && offOk off && wordOk value && timeOk now
  | .softReset port page now => portOk port && pageOk page && timeOk now
  | .blkLock port page now => portOk port && pageOk page && timeOk now
  | .blkIntSet port page value now => portOk port && pageOk page && wordOk value && timeOk now
  | .nop tile slot => tileOk tile && slotOk slot
  | .setx tile slot => tileOk tile && slotOk slot
  | .addx tile slot => tileOk tile && slotOk slot
  | .loopIns tile slot => tileOk tile && slotOk slot
  | .fence tile slot => tileOk tile && slotOk slot
  | .tileEnd tile slot => tileOk tile && slotOk slot
  | .mma tile slot _ _ => tileOk tile && slotOk slot
  | .mmg tile slot _ _ => tileOk tile && slotOk slot
  | .knot tile slot _ => tileOk tile && slotOk slot
  | .stch tile slot _ => tileOk tile && slotOk slot
  | .attf tile slot _ _ => tileOk tile && slotOk slot
  | .attb tile slot _ _ => tileOk tile && slotOk slot
  | .ld tile slot _ => tileOk tile && slotOk slot
  | .st tile slot _ => tileOk tile && slotOk slot
  | .mov tile slot _ => tileOk tile && slotOk slot
  | .ldq tile slot _ => tileOk tile && slotOk slot
  | .wld tile slot _ => tileOk tile && slotOk slot
  | .send tile slot _ => tileOk tile && slotOk slot
  | .recv tile slot _ => tileOk tile && slotOk slot
  | .rel tile slot => tileOk tile && slotOk slot
  | .vew tile slot _ => tileOk tile && slotOk slot
  | .vred tile slot _ => tileOk tile && slotOk slot
  | .vstat tile slot _ => tileOk tile && slotOk slot
  | .instructionRetire tile slot _ _ _ _ _ _ => tileOk tile && slotOk slot
  | .handoffUnpark tile slot => tileOk tile && slotOk slot
  | .tileHealthWindow tile => tileOk tile
  | .doorbellRing fn _ off _ _ now => funcOk fn && offOk off && timeOk now
  | .doorbellPush fn _ off _ now => funcOk fn && offOk off && timeOk now
  | .descriptorDecision _ now => timeOk now
  | .commandRelease trk now => trackerOk trk && timeOk now
  | .cacheFillDone _ now => timeOk now
  | .commandComplete trk now => trackerOk trk && timeOk now
  | .execCmd trk now => trackerOk trk && timeOk now
  | .loadCmd trk _ now => trackerOk trk && timeOk now
  | .unloadCmd trk now => trackerOk trk && timeOk now
  | .signalCmd trk now => trackerOk trk && timeOk now
  | .ctxCreate port now => portOk port && timeOk now
  | .ctxDestroy port now => portOk port && timeOk now
  | .ctxReset port now => portOk port && timeOk now
  | .setWindow port now => portOk port && timeOk now
  | .bindFence port now => portOk port && timeOk now
  | .unbindFence port now => portOk port && timeOk now
  | .fabricDrainEnd ctx now => ctxOk ctx && timeOk now
  | .queCreate port now => portOk port && timeOk now
  | .queDestroy port now => portOk port && timeOk now
  | .evtCreate port _ ctx now => portOk port && ctxOk ctx && timeOk now
  | .evtDestroy port now => portOk port && timeOk now
  | .evtSigHi port hi now => portOk port && wordOk hi && timeOk now
  | .aperCtxWrite port value now => portOk port && wordOk value && timeOk now
  | .bar4Read fn _ _ now => funcOk fn && timeOk now
  | .bar4Write fn _ _ now => funcOk fn && timeOk now
  | .flrVf fn now => funcOk fn && timeOk now
  | .flrPf now => timeOk now
  | .vfEnableClear _ _ now => timeOk now
  | .d3hotEntry fn now => funcOk fn && timeOk now
  | .ideIntegrityFailure _ now => timeOk now
  | .stopInterface fn now => funcOk fn && timeOk now
  | .doeObject _ _ now => timeOk now
  | .foldCmd trk now => trackerOk trk && timeOk now
  | .scanCmd trk now => trackerOk trk && timeOk now
  | .stepCmd trk now => trackerOk trk && timeOk now
  | .darnerStripCommit trk _ _ now => trackerOk trk && timeOk now
  | .darnerSramUe darner => darnerOk darner
  | .lstCtlWrite port value _ now => portOk port && wordOk value && timeOk now
  | .cacheRegister trk now => trackerOk trk && timeOk now
  | .cacheDrop trk now => trackerOk trk && timeOk now
  | .cachePin trk now => trackerOk trk && timeOk now
  | .cacheUnpin trk now => trackerOk trk && timeOk now
  | .cachePrefetch trk now => trackerOk trk && timeOk now
  | .mmuGrant trk now => trackerOk trk && timeOk now
  | .mmuReclaim trk now => trackerOk trk && timeOk now
  | .mmuMap trk now => trackerOk trk && timeOk now
  | .mmuUnmap trk now => trackerOk trk && timeOk now
  | .mmuProtect trk now => trackerOk trk && timeOk now
  | .mmuInvalidationDone trk now => trackerOk trk && timeOk now
  | .mmuDeferredProceed trk now => trackerOk trk && timeOk now
  | .mmuFRespResume port now => portOk port && timeOk now
  | .mmuFRespAbort port now => portOk port && timeOk now
  | .faultAnswerTimeout ctx _ now => ctxOk ctx && timeOk now
  | .dmaCopy trk now => trackerOk trk && timeOk now
  | .dmaTranspose trk now => trackerOk trk && timeOk now
  | .dmaFill trk now => trackerOk trk && timeOk now
  | .dmaSegmentComplete chan _ _ _ now => channelOk chan && timeOk now
  | .cellarRead _ _ now => timeOk now
  | .cellarWrite _ _ _ now => timeOk now
  | .cellarPartialWrite _ _ _ now => timeOk now
  | .rekeySweepComplete _ now => timeOk now
  | .scrubAfterDrain _ now => timeOk now
  | .pageRetireCopy _ _ now => timeOk now
  | .requestDrop ctx _ _ _ _ now => ctxOk ctx && timeOk now
  | .hoopCreate port hoop now => portOk port && hoopOk hoop && timeOk now
  | .hoopApply port hoop now => portOk port && hoopOk hoop && timeOk now
  | .hoopExclusive port hoop now => portOk port && hoopOk hoop && timeOk now
  | .hoopInterleave port hoop now => portOk port && hoopOk hoop && timeOk now
  | .hoopReset port hoop now => portOk port && hoopOk hoop && timeOk now
  | .hoopDestroy port hoop now => portOk port && hoopOk hoop && timeOk now
  | .hoopSeal port hoop now => portOk port && hoopOk hoop && timeOk now
  | .hoopUnseal port hoop now => portOk port && hoopOk hoop && timeOk now
  | .deadlinePassed trk now => trackerOk trk && timeOk now
  | .replayLimit trk now => trackerOk trk && timeOk now
  | .exclusiveSwitchTimeout tile _ now => tileOk tile && timeOk now
  | .thermalIntervalEnd now => timeOk now
  | .sensorSample _ _ now => timeOk now
  | .thermalRelease now => timeOk now
  | .alnkEnable port lport => portOk port && linkPortOk lport
  | .portPeerDetect lport => linkPortOk lport
  | .trainingTimeout lport => linkPortOk lport
  | .laneBad lport _ => linkPortOk lport
  | .alnkRetrain port lport => portOk port && linkPortOk lport
  | .flitReceive lport _ _ _ => linkPortOk lport
  | .flitReplayTimeout lport => linkPortOk lport
  | .retryBufferStall lport => linkPortOk lport
  | .creditWatchdog lport _ _ now => linkPortOk lport && timeOk now
  | .vcApply port lport => portOk port && linkPortOk lport
  | .shareSwapTimeout lport => linkPortOk lport
  | .linkRecordReceive lport _ _ _ now => linkPortOk lport && timeOk now
  | .sync lport _ _ _ _ _ _ => linkPortOk lport
  | .syncTimer lport now => linkPortOk lport && timeOk now
  | .announce lport _ _ _ now => linkPortOk lport && timeOk now
  | .announceTimer lport now => linkPortOk lport && timeOk now
  | .grandmasterTimeout now => timeOk now
  | .topoChange lport _ _ => linkPortOk lport
  | .probe lport _ _ _ _ _ _ => linkPortOk lport
  | .probeReply lport _ _ _ _ _ _ _ _ => linkPortOk lport
  | .fabProbeStart port value now => portOk port && wordOk value && timeOk now
  | .probeTimeout _ now => timeOk now
  | .fabPublish port _ => portOk port
  | .picotTimeLoad port => portOk port
  | .unpair lport _ _ => linkPortOk lport
  | .keyx lport _ now => linkPortOk lport && timeOk now
  | .shareSwap lport _ _ => linkPortOk lport
  | .guardNotice lport _ _ => linkPortOk lport
  | .driftNotice lport _ => linkPortOk lport
  | .picotState lport _ => linkPortOk lport
  | .picotSlotLaunch lport _ now => linkPortOk lport && timeOk now
  | .picotFrameReceive lport _ _ _ now => linkPortOk lport && timeOk now
  | .picotResume port lport => portOk port && linkPortOk lport
  | .picotSwapArm port now => portOk port && timeOk now
  | .picotScheduleSwap now => timeOk now
  | .linkHealthWindow lport _ => linkPortOk lport
  | .shutCreate port now => portOk port && timeOk now
  | .shutDestroy port group now => portOk port && groupOk group && timeOk now
  | .shutFence port group now => portOk port && groupOk group && timeOk now
  | .shutGLease port now => portOk port && timeOk now
  | .leaseExpiry group now => groupOk group && timeOk now
  | .allreduce trk now => trackerOk trk && timeOk now
  | .allreducePair trk now => trackerOk trk && timeOk now
  | .reduceScatter trk now => trackerOk trk && timeOk now
  | .allgather trk now => trackerOk trk && timeOk now
  | .broadcast trk now => trackerOk trk && timeOk now
  | .picotAllreduce trk now => trackerOk trk && timeOk now
  | .xsend trk now => trackerOk trk && timeOk now
  | .xrecv trk now => trackerOk trk && timeOk now
  | .groupTimeout group now => groupOk group && timeOk now
  | .collectiveStartTime trk now => trackerOk trk && timeOk now
  | .storOpen port ctx _ _ _ _ now => portOk port && ctxOk ctx && timeOk now
  | .storClose port _ now => portOk port && timeOk now
  | .keepAliveTimer _ _ now => timeOk now
  | .nvmeCompletion _ _ _ _ now => timeOk now
  | .nvmeIoTimeout _ now => timeOk now
  | .storageRead trk now => trackerOk trk && timeOk now
  | .storageWrite trk now => trackerOk trk && timeOk now
  | .storageFlush trk now => trackerOk trk && timeOk now
  | .rdmaRead _ _ off _ now => offOk off && timeOk now
  | .rdmaWrite _ _ off _ now => offOk off && timeOk now
  | .sendWithInvalidate _ _ _ _ now => timeOk now
  | .ethernetFrame port _ _ _ => ethOk port
  | .capture trk now => trackerOk trk && timeOk now
  | .copyout trk now => trackerOk trk && timeOk now
  | .restore trk now => trackerOk trk && timeOk now
  | .ckptTimerFire _ now => timeOk now
  | .ckptTmsWrite port _ value now => portOk port && wordOk value && timeOk now
  | .secMbGo port value now => portOk port && wordOk value && timeOk now
  | .getNonce now => timeOk now
  | .keyCreate now => timeOk now
  | .keyRevoke now => timeOk now
  | .authorise now => timeOk now
  | .keyPolicy _ _ _ now => timeOk now
  | .pairLink lport _ _ _ _ now => linkPortOk lport && timeOk now
  | .pairLinkTimeout lport _ now => linkPortOk lport && timeOk now
  | .approve _ _ _ _ now => timeOk now
  | .releasePolicy now => timeOk now
  | .attest _ now => timeOk now
  | .ownerAdd _ _ _ now => timeOk now
  | .ownerRemove _ now => timeOk now
  | .consent _ now => timeOk now
  | .rtpWatchdog _ _ now => timeOk now
  | .deckDerive _ now => timeOk now
  | .keyDeliver _ _ _ now => timeOk now
  | .keyDeliverTimeout _ now => timeOk now
  | .kemEncap _ _ now => timeOk now
  | .spdmReport _ _ _ now => timeOk now
  | .pqCert _ _ now => timeOk now
  | .getVersion _ now => timeOk now
  | .negotiateAlgorithms _ _ _ _ _ _ _ _ now => timeOk now
  | .keyExchange _ _ _ _ _ now => timeOk now
  | .spdmFinish _ _ _ now => timeOk now
  | .getMeasurements _ _ _ _ _ _ now => timeOk now
  | .tamperTrip _ _ now => timeOk now
  | .entropyHealthFail _ now => timeOk now
  | .keysZeroize port value now => portOk port && wordOk value && timeOk now
  | .ciphuTail port hoop value now => portOk port && hoopOk hoop && wordOk value && timeOk now
  | .gcmEnc hoop _ _ _ now => hoopOk hoop && timeOk now
  | .gcmDec hoop _ _ _ now => hoopOk hoop && timeOk now
  | .sha384 hoop _ _ _ now => hoopOk hoop && timeOk now
  | .hmac384 hoop _ _ _ now => hoopOk hoop && timeOk now
  | .lcToTestUnlocked port _ _ _ now => portOk port && timeOk now
  | .lcToTestLocked port _ _ _ now => portOk port && timeOk now
  | .lcToManufactured port _ _ _ now => portOk port && timeOk now
  | .lcToSecured port _ _ _ now => portOk port && timeOk now
  | .lcToRma port _ _ _ now => portOk port && timeOk now
  | .lcToScrapped port _ _ _ now => portOk port && timeOk now
  | .dbgEnable port ctx now => portOk port && ctxOk ctx && timeOk now
  | .dbgChallenge port now => portOk port && timeOk now
  | .dbgResponse port ctx now => portOk port && ctxOk ctx && timeOk now
  | .dbgRevoke port now => portOk port && timeOk now
  | .dbgHalt port ctx tile now => portOk port && ctxOk ctx && tileOk tile && timeOk now
  | .dbgResume port ctx tile now => portOk port && ctxOk ctx && tileOk tile && timeOk now
  | .engineWatchdog _ _ ctx now => ctxOk ctx && timeOk now
  | .queueWatchdog trk now => trackerOk trk && timeOk now
  | .rasHaltReq port value now => portOk port && wordOk value && timeOk now
  | .rasHaltStsClear port value => portOk port && wordOk value
  | .haltNLow now => timeOk now
  | .remapTile port tile _ now => portOk port && tileOk tile && timeOk now
  | .remapCancel port tile now => portOk port && tileOk tile && timeOk now
  | .tileRemapExecute tile now => tileOk tile && timeOk now
  | .powerOn _ now => timeOk now
  | .sysRstNRelease _ now => timeOk now
  | .sysRstNAssert now => timeOk now
  | .powerGoodLoss _ now => timeOk now
  | .pgRise _ now => timeOk now
  | .perstNAssert now => timeOk now
  | .perstNRelease _ now => timeOk now
  | .bootCtlWarm port _ now => portOk port && timeOk now
  | .clearSeries port _ now => portOk port && timeOk now
  | .bootRetry _ now => timeOk now
  | .bootStepTimeout _ now => timeOk now
  | .bootSvnCommit port value _ now => portOk port && wordOk value && timeOk now
  | .flashErase port now => portOk port && timeOk now
  | .flashProgram port now => portOk port && timeOk now
  | .flashRead port now => portOk port && timeOk now
  | .flashBusyTimeout port _ now => portOk port && timeOk now
  | .peerResetEntry crossing _ _ now => crossingOk crossing && timeOk now
  | .crossingReopen crossing _ now => crossingOk crossing && timeOk now
  | .avsUpdate _ _ _ now => timeOk now
  | .icoreRead _ now => timeOk now
  | .mctpMessage _ _ now => timeOk now
  | .mctpSendTimeout now => timeOk now
  | .testLctlWrite port value now => portOk port && wordOk value && timeOk now
  | .testLselWrite port value now => portOk port && wordOk value && timeOk now
  | .mbistTile port tile _ _ _ _ now => portOk port && tileOk tile && timeOk now
  | .hbmTest port stack _ _ _ _ now => portOk port && stackOk stack && timeOk now
  | .tapReset => true
  | .extest _ => true
  | .tapClamp => true
  | .highz => true
  | .samplePreload _ _ => true
  | .idcode => true
  | .bypass => true
  | .regacc => true
  | .dbgcert _ now => timeOk now
  | .dbgtap => true
  | .pllLockLoss _ now => timeOk now
  | .alwaysOnResetRelease _ _ now => timeOk now
  | .vddAonLoss now => timeOk now
  | .oscillatorStart _ now => timeOk now
  | .trainingComplete lport _ _ _ _ _ _ => linkPortOk lport
  | .completionTimeout _ _ _ now => timeOk now
  | .ethernetLinkUp port _ => ethOk port
  | .ethernetLinkDown port => ethOk port
  | .seqHoldRelease now => timeOk now
  | .checkerLock _ lport _ _ _ => linkPortOk lport
  | .checkerLossOfLock _ lport _ _ _ => linkPortOk lport
  | .heartbeatTimeout _ now => timeOk now

end Sys2Proof
end

