-- ==== Sys2Proof/Safety.lean ====
section
/-! DEFINITION. The terms that statements use: what a command answers, a run that never stops, the canonical form of the memories. -/
namespace Sys2Proof.Machine

/-- The command completes: it answers a next state, and the device of that state is as `P` says, while the queue and the fuses are as before. -/
def Does (i : Instr) (s : State) (P : Dev → Prop) : Prop := ∃ d : Dev, exec i s = .next { s with dev := d } ∧ P d

/-- The first `n` steps from a state all answer a next state. -/
def runsFor : Nat → State → Bool
  | 0, _ => true
  | n + 1, s =>
    match step s with
    | .next s' => runsFor n s'
    | .fault _ => false
    | .refused _ => false

/-- Every memory of the device and its register file are in canonical form: keys rising, no entry equal to what an unlisted address reads as. -/
def Dev.memsWf (d : Dev) : Bool :=
  memWf d.cellar && memWf d.hostMem && memWf d.pantry && tabWf erasedByte d.flash && tabWf regDflt d.regs

end Sys2Proof.Machine
end

