-- ==== Sys2Proof/Certificates/Slice0/Obligations.lean ====
section
/-! DEFINITION. The statements for the provers, from the spec's numbered rules. `Does i s P` says that command `i` completes: it answers a next state
whose queue and fuses are those of `s` and whose device satisfies `P`. -/
namespace Sys2Proof.Machine

/-- The core runs: step `READY` is done, the always-on domain runs, PCIe is up, and the device is not halted. -/
def Up (s : State) : Prop := s.dev.aon.aonUp = true ∧ s.dev.aon.ready = true ∧ s.dev.aon.pcieUp = true ∧ s.dev.aon.halted = false

/-- The memories are as before: cellar, host memory, pantries, flash. -/
def SameMem (d e : Dev) : Prop := e.cellar = d.cellar ∧ e.hostMem = d.hostMem ∧ e.pantry = d.pantry ∧ e.flash = d.flash

/-- The objects of the host interface are as before: contexts, queues, events, hoops, key slots, trackers. -/
def SameObjects (d e : Dev) : Prop :=
  e.ctxs = d.ctxs ∧ e.queues = d.queues ∧ e.events = d.events ∧ e.hoops = d.hoops ∧ e.keys = d.keys ∧ e.cmds = d.cmds

/-- Every register but those whose page, instance and offset satisfy `p` is as before. -/
def SameRegsBut (p : Nat → Nat → Nat → Prop) (d e : Dev) : Prop :=
  ∀ page i off, i < 0x100000 → off < 0x10000 → ¬ p page i off → e.reg page i off = d.reg page i off

/-- An entry stands in a page's log of a bank where the log's head pointed, the head has moved by one, and `ERRLOG_NEW` is set (R477, R479). -/
def Logged (page port : Nat) (x : Nat × Nat) (d e : Dev) : Prop :=
  let h := d.bankN page port 0x0080
  e.bankN page port (0x0040 + 8 * (h % 8)) = x.1 ∧ e.bankN page port (0x0044 + 8 * (h % 8)) = x.2 ∧
  e.bankN page port 0x0080 = (h % 8 + 1) % 8 + (h / 256 + 1) % 2 ^ 24 * 256 ∧ bit (e.bankN page port 0x0014) 3 = true

/-- Offsets that an error-log entry of a page touches in a bank. -/
def logOff (off : Nat) : Prop := off = 0x0014 ∨ (0x0040 ≤ off ∧ off ≤ 0x0080)

/-- A port other than JTAG writes a page that serves it whole: not HOOPV or CIPHU, not one that answers other ports only, and not BOOT or LC, whose
writers R436 and R473 name. -/
def Served (port page : Nat) : Prop :=
  port ≤ 0x41 ∧ page < 0x100 ∧ pageInUse page = true ∧ (page < 0x060 ∨ 0x070 ≤ page) ∧ (ctlPage page = true → ctlPort port = true) ∧
  page ≠ pgBoot ∧ page ≠ pgLc

/-- Nothing outside the tiles and the pantries has changed. -/
def TilesOnly (d e : Dev) : Prop :=
  e.regs = d.regs ∧ e.cellar = d.cellar ∧ e.hostMem = d.hostMem ∧ e.flash = d.flash ∧ SameObjects d e ∧ e.out = d.out

/-- Every slot but slot `k` of tile `t` is as before. -/
def SameSlotsBut (t k : Nat) (d e : Dev) : Prop := ∀ t' k', ¬ (t' = t ∧ k' = k) → e.slot t' k' = d.slot t' k'

/-- The instruction at the PC of slot `k` is of opcode `op`, may issue now (R112, R113, R121, R287) and finds no fault at issue (R118). -/
def Issues (d : Dev) (t k op : Nat) : Prop := d.canIssue t k op = true ∧ d.issueCheck t k = none

/-- A lane instruction has issued with count `n`: the PC is at the next instruction in program order, the token it releases later is taken, the
instruction is the last in flight, the registers are as before, and so is every other slot (R112, R116). -/
def LaneIssued (t k n : Nat) (d e : Dev) : Prop :=
  let w := d.word t k
  let sl := d.slot t k
  let x := e.slot t k
  x.pc = sl.advance.pc ∧ x.loops = sl.advance.loops ∧ x.xs = sl.xs ∧ x.running = sl.running ∧
  (∃ f, x.flight = sl.flight ++ [f] ∧ f.lane = iLane w ∧ f.word = w ∧ f.pc = sl.pc ∧ f.tset = iTset w ∧ f.count = n) ∧
  x.tokens = (match iTset w with
    | some j => sl.tokens &&& (0xFF ^^^ 2 ^ j)
    | none => sl.tokens) ∧
  SameSlotsBut t k d e

/-- A slot that has issued a sequencer instruction: `x` is the slot after it; one nominal cycle is counted (R101, R112), nothing else. -/
def SeqIssued (t k : Nat) (x : Slot) (d e : Dev) : Prop :=
  e.slot t k = x ∧ SameSlotsBut t k d e ∧ e.reg64 pgTile t 0x0180 = (d.reg64 pgTile t 0x0180 + 1) % 2 ^ 64 ∧
  SameRegsBut (fun p i o => p = pgTile ∧ i = t ∧ (o = 0x0180 ∨ o = 0x0184 ∨ o = 0x01A4)) d e ∧ SameMem d e

/-- A shelf offset lies in one of some byte strings, or in one of some spans. -/
def inLines (l : List (Int × List Byte)) (off : Nat) : Prop := ∃ x ∈ l, x.1.toNat ≤ off ∧ off < x.1.toNat + x.2.length
def inSpans (l : List (Int × Nat)) (off : Nat) : Prop := ∃ x ∈ l, x.1.toNat ≤ off ∧ off < x.1.toNat + x.2

/-- Every pantry byte but those at offsets `p` of a shelf is as before. -/
def SameShelfBut (t : Nat) (sl : Slot) (p : Nat → Prop) (d e : Dev) : Prop :=
  ∀ a, (∀ off, p off → a ≠ shelfPa t sl off) → memGet e.pantry a = memGet d.pantry a

/-- An operation register of a port's bank has ended with a status: the operation register keeps its code, `BUSY` is clear (R261). -/
def OpDone (page port opOff stsOff code : Nat) (st : Status) (e : Dev) : Prop :=
  e.bankN page port opOff = code ∧ e.bankN page port stsOff = st.code

/-- An operation that failed: its status, and nothing else of the device has changed but the two registers (R261). -/
def OpFailed (page port opOff stsOff code : Nat) (st : Status) (d e : Dev) : Prop :=
  OpDone page port opOff stsOff code st e ∧
  SameRegsBut (fun p i o => p = page ∧ i = bank port ∧ (o = opOff ∨ o = stsOff)) d e ∧ SameMem d e ∧ SameObjects d e ∧ e.out = d.out

/-- Number `n` is the lowest below `bound` that satisfies `p`. -/
def IsLowest (n bound : Nat) (p : Nat → Prop) : Prop := n < bound ∧ p n ∧ ∀ m, m < n → ¬ p m

end Sys2Proof.Machine

open Sys2Proof Sys2Proof.Machine


/-! ### The queue and the register bus (chapters 0 and 21) -/

/-- A step takes the command at the front of the queue and runs it on the state with the queue's rest. -/
def Obligations.StepRunsTheFront : Prop :=
  ∀ (s : State) (c : Instr) (rest : List Instr), s.pending = c :: rest → step s = exec c { s with pending := rest }

/-- After reset: registers at their Reset column (the energy coefficients of SCHED, the crossing identities of CLK and the identities of the common layout
are per device or per page, and are not spoken of here), objects free. -/
def Obligations.ResetLeaves : Prop :=
  (∀ page i off r, regDef page off = some r → 0x0010 ≤ off → off ≠ 0x0034 → page ≠ pgSched → page ≠ pgClk → i < 0x100000 →
    State.reset.dev.reg page i off = BitVec.ofNat 32 r.reset) ∧
  (∀ n, (State.reset.dev.ctx n).state = .free ∧ (State.reset.dev.key n).state = .empty ∧ (State.reset.dev.hoop n).state = .free ∧
    (State.reset.dev.queue n).valid = false ∧ (State.reset.dev.evt n).valid = false ∧ (State.reset.dev.cmd n).live = false) ∧
  State.reset.pending = []

/-- R5: read zero, write discarded, an entry in the DEV page's log; the count of R494 rises by one. -/
def Obligations.WidthErrorIsRefused : Prop :=
  ∀ (s : State) (port page off v now : Nat) (write : Bool), Up s → port ≤ 0x41 →
    Does (.widthErrorAccess port page off write v now) s (fun d =>
      Logged pgDev port (errEntry page off .width port (if write then v else 0)) s.dev d ∧
      d.regN pgDev 0 0x100C = min (s.dev.regN pgDev 0 0x100C + 1) 0xFFFFFFFF ∧
      d.out = (if write then s.dev.out else .readData port page off 0 :: s.dev.out) ∧
      SameRegsBut (fun p i o => p = pgDev ∧ ((i = bank port ∧ logOff o) ∨ (i = 0 ∧ o = 0x100C))) s.dev d ∧
      SameMem s.dev d ∧ SameObjects s.dev d)

/-- R480: the select register of the writer's bank alone, kept as written, with one entry when it is out of range. -/
def Obligations.SelectWriteIsBanked : Prop :=
  ∀ (s : State) (port page v now : Nat), Up s → Served port page → v < 2 ^ 32 →
    Does (.selectWrite port page 0x0030 v now) s (fun d =>
      d.bankN page port 0x0030 = v ∧
      (pageSelMax page < v → Logged page port (errEntry page 0x0030 .selRange port v) s.dev d) ∧
      SameRegsBut (fun p i o => p = page ∧ i = bank port ∧ (o = 0x0030 ∨ (pageSelMax page < v ∧ logOff o))) s.dev d ∧
      SameMem s.dev d ∧ SameObjects s.dev d ∧ d.out = s.dev.out)

/-- R480: a write of BLK_SEL reaches the writer's bank only; out of range, the window reads zero and discards writes, and nothing more is logged. -/
def Obligations.OutOfRangeWindowIsDead : Prop :=
  ∀ (s : State) (port page off v now : Nat) (e : WrEnv), Up s → Served port page → isWindow off = true → page ≠ pgCap →
    pageSelMax page < s.dev.bankN page port 0x0030 → (selectOffs page).contains off = false →
    Does (.rcRead port page off now) s (fun d => d.out = .readData port page off 0 :: s.dev.out ∧ SameRegsBut (fun _ _ _ => False) s.dev d) ∧
    Does (.registerWrite port page off v e now) s (fun d => d = s.dev.at now) ∧
    (∀ w, w < 2 ^ 32 → Does (.selectWrite port page 0x0030 w now) s (fun d => d.bankN page port 0x0030 = w ∧
      (pageSelMax page < w → Logged page port (errEntry page 0x0030 .selRange port w) s.dev d) ∧
      ∀ q o, q ≠ port → q < 0x80 → o < 0x10000 → d.bankN page q o = s.dev.bankN page q o))

/-- R478, for the pages that `Served` names. -/
def Obligations.SoftResetAndLock : Prop :=
  ∀ (s : State) (port page now : Nat), Up s → Served port page →
    (port = portPf ∨ port = portRtp →
      Does (.softReset port page now) s (fun d =>
        bit (d.regN page 0 0x0010) 2 = false ∧
        (∀ q o, q ≤ 0x42 → (o = 0x0018 ∨ o = 0x001C ∨ o = 0x0030 ∨ o = 0x0080 ∨ (0x0040 ≤ o ∧ o < 0x0080 ∧ o % 4 = 0) ∨ o ∈ selectOffs page) →
          d.bankN page q o = 0) ∧
        SameRegsBut (fun p i o => p = page ∧ ((i = 0 ∧ o = 0x0010) ∨ o = 0x0018 ∨ o = 0x001C ∨ o = 0x0030 ∨ (0x0040 ≤ o ∧ o ≤ 0x0080) ∨ o ∈ selectOffs page))
          s.dev d ∧
        SameMem s.dev d ∧ SameObjects s.dev d ∧ d.out = s.dev.out) ∧
      Does (.blkLock port page now) s (fun d =>
        bit (d.regN page 0 0x0010) 2 = true ∧ SameRegsBut (fun p i o => p = page ∧ i = 0 ∧ o = 0x0010) s.dev d ∧
        SameMem s.dev d ∧ SameObjects s.dev d ∧ d.out = s.dev.out)) ∧
    (port ≠ portPf → port ≠ portRtp →
      Does (.softReset port page now) s (fun d => Logged page port (errEntry page 0x0010 .port port 2) s.dev d ∧
        SameRegsBut (fun p i o => p = page ∧ i = bank port ∧ logOff o) s.dev d) ∧
      Does (.blkLock port page now) s (fun d => Logged page port (errEntry page 0x0010 .port port 4) s.dev d ∧
        SameRegsBut (fun p i o => p = page ∧ i = bank port ∧ logOff o) s.dev d))

/-- R477 and R480, for a function's port. -/
def Obligations.IntSetRaisesOnce : Prop :=
  ∀ (s : State) (port page v now : Nat), Up s → Served port page → portIsFunc port = true → v < 2 ^ 32 →
    Does (.blkIntSet port page v now) s (fun d =>
      d.bankN page port 0x0018 = s.dev.bankN page port 0x0018 ||| v ∧
      SameRegsBut (fun p i o => p = page ∧ i = bank port ∧ o = 0x0018) s.dev d ∧ SameMem s.dev d ∧ SameObjects s.dev d ∧
      d.out = (if s.dev.intPending port = false ∧ d.intPending port = true then .msix port 0 :: s.dev.out else s.dev.out))

/-- R488, for one read-clear register of each kind of place: a window, a bank, a block-wide register. -/
def Obligations.ReadClears : Prop :=
  ∀ (s : State) (port page off now : Nat) (b : Bool), Up s → Served port page →
    (page, off, b) ∈ [(pgTile, 0x0198, false), (pgDarn, 0x0118, false), (pgQue, 0x0130, false), (pgQue, 0x1028, true), (pgCtx, 0x103C, true),
      (pgMenc, 0x0124, false), (pgRas, 0x0100, false), (pgRas, 0x0110, false), (pgDev, 0x100C, false), (pgAlnk, 0x0148, false), (pgStor, 0x1004, false)] →
    (isWindow off = true → s.dev.bankN page port 0x0030 ≤ pageSelMax page) →
    s.dev.sees port page (s.dev.instOf port page off b) off = .yes → s.dev.reached page (s.dev.instOf port page off b) off = true →
    s.dev.heldPort page (s.dev.instOf port page off b) = false → (page = pgTile → (s.dev.tile (s.dev.instOf port page off b)).out = false) →
    Does (.rcRead port page off now) s (fun d =>
      d.out = .readData port page off (s.dev.reg page (s.dev.instOf port page off b) off) :: s.dev.out ∧
      d.reg page (s.dev.instOf port page off b) off = 0 ∧
      SameRegsBut (fun p i o => p = page ∧ i = s.dev.instOf port page off b ∧ o = off) s.dev d ∧ SameMem s.dev d ∧ SameObjects s.dev d)

/-- R4, R484: the latch of one port and page. `e` is any later device whose latches are those the read left. -/
def Obligations.LowReadLatches : Prop :=
  ∀ (s : State) (port page off now : Nat), Up s → Served port page →
    (page, off) ∈ [(pgTile, 0x0180), (pgTile, 0x0188), (pgTile, 0x0190), (pgDarn, 0x0108), (pgDma, 0x0118), (pgMenc, 0x0104), (pgAlnk, 0x0130), (pgStor, 0x010C)] →
    s.dev.bankN page port 0x0030 ≤ pageSelMax page → s.dev.sees port page (s.dev.bankN page port 0x0030) off = .yes →
    s.dev.reached page (s.dev.bankN page port 0x0030) off = true → s.dev.heldPort page (s.dev.bankN page port 0x0030) = false →
    (page = pgTile → (s.dev.tile (s.dev.bankN page port 0x0030)).out = false) →
    Does (.lowWordRead port page off now) s (fun d =>
      d.out = .readData port page off (s.dev.reg page (s.dev.bankN page port 0x0030) off) :: s.dev.out ∧
      SameRegsBut (fun _ _ _ => False) s.dev d ∧ SameMem s.dev d ∧ SameObjects s.dev d ∧
      ∀ (e : Dev) (now' : Nat), e.latches = d.latches → Up { s with dev := e } → e.bankN page port 0x0030 = s.dev.bankN page port 0x0030 →
        e.sees port page (s.dev.bankN page port 0x0030) (off + 4) = .yes → e.reached page (s.dev.bankN page port 0x0030) (off + 4) = true →
        e.heldPort page (s.dev.bankN page port 0x0030) = false →
        Does (.rcRead port page (off + 4) now') { s with dev := e } (fun g =>
          g.out = .readData port page (off + 4) (s.dev.reg page (s.dev.bankN page port 0x0030) (off + 4)) :: e.out))

/-- R485 to R487, for the counters of TILE, DARN, DMA, MENC, ALNK and STOR; `fo` and `fb` are the page's flag register and its collision bit (R486). -/
def Obligations.HighWriteCommits : Prop :=
  ∀ (s : State) (port page off v now : Nat) (e : WrEnv) (fo fb : Nat), Up s → Served port page → v < 2 ^ 32 →
    (page, off, fo, fb) ∈ [(pgTile, 0x0188, 0x01A4, 3), (pgDarn, 0x0108, 0x011C, 1), (pgDma, 0x0118, 0x0120, 1), (pgMenc, 0x0104, 0x0130, 1),
      (pgAlnk, 0x0130, 0x0128, 1), (pgStor, 0x010C, 0x0118, 1)] →
    let i := s.dev.bankN page port 0x0030
    i ≤ pageSelMax page → s.dev.sees port page i off = .yes → s.dev.sees port page i (off + 4) = .yes →
    s.dev.reached page i off = true → s.dev.reached page i (off + 4) = true → s.dev.heldPort page i = false → (page = pgTile → (s.dev.tile i).out = false) →
    Does (.registerWrite port page off v e now) s (fun d =>
      SameRegsBut (fun _ _ _ => False) s.dev d ∧ tabGet stagedDflt d.stagedWords (stagedKey port page i off) = some (BitVec.ofNat 32 v) ∧ SameMem s.dev d) ∧
    Does (.highWordCommit port page (off + 4) v e now) s (fun d =>
      d.regN page i off = s.dev.stagedOr port page i off ∧ d.regN page i (off + 4) = v ∧
      (e.collide = false → SameRegsBut (fun p j o => p = page ∧ j = i ∧ (o = off ∨ o = off + 4)) s.dev d ∧ d.out = s.dev.out) ∧
      (e.collide = true → bit (d.regN page i fo) fb = true ∧ bit (d.bankN page port 0x0018) 31 = true) ∧
      tabGet stagedDflt d.stagedWords (stagedKey port page i off) = none ∧ SameMem s.dev d ∧ SameObjects s.dev d)

/-- R65 for the NUM page, and the access types of its registers (R7, R64). -/
def Obligations.NumWindowVisibility : Prop :=
  ∀ (s : State) (port v now : Nat) (e : WrEnv), Up s → portIsFunc port = true → v < 2 ^ 32 → s.dev.xOpen 138 = true →
    let i := s.dev.bankN pgNum port 0x0030
    i < 4096 → e.collide = false →
    ((s.dev.sat i).assigned = true → s.dev.seesCtx port (s.dev.sat i).ctx = true →
      Does (.registerWrite port pgNum 0x0100 v e now) s (fun d => d.regN pgNum i 0x0100 = v % 2 ∧
        SameRegsBut (fun p j o => p = pgNum ∧ j = i ∧ o = 0x0100) s.dev d ∧ SameMem s.dev d ∧ SameObjects s.dev d) ∧
      Does (.registerWrite port pgNum 0x011C v e now) s (fun d => d.reg pgNum i 0x011C = s.dev.reg pgNum i 0x011C &&& ~~~ (BitVec.ofNat 32 (v % 32)) ∧
        SameRegsBut (fun p j o => p = pgNum ∧ j = i ∧ o = 0x011C) s.dev d ∧ SameMem s.dev d ∧ SameObjects s.dev d) ∧
      Does (.registerWrite port pgNum 0x0104 v e now) s (fun d => d = s.dev.at now)) ∧
    (((s.dev.sat i).assigned = false ∨ s.dev.seesCtx port (s.dev.sat i).ctx = false) →
      Does (.registerWrite port pgNum 0x0100 v e now) s (fun d => Logged pgNum port (errEntry pgNum 0x0100 .notVisible port v) s.dev d ∧
        SameRegsBut (fun p j o => p = pgNum ∧ j = bank port ∧ logOff o) s.dev d ∧ SameMem s.dev d ∧ SameObjects s.dev d) ∧
      Does (.rcRead port pgNum 0x0108 now) s (fun d => d.out = .readData port pgNum 0x0108 0 :: s.dev.out ∧
        Logged pgNum port (errEntry pgNum 0x0108 .notVisible port 0) s.dev d ∧
        SameRegsBut (fun p j o => p = pgNum ∧ j = bank port ∧ logOff o) s.dev d))

/-- R188; that ownership of `SRC_SAT` matters only with `SRC_EN` set is the model's reading (log entry 68). -/
def Obligations.LstCtlWrite : Prop :=
  ∀ (s : State) (port v now : Nat) (e : WrEnv), Up s → portIsFunc port = true → v < 2 ^ 32 → s.dev.xOpen 138 = true →
    let i := s.dev.bankN pgLst port 0x0030
    i < 16384 → (s.dev.lst i).assigned = true → s.dev.seesCtx port (s.dev.lst i).ctx = true → e.collide = false →
    let src := fld v 19 8
    let clash := bit v 20 = true ∧ ((s.dev.sat src).assigned = false ∨ (s.dev.sat src).ctx ≠ (s.dev.lst i).ctx ∨
      ∃ j x, (j, x) ∈ s.dev.lsts ∧ j ≠ i ∧ x.assigned = true ∧ bit (s.dev.regN pgLst j 0x0100) 20 = true ∧ fld (s.dev.regN pgLst j 0x0100) 19 8 = src)
    (¬ clash → Does (.lstCtlWrite port v e now) s (fun d => d.regN pgLst i 0x0100 = v % 2 ^ 21 ∧
      SameRegsBut (fun p j o => p = pgLst ∧ j = i ∧ o = 0x0100) s.dev d ∧ SameMem s.dev d ∧ SameObjects s.dev d)) ∧
    (clash → Does (.lstCtlWrite port v e now) s (fun d => Logged pgLst port (errEntry pgLst 0x0100 .value port v) s.dev d ∧
      SameRegsBut (fun p j o => p = pgLst ∧ j = bank port ∧ logOff o) s.dev d ∧ SameMem s.dev d ∧ SameObjects s.dev d))

/-- R474, R507, R508: read of `DEV_PORT` as the example of a register; the answer's form is log entry 67. -/
def Obligations.ManagementBus : Prop :=
  ∀ (s : State) (now : Nat), Up s →
    Does (.mctpMessage (.read pgDev 0x1000) true now) s (fun d =>
      d.aon.mgmtQ = [] ∧ d.out = .mctp mctpRegister [0x41, 0, 0, 0] :: (s.dev.aon.mgmtQ.map (fun m => Emit.mctp m.1 m.2)).reverse ++ s.dev.out ∧
      d.regs = s.dev.regs ∧ SameMem s.dev d ∧ SameObjects s.dev d) ∧
    Does (.mctpMessage (.read pgDev 0x1000) false now) s (fun d =>
      d.aon.mgmtQ = s.dev.aon.mgmtQ ++ [(mctpRegister, [0x41, 0, 0, 0])] ∧ d.out = s.dev.out ∧ d.regs = s.dev.regs ∧ SameMem s.dev d) ∧
    Does (.mctpSendTimeout now) s (fun d => d.aon.mgmtQ = s.dev.aon.mgmtQ.tail ∧ d.out = s.dev.out ∧ d.regs = s.dev.regs ∧ SameMem s.dev d) ∧
    Does .regacc s (fun d => d.tap.ir = 0x10 ∧ d.out = s.dev.out ∧ d.regs = s.dev.regs ∧ SameMem s.dev d)

/-! ### Tiles and Tiosh (chapters 4, 5 and 7) -/

/-- R119 to R122, with program order by `Slot.advance` (R120). -/
def Obligations.SequencerInstructions : Prop :=
  ∀ (s : State) (t k : Nat),
    let d := s.dev
    let w := d.word t k
    let sl := d.slot t k
    let r := fld w 23 20
    let past := sl.advance
    (Issues d t k opNop → Does (.nop t k) s (SeqIssued t k past d)) ∧
    (Issues d t k opSetx → Does (.setx t k) s (fun e => ∃ x, SeqIssued t k x d e ∧ x = { past with xs := x.xs } ∧
      (∀ i, i ≠ r → x.x i = sl.x i) ∧ x.x r = (if r = 0 then 0 else fld w 87 56 * 2 ^ 32 + fld w 55 24))) ∧
    (Issues d t k opAddx → Does (.addx t k) s (fun e => ∃ x, SeqIssued t k x d e ∧ x = { past with xs := x.xs } ∧
      (∀ i, i ≠ r → x.x i = sl.x i) ∧
      (r ≠ 0 → x.x r % 2 ^ 32 = (sl.x r + fld w 55 24) % 2 ^ 32 ∧ x.x r / 2 ^ 32 = (sl.x r / 2 ^ 32 + fld w 87 56) % 2 ^ 32))) ∧
    (Issues d t k opLoop → Does (.loopIns t k) s (SeqIssued t k
      { sl with pc := sl.pc + 1, loops := ⟨fld w 35 20, sl.pc + 1, sl.pc + 1 + fld w 47 36⟩ :: sl.loops } d)) ∧
    (Issues d t k opFence → d.fenceForeign sl w = false → Does (.fence t k) s (SeqIssued t k past d)) ∧
    (Issues d t k opEnd → ∀ trk, sl.running = some trk → Does (.tileEnd t k) s (fun e =>
      SeqIssued t k { sl with running := none, loops := [], tokens := 0xFF, flight := [] } d e ∧
      (e.cmd trk).stage = (if e.stillRuns trk then .running else .finished) ∧ (∀ j, j ≠ trk → e.cmd j = d.cmd j)))

/-- R112 and R113 hold an instruction back, and with it every later one. -/
def Obligations.HeldInstructionsWait : Prop :=
  ∀ (s : State) (t k : Nat) (ue : Bool) (chk : Option (Nat × Nat)) (i : Instr),
    let d := s.dev
    let sl := d.slot t k
    let w := d.word t k
    ((∃ j, j < 8 ∧ bit (iTwait w) j = true ∧ bit sl.tokens j = false) ∨
     (∃ n f, f ∈ ((d.tile t).slot n).flight ∧ (n, (d.tile t).slot n) ∈ (d.tile t).slots ∧ iLane w ≠ 4 ∧ lanesMeet f.lane (iLane w) = true) ∨
     (sl.flight ≠ [] ∧ ((∃ x, x ∈ iXregs w ∧ 8 ≤ x) ∨ (isBind w = false ∧ ∃ r v, r ∈ iRecs w ∧ v ∈ sl.views ∧ v.record = r))) ∨
     sl.parked = true ∨ sl.suspended ≠ none ∨ sl.halted = true ∨ sl.running = none) →
    i ∈ [.nop t k, .setx t k, .addx t k, .loopIns t k, .fence t k, .tileEnd t k, .mma t k ue chk, .mmg t k ue chk, .knot t k ue, .stch t k ue,
      .attf t k ue chk, .attb t k ue chk, .ld t k ue, .st t k ue, .mov t k ue, .ldq t k ue, .wld t k ue, .send t k ue, .recv t k ue, .rel t k,
      .vew t k ue, .vred t k ue, .vstat t k ue] →
    Does i s (fun e => e = d)

/-- R123 and R125, for any format; elements of eight bits one by one. -/
def Obligations.CopiesIntoTheShelf : Prop :=
  ∀ (mk : Nat → Nat → Bool → Instr) (op : Nat), (mk, op) ∈ [(Instr.ld, opLd), (Instr.mov, opMov), (Instr.wld, opWld)] →
  ∀ (s : State) (t k : Nat), Issues s.dev t k op →
    let d := s.dev
    let w := d.word t k
    let sl := d.slot t k
    let a := d.cpSrc t sl w
    let b := d.cpDst t sl w
    let scl := op == opWld || cpScl w
    let tr := op != opWld && cpTr w
    let ts := op == opWld && b.op.bmode == .nb16
    let runs := if a.op.cellar then a.runs scl ++ (if ts then [((a.op.tsAddr : Int), 4)] else []) else []
    let lines := d.copyLines t sl a b tr ++ (if scl then d.copyScales t sl a b else [])
    cpRows w ≠ 0 → cpCols w ≠ 0 → moveCheck sl a b = none → (∃ ps, d.reachRuns sl.ctx false runs = .ok ps ∧ d.partsPoisoned ps = false) →
    Does (mk t k false) s (fun e =>
      LaneIssued t k (8 + copyBody (copyBytes a scl) tr + (if op = opWld then 8 else 0)) d e ∧
      SameShelfBut t sl (fun off => inLines lines off ∨ (ts = true ∧ b.op.tsAddr ≤ off ∧ off < b.op.tsAddr + 4) ∨
        (a.op.cellar = true ∧ b.op.auxAddr ≠ 0 ∧ b.op.auxAddr + 4 * b.groups.1 ≤ off ∧ off < b.op.auxAddr + 4 * (b.groups.1 + b.groups.2))) d e ∧
      (b.op.fmt.bits = 8 → a.op.fmt = b.op.fmt → b.op.bmode = .none → b.op.auxAddr = 0 →
        (if b.op.transposed then b.rows else b.cols) ≤ b.op.pitch → sl.units.Nodup → ∀ i j, i < b.rows → j < b.cols →
        ofBytes (e.shelfRead t sl (b.op.place (b.r0 + i) (b.c0 + j)).1.toNat 1) = ofBytes (d.opBytes t sl a.op.cellar
          (if tr then a.op.place (a.r0 + j) (a.c0 + i) else a.op.place (a.r0 + i) (a.c0 + j)).1 1)) ∧
      SameRegsBut (fun p _ o => pgCel ≤ p ∧ p < pgCel + 8 ∧ (o = 0x1018 ∨ o = 0x101C ∨ o = 0x102C)) d e ∧
      e.cellar = d.cellar ∧ e.hostMem = d.hostMem ∧ SameObjects d e ∧ e.out = d.out)

/-- R123; `joinBytes` puts the byte strings in address order, `putCellar` writes them through the page tables. -/
def Obligations.StoreWritesInOrder : Prop :=
  ∀ (s : State) (t k trk : Nat) (ps : List (Nat × Nat × Nat)), Issues s.dev t k opSt →
    let d := s.dev
    let w := d.word t k
    let sl := d.slot t k
    let a := d.cpSrc t sl w
    let b := d.cpDst t sl w
    let bytes := joinBytes (d.copyLines t sl a b (cpTr w) ++ (if cpScl w then d.copyScales t sl a b else []))
    sl.running = some trk → (d.cmd trk).eval = false → cpRows w ≠ 0 → cpCols w ≠ 0 → moveCheck sl a b = none →
    d.reachRuns sl.ctx true (b.runs (cpScl w)) = .ok ps → (d.putCellar sl.ctx bytes).2 = none →
    List.Pairwise (fun (x y : Int × List Byte) => x.1 ≤ y.1) bytes ∧
    Does (.st t k false) s (fun e => LaneIssued t k (8 + copyBody (copyBytes a (cpScl w)) (cpTr w)) d e ∧
      e.cellar = (d.putCellar sl.ctx bytes).1.cellar ∧ e.groups = (d.putCellar sl.ctx bytes).1.groups ∧ e.pantry = d.pantry ∧ e.hostMem = d.hostMem ∧
      (∃ f, (e.slot t k).flight = sl.flight ++ [f] ∧ f.wr = runBytes (b.runs (cpScl w)) ∧ f.rd = runPartial (b.runs (cpScl w))))

/-- R124, for destinations whose tensor scale the device does not compute. -/
def Obligations.QuantizingLoad : Prop :=
  ldqBody (256 * 512) 3 false false = 530 ∧
  ∀ (s : State) (t k : Nat), Issues s.dev t k opLdq →
    let d := s.dev
    let w := d.word t k
    let sl := d.slot t k
    let a := d.cpSrc t sl w
    let b := d.cpDst t sl w
    let o := b.op
    let scl := a.op.bmode != .none
    let runs := if a.op.cellar then a.runs scl ++ (if a.op.bmode == .nb16 && a.op.tscale == 0 then [((a.op.tsAddr : Int), 4)] else []) else []
    let g := rotateSlice b sl.step (d.ldqValues t sl a b (cpTr w))
    let q := b.quant (if o.bmode = .nb16 then d.tsAt t sl o else 0) (gridAt g) (b.mode sl.step)
    let sb : Slice := { b with op := o.asShadow }
    let sq := sb.quant 0 (gridAt g) (fun _ _ => .rne)
    let old := fun (i : Nat) => ofBytes (d.shelfRead t sl (o.auxAddr + 4 * i) 4)
    o.tscomp = false → moveCheck sl a b = none → (o.shadow = true → sb.inShelf sl = true) → b.tallyOk sl = true → b.rotAligned = true →
    (o.auxAddr ≠ 0 → (if o.kdim then b.c0 else b.r0) % 128 = 0) → (o.bmode = .nb16 → tsSupplied (d.tsAt t sl o) = true) →
    (∃ ps, d.reachRuns sl.ctx false runs = .ok ps ∧ d.partsPoisoned ps = false) →
    Does (.ldq t k false) s (fun e =>
      LaneIssued t k (8 + ldqBody (b.rows * b.cols) o.rot (cpTr w) false) d e ∧
      (cpRows w = 0 ∨ cpCols w = 0 → e.pantry = d.pantry) ∧
      (cpRows w ≠ 0 → cpCols w ≠ 0 →
        e.pantry = ((if o.shadow then (d.putQuant t sl b q).putQuant t sl sb sq else d.putQuant t sl b q).putTallies t sl b
          (fun i => satAdd 32 (if cpTadd w then old i else 0) (q.tally b i))).pantry ∧
        ∃ f, (e.slot t k).flight = sl.flight ++ [f] ∧ f.sats = (if o.satEn then
          [{ entry := o.satEntry, count := q.count + (if o.shadow then sq.count else 0), elems := b.rows * b.cols, amax := gridAmax g }] else [])) ∧
      e.cellar = d.cellar ∧ e.hostMem = d.hostMem ∧ SameObjects d e)

/-- R126, R100; the ring slot taken is the lowest free one (log entry 18). -/
def Obligations.Handoffs : Prop :=
  ∀ (s : State) (t k : Nat),
    let d := s.dev
    let w := d.word t k
    let sl := d.slot t k
    let off := (d.hoOff t sl w).toNat
    (Issues d t k opSend → d.hoCheck t sl w (hoLen w) = none →
      let q := (d.tile (hoTile w)).recvq (hoQueue w)
      (∀ rk i, q.owner = some rk → q.freeRing = some i → Does (.send t k false) s (fun e =>
        LaneIssued t k (8 + cdiv (hoLen w) 512) d e ∧
        e.pantry = (d.shelfWrite (hoTile w) (d.slot (hoTile w) rk) (q.off + i * q.size) (d.shelfRead t sl off (hoLen w))).pantry ∧
        (e.tile (hoTile w)).recvq (hoQueue w) = { q with taken := q.taken ++ [i] } ∧
        (∃ f, (e.slot t k).flight = sl.flight ++ [f] ∧ f.post = some (hoTile w, hoQueue w, i, hoTag w, hoLen w)) ∧ TilesOnly d e)) ∧
      (q.owner = none ∨ q.freeRing = none → Does (.send t k false) s (fun e =>
        e.slot t k = { sl with parked := true } ∧ SameSlotsBut t k d e ∧ e.pantry = d.pantry ∧ TilesOnly d e))) ∧
    (Issues d t k opRecv →
      let q := (d.tile t).recvq (hoQueue w)
      (∀ i tag len, q.find (hoTag w) = some (i, tag, len) →
        (isBind w = true → Does (.recv t k false) s (fun e =>
          LaneIssued t k 8 d e ∧ (e.slot t k).views = ⟨iF0 w, hoQueue w, i, q.off + i * q.size⟩ :: sl.views ∧
          (e.tile t).recvq (hoQueue w) = q.take i ∧ e.pantry = d.pantry ∧ TilesOnly d e)) ∧
        (isBind w = false → d.hoCheck t sl w len = none → Does (.recv t k false) s (fun e =>
          LaneIssued t k (8 + cdiv (d.maxLen sl.ctx t (hoQueue w)) 512) d e ∧
          e.pantry = (d.shelfWrite t sl off (d.shelfRead t sl (q.off + i * q.size) len)).pantry ∧
          (e.tile t).recvq (hoQueue w) = q.take i ∧ (∃ f, (e.slot t k).flight = sl.flight ++ [f] ∧ f.credit = some (hoQueue w, i)) ∧ TilesOnly d e))) ∧
      (q.find (hoTag w) = none → Does (.recv t k false) s (fun e =>
        e.slot t k = { sl with parked := true } ∧ SameSlotsBut t k d e ∧ e.pantry = d.pantry ∧ TilesOnly d e))) ∧
    (Issues d t k opRel → ∀ v, sl.views.find? (fun v => v.record == iF0 w) = some v → Does (.rel t k) s (fun e =>
      LaneIssued t k 8 d e ∧ (e.slot t k).views = dropView (iF0 w) sl.views ∧
      (∃ f, (e.slot t k).flight = sl.flight ++ [f] ∧ f.credit = some (v.queue, v.ring)) ∧ e.pantry = d.pantry ∧ TilesOnly d e)) ∧
    (d.live = true → Does (.handoffUnpark t k) s (fun e =>
      (e.slot t k).parked = (sl.parked && !d.handoffReady t k) ∧ SameSlotsBut t k d e ∧ e.pantry = d.pantry ∧ TilesOnly d e))

/-- R127, R57, R70, R92; `mmElem` is the accumulation of one element, `escMap` R67's decisions. -/
def Obligations.MatrixProducts : Prop :=
  arrayCycles (Shape.ofCode 3) 256 256 512 4 = 1968 ∧
  ∀ (s : State) (t k : Nat) (i : Instr) (op g : Nat),
    (i, op, g) ∈ [(.mma t k false none, opMma, 16), (.knot t k false, opKnot, 4), (.stch t k false, opStch, 16)] → Issues s.dev t k op →
    let d := s.dev
    let w := d.word t k
    let sl := d.slot t k
    let a := d.mmA t sl w
    let b := d.mmW t sl w
    let o := d.mmO t sl w
    let esc := d.escMap t sl w a b
    let y := fun m n => unrotate a.op.rot (d.mmElem t sl a b o g (mmAcc w) (escAt esc m n) m n)
    let count := if op = opMma then d.mmaCount t w a b esc else if op = opKnot then 16 + knotCycles (mmMv w) (mmNv w) (mmKv w) else stchCount w a b
    (mmMv w = 0 ∨ mmNv w = 0 ∨ mmKv w = 0 → Does i s (fun e => LaneIssued t k 16 d e ∧ e.pantry = d.pantry ∧ TilesOnly d e)) ∧
    (mmMv w ≠ 0 → mmNv w ≠ 0 → mmKv w ≠ 0 → mmCheck sl a b o (mmEsc w) = none → (o.op.bmode = .nb16 → tsSupplied (d.tsAt t sl o.op) = true) →
      Does i s (fun e => LaneIssued t k count d e ∧ TilesOnly d e ∧
        e.pantry = (d.putQuant t sl o (o.quant (d.tsAt t sl o.op) (gridAt (gridOf (mmMv w) (mmNv w) y)) (o.mode sl.step))).pantry ∧
        (o.op.fmt = .fp32 → o.op.bmode = .none → o.op.transposed = false → 4 * mmNv w ≤ o.op.pitch → sl.units.Nodup →
          ∀ m n, m < mmMv w → n < mmNv w → ofBytes (e.shelfRead t sl (o.op.place (o.r0 + m) n).1.toNat 4) =
            (Fmt.fp32.convert (o.mode sl.step m n) (f32 (y m n))).1 % 2 ^ 32)))

/-- R129. -/
def Obligations.GatheredMatmul : Prop :=
  ∀ (s : State) (t k : Nat), Issues s.dev t k opMmg →
    let d := s.dev
    let w := d.word t k
    let sl := d.slot t k
    let o := d.mgO t sl w
    let ix := d.mgIndex t sl w
    let y := fun m n => unrotate (d.mgA t sl w).op.rot (d.mgValue t sl w ix m n)
    (mgMv w = 0 ∨ mgKv w = 0 ∨ (mgPhase w = true ∧ mgNv w = 0) → Does (.mmg t k false none) s (fun e =>
      LaneIssued t k 16 d e ∧ e.pantry = d.pantry ∧ TilesOnly d e)) ∧
    (mgMv w ≠ 0 → mgKv w ≠ 0 → d.mgCheck t sl w = none →
      (mgPhase w = false → Does (.mmg t k false none) s (fun e => LaneIssued t k (d.mgCycles t sl w) d e ∧ TilesOnly d e ∧
        e.pantry = (d.mgDown t sl w).pantry)) ∧
      (mgPhase w = true → mgNv w ≠ 0 → (o.op.bmode = .nb16 → tsSupplied (d.tsAt t sl o.op) = true) → Does (.mmg t k false none) s (fun e =>
        LaneIssued t k (d.mgCycles t sl w) d e ∧ TilesOnly d e ∧
        e.pantry = (d.putQuant t sl o (o.quant (d.tsAt t sl o.op) (gridAt (gridOf (mgMv w) (mgNv w) y)) (o.mode sl.step))).pantry))) ∧
    (∀ m, m < mgMv w → (∀ a, ix.getD m 0xFFFF = a → a ≠ 0xFFFF → d.mgCount t sl w ≤ a → d.mgCheck t sl w ≠ none))

/-- R158, R159 and R162 by rows and blocks. -/
def Obligations.FusedAttention : Prop :=
  ∀ (s : State) (t k : Nat),
    let d := s.dev
    let w := d.word t k
    let sl := d.slot t k
    let rows := (List.range (atMv w)).map (fun i => d.attfRow t sl w i)
    let st := d.atQs t sl w 5 2
    let o := d.atQs t sl w 3 (atDh w)
    let back := (List.range (atBlocks w)).foldl (fun a b => d.attbBlock t sl w a b) (d.attbStart t sl w)
    (Issues d t k opAttf → atMv w ≠ 0 → atDh w ≠ 0 → d.atCheck t sl w (d.attfOps t sl w) = none →
      (atFin w = true → (o.op.bmode = .nb16 → tsSupplied (d.tsAt t sl o.op) = true) → Does (.attf t k false none) s (fun e =>
        LaneIssued t k (d.attfCount t sl w) d e ∧ TilesOnly d e ∧
        e.pantry = ((d.putQuant t sl o (o.quant (d.tsAt t sl o.op) (gridAt (rows.map (fun r => r.final.1))) (o.mode sl.step))).putRows t sl st
          (rows.map (fun r => [r.final.2, r.l]))).pantry)) ∧
      (atFin w = false → Does (.attf t k false none) s (fun e => LaneIssued t k (d.attfCount t sl w) d e ∧ TilesOnly d e ∧
        e.pantry = ((d.putRows t sl (d.atQs t sl w 4 (atDh w)) (rows.map (fun r => r.o))).putRows t sl st (rows.map (fun r => [r.m, r.l]))).pantry)) ∧
      (∀ i, i < atMv w → atInit w = true → (∀ j, j < atKl w → d.atMasked t sl w i j = true) →
        (d.attfRow t sl w i).final = (List.replicate (atDh w) 0, fNegInf))) ∧
    (Issues d t k opAttb → atMv w ≠ 0 → atDh w ≠ 0 → d.atCheck t sl w (d.attbOps t sl w) = none → Does (.attb t k false none) s (fun e =>
      LaneIssued t k (d.attbCount t sl w) d e ∧ TilesOnly d e ∧
      (atGmode w = 0 → e.pantry = (((d.putRows t sl (d.atQs t sl w 9 (atDh w)) back.dq).putRows t sl (d.atKs t sl w 10) back.dk).putRows t sl
        (d.atKs t sl w 11) back.dv).pantry) ∧
      (atGmode w = 1 → e.pantry = (d.putRows t sl (d.atQs t sl w 9 (atDh w)) back.dq).pantry) ∧
      (atGmode w = 2 → e.pantry = ((d.putRows t sl (d.atKs t sl w 10) back.dk).putRows t sl (d.atKs t sl w 11) back.dv).pantry)))

/-- R130, R132, R133; integer functions with an INT32 destination. -/
def Obligations.VectorInstructions : Prop :=
  ∀ (s : State) (t k : Nat),
    let d := s.dev
    let w := d.word t k
    let sl := d.slot t k
    let fn := vwFn w
    let a := d.vwSrc t sl w (iF1 w) false
    let b := d.vwSrc t sl w (iF2 w) (bit w 114)
    let c := d.vwSrc t sl w (iF3 w) (bit w 115)
    let o := d.vwDst t sl w
    let n := vwRows w * vwCols w
    let srcs := [a] ++ (if vewUsesB fn then [b] else []) ++ (if vewUsesC fn then [c] else [])
    let at' := fun (x : Slice) (one : Bool) (i j : Nat) => d.elemF t sl x.op (x.r0 + (if one then 0 else i)) (x.c0 + j)
    let y := fun i j => vewF fn (at' a false i j) (if vewUsesB fn then at' b (bit w 114) i j else 0) (if vewUsesC fn then at' c (bit w 115) i j else 0) (sl.vwImm w)
    let ra := d.vrSrc t sl w
    let ro := d.vrDst t sl w
    let x := gridOf (vrRows w) (vrCols w) (fun i j => d.elemF t sl ra.op (ra.r0 + i) (ra.c0 + j))
    let res := if vrAxis w then [(transpose (vrCols w) x).map (vredCol (vrOp w))] else x.map (fun r => [vredRow (vrOp w) r])
    let va := d.vsSrc t sl w
    (Issues d t k opVew → vewInt fn = false → (∀ z, z ∈ o :: srcs → z.inShelf sl = true ∧ z.aligned = true) → Does (.vew t k false) s (fun e =>
      LaneIssued t k (6 + (if (vewT fn).getD 0 = 0 then cdiv n 256 else (vewT fn).getD 0 * cdiv n 64)) d e ∧ TilesOnly d e ∧
      (n = 0 → e.pantry = d.pantry) ∧
      (n ≠ 0 → e.pantry = (d.putQuant t sl o (o.quant 0 (gridAt (gridOf (vwRows w) (vwCols w) y)) (o.mode sl.step))).pantry))) ∧
    (Issues d t k opVew → vewInt fn = true → n ≠ 0 → o.op.fmt = .int32 → (∀ z, z ∈ o :: srcs → z.inShelf sl = true ∧ z.aligned = true) →
      Does (.vew t k false) s (fun e => LaneIssued t k (6 + cdiv n 256) d e ∧ TilesOnly d e ∧
        e.pantry = (d.putSlice t sl o (fun i j => vewI fn (d.elemI t sl a.op (a.r0 + i) (a.c0 + j))
          (d.elemI t sl b.op (b.r0 + (if bit w 114 then 0 else i)) (b.c0 + j)))).pantry)) ∧
    (Issues d t k opVred → ra.inShelf sl = true → ro.inShelf sl = true → ra.aligned = true → ro.aligned = true → Does (.vred t k false) s (fun e =>
      LaneIssued t k (6 + vrRows w * (cdiv (vrCols w) 256 + (if vrAxis w then 0 else 8))) d e ∧ TilesOnly d e ∧
      e.pantry = (d.putQuant t sl ro (ro.quant 0 (gridAt res) (ro.mode sl.step))).pantry)) ∧
    (Issues d t k opVstat → va.inShelf sl = true → va.aligned = true → Does (.vstat t k false) s (fun e =>
      LaneIssued t k (6 + cdiv (va.rows * va.cols) 256) d e ∧ TilesOnly d e ∧ e.pantry = d.pantry ∧
      ∃ f, (e.slot t k).flight = sl.flight ++ [f] ∧ f.lsts =
        [d.lstPart (fld w 45 32) 0 ((gridOf va.rows va.cols (fun i j => d.elemF t sl va.op (va.r0 + i) (va.c0 + j))).flatMap id)]))

/-- R101, R102, R112, R116, for an instruction that delivers to no saturation entry. -/
def Obligations.RetirementAndHealth : Prop :=
  ∀ (s : State) (t k lane elapsed wait ce sentinel : Nat), s.dev.live = true → t < 96 → lane < 4 →
    let d := s.dev
    let sl := d.slot t k
    (∀ f trk, sl.onLane lane = some f → sl.running = some trk → f.sats = [] →
      Does (.instructionRetire t k lane elapsed wait ce sentinel false) s (fun e =>
        (e.slot t k).flight = dropLane lane sl.flight ∧
        (∀ j, f.tset = some j → j < 8 → (∀ h ∈ dropLane lane sl.flight, h.tset ≠ some j) → bit (e.slot t k).tokens j = true) ∧
        (f.tset = none → (e.slot t k).tokens = sl.tokens) ∧ (e.slot t k).pc = sl.pc ∧ (e.slot t k).xs = sl.xs ∧ SameSlotsBut t k d e ∧
        (∀ p, f.credit = none → f.post = some p →
          ((e.tile p.1).recvq p.2.1).posted = ((d.tile p.1).recvq p.2.1).posted ++ [(p.2.2.1, p.2.2.2.1, p.2.2.2.2)]) ∧
        (∀ c, f.post = none → f.credit = some c → ((e.tile t).recvq c.1).taken = ((d.tile t).recvq c.1).taken.filter (· != c.2)) ∧
        e.reg64 pgTile t 0x0180 = (d.reg64 pgTile t 0x0180 + f.count) % 2 ^ 64 ∧
        e.reg64 pgTile t 0x0188 = (d.reg64 pgTile t 0x0188 + elapsed) % 2 ^ 64 ∧
        e.reg64 pgTile t 0x0190 = (d.reg64 pgTile t 0x0190 + (2 * ce + sentinel)) % 2 ^ 64 ∧
        e.regN pgTile t 0x0198 = min (2 ^ 32 - 1) (d.regN pgTile t 0x0198 + ce) ∧
        (d.traces sl.ctx = false → SameMem d e))) ∧
    (Does (.tileHealthWindow t) s (fun e =>
      ((d.tile t).out = true → e = d) ∧
      ((d.tile t).out = false → (e.tile t).rate = (d.tile t).windowRate ∧ (e.tile t).winNom = 0 ∧ (e.tile t).winElapsed = 0 ∧
        ((e.tile t).rate * 65536 < (e.tile t).cohort * 58982 → bit (e.regN pgTile t 0x01A4) 0 = true ∧
          bit (e.regN pgTile 0 (0x1010 + 4 * (t / 32))) (t % 32) = true) ∧
        (∀ n, n ≠ t → e.tile n = d.tile n) ∧ (∀ j, e.slot t j = d.slot t j) ∧ SameMem d e)))

/-! ### Host interface (chapter 12) -/

/-- R261 Table 2. -/
def Obligations.ContextOperations : Prop :=
  ∀ (s : State) (port now : Nat), s.dev.live = true → port ≤ 0x42 → bit (s.dev.bankN pgCtx port 0x1020) 16 = false →
    let d := s.dev
    let done := fun (code : Nat) (e : Dev) => OpDone pgCtx port 0x1004 0x1020 code .ok e
    let a0 := d.opArg pgCtx port 0
    let h := a0 % 16
    let c := a0 % 4096
    let ppn := d.opArg pgCtx port 1 % 2 ^ 23
    let key := fld (d.opArg pgCtx port 2) 11 0
    let gen := fld (d.opArg pgCtx port 2) 15 12
    let base := d.opArg pgCtx port 1 + 2 ^ 32 * d.opArg pgCtx port 2
    let len := d.opArg pgCtx port 3
    let b := d.opArg pgCtx port 4
    let f := d.opArg pgCtx port 1 % 1024
    (portIsFunc port = true →
      (∀ n, d.mayHold port h = true → (d.potOf ppn).granted = true → (d.potOf ppn).hoop = h → (d.potOf ppn).bound = false →
        d.keyCheck h useMem key gen = none → d.ctxCount h < (d.hoop h).inForce.ctxs → IsLowest n 4096 (fun m => (d.ctx m).state = .free) →
        Does (.ctxCreate port now) s (fun e => done 1 e ∧ e.bankN pgCtx port 0x1024 = n ∧
          e.ctx n = { state := .active, func := port, hoop := h, root := ppn, tblKey := key, tblGen := gen } ∧
          (∀ m, m ≠ n → e.ctx m = d.ctx m) ∧ e.potOf ppn = { d.potOf ppn with bound := true, key := key, maps := 4095 } ∧
          (∀ a, memGet e.cellar a = if a / 65536 = ppn then 0 else memGet d.cellar a) ∧ e.hostMem = d.hostMem ∧ e.queues = d.queues)) ∧
      ((d.ctx c).state = .active → (d.ctx c).func = port → Does (.ctxDestroy port now) s (fun e => done 2 e ∧
        (e.ctx c).state = .draining ∧ (e.ctx c).windows = [])) ∧
      ((d.ctx c).state = .free → Does (.ctxDestroy port now) s (OpFailed pgCtx port 0x1004 0x1020 2 .badDescriptor d)) ∧
      (d.ctxNamed port c = none → Does (.ctxReset port now) s (fun e => done 3 e ∧ (e.ctx c).faults = [] ∧ (e.ctx c).pricking = none)) ∧
      (d.ctxNamed port c = none → base % 4096 = 0 → len ≤ 2 ^ 28 → (bit b 2 = true → port ≠ portPf ∧ (d.func port).tdi = .run) →
        Does (.setWindow port now) s (fun e => done 4 e ∧
          tabGet windowDflt (e.ctx c).windows (fld a0 19 16) = (if len = 0 then {} else ⟨base, len, bit b 0, bit b 1, bit b 2⟩) ∧
          (∀ w, w ≠ fld a0 19 16 → tabGet windowDflt (e.ctx c).windows w = tabGet windowDflt (d.ctx c).windows w) ∧
          (∀ m, m ≠ c → e.ctx m = d.ctx m) ∧ (e.ctx c).state = .active ∧ SameMem d e)) ∧
      (d.ctxNamed port c = none → base % 4096 ≠ 0 → (bit b 2 = true → port ≠ portPf ∧ (d.func port).tdi = .run) →
        Does (.setWindow port now) s (OpFailed pgCtx port 0x1004 0x1020 4 .badDescriptor d)) ∧
      (∀ n, d.ctxNamed port c = none → IsLowest n 1024 (fun m => (d.fence m).state = .free) → Does (.bindFence port now) s (fun e => done 5 e ∧
        e.bankN pgCtx port 0x1024 = n ∧ e.fence n = { state := .idle, ctx := c, hoop := (d.ctx c).hoop } ∧ (∀ m, m ≠ n → e.fence m = d.fence m) ∧
        SameMem d e ∧ SameObjects d e)) ∧
      (d.ctxNamed port c = none → (d.fence f).state = .idle → (d.fence f).ctx = c → (d.fence f).waiting = [] → Does (.unbindFence port now) s (fun e =>
        done 6 e ∧ (e.fence f).state = .free ∧ (∀ m, m ≠ f → e.fence m = d.fence m) ∧ SameMem d e ∧ SameObjects d e))) ∧
    (portIsFunc port = false → Does (.ctxCreate port now) s (fun e => Logged pgCtx port (errEntry pgCtx 0x1004 .port port 1) d e ∧
      SameRegsBut (fun p i o => p = pgCtx ∧ i = bank port ∧ logOff o) d e ∧ SameMem d e ∧ SameObjects d e)) ∧
    (∀ n, Does (.fabricDrainEnd n now) s (fun e => ((d.ctx n).state = .draining → (e.ctx n).state = .free) ∧
      ((d.ctx n).state ≠ .draining → e.ctx n = d.ctx n) ∧ (∀ m, m ≠ n → e.ctx m = d.ctx m) ∧ e.regs = d.regs ∧ SameMem d e))

/-- R266, R274, R275, R281. -/
def Obligations.QueuesAndEvents : Prop :=
  ∀ (s : State) (port now : Nat), s.dev.live = true → portIsFunc port = true →
    bit (s.dev.bankN pgQue port 0x1020) 16 = false → bit (s.dev.bankN pgEvt port 0x1010) 16 = false →
    let d := s.dev
    let a := d.opArg pgQue port 0
    let c := fld a 11 0
    let hp := (d.hoop (d.ctx c).hoop).inForce
    let dq := d.opArg pgQue port 5
    let de := d.bankN pgEvt port 0x1018 % 65536
    let se := d.sel pgEvt port
    let made : Queue :=
      { valid := true, ctx := c, hoop := (d.ctx c).hoop, log2 := fld a 16 12, push := bit a 17, ringHost := bit a 18, cplHost := bit a 19,
        vec := fld a 30 20, ring := d.opArg pgQue port 1 + 2 ^ 32 * d.opArg pgQue port 2,
        cpl := d.opArg pgQue port 3 + 2 ^ 32 * d.opArg pgQue port 4 }
    (∀ n, d.ctxNamed port c = none → d.locked port = false → d.queArgsBad port = false → hp.qbase ≤ n → n < hp.qbase + hp.qcount → n < 65536 →
      (d.queue n).valid = false → (∀ m, hp.qbase ≤ m → m < n → (d.queue m).valid = true) → Does (.queCreate port now) s (fun e =>
        OpDone pgQue port 0x1004 0x1020 1 .ok e ∧ e.bankN pgQue port 0x1024 = n ∧
        e.queue n = made ∧
        (∀ m, m ≠ n → e.queue m = d.queue m) ∧ SameMem d e)) ∧
    (dq < 65536 → (d.queue dq).valid = true → (d.ctx (d.queue dq).ctx).func = port → d.locked port = false → (∀ n, n < 5 → d.opArg pgQue port n = 0) →
      Does (.queDestroy port now) s (fun e => OpDone pgQue port 0x1004 0x1020 2 .ok e ∧ (e.queue dq).valid = false)) ∧
    (∀ x sh, x < 4096 → d.ctxNamed port x = none → ∀ n, IsLowest n 65536 (fun m => (d.evt m).valid = false) → Does (.evtCreate port sh x now) s (fun e =>
      OpDone pgEvt port 0x1004 0x1010 (1 + b2n sh * 4 + x * 65536) .ok e ∧ e.bankN pgEvt port 0x1014 = n ∧
      e.evt n = ⟨true, sh, x, (d.ctx x).hoop, d.bankN pgEvt port 0x1008 + 2 ^ 32 * d.bankN pgEvt port 0x100C⟩ ∧
      (∀ m, m ≠ n → e.evt m = d.evt m) ∧ SameMem d e)) ∧
    ((d.evt de).valid = true → (d.ctx (d.evt de).ctx).func = port → Does (.evtDestroy port now) s (fun e =>
      OpDone pgEvt port 0x1004 0x1010 2 .ok e ∧ (e.evt de).valid = false)) ∧
    (∀ hi, hi < 2 ^ 32 → d.seesEvt port se = true → (d.evt se).valid = true →
      let v := d.stagedOr port pgEvt se 0x010C + 2 ^ 32 * hi
      Does (.evtSigHi port hi now) s (fun e => e.evt se = { d.evt se with value := max v (d.evt se).value } ∧
        (v < (d.evt se).value → bit (e.regN pgEvt se 0x0114) 0 = true) ∧ (∀ m, m ≠ se → e.evt m = d.evt m) ∧ e.ctxs = d.ctxs ∧ e.queues = d.queues ∧ SameMem d e))

/-- R258, R260, R267. -/
def Obligations.DoorbellsAndAperture : Prop :=
  ∀ (s : State) (fn qn off width v now : Nat) (bs : List Byte), fn ≤ 63 → v < 2 ^ 32 → s.dev.live = true → s.dev.aon.pcieUp = true →
    let d := s.dev
    let q := d.queue qn
    let adv := (v + 2 ^ 32 - q.tail) % 2 ^ 32
    let mine := q.valid = true ∧ (d.ctx q.ctx).func = fn ∧ q.destroying = false ∧ (d.ctx q.ctx).state = .active
    let used := fun (t : Nat) => (t + 2 ^ 32 - q.cplHead % 2 ^ 32) % 2 ^ 32
    let ring := Instr.doorbellRing fn qn off width v now
    let push := Instr.doorbellPush fn qn off bs now
    let c := d.bankN pgCtx fn 0x1030 % 4096
    ((d.func fn).tdi ≠ .error →
      (mine → q.push = false → off = 0 → width = 4 → 1 ≤ adv → adv ≤ 64 → used v ≤ 2 ^ q.log2 → Does ring s (fun e =>
        e.queue qn = { q with tail := v } ∧ (∀ m, m ≠ qn → e.queue m = d.queue m) ∧ e.regs = d.regs ∧ SameMem d e)) ∧
      (mine → q.push = false → off = 0 → width = 4 → 1 ≤ adv → (64 < adv ∨ 2 ^ q.log2 < used v) → Does ring s (fun e =>
        bit (e.regN pgQue qn 0x012C) 0 = true ∧ e.queues = d.queues)) ∧
      (mine → q.push = true ∨ off ≠ 0 ∨ width ≠ 4 ∨ adv = 0 → Does ring s (fun e => bit (e.regN pgQue qn 0x012C) 1 = true ∧ e.queues = d.queues)) ∧
      (mine → q.push = true → off = 0 → bs.length = 64 → used ((q.tail + 1) % 2 ^ 32) ≤ 2 ^ q.log2 → Does push s (fun e =>
        e.queue qn = { q with tail := (q.tail + 1) % 2 ^ 32, pushed := q.pushed ++ [bs] } ∧ (∀ m, m ≠ qn → e.queue m = d.queue m) ∧ e.regs = d.regs)) ∧
      (q.valid = false ∨ (d.ctx q.ctx).func ≠ fn → Does ring s (fun e =>
        e.bankN pgQue fn 0x1028 = min (d.bankN pgQue fn 0x1028 + 1) 0xFFFFFFFF ∧ e.queues = d.queues)) ∧
      (∀ x va addr n, d.aperture fn addr n = some (x, va) → ∀ data, d.readVa x va n = .data data → Does (.bar4Read fn addr n now) s (fun e =>
        e.out = .bar4Data fn addr data :: d.out ∧ SameMem d e ∧ e.regs = d.regs)) ∧
      (∀ x va addr, d.aperture fn addr bs.length = some (x, va) → ∀ g, d.writeVa x va bs = (g, none) → Does (.bar4Write fn addr bs now) s (fun e =>
        e.cellar = g.cellar ∧ e.groups = g.groups ∧ e.out = g.out ∧ e.hostMem = d.hostMem)) ∧
      (bit (d.bankN pgCtx fn 0x1030) 31 = false ∨ (d.ctx c).func ≠ fn →
        Does (.bar4Read fn off width now) s (fun e => e.bankN pgCtx fn 0x103C = min (d.bankN pgCtx fn 0x103C + 1) 0xFFFFFFFF ∧ e.out = .pcieUr fn :: d.out ∧ SameMem d e) ∧
        Does (.bar4Write fn off bs now) s (fun e => e.bankN pgCtx fn 0x103C = min (d.bankN pgCtx fn 0x103C + 1) 0xFFFFFFFF ∧ e.out = d.out ∧ SameMem d e))) ∧
    ((d.func fn).tdi = .error → Does ring s (fun e => e.out = .pcieUr fn :: d.out ∧ e.queues = d.queues ∧ SameMem d e) ∧
      Does (.bar4Read fn off width now) s (fun e => e.out = .pcieUr fn :: d.out ∧ SameMem d e)) ∧
    Does (.aperCtxWrite fn v now) s (fun e =>
      ((d.ctx (v % 4096)).state ≠ .free → (d.hoop (d.ctx (v % 4096)).hoop).isSealed = true →
        Logged pgCtx fn (errEntry pgCtx 0x1030 .value fn v) d e ∧ e.bankN pgCtx fn 0x1030 = d.bankN pgCtx fn 0x1030) ∧
      ((d.ctx (v % 4096)).state = .free ∨ (d.hoop (d.ctx (v % 4096)).hoop).isSealed = false →
        e.bankN pgCtx fn 0x1030 = v / 2 ^ 31 * 2 ^ 31 + v % 4096 ∧ SameRegsBut (fun p i o => p = pgCtx ∧ i = bank fn ∧ o = 0x1030) d e) ∧ SameMem d e)

/-- R254, R255, R258; `gone` says whose contexts are destroyed. -/
def Obligations.FunctionResets : Prop :=
  ∀ (s : State) (fn now : Nat) (en : Bool) (num dw : Nat) (body : DoeBody), s.dev.live = true → 1 ≤ fn → fn ≤ 63 → num ≤ 63 →
    let d := s.dev
    let gone := fun (p : Nat → Prop) (e : Dev) => ∀ c, ((d.ctx c).state = .active → p (d.ctx c).func → (e.ctx c).state = .draining) ∧
      (¬ p (d.ctx c).func → (e.ctx c).state = (d.ctx c).state)
    Does (.flrVf fn now) s (gone (· = fn)) ∧
    Does (.flrPf now) s (fun e => gone (fun _ => True) e ∧ e.vfEnable = false) ∧
    Does (.vfEnableClear en num now) s (fun e => e.vfEnable = en ∧ e.numVfs = num ∧
      ((d.vfEnable = true ∧ en = false) ∨ num ≠ d.numVfs → gone (· ≠ 0) e) ∧
      (¬ ((d.vfEnable = true ∧ en = false) ∨ num ≠ d.numVfs) → e.ctxs = d.ctxs)) ∧
    Does (.d3hotEntry fn now) s (fun e => gone (· = fn) e ∧ (e.func fn).d3hot = true) ∧
    Does (.ideIntegrityFailure fn now) s (fun e => gone (· = fn) e ∧ (e.func fn).ideInsecure = true ∧ (e.func fn).tdi = .error ∧
      ∀ m, m ≠ fn → e.func m = d.func m) ∧
    Does (.stopInterface fn now) s (fun e => e.func fn = { d.func fn with tdi := .configUnlocked } ∧ (∀ m, m ≠ fn → e.func m = d.func m) ∧ SameObjects d e ∧ SameMem d e) ∧
    Does (.doeObject dw body now) s (fun e => (2 ^ 18 < dw → e.doeError = true ∧ e.funcs = d.funcs ∧ e.out = d.out) ∧ SameObjects d e ∧ SameMem d e ∧
      (dw ≤ 2 ^ 18 → body = .tdispStart fn → d.doeSession = true → (d.func fn).tdi = .configLocked → (e.func fn).tdi = .run))

/-! ### Deciding, releasing and completing commands; hoops (chapters 12 and 13) -/

/-- R268, R293, R294, R270; the release is of a command without a fence and without models, the deadline in whole ns. -/
def Obligations.DecideReleaseComplete : Prop :=
  ∀ (s : State) (qn trk now : Nat), s.dev.live = true →
    let d := s.dev.at now
    let q := d.queue qn
    let h := (d.ctx q.ctx).hoop
    let m := d.cmd trk
    (q.valid = true → q.error = false → q.destroying = false → q.decided ≠ q.tail → (d.ctx q.ctx).state = .active →
      (d.fetchDesc qn q.decided = none → Does (.descriptorDecision qn now) s (fun e => (e.queue qn).error = true ∧
        bit (e.regN pgQue qn 0x012C) 2 = true ∧ e.cmds = d.cmds ∧ SameMem d e)) ∧
      (∀ desc, d.fetchDesc qn q.decided = some desc →
        let d1 := (d.setQueue qn { q with decided := (q.decided + 1) % 2 ^ 32, pushed := q.pushed.tail }).refillHoop h
        let r := d1.checks (d1.candidate qn q.decided desc)
        (r.2 = [] → d1.noCapacity r.1 = false → ∀ t, IsLowest t 65536 (fun n => (d1.cmd n).live = false) → Does (.descriptorDecision qn now) s (fun e =>
          (e.cmd t).live = true ∧ (e.cmd t).stage = .waiting ∧ (e.cmd t).desc = desc ∧ (e.cmd t).queue = qn ∧ (e.cmd t).seq = q.decided ∧
          (e.cmd t).ctx = q.ctx ∧ (e.cmd t).estimate = d1.estimateUj r.1 ∧ (e.hoop r.1.hoop).energy = (d1.hoop r.1.hoop).energy - (d1.estimateUj r.1 : Int) ∧
          (∀ n, n ≠ t → e.cmd n = d.cmd n) ∧ (e.queue qn).decided = (q.decided + 1) % 2 ^ 32 ∧ e.regs = d.regs ∧ SameMem d e)) ∧
        (r.2 ≠ [] ∨ d1.noCapacity r.1 = true → Does (.descriptorDecision qn now) s (fun e => e.cmds = d.cmds ∧
          (e.queue qn).decided = (q.decided + 1) % 2 ^ 32 ∧ (e.hoop h).accepted = (d.hoop h).accepted)))) ∧
    (d.mayRelease trk = true → m.ordering = none → m.lookup = [] → m.typ ≠ tyCheckpoint → m.typ ≠ tyCollective → Does (.commandRelease trk now) s (fun e =>
      (e.cmd trk).released = true ∧ (e.cmd trk).stage = .running ∧ (e.cmd trk).relTime = d.now ∧
      (e.cmd trk).deadline = d.now + 8192 + tabSum (pricesAdd (d.hoop m.hoop).released m.prices) / 8 ∧
      (e.hoop m.hoop).released = pricesAdd (d.hoop m.hoop).released m.prices ∧ (∀ n, n ≠ trk → e.cmd n = d.cmd n) ∧ e.regs = d.regs ∧ SameMem d e)) ∧
    (d.mayRelease trk = false → Does (.commandRelease trk now) s (fun e => e = d)) ∧
    (m.live = true → m.stage = .finished → m.typ ≠ tyCheckpoint → Does (.commandComplete trk now) s (fun e =>
      (e.cmd trk).live = false ∧
      (stSuccess m.status = true → bit m.deps 2 = true → (d.evt (m.df 36 2)).valid = true →
        (e.evt (m.df 36 2)).value = max (m.df 56 8) (d.evt (m.df 36 2)).value) ∧
      (stSuccess m.status = false ∨ bit m.deps 2 = false → e.events = d.events))) ∧
    (m.live = false ∨ m.stage ≠ .finished → Does (.commandComplete trk now) s (fun e => e = d))

/-- R304, R285, R286, R289; SEAL and UNSEAL also put the staged values in force (log entry 31). -/
def Obligations.HoopOperations : Prop :=
  ∀ (s : State) (h now : Nat), s.dev.live = true → h < 16 → bit (s.dev.bankN pgHoop 0 0x1008) 16 = false →
    let d := s.dev.at now
    let x := d.hoop h
    let done := fun (code : Nat) (e : Dev) => OpDone pgHoop 0 0x1004 0x1008 (code + 16 * h) .ok e ∧ ∀ g, g ≠ h → e.hoop g = d.hoop g
    (x.state = .free → Does (.hoopCreate 0 h now) s (fun e => done 1 e ∧ (e.hoop h).state = .active ∧ (e.hoop h).isSealed = false ∧
      (e.hoop h).excl = false ∧ (e.hoop h).inForce = { sweight := 1 } ∧ (e.hoop h).energy = 0 ∧ SameMem d e)) ∧
    (x.state ≠ .free → Does (.hoopCreate 0 h now) s (OpFailed pgHoop 0 0x1004 0x1008 (1 + 16 * h) .badDescriptor d)) ∧
    (x.state ≠ .free → d.applyErrs h x.isSealed x.staged = [] → d.bindingChange h x.staged = false → Does (.hoopApply 0 h now) s (fun e => done 2 e ∧
      (e.hoop h).inForce = x.staged ∧ (e.hoop h).isSealed = x.isSealed ∧ (e.hoop h).energy ≤ (e.hoop h).depth ∧ SameMem d e ∧ e.ctxs = d.ctxs ∧ e.cmds = d.cmds)) ∧
    (x.state ≠ .free → d.applyErrs h x.isSealed x.staged ≠ [] → Does (.hoopApply 0 h now) s (fun e =>
      e.hoops = d.hoops ∧ e.ctxs = d.ctxs ∧ e.cmds = d.cmds ∧ e.bankN pgHoop 0 0x1008 ≠ 0 ∧ SameMem d e)) ∧
    (x.state ≠ .free → d.hoopBusyG h = false → (∀ g, g ∈ d.otherHoops h → x.inForce.tiles &&& (d.hoop g).inForce.tiles = 0) →
      Does (.hoopExclusive 0 h now) s (fun e => done 3 e ∧ e.hoop h = { x with excl := true } ∧ SameMem d e)) ∧
    (x.state ≠ .free → Does (.hoopInterleave 0 h now) s (fun e => done 4 e ∧ e.hoop h = { x with excl := false } ∧ SameMem d e)) ∧
    (x.state ≠ .free → Does (.hoopReset 0 h now) s (fun e => OpDone pgHoop 0 0x1004 0x1008 (5 + 16 * h) .ok e ∧
      (e.hoop h).accepted = [] ∧ (e.hoop h).released = [])) ∧
    (h ≠ 0 → x.state ≠ .free → d.ctxCount h = 0 → d.grantedTo h = 0 → Does (.hoopDestroy 0 h now) s (fun e => done 6 e ∧ (e.hoop h).state = .free ∧ SameMem d e)) ∧
    (h = 0 ∨ x.state = .free ∨ d.ctxCount h ≠ 0 ∨ d.grantedTo h ≠ 0 → Does (.hoopDestroy 0 h now) s (OpFailed pgHoop 0 0x1004 0x1008 (6 + 16 * h) .badDescriptor d)) ∧
    (∀ se i code, (se, i, code) ∈ [(true, Instr.hoopSeal 0 h now, 7), (false, Instr.hoopUnseal 0 h now, 8)] → x.state ≠ .free → x.isSealed ≠ se →
      (se = false → x.joint = false) → d.lc.inForce = lcSecured →
      (d.applyErrs h se x.staged = [] → d.authorised h 0x01 x.staged.bytes 0 = true → d.hoopBusy h = false → Does i s (fun e => done code e ∧
        (e.hoop h).isSealed = se ∧ (e.hoop h).inForce = x.staged ∧ SameMem d e)) ∧
      (d.authorised h 0x01 x.staged.bytes 0 = false → Does i s (OpFailed pgHoop 0 0x1004 0x1008 (code + 16 * h) .authRequired d))) ∧
    (∀ port, port ≠ 0 → port ≤ 0x42 → Does (.hoopCreate port h now) s (fun e => Logged pgHoop port (errEntry pgHoop 0x1004 .port port (1 + 16 * h)) d e ∧ e.hoops = d.hoops))

/-- R295, R296, R299, R300; readings in quarters of a degree. -/
def Obligations.PromisesAndHeat : Prop :=
  (thermLevel (99000 * 10) = 7 ∧ ({ tPrice := 4331 } : Cmd).replayAllowance = 271) ∧
  ∀ (s : State) (trk now tile lane sensor r : Nat), s.dev.live = true →
    let d := s.dev.at now
    let m := d.cmd trk
    let withdrawn := fun (cause : Nat) (e : Dev) => e.cmd trk = { m with cause := cause } ∧
      e.regN pgHoop m.hoop 0x0170 = min (d.regN pgHoop m.hoop 0x0170 + 1) 0xFFFFFFFF ∧ (∀ n, n ≠ trk → e.cmd n = d.cmd n) ∧ SameMem d e
    (m.live = true → m.cls = 0 → m.released = true → m.cause = 0 → m.deadline < d.now → m.hoop < 16 → Does (.deadlinePassed trk now) s (withdrawn 0xF)) ∧
    (d.now ≤ m.deadline → Does (.deadlinePassed trk now) s (fun e => e = d)) ∧
    (m.live = true → m.cls = 0 → m.typ = tyExec → m.released = true → m.cause = 0 →
      (∃ t, t ∈ d.cmdTiles m ∧ m.replayAllowance < (d.tile t).replays - tabGet natDflt m.replayBase t) → Does (.replayLimit trk now) s (withdrawn 0x4)) ∧
    (m.cause ≠ 0 → Does (.replayLimit trk now) s (fun e => e = d) ∧ Does (.deadlinePassed trk now) s (fun e => e = d)) ∧
    Does (.exclusiveSwitchTimeout tile lane now) s (fun e => (tabGet natDflt (d.tile tile).exclCur lane ≠ 0 → lane ∈ (e.tile tile).exclDue) ∧
      (e.tile tile).exclCur = (d.tile tile).exclCur ∧ (∀ t, t ≠ tile → e.tile t = d.tile t) ∧ e.regs = d.regs ∧ SameMem d e) ∧
    (sensor < 56 → r ≤ 1023 → Does (.sensorSample sensor r now) s (fun e => tabGet natDflt e.therm.temps sensor = r ∧
      tabGet natDflt e.therm.maxes sensor = max r (tabGet natDflt d.therm.maxes sensor) ∧
      (420 < r → e.therm.safe = true) ∧ (r ≤ 420 → e.therm.safe = d.therm.safe) ∧
      (420 < r → d.therm.safe = false → ∀ n, (d.cmd n).live = true → (d.cmd n).cls = 0 → (d.cmd n).cause = 0 → (e.cmd n).cause = 2) ∧
      (460 < r → 1 ≤ tabGet natDflt d.therm.beyond sensor → e.aon.halted = true ∧ e.aon.halt.cause = 0x13) ∧
      (r ≤ 460 → e.aon.halted = false))) ∧
    Does (.thermalRelease now) s (fun e => e.therm.safe = (d.therm.safe && !(match d.therm.coolSince with
      | some c => decide (c + 1000000 ≤ d.now)
      | none => false)) ∧ e.cmds = d.cmds ∧ e.regs = d.regs ∧ SameMem d e) ∧
    (d.therm.intStart + 1000000 ≤ d.now → Does (.thermalIntervalEnd now) s (fun e => e.therm.intNo = d.therm.intNo + 1 ∧
      (∀ h, h < 16 → e.regN pgHoop h 0x0174 = (thermLevel (d.therm.safeNs (d.therm.intStart + 1000000)) + d.therm.intNo % 2 ^ 24 * 256) % 2 ^ 32) ∧ SameMem d e))

/-! ### The model cache (chapter 9) -/

/-- R194 Table 2, R198; `fits` says that no eviction is needed. -/
def Obligations.CacheOperations : Prop :=
  ∀ (s : State) (trk k now : Nat),
    let d := s.dev.at now
    let m := d.cmd trk
    let h := (d.ctx m.ctx).hoop
    let x := d.mce k
    let ready := fun (op : Nat) => d.begins trk tyCache = true ∧ m.cop = op ∧ m.cblockBad = false
    let finished := fun (e : Dev) => (e.cmd trk).stage = .finished ∧ (e.cmd trk).status = stCombine m.status 0 ∧ SameMem d e
    let others := fun (e : Dev) => ∀ j, j ≠ k → e.mce j = d.mce j
    (ready 1 → m.cflags = 0 → d.regBad h m = false → ∀ ps, d.mcPages m.ctx m.cvaddr m.cpages = (ps, []) → IsLowest k 1024 (fun j => (d.mce j).assigned = false) →
      d.mcEntriesOf h < (d.hoop h).inForce.mcEntries → (∀ t, t < 8 → (ps.filter (fun p => p.1 % 8 == t)).length ≤ d.mcQuota h) →
      Does (.cacheRegister trk now) s (fun e => finished e ∧ others e ∧
        e.mce k = { assigned := true, ctx := m.ctx, hoop := h, model := m.cmodel, vaddr := m.cvaddr, pages := ps })) ∧
    (ready 1 → (d.mcFind h m.cmodel).isSome = true → Does (.cacheRegister trk now) s (fun e => e.mc = d.mc ∧ (e.cmd trk).stage = .finished ∧
      (e.cmd trk).status = stCombine m.status 0x0103)) ∧
    (∀ op i, (op, i) ∈ [(2, Instr.cacheDrop trk now), (3, Instr.cachePin trk now), (4, Instr.cacheUnpin trk now), (5, Instr.cachePrefetch trk now)] →
      ready op → d.mcFind h m.cmodel = none → Does i s (fun e => e.mc = d.mc ∧ (e.cmd trk).stage = .finished ∧ (e.cmd trk).status = stCombine m.status 0x0103)) ∧
    (d.mcFind h m.cmodel = some k → x.hoop = h →
      (ready 2 → Does (.cacheDrop trk now) s (fun e => finished e ∧ others e ∧
        (x.holders = [] → x.filling = false → (e.mce k).assigned = false) ∧ (x.holders ≠ [] ∨ x.filling = true → e.mce k = { x with dropping := true }))) ∧
      (ready 3 → x.resident = true → d.pinOver x = false → Does (.cachePin trk now) s (fun e => finished e ∧ others e ∧
        e.mce k = { x with pinned := true, unpinPend := false })) ∧
      (ready 3 → d.pinOver x = true → Does (.cachePin trk now) s (fun e => e.mc = d.mc ∧ (e.cmd trk).status = stCombine m.status 0x0101)) ∧
      (ready 4 → x.pinned = true → x.unpinPend = false → Does (.cacheUnpin trk now) s (fun e => finished e ∧ others e ∧
        e.mce k = (if d.namedByG trk x.hoop x.model then { x with unpinPend := true } else { x with pinned := false }))) ∧
      (ready 5 → x.resident = true → Does (.cachePrefetch trk now) s (fun e => finished e ∧ e.mc = d.mc)) ∧
      (ready 5 → x.resident = false → x.filling = false → d.mcFits x = true → Does (.cachePrefetch trk now) s (fun e => others e ∧
        e.mce k = { x with filling := true, filler := m.ctx } ∧ (e.cmd trk).stage = .running ∧
        e.reg64 pgMcache m.ctx 0x1028 = (d.reg64 pgMcache m.ctx 0x1028 + 65536 * x.pages.length) % 2 ^ 64 ∧ SameMem d e))) ∧
    (d.live = true → x.assigned = true → x.filling = true →
      (d.fillRevoked x = false → (∀ p, p ∈ x.pages → d.anyPoison (p.1 * 65536) 65536 = false) → x.dropping = false → Does (.cacheFillDone k now) s (fun e => others e ∧
        e.mce k = { x with filling := false, resident := true } ∧ SameMem d e ∧
        (∀ t, (d.cmd t).live = true → (d.cmd t).typ = tyCache → (d.cmd t).started = true → (d.cmd t).stage = .running → (d.cmd t).hoop = x.hoop →
          (d.cmd t).lookup = [x.model] → (e.cmd t).stage = .finished))) ∧
      (d.fillRevoked x = true → Does (.cacheFillDone k now) s (fun e => (e.mce k).filling = false ∧
        (∀ t, t ∈ d.fillWaiters k → (d.cmd t).live = true → (e.cmd t).stage = .finished) ∧ SameMem d e)))
/-! ### The loader (chapter 6) -/

/-- R146, R272, R134; `loadCheck` is steps 1 to 5. x1 to x7 are zero by log entry 23. -/
def Obligations.LoaderCommands : Prop :=
  ∀ (s : State) (trk nclk now : Nat),
    let d := s.dev.at now
    let m := d.cmd trk
    let ended := fun (st : Status) (e : Dev) => (e.cmd trk).stage = .finished ∧ (e.cmd trk).status = stCombine m.status st.code ∧ ∀ n, n ≠ trk → e.cmd n = d.cmd n
    let placedNothing := fun (e : Dev) => e.tiles = d.tiles ∧ e.ctxs = d.ctxs ∧ e.sats = d.sats ∧ e.lsts = d.lsts ∧ e.pantry = d.pantry ∧ e.hostMem = d.hostMem
    (d.begins trk tySignal = true → Does (.signalCmd trk now) s (fun e => ended .ok e ∧ placedNothing e ∧ e.regs = d.regs ∧ SameMem d e)) ∧
    (d.begins trk tyExec = true →
      ((d.ctx m.ctx).pricking = none → Does (.execCmd trk now) s (fun e => ended .badDescriptor e ∧ placedNothing e ∧ SameMem d e)) ∧
      (∀ p, (d.ctx m.ctx).pricking = some p →
        (p.entries.find? (fun x => x.id == m.entry) = none → Does (.execCmd trk now) s (fun e => ended .badDescriptor e ∧ placedNothing e ∧ SameMem d e)) ∧
        (∀ x, p.entries.find? (fun x => x.id == m.entry) = some x →
          ((∃ t, t ∈ x.tiles ∧ (d.slot t.1 t.2.1).running ≠ none) → Does (.execCmd trk now) s (fun e => e = d)) ∧
          (x.tiles ≠ [] → (x.tiles.map (fun t => (t.1, t.2.1))).Nodup →
            (∀ t, t ∈ x.tiles → (d.slot t.1 t.2.1).running = none ∧ (d.slot t.1 t.2.1).valid = true) → Does (.execCmd trk now) s (fun e =>
              (e.cmd trk).started = true ∧ (e.cmd trk).stage = .running ∧ (∀ n, n ≠ trk → e.cmd n = d.cmd n) ∧
              (∀ t, t ∈ x.tiles →
                let y := e.slot t.1 t.2.1
                y.pc = t.2.2 ∧ y.running = some trk ∧ y.tokens = 0xFF ∧ y.loops = [] ∧ y.flight = [] ∧ y.step = m.stepOp ∧
                y.units = (d.slot t.1 t.2.1).units ∧ y.ctx = (d.slot t.1 t.2.1).ctx ∧
                (∀ i, i < 8 → tabGet natDflt y.xs (8 + i) = m.bf (8 * i) 8 ∧ tabGet natDflt y.xs i = 0)) ∧
              (∀ t k, (∀ y, y ∈ x.tiles → ¬ (t = y.1 ∧ k = y.2.1)) → e.slot t k = d.slot t k) ∧ e.regs = d.regs ∧ e.ctxs = d.ctxs ∧ SameMem d e))))) ∧
    (d.begins trk tyLoad = true → 128 ≤ m.block.length → m.ldOvr ≤ 96 → m.bf 29 3 = 0 → 128 ≤ m.ldRecLen →
      ((d.ctx m.ctx).pricking.isSome = true → Does (.loadCmd trk nclk now) s (fun e => ended .loaderReject e ∧ placedNothing e)) ∧
      (∀ head bs, (d.ctx m.ctx).pricking = none → d.readVa m.ctx m.ldImage (min 256 m.ldLen) = .data head →
        img head 0 8 = imgMagic → img head 16 8 = m.ldLen → d.readVa m.ctx m.ldImage m.ldLen = .data bs →
        (∀ x, d.loadCheck m bs = .error x → Does (.loadCmd trk nclk now) s (fun e => ended x.status e ∧ placedNothing e)) ∧
        (∀ p, d.loadCheck m bs = .ok p → Does (.loadCmd trk nclk now) s (fun e => ended .ok e ∧ (e.ctx m.ctx).pricking = some p.pricking ∧
          (∀ c, c ≠ m.ctx → e.ctx c = d.ctx c) ∧ e.hostMem = d.hostMem ∧ e.queues = d.queues)))) ∧
    (d.begins trk tyLoad = true → m.block.length < 128 ∨ 96 < m.ldOvr ∨ m.bf 29 3 ≠ 0 ∨ m.ldRecLen < 128 →
      Does (.loadCmd trk nclk now) s (fun e => ended .badDescriptor e ∧ placedNothing e ∧ e.regs = d.regs ∧ SameMem d e)) ∧
    (d.begins trk tyUnload = true →
      ((d.ctx m.ctx).pricking = none ∨ (∃ t, t ∈ d.cmdsOf (fun x => x.ctx == m.ctx) ∧ t ≠ trk) →
        Does (.unloadCmd trk now) s (fun e => ended .badDescriptor e ∧ placedNothing e ∧ e.regs = d.regs ∧ SameMem d e)) ∧
      ((d.ctx m.ctx).pricking ≠ none → (∀ t, t ∈ d.cmdsOf (fun x => x.ctx == m.ctx) → t = trk) →
        Does (.unloadCmd trk now) s (fun e => ended .ok e ∧ (e.ctx m.ctx).pricking = none ∧ (∀ c, c ≠ m.ctx → e.ctx c = d.ctx c) ∧
          (∀ t k, (t, k) ∈ d.slotsOf m.ctx → (e.slot t k).valid = false) ∧ (∀ t k, (t, k) ∉ d.slotsOf m.ctx → e.slot t k = d.slot t k) ∧
          e.regs = d.regs ∧ e.cellar = d.cellar ∧ e.hostMem = d.hostMem)))
/-! ### The darners (chapter 8) -/

namespace Sys2Proof.Machine
/-- A strip's reads and writes: all translate, no read meets a poisoned granule, and every write is taken. -/
def StripRuns (d : Dev) (c : Nat) (rd wr : List (Nat × Nat)) : Prop :=
  (∃ ps, d.reachRuns c false (intRuns rd) = .ok ps ∧ d.partsPoisoned ps = false) ∧ ∃ ps, d.reachRuns c true (intRuns wr) = .ok ps

/-- The device after cellar writes. -/
def Dev.wrote (d : Dev) (c : Nat) (ws : List (Nat × List Byte)) : Dev × Option Status := d.putCellar c (ws.map (fun w => ((w.1 : Int), w.2)))
end Sys2Proof.Machine

/-- R173, R175, R182, R184: where the list and the records can be read. -/
def Obligations.DarnerStarts : Prop :=
  ∀ (s : State) (trk now : Nat),
    let d := s.dev.at now
    let m := d.cmd trk
    let f := d.fence m.ufence
    let readable := StripRuns d m.ctx [(m.ulist, 8 * m.ucount)] [] ∧ StripRuns d m.ctx ((List.range m.ucount).map (fun i => (d.recAddr m i, 256))) []
    let kept := fun (e : Dev) => SameMem d e ∧ (∀ n, n ≠ trk → e.cmd n = d.cmd n) ∧ e.tiles = d.tiles ∧ e.hoops = d.hoops
    let ended := fun (st : Status) (e : Dev) => (e.cmd trk).stage = .finished ∧ (e.cmd trk).status = stCombine m.status st.code ∧ kept e
    let sameFences := fun (e : Dev) => ∀ n, n ≠ m.ufence → e.fence n = d.fence n
    let recorded := f.listAddr = m.ulist ∧ f.listCount = m.ucount ∧ f.updStep = m.ustep
    let started := fun (c : Nat) (e : Dev) => (e.cmd trk).started = true ∧ (e.cmd trk).cursor = c ∧ (e.cmd trk).stage = .running ∧ kept e
    d.begins trk tyUpdate = true →
      (∀ op i, (op, i) ∈ [(1, Instr.foldCmd trk now), (2, Instr.scanCmd trk now)] → m.uop = op → readable →
        (d.listBad m = false → d.entriesBad m = false → Does i s (fun e => started 0 e ∧ e.fences = d.fences)) ∧
        (d.listBad m = true ∨ d.entriesBad m = true → Does i s (fun e => ended .badDescriptor e ∧ e.fences = d.fences))) ∧
      (m.uop = 3 →
        (f.state = .free ∨ f.ctx ≠ m.ctx → Does (.stepCmd trk now) s (fun e => ended .accessDenied e ∧ e.fences = d.fences)) ∧
        (f.state ≠ .free → f.ctx = m.ctx →
          (f.state = .lost → Does (.stepCmd trk now) s (fun e => ended .badDescriptor e ∧ e.fence m.ufence = { f with running := none } ∧ sameFences e)) ∧
          (f.state = .incomplete → ¬ recorded → Does (.stepCmd trk now) s (fun e => ended .badDescriptor e ∧
            e.fence m.ufence = { f with running := none } ∧ sameFences e)) ∧
          (f.state = .idle → m.ustep ≤ f.step → Does (.stepCmd trk now) s (fun e => ended .ok e ∧ e.fence m.ufence = { f with running := none } ∧ sameFences e)) ∧
          (f.state = .idle → f.step < m.ustep → readable → d.listBad m = false → Does (.stepCmd trk now) s (fun e => started 0 e ∧ sameFences e ∧
            e.fence m.ufence = { f with state := .updating, listAddr := m.ulist, listCount := m.ucount, updStep := m.ustep, cursor := 0, running := some trk })) ∧
          (f.state = .incomplete → recorded → readable → d.listBad m = false → Does (.stepCmd trk now) s (fun e => started f.cursor e ∧ sameFences e ∧
            (e.fence m.ufence).state = .updating ∧ (e.fence m.ufence).running = some trk)) ∧
          (f.state = .idle → f.step < m.ustep → readable → d.listBad m = true → Does (.stepCmd trk now) s (fun e => ended .badDescriptor e ∧ sameFences e ∧
            (e.fence m.ufence).state = .idle))))

/-- R178 Table 5 for FOLD, SCAN and the elementwise rules of STEP; `g` is the strip that the cursor names. -/
def Obligations.StripCommits : Prop :=
  ∀ (s : State) (trk ce now : Nat),
    let d := s.dev.at now
    let m := d.cmd trk
    let p := stripFrom (d.stripCounts m) 0 m.cursor
    let r := d.prec m p.1
    let g := r.strip p.2
    let runs := d.live = true ∧ m.live = true ∧ m.started = true ∧ m.stage = .running ∧ m.typ = tyUpdate ∧ m.uop ≤ 3 ∧ 1 ≤ m.uop ∧ (m.uop = 3 → r.matrix = false)
    let lastRec := if m.uop = 3 ∧ g.last = true then [(r.addr, 256)] else []
    let o := if m.uop = 1 then d.foldStrip m r g else if m.uop = 2 then d.scanStrip m r g else d.stepStrip m r g
    let mx := fun (i v : Nat) => amaxKeep (m.scratch.getD i 0) v
    let ws := o.writes ++ (if m.uop = 3 ∧ g.last = true then lastWrites m r (mx 0 o.csMax) (mx 1 (amaxKeep o.mMax 0)) (mx 2 o.rMax) else [])
    (∀ n, runs → d.darnerFor m.cursor = some n → StripRuns d m.ctx (r.reads m.uop g) (r.writes m.uop g ++ lastRec) →
      ((d.wrote m.ctx ws).2 = none → Does (.darnerStripCommit trk ce false now) s (fun e =>
        e.cellar = (d.wrote m.ctx ws).1.cellar ∧ e.pantry = d.pantry ∧ e.hostMem = d.hostMem ∧ e.flash = d.flash ∧
        (∀ k, k ≠ trk → e.cmd k = d.cmd k) ∧ (∀ k, k ≠ m.ufence → e.fence k = d.fence k) ∧
        e.reg64 pgDarn n 0x0108 = (d.reg64 pgDarn n 0x0108 + 1) % 2 ^ 64 ∧
        (m.cursor + 1 < e.stripTotal m → (e.cmd trk).stage = .running ∧ (e.cmd trk).cursor = m.cursor + 1) ∧
        (e.stripTotal m ≤ m.cursor + 1 → (e.cmd trk).stage = .finished ∧
          (m.uop = 3 → (e.fence m.ufence).state = .idle ∧ (e.fence m.ufence).step = m.ustep ∧ (e.fence m.ufence).running = none)))) ∧
      (∀ st, (d.wrote m.ctx ws).2 = some st → st ≠ .integrityHalt → st ≠ .uncorrectableMemory → m.uop = 1 →
        Does (.darnerStripCommit trk ce false now) s (fun e => e.cellar = d.cellar ∧ (e.cmd trk).stage = .finished ∧
          (e.cmd trk).status = stCombine m.status st.code))) ∧
    (¬ (d.live = true ∧ m.live = true ∧ m.started = true ∧ m.stage = .running ∧ m.typ = tyUpdate) → ∀ ue, Does (.darnerStripCommit trk ce ue now) s (fun e => e = d)) ∧
    (∀ n, s.dev.live = true → n < 8 →
      (s.dev.darnerHolds n = none → Does (.darnerSramUe n) s (fun e => (e.darner n).out = true ∧ bit (e.regN pgDarn n 0x011C) 2 = true ∧
        (∀ j, j ≠ n → e.darner j = s.dev.darner j) ∧ SameMem s.dev e ∧
        (∀ t, (s.dev.cmd t).live = true → (s.dev.cmd t).cls = 0 → (s.dev.cmd t).typ = tyUpdate → (s.dev.cmd t).cause = 0 → (e.cmd t).cause = wDarner))) ∧
      (s.dev.darnerHolds n ≠ none → Does (.darnerSramUe n) s (fun e => e = s.dev)))
/-! ### Address translation and DMA (chapter 10) -/

/-- R218 to R221; MAP where no new table is needed. -/
def Obligations.MmuOperations : Prop :=
  ∀ (s : State) (trk now : Nat),
    let d := s.dev.at now
    let m := d.cmd trk
    let ready := fun (op : Nat) => d.begins trk tyMmu = true ∧ m.mop = op ∧ d.mmuHeld trk = false
    let done := fun (e : Dev) => (e.cmd trk).stage = .finished ∧ (e.cmd trk).status = stCombine m.status 0 ∧ ∀ n, n ≠ trk → e.cmd n = d.cmd n
    let failed := fun (sts : List Status) (e : Dev) => (e.cmd trk).stage = .finished ∧ (e.cmd trk).status = stAll sts ∧ e.pot = d.pot ∧ SameMem d e ∧
      ∀ n, n ≠ trk → e.cmd n = d.cmd n
    let inSpan := fun (p : Nat) => m.mppn ≤ p ∧ p < m.mppn + m.mcount
    let rewritten := fun (l : List (Nat × Nat × Nat × Nat)) (e : Dev) => (∀ x, x ∈ l → e.pte x.2.1 = m.newLeaf x.2.2.1) ∧
      (e.cmd trk).stage = .invalidating ∧ e.hostMem = d.hostMem ∧ (m.mop = 5 → e.pot = d.pot)
    let taken := fun (l : List (Nat × Nat × Nat × Nat)) => (d.putPtes (d.ctx m.ctx).tblKey (l.map (fun p => (p.2.1, m.newLeaf p.2.2.1)))).2 = .ok
    (ready 1 →
      (d.grantErrs m = [] → Does (.mmuGrant trk now) s (fun e => done e ∧ SameMem d e ∧ (∀ p, inSpan p → e.potOf p = { granted := true, hoop := m.mhoop }) ∧
        ∀ p, ¬ inSpan p → e.potOf p = d.potOf p)) ∧
      (d.grantErrs m ≠ [] → Does (.mmuGrant trk now) s (failed (d.grantErrs m)))) ∧
    (ready 2 →
      (d.reclaimErrs m = [] → Does (.mmuReclaim trk now) s (fun e => done e ∧ (∀ p, inSpan p → e.potOf p = {}) ∧ (∀ p, ¬ inSpan p → e.potOf p = d.potOf p) ∧
        (∀ a, inSpan (a / 65536) → memGet e.cellar a = 0) ∧ (∀ a, ¬ inSpan (a / 65536) → memGet e.cellar a = memGet d.cellar a))) ∧
      (d.reclaimErrs m ≠ [] → Does (.mmuReclaim trk now) s (failed (d.reclaimErrs m)))) ∧
    (ready 3 →
      (d.mapErrs m = [] → d.needs1 m = false → d.needs2 m = false →
        (((span m.mppn m.mpages).foldl (fun x p => x.mapPage m.mkey p) d).putPtes (d.ctx m.ctx).tblKey (d.mapEntries m)).2 = .ok →
        Does (.mmuMap trk now) s (fun e => done e ∧ (∀ x, x ∈ d.mapEntries m → e.pte x.1 = x.2) ∧
          (∀ p, m.mppn ≤ p → p < m.mppn + m.mpages → e.potOf p = { d.potOf p with bound := true, key := m.mkey, maps := (d.potOf p).maps + 1 }) ∧
          (∀ p, p < m.mppn ∨ m.mppn + m.mpages ≤ p → e.potOf p = d.potOf p))) ∧
      (d.mapErrs m ≠ [] → Does (.mmuMap trk now) s (failed (d.mapErrs m)))) ∧
    (∀ op i, (op, i) ∈ [(4, Instr.mmuUnmap trk now), (5, Instr.mmuProtect trk now)] → ready op →
      (m.unmapFormBad = true ∨ d.rangeLeaves m = none → Does i s (fun e => (e.cmd trk).stage = .finished ∧
        (e.cmd trk).status = stCombine m.status 0x0103 ∧ e.pot = d.pot ∧ SameMem d e)) ∧
      (∀ l, m.unmapFormBad = false → d.rangeLeaves m = some l →
        (d.unpinWaits m l = true → Does i s (fun e => (e.cmd trk).stage = .deferred ∧ e.pot = d.pot ∧ SameMem d e ∧ e.ctxs = d.ctxs)) ∧
        (d.unpinWaits m l = false → taken l → Does i s (rewritten l)))) ∧
    (∀ op i, (op, i) ∈ [(1, Instr.mmuGrant trk now), (2, .mmuReclaim trk now), (3, .mmuMap trk now), (4, .mmuUnmap trk now), (5, .mmuProtect trk now)] →
      d.begins trk tyMmu = true → m.mop = op → d.mmuHeld trk = true → Does i s (fun e => (e.cmd trk).stage = .deferred ∧ e.pot = d.pot ∧ SameMem d e)) ∧
    (d.live = true → m.live = true →
      (m.stage = .invalidating → Does (.mmuInvalidationDone trk now) s (fun e => done e ∧ e.pot = d.pot ∧ SameMem d e ∧ e.regs = d.regs)) ∧
      (m.stage ≠ .invalidating → Does (.mmuInvalidationDone trk now) s (fun e => e = d)) ∧
      (m.stage ≠ .deferred ∨ d.mmuHeld trk = true → Does (.mmuDeferredProceed trk now) s (fun e => e = d)) ∧
      (m.stage = .deferred → d.mmuHeld trk = false →
        (m.mop = 1 → d.grantErrs m = [] → Does (.mmuDeferredProceed trk now) s (fun e => done e ∧ ∀ p, inSpan p → e.potOf p = { granted := true, hoop := m.mhoop })) ∧
        (∀ l, m.mop = 4 ∨ m.mop = 5 → m.unmapFormBad = false → d.rangeLeaves m = some l → d.unpinWaits m l = false → taken l →
          Does (.mmuDeferredProceed trk now) s (rewritten l))))

/-- R223; the record is the one that the port's `BLK_SEL` and `MMU_FIDX` name. -/
def Obligations.FaultAnswers : Prop :=
  ∀ (s : State) (port now : Nat), s.dev.live = true → Served port pgMmu →
    let d := s.dev.at now
    let c := d.sel pgMmu port
    let n := d.bankN pgMmu port 0x0110 % 16
    let f := d.faultOf c n
    let t := f.tracker
    let ended := fun (k j : Nat) (e : Dev) => (e.faultOf k j).pending = false ∧
      ((d.ctx k).state = .active → (e.ctx k).pricking = none ∧ ((d.cmd (d.faultOf k j).tracker).ctx = k → (e.cmd (d.faultOf k j).tracker).live = false))
    let resumed := fun (e : Dev) => (e.faultOf c n).pending = false ∧ SameMem d e ∧ ((d.cmd t).live = true → (d.cmd t).cls = 0 → (d.cmd t).cause = 0 → (e.cmd t).cause = wFault)
    (d.seesCtx port c = true → f.pending = true →
      ((∀ l, d.translate c f.va f.write ≠ .notMapped l) →
        (f.client = .tile → Does (.mmuFRespResume port now) s (fun e => resumed e ∧
          (∀ k, k < 16 → (d.slot f.unit k).ctx = c → (d.slot f.unit k).suspended = some n → (e.slot f.unit k).suspended = none) ∧
          (∀ u k, u ≠ f.unit → e.slot u k = d.slot u k))) ∧
        (f.client = .darner ∨ f.client = .shuttle ∨ f.client = .storage → (d.cmd t).live = true → Does (.mmuFRespResume port now) s (fun e => resumed e ∧
          (e.cmd t).stage = .running ∧ e.tiles = d.tiles)) ∧
        (f.client = .dma → (d.cmd t).live = true → (d.cmd t).dRecReady = true → Does (.mmuFRespResume port now) s (fun e => resumed e ∧
          (e.cmd t).stage = .running ∧ (e.channel f.unit).suspended = false ∧ e.tiles = d.tiles))) ∧
      (∀ l, d.translate c f.va f.write = .notMapped l → Does (.mmuFRespResume port now) s (ended c n)) ∧
      Does (.mmuFRespAbort port now) s (ended c n)) ∧
    (d.seesCtx port c = true → f.pending = false → Does (.mmuFRespResume port now) s (fun e => e = d) ∧ Does (.mmuFRespAbort port now) s (fun e => e = d)) ∧
    (d.seesCtx port c = false → ∀ v i, (v, i) ∈ [(1, Instr.mmuFRespResume port now), (2, Instr.mmuFRespAbort port now)] → Does i s (fun e => e.ctxs = d.ctxs ∧ e.cmds = d.cmds ∧
      e.tiles = d.tiles ∧ SameMem d e ∧ Logged pgMmu port (errEntry pgMmu 0x0124 .notVisible port v) d e)) ∧
    (∀ k j, (d.faultOf k j).pending = true → (d.faultOf k j).time + 10 * d.regN pgMmu 0 0x1000 ≤ d.now → Does (.faultAnswerTimeout k j now) s (ended k j)) ∧
    (∀ k j, (d.faultOf k j).pending = false ∨ d.now < (d.faultOf k j).time + 10 * d.regN pgMmu 0 0x1000 → Does (.faultAnswerTimeout k j now) s (fun e => e = d))

/-- R224 to R229; segments complete in order (log entry 26), no other DMA command waits. -/
def Obligations.DmaTransfers : Prop :=
  (∀ (s : State) (trk op now : Nat) (i : Instr), (op, i) ∈ [(1, Instr.dmaCopy trk now), (2, Instr.dmaTranspose trk now), (3, Instr.dmaFill trk now)] →
    let d := s.dev.at now
    let m := d.cmd trk
    let first := d.live = true ∧ m.live = true ∧ m.typ = tyDma ∧ m.dop = op ∧ d.dmaFirst (d.dmaWaiting m.hoop) = some trk
    (first → m.dmaBad = true → Does i s (fun e => (e.cmd trk).stage = .finished ∧ (e.cmd trk).status = stCombine m.status 0x0103 ∧ e.dmaCh = d.dmaCh ∧ SameMem d e)) ∧
    (first → m.dmaBad = false → (∀ n, n < 16 → bit (d.hoop m.hoop).inForce.dma n = true → (d.channel n).busy = true) → Does i s (fun e => e = d)) ∧
    (∀ n ps, first → m.dmaBad = false → IsLowest n 16 (fun k => bit (d.hoop m.hoop).inForce.dma k = true ∧ (d.channel k).busy = false) →
      d.reachFrom m.ctx true (pieces m.dResult (32 + cdiv m.dSegs 8)) = .ok ps → Does i s (fun e =>
        (e.channel n).busy = true ∧ (e.channel n).tracker = trk ∧ (e.cmd trk).dRecReady = true ∧ (e.cmd trk).cursor = m.cursor ∧
        (∀ k, k ≠ n → e.channel k = d.channel k) ∧ (∀ k, k ≠ trk → e.cmd k = d.cmd k) ∧ SameMem d e ∧ e.regs = d.regs)) ∧
    (d.live = false ∨ m.typ ≠ tyDma ∨ m.dop ≠ op ∨ d.dmaFirst (d.dmaWaiting m.hoop) ≠ some trk → Does i s (fun e => e = d))) ∧
  ∀ (s : State) (n cyc now : Nat), s.dev.live = true → n < 16 →
    let d := s.dev.at now
    let trk := (d.channel n).tracker
    let m := d.cmd trk
    let ps := m.dSeg m.cursor
    let spages := if m.dSrcSp = 0 then dSrcPages ps else []
    let dpages := if m.dDstSp = 0 then dDstPages ps else []
    let runs := (d.channel n).busy = true ∧ (d.channel n).suspended = false ∧ m.live = true ∧ m.stage = .running ∧ m.dRecReady = true ∧ m.typ = tyDma
    let next := fun (e : Dev) => (m.cursor + 1 < m.dSegs → (e.cmd trk).cursor = m.cursor + 1 ∧ (e.cmd trk).stage = .running ∧ e.channel n = d.channel n) ∧
      (m.dSegs ≤ m.cursor + 1 → (e.cmd trk).stage = .finished ∧ (e.channel n).busy = false)
    (¬ runs → m.typ = tyDma → ∀ ue b, Does (.dmaSegmentComplete n ue b cyc now) s (fun e => e = d)) ∧
    (∀ src dst ue hostBad, runs → (∀ h, d.dmaWaiting h = []) → d.dmaHostOk m ps = true → d.reachFrom m.ctx false spages = .ok src → d.reachFrom m.ctx true dpages = .ok dst →
      d.dmaEgressOk m src = true →
      (ue = 0 → hostBad = false → d.partsPoisoned src = false → m.dDstSp = 0 → (d.putParts dst (d.dmaBytes m ps src)).2 = .ok →
        Does (.dmaSegmentComplete n ue hostBad cyc now) s (fun e => next e ∧ e.hostMem = d.hostMem ∧
          (e.cmd trk).failed = m.failed ∧ e.reg64 pgDma n 0x0118 = (d.reg64 pgDma n 0x0118 + m.dSegBytes m.cursor) % 2 ^ 64 ∧
          (m.cursor + 1 < m.dSegs → e.cellar = (d.putParts dst (d.dmaBytes m ps src)).1.cellar))) ∧
      (ue = 0 → hostBad = false → d.partsPoisoned src = false → m.dDstSp = 1 → Does (.dmaSegmentComplete n ue hostBad cyc now) s (fun e => next e ∧
        (e.cmd trk).failed = m.failed ∧ e.hostMem = (d.hostPut ps (d.dmaBytes m ps src)).hostMem)) ∧
      (∀ p, ue ≠ 0 → src[ue - 1]? = some p → m.dDstSp = 0 → Does (.dmaSegmentComplete n ue hostBad cyc now) s (fun e => next e ∧
        (e.cmd trk).failed = m.failed ++ [m.cursor] ∧ p.1 / 65536 ∈ e.retireQ ∧ e.hostMem = d.hostMem)) ∧
      (ue = 0 → hostBad = true → m.dSrcSp = 1 → Does (.dmaSegmentComplete n ue hostBad cyc now) s (fun e => next e ∧ (e.cmd trk).failed = m.failed ++ [m.cursor] ∧
        e.retireQ = d.retireQ))) ∧
    (∀ va l ue hostBad, runs → d.dmaHostOk m ps = true → d.reachFrom m.ctx false spages = .notMapped va l →
      (∃ k, k < 16 ∧ (d.faultOf m.ctx k).pending = false) → Does (.dmaSegmentComplete n ue hostBad cyc now) s (fun e => SameMem d e ∧
        (e.channel n).suspended = true ∧ (e.cmd trk).stage = .faulted ∧ ∃ k, k < 16 ∧ (d.faultOf m.ctx k).pending = false ∧ (e.faultOf m.ctx k).pending = true ∧
          (e.faultOf m.ctx k).va = va ∧ (e.faultOf m.ctx k).tracker = trk))
/-! ### Encryption and integrity of the cellar (chapter 11) -/

/-- R242 to R251, R448, R456; `q` is the request (log entry 27). -/
def Obligations.CellarRequests : Prop :=
  ∀ (s : State) (q : CelReq) (bytes : List Byte) (c : Checks) (now : Nat), s.dev.live = true →
    let d := s.dev.at now
    let b := d.group (paGroup q.pa)
    let i := paGran q.pa
    let k := d.key q.key
    let clean := (c.ecc = .clean ∨ c.ecc = .corrected) ∧ c.mac = .good
    let current := q.pa < usableEnd ∧ d.unitKey q = .current
    let whole := bytes.length = 256 ∧ q.pa % 256 = 0
    let part := bytes ≠ [] ∧ bytes.length < 256 ∧ q.pa % 256 + bytes.length ≤ 256
    let roomy := d.keySpent q.key = false ∧ b.epoch = k.epoch ∧ (k.phaseLimit = 0 ∨ k.uses + 64 < k.phaseLimit) ∧ b.major + 1 < 2 ^ 56
    let stored := fun (e : Dev) => e.cellar = memWrite d.cellar q.pa bytes ∧ e.granZero q.pa = false ∧ e.granPoisoned q.pa = false ∧
      (∀ g, g ≠ paGroup q.pa → e.group g = d.group g) ∧ e.reg64 (pgCel + paStack q.pa) 0 0x1020 = (d.reg64 (pgCel + paStack q.pa) 0 0x1020 + bytes.length) % 2 ^ 64 ∧
      e.hostMem = d.hostMem ∧ e.pantry = d.pantry ∧ e.cmds = d.cmds
    let minorUp := fun (e : Dev) => b.minor i < 255 → (e.group (paGroup q.pa)).minor i = b.minor i + 1 ∧ (e.group (paGroup q.pa)).major = b.major ∧ (e.key q.key).uses = k.uses + 1
    let majorUp := fun (e : Dev) => b.minor i = 255 → (e.group (paGroup q.pa)).minor i = 0 ∧ (e.group (paGroup q.pa)).major = b.major + 1 ∧
      e.reg64 pgMenc (paStack q.pa) 0x011C = (d.reg64 pgMenc (paStack q.pa) 0x011C + 1) % 2 ^ 64
    (usableEnd ≤ q.pa → exec (.cellarRead q c now) s = .fault (.noSuchAddress q.pa) ∧ exec (.cellarWrite q bytes c now) s = .fault (.noSuchAddress q.pa) ∧
      exec (.cellarPartialWrite q bytes c now) s = .fault (.noSuchAddress q.pa)) ∧
    (current → clean → d.granPoisoned q.pa = false → Does (.cellarRead q c now) s (fun e => SameMem d e ∧ e.groups = d.groups ∧ e.keys = d.keys ∧ e.cmds = d.cmds ∧
      e.reg64 (pgCel + paStack q.pa) 0 0x1018 = (d.reg64 (pgCel + paStack q.pa) 0 0x1018 + (if d.granZero q.pa = true then 0 else 256)) % 2 ^ 64)) ∧
    (current → clean → whole → roomy → Does (.cellarWrite q bytes c now) s (fun e => stored e ∧ minorUp e ∧ majorUp e)) ∧
    (current → clean → part → roomy → d.granPoisoned q.pa = false → Does (.cellarPartialWrite q bytes c now) s (fun e => stored e ∧ minorUp e ∧ majorUp e)) ∧
    (current → clean → part → d.granPoisoned q.pa = true → Does (.cellarPartialWrite q bytes c now) s (fun e => SameMem d e ∧ e.groups = d.groups ∧
      ((d.cmd q.tracker).live = true → (e.cmd q.tracker).status = stCombine (d.cmd q.tracker).status Status.uncorrectableMemory.code))) ∧
    (∀ st, q.pa < usableEnd → d.unitKey q = .refused st → part ∨ whole → ∀ op, op ∈ [Instr.cellarRead q c now, if bytes.length = 256 then Instr.cellarWrite q bytes c now else Instr.cellarPartialWrite q bytes c now] →
      Does op s (fun e => SameMem d e ∧ e.groups = d.groups ∧ e.regs = d.regs ∧
        ((d.cmd q.tracker).live = true → (e.cmd q.tracker).status = stCombine (d.cmd q.tracker).status st.code))) ∧
    (current → c.ecc = .clean → c.mac = .granuleBad → d.granPoisoned q.pa = false → d.granZero q.pa = false → Does (.cellarRead q c now) s (fun e =>
      e.aon.halted = true ∧ e.aon.halt.valid = true ∧ e.aon.halt.cause = 1 ∧ e.aon.halt.addr = fld q.pa 38 8 ∧ SameMem d e ∧ e.live = false)) ∧
    (current → c.ecc = .dataUe → c.mac = .good → d.granPoisoned q.pa = false → d.granZero q.pa = false → q.client ≠ 0 → q.client ≠ 2 →
      Does (.cellarRead q c now) s (fun e => e.granPoisoned q.pa = true ∧ q.pa / 65536 ∈ e.retireQ ∧ SameMem d e ∧ e.cmds = d.cmds)) ∧
    (∀ key, (d.key key).sweeping = true → (d.key key).state ≠ .draining → (d.key key).deckReady = false → (d.key key).phase ≠ 255 →
      Does (.rekeySweepComplete key now) s (fun e => (e.key key).sweeping = false ∧ (e.key key).prevKept = false ∧ SameMem d e ∧
        (∀ p g, (d.potOf p).bound = true → (d.potOf p).key = key → g / 4 = p → (e.group g).epoch = (d.key key).epoch) ∧ ∀ n, n ≠ key → e.key n = d.key n)) ∧
    (∀ key, (d.key key).state = .draining → Does (.scrubAfterDrain key now) s (fun e => e.key key = { gen := (d.key key).gen } ∧ (∀ n, n ≠ key → e.key n = d.key n) ∧
      (∀ p, (d.potOf p).bound = true → (d.potOf p).key = key → (e.potOf p).bound = false ∧ ∀ a, a / 65536 = p → memGet e.cellar a = 0) ∧
      (∀ p, p ∉ d.boundPages key → e.potOf p = d.potOf p ∧ ∀ a, a / 65536 = p → memGet e.cellar a = memGet d.cellar a))) ∧
    (∀ ppn ue, d.retireQ.head? = some ppn →
      (d.regN (pgCel + ppn % 8) 0 0x1008 ≠ 0 → Does (.pageRetireCopy ppn ue now) s (fun e => e.retireQ = d.retireQ.tail ∧ ppn ∈ e.aon.retired ∧ SameMem d e ∧ e.pot = d.pot ∧
        e.regN (pgCel + ppn % 8) 0 0x1008 = (d.regN (pgCel + ppn % 8) 0 0x1008 - 1) % 2 ^ 32)) ∧
      (d.regN (pgCel + ppn % 8) 0 0x1008 = 0 → Does (.pageRetireCopy ppn ue now) s (fun e => e.retireQ = d.retireQ.tail ∧ e.aon.retired = d.aon.retired ∧ SameMem d e ∧
        bit (e.regN (pgCel + ppn % 8) 0 0x1000) 2 = true))) ∧
    (∀ x cause pa f, (d.ctx x).state ≠ .free →
      Does (.requestDrop x cause false pa f now) s (fun e => SameMem d e ∧ e.fences = d.fences ∧ e.ras.head = (d.ras.head + 1) % 256) ∧
      (∀ n, f = some n → (d.fence n).ctx = x → (d.fence n).state = .updating ∨ (d.fence n).state = .incomplete → Does (.requestDrop x cause true pa f now) s (fun e =>
        (e.fence n).state = .lost ∧ e.hostMem = d.hostMem ∧ ∀ a, a / 256 ≠ pa / 256 → memGet e.cellar a = memGet d.cellar a)))
/-! ### Acaunel links (chapter 14) -/

/-- R308 to R310, R323, R336; `p` is the link port. -/
def Obligations.PortTraining : Prop :=
  ∀ (s : State) (port p : Nat), s.dev.live = true → p < 16 →
    let d := s.dev
    let x := d.lk p
    let others := fun (e : Dev) => SameMem d e ∧ ∀ q, q ≠ p → e.lk q = d.lk q
    let flag := fun (b : Nat) (e : Dev) => bit (e.regN pgAlnk p 0x0128) b = true
    let down := fun (e : Dev) => (e.lk p).state = .down ∧ flag 5 e ∧ e.fab.epoch = (d.fab.epoch + 1) % 2 ^ 32 ∧ (e.lk p).pairs = [] ∧ (e.lk p).retry = []
    (ctlPort port = false → Does (.alnkEnable port p) s (fun e => e = d) ∧ Does (.alnkRetrain port p) s (fun e => e = d)) ∧
    (ctlPort port = true →
      (x.state = .disabled ∨ x.state = .down → Does (.alnkEnable port p) s (fun e => others e ∧ (e.lk p).state = .training ∧ (e.lk p).retraining = false ∧
        (e.lk p).pairs = [] ∧ e.regN pgAlnk p 0x011C = 1)) ∧
      (x.state ≠ .disabled → x.state ≠ .down → Does (.alnkEnable port p) s (fun e => others e ∧ e.lk p = x)) ∧
      (x.vc0 = true → Does (.alnkRetrain port p) s (fun e => others e ∧ (e.lk p).state = .training ∧ (e.lk p).retraining = true ∧ (e.lk p).retry = x.retry ∧
        (e.lk p).tx = x.tx ∧ (e.lk p).good = x.good ∧ e.regs = d.regs))) ∧
    (x.state = .down → bit (d.regN pgAlnk p 0x011C) 0 = true → Does (.portPeerDetect p) s (fun e => others e ∧ (e.lk p).state = .training ∧ e.regs = d.regs)) ∧
    (x.state ≠ .down ∨ bit (d.regN pgAlnk p 0x011C) 0 = false → Does (.portPeerDetect p) s (fun e => e = d)) ∧
    (x.state = .training →
      (x.retraining = false → Does (.trainingTimeout p) s (fun e => e.ports = d.ports ∧ flag 8 e ∧ SameMem d e)) ∧
      (x.retraining = true → Does (.trainingTimeout p) s down)) ∧
    (∀ good peer prio pp hl crc, x.state = .training →
      (x.retraining = true → Does (.trainingComplete p good peer prio pp hl crc) s (fun e => others e ∧
        (e.lk p).state = (if x.wasActive then .active else .vc0Only) ∧ (e.lk p).retraining = false ∧ (e.lk p).good = x.good)) ∧
      (x.retraining = false → 4 ≤ (goodLanes good).length → Does (.trainingComplete p good peer prio pp hl crc) s (fun e => SameMem d e ∧
        (e.lk p).state = .vc0Only ∧ (e.lk p).x4 = decide ((goodLanes good).length < 8) ∧ (e.lk p).good = good % 512 ∧ (e.lk p).peerSerial = peer ∧ (e.lk p).hoplat = hl ∧
        (e.lk p).leader = (decide (d.regN pgAlnk 0 0x1004 % 256 * 2 ^ 64 + s.fuses.serial < prio % 256 * 2 ^ 64 + peer) ||
          (d.regN pgAlnk 0 0x1004 % 256 * 2 ^ 64 + s.fuses.serial == prio % 256 * 2 ^ 64 + peer && decide (p < pp))) ∧
        (e.lk p).mismatch = (crc != x.tableCrc) ∧ e.fab.epoch = (d.fab.epoch + 1) % 2 ^ 32)) ∧
      (x.retraining = false → (goodLanes good).length < 4 → Does (.trainingComplete p good peer prio pp hl crc) s (fun e => e.ports = d.ports ∧ flag 8 e))) ∧
    (∀ lane, bit x.good lane = true → x.vc0 = true → lane < 9 →
      (∀ i sp, x.x4 = false → IsLowest i 8 (fun j => x.lane j = lane) → IsLowest sp 9 (fun l => bit (x.good - 2 ^ lane) l = true ∧ ∀ j, j < 8 → x.lane j ≠ l) →
        Does (.laneBad p lane) s (fun e => others e ∧ (e.lk p).lane i = sp ∧ (∀ j, j < 8 → j ≠ i → (e.lk p).lane j = x.lane j) ∧ (e.lk p).spareUsed = true ∧
          (e.lk p).state = x.state ∧ (e.lk p).good = x.good - 2 ^ lane ∧ flag 3 e)) ∧
      (∀ i, x.x4 = false → IsLowest i 8 (fun j => x.lane j = lane) → (∀ l, l < 9 → bit (x.good - 2 ^ lane) l = true → ∃ j, j < 8 ∧ x.lane j = l) →
        (4 ≤ (goodLanes (x.good - 2 ^ lane)).length → Does (.laneBad p lane) s (fun e => others e ∧ (e.lk p).state = .training ∧ (e.lk p).retraining = true ∧ (e.lk p).x4 = true ∧
          (e.lk p).lmap = lmapOf (goodLanes (x.good - 2 ^ lane)) 4 ∧ (e.lk p).retry = x.retry ∧ flag 4 e)) ∧
        ((goodLanes (x.good - 2 ^ lane)).length < 4 → Does (.laneBad p lane) s down)) ∧
      ((∀ j, j < 8 → x.lane j ≠ lane) → Does (.laneBad p lane) s (fun e => others e ∧ e.regs = d.regs ∧ e.lk p = { x with good := x.good - 2 ^ lane }))) ∧
    (∀ f, x.vc0 = true → Does (.linkHealthWindow p f) s (fun e => others e ∧ (e.lk p).rate = min 65536 (f * 17 / 2048) ∧
      ((e.lk p).slow = true ↔ min 65536 (f * 17 / 2048) < 58982) ∧ ((e.lk p).slow = true → flag 7 e) ∧ (e.lk p).state = x.state))

/-- R314, R317, R318, R321; the swaps are the follower's. -/
def Obligations.FlitsAndRecords : Prop :=
  ∀ (s : State) (p now : Nat), s.dev.live = true → p < 16 →
    let d := s.dev
    let dn := s.dev.at now
    let x := d.lk p
    let others := fun (e : Dev) => SameMem d e ∧ ∀ q, q ≠ p → e.lk q = d.lk q
    let flag := fun (b : Nat) (e : Dev) => bit (e.regN pgAlnk p 0x0128) b = true
    (∀ bytes ce ue, x.vc0 = true →
      (ue ≠ 0 ∨ x.flitFails bytes = true → Does (.flitReceive p bytes ce ue) s (fun e => others e ∧ (e.lk p).rxFailing = true ∧ (e.lk p).rxNext = x.rxNext ∧ (e.lk p).rx = x.rx ∧
        (e.lk p).retry = x.retry ∧ e.regN pgAlnk p 0x0148 = min (d.regN pgAlnk p 0x0148 + ce) 0xFFFFFFFF ∧ (x.rxFailing = false → e.out.length = d.out.length + 1))) ∧
      (ue = 0 → x.flitFails bytes = false → fld (bytesNat bytes 0 12) 1 0 = 1 → x.leader = false → Does (.flitReceive p bytes ce ue) s (fun e => others e ∧
        (e.lk p).rxFailing = false ∧ (e.lk p).rxNext = (x.rxNext + 1) % 4096 ∧
        (let k := streamKey (fld (bytesNat bytes 0 12) 8 5) (fld (bytesNat bytes 0 12) 4 2)
         (tabGet (fun _ => ({} : RxStream)) (e.lk p).rx k).bytes =
           (tabGet (fun _ => ({} : RxStream)) x.rx k).bytes ++ ((bytes.drop 12).take 240).take (fld (bytesNat bytes 0 12) 25 18 + 1)) ∧
        e.reg64 pgAlnk p 0x0138 = (d.reg64 pgAlnk p 0x0138 + 1) % 2 ^ 64))) ∧
    (x.vc0 = true → x.retry ≠ [] → Does (.flitReplayTimeout p) s (fun e => others e ∧ (e.lk p).retry = x.retry ∧
      e.reg64 pgAlnk p 0x0140 = (d.reg64 pgAlnk p 0x0140 + x.retry.length) % 2 ^ 64 ∧ e.out.length = d.out.length + x.retry.length ∧
      (15 ≤ x.replays → (e.lk p).state = .training ∧ (e.lk p).retraining = true) ∧ (x.replays < 15 → (e.lk p).state = x.state ∧ (e.lk p).replays = x.replays + 1))) ∧
    (x.vc0 = true → 512 ≤ x.retry.length → Does (.retryBufferStall p) s (fun e => others e ∧ (e.lk p).state = .training ∧ (e.lk p).retraining = true ∧ (e.lk p).retry = x.retry)) ∧
    (x.retry.length < 512 → Does (.retryBufferStall p) s (fun e => e = d)) ∧
    (∀ share vc, x.state = .active → (tabGet (fun _ => ({} : TxStream)) x.tx (streamKey share vc)).records ≠ [] → x.streamBuf share vc ≤ tabGet natDflt x.used (streamKey share vc) →
      ((∀ t, x.creditTmo = some t → t + 1000000000 ≤ dn.now) → Does (.creditWatchdog p share vc now) s (fun e => others e ∧ flag 2 e ∧ (e.lk p).state = .training ∧
        (e.lk p).retraining = true ∧ (e.lk p).creditTmo = some dn.now ∧ (e.lk p).tx = x.tx)) ∧
      (∀ t, x.creditTmo = some t → dn.now < t + 1000000000 → Does (.creditWatchdog p share vc now) s (fun e => flag 2 e ∧ flag 5 e ∧ (e.lk p).state = .down))) ∧
    (∀ port, ctlPort port = true → x.leader = false → Does (.vcApply port p) s (fun e => others e ∧ (e.lk p).swapPending = true ∧ (e.lk p).swapFailed = false ∧
      (e.lk p).slots = x.slots ∧ (e.lk p).shareEn = x.shareEn)) ∧
    (∀ crc instant, x.vc0 = true → x.leader = false →
      (instant = 0 → Does (.shareSwap p crc instant) s (fun e => others e ∧ e.lk p = { x with peerStaged := some crc })) ∧
      (instant ≠ 0 → x.swapPending = true → crc = d.stagedCrc p → Does (.shareSwap p crc instant) s (fun e => others e ∧ (e.lk p).slots = (d.stagedTables p).1 ∧
        (e.lk p).shareHoop = (d.stagedTables p).2.1 ∧ (e.lk p).shareEn = (d.stagedTables p).2.2 ∧ (e.lk p).swapPending = false ∧ (e.lk p).mismatch = false))) ∧
    (x.swapPending = true → Does (.shareSwapTimeout p) s (fun e => others e ∧ e.regs = d.regs ∧ e.lk p = { x with swapPending := false, swapFailed := true, peerStaged := none })) ∧
    (∀ share vc cyc r, (x.rxStream share vc).record = some r →
      (x.checkRecord r = .stale → Does (.linkRecordReceive p share vc cyc now) s (fun e => others e ∧ (e.lk p).pairs = x.pairs ∧ SameObjects d e ∧ e.groupTab = d.groupTab ∧
        e.regN pgAlnk p 0x0150 = min (d.regN pgAlnk p 0x0150 + 1) 0xFFFFFFFF)) ∧
      (x.checkRecord r = .counter → Does (.linkRecordReceive p share vc cyc now) s (fun e => others e ∧ (e.lk p).pairs = x.pairs ∧ SameObjects d e ∧ e.groupTab = d.groupTab ∧
        e.regN pgAlnk p 0x0154 = min (d.regN pgAlnk p 0x0154 + 1) 0xFFFFFFFF)) ∧
      (x.checkRecord r = .tag → (x.tagFails.filter (fun t => decide (dn.now < t + 1000000000))).length < 2 → Does (.linkRecordReceive p share vc cyc now) s (fun e => others e ∧
        (e.lk p).pairs = x.pairs ∧ SameObjects d e ∧ e.groupTab = d.groupTab ∧ e.regN pgAlnk p 0x0158 = min (d.regN pgAlnk p 0x0158 + 1) 0xFFFFFFFF)) ∧
      (x.checkRecord r = .tag → 2 ≤ (x.tagFails.filter (fun t => decide (dn.now < t + 1000000000))).length → x.vc0 = true →
        Does (.linkRecordReceive p share vc cyc now) s (fun e => (e.lk p).state = .down ∧ flag 6 e)) ∧
      (∀ i y pay, x.checkRecord r = .good i y pay → bytesNat r 3 1 = 2 ∨ bytesNat r 3 1 = 4 → Does (.linkRecordReceive p share vc cyc now) s (fun e => others e ∧
        tabGet pairDflt (e.lk p).pairs i = y ∧ (∀ j, j ≠ i → tabGet pairDflt (e.lk p).pairs j = tabGet pairDflt x.pairs j) ∧ SameObjects d e))) ∧
    (∀ share vc cyc, (x.rxStream share vc).record = none → Does (.linkRecordReceive p share vc cyc now) s (fun e => e = dn))
/-! ### Fabric and picot path (chapter 14) -/

namespace Sys2Proof.Machine

/-- A control message goes out on port `p`, where nothing waits before it and the retry buffer has room: it is the next unit of that buffer (R314, R324). -/
def Sends (p code : Nat) (fields : List Nat) (d e : Dev) : Prop :=
  (d.lk p).vc0 = true → (d.lk p).ctlq = [] → (d.lk p).retry.length < 512 →
    ∃ r, (e.lk p).retry = (d.lk p).retry ++ ({ seq := (d.lk p).txSeq, body := .ctl code fields } : TxUnit) :: r

/-- No picot frame waits for a slot. -/
def NoFrames (d : Dev) : Prop := ∀ x ∈ d.groupTab, x.2.launches = []

/-- Slot mode of link `p` has been suspended (R335). -/
def Suspends (p : Nat) (d e : Dev) : Prop :=
  (e.lk p).slotMode = false ∧ (e.lk p).suspended = true ∧ bit (e.regN pgPicot p 0x0114) 1 = true ∧
  ∀ t, (d.cmd t).live = true → (d.cmd t).cls = 0 → (d.cmd t).cause = 0 → d.usesPort p (d.cmd t) = true → (e.cmd t).cause = wPicot

end Sys2Proof.Machine

/-- R325 to R331. Offsets are in 1/256 ns. A grandmaster counts as locked (log entry 45). -/
def Obligations.TimeAndTopology : Prop :=
  ∀ (s : State) (p now : Nat), s.dev.live = true → p < 16 →
    let d := s.dev
    let dn := s.dev.at now
    let x := d.lk p
    let others := fun (e : Dev) => SameMem d e ∧ SameObjects d e ∧ ∀ q, q ≠ p → e.lk q = d.lk q
    (x.vc0 = false →
      (∀ t1 t2 t3 t4 pl pp, Does (.sync p t1 t2 t3 t4 pl pp) s (fun e => e = d)) ∧ Does (.syncTimer p now) s (fun e => e = dn) ∧
      (∀ prio ps hops, Does (.announce p prio ps hops now) s (fun e => e = dn)) ∧ (∀ ep h, Does (.topoChange p ep h) s (fun e => e = d)) ∧
      (∀ k h b r back ep, Does (.probe p k h b r back ep) s (fun e => e = d)) ∧ (∀ k l back ep se pr ix ps, Does (.probeReply p k l back ep se pr ix ps) s (fun e => e = d))) ∧
    (x.vc0 = true → ∀ (t1 t2 t3 t4 : Int) pl pp, Does (.sync p t1 t2 t3 t4 pl pp) s (fun e => others e ∧ e.regs = d.regs ∧
      (let off := ((t2 - t1) - (t4 - t3)) / 2
       (e.lk p).peerLocked = pl ∧ (e.lk p).peerPub = pp ∧
       (e.lk p).state = (if x.state = .vc0Only ∧ d.fab.published.isSome = true ∧ pp = d.fab.published ∧ x.upEpoch ≤ d.fab.published.getD 0 ∧ x.mismatch = false then .active else x.state) ∧
       ((e.lk p).slotMode = true ↔ x.slotMode = true ∨ ((e.fab.time = .locked ∨ e.fab.gm = true) ∧ pl = true ∧ (e.lk p).state = .active ∧ x.hoplat ≤ 832 ∧ x.suspended = false)) ∧
       (d.fab.gm = true ∨ d.fab.known = false ∨ d.fab.upstream ≠ p → e.fab = d.fab ∧ e.now = d.now) ∧
       (d.fab.gm = false → d.fab.known = true → d.fab.upstream = p →
         e.fab.offset = off ∧
         (d.fab.joined = false → (∀ q, q < 16 → (d.lk q).slotMode = false) → e.now = ((d.now : Int) + off / 256).toNat ∧ e.fab.time = .locking ∧ e.fab.good = 0) ∧
         (d.fab.joined = true → e.now = d.now ∧
           (off.natAbs ≤ 32 → e.fab.good = d.fab.good + 1 ∧ (e.fab.time = .locked ↔ 64 ≤ d.fab.good + 1 ∧ d.fab.far = false)) ∧
           (32 < off.natAbs → e.fab.good = 0 ∧ e.fab.time = (if d.fab.time = .holdover then .holdover else .locking))))))) ∧
    (x.vc0 = true → Does (.syncTimer p now) s (fun e => others e ∧ e.fab = d.fab ∧ Sends p ctlSync [dn.now] d e)) ∧
    (∀ prio ps hops, x.vc0 = true →
      let old := if d.fab.known then d.fab.gmPrio % 256 * 2 ^ 64 + d.fab.gmSerial else d.regN pgAlnk 0 0x1004 % 256 * 2 ^ 64 + s.fuses.serial
      let new := prio % 256 * 2 ^ 64 + ps
      (16 < hops ∨ old < new ∨ (new = old ∧ d.fab.known = false) → Does (.announce p prio ps hops now) s (fun e => e = dn)) ∧
      (hops ≤ 16 → new < old → Does (.announce p prio ps hops now) s (fun e => SameMem d e ∧ SameObjects d e ∧ e.lk p = x ∧ e.fab.known = true ∧ e.fab.gm = false ∧
        e.fab.gmPrio = prio % 256 ∧ e.fab.gmSerial = ps ∧ e.fab.hops = hops + 1 ∧ e.fab.upstream = p ∧ e.fab.heard = dn.now ∧ (e.fab.far = true ↔ 16 < hops + 1) ∧ e.fab.time ≠ .locked ∧
        (hops < 16 → ∀ q, q < 16 → q ≠ p → Sends q ctlAnnounce [prio, ps, hops + 1] d e) ∧ (hops = 16 → e.ports = d.ports))) ∧
      (hops ≤ 16 → new = old → d.fab.known = true → (hops + 1 < d.fab.hops ∨ (hops + 1 = d.fab.hops ∧ p < d.fab.upstream)) → Does (.announce p prio ps hops now) s (fun e =>
        e.ports = d.ports ∧ e.fab.hops = hops + 1 ∧ e.fab.upstream = p ∧ e.fab.heard = dn.now ∧ e.fab.gmSerial = d.fab.gmSerial)) ∧
      (hops ≤ 16 → new = old → d.fab.known = true → p = d.fab.upstream → Does (.announce p prio ps hops now) s (fun e =>
        e.ports = d.ports ∧ e.fab.hops = hops + 1 ∧ e.fab.upstream = p ∧ e.fab.heard = dn.now))) ∧
    (x.vc0 = true → d.fab.known = true → Does (.announceTimer p now) s (fun e => others e ∧ e.fab = d.fab ∧ Sends p ctlAnnounce [d.fab.gmPrio, d.fab.gmSerial, d.fab.hops] d e)) ∧
    (d.fab.known = false → Does (.announceTimer p now) s (fun e => others e ∧ e.fab.gm = true ∧ e.fab.gmSerial = s.fuses.serial ∧ e.fab.gmPrio = d.regN pgAlnk 0 0x1004 % 256 ∧
      e.fab.hops = 0 ∧ e.fab.epoch = d.fab.epoch)) ∧
    (d.fab.known = true → d.fab.heard + 100000 ≤ dn.now → Does (.grandmasterTimeout now) s (fun e => e.ports = d.ports ∧ e.regs = d.regs ∧ SameMem d e ∧ e.fab.time = .holdover ∧
      e.fab.known = false ∧ e.fab.gm = true ∧ e.now = dn.now)) ∧
    (d.fab.known = false ∨ dn.now < d.fab.heard + 100000 → Does (.grandmasterTimeout now) s (fun e => e = dn)) ∧
    (∀ ep hops, x.vc0 = true →
      (ep ≤ d.fab.epoch → Does (.topoChange p ep hops) s (fun e => e = d)) ∧
      (d.fab.epoch < ep → Does (.topoChange p ep hops) s (fun e => SameMem d e ∧ SameObjects d e ∧ e.lk p = x ∧ e.fab.epoch = ep ∧ bit (e.regN pgAlnk 0 0x1028) 0 = true ∧
        (∀ k, (d.probe k).state = 1 → (e.probe k).state = 3 ∧ (e.probe k).status = Status.epochStale.code) ∧ (∀ k, (d.probe k).state ≠ 1 → e.probe k = d.probe k) ∧
        (hops < 16 → ∀ q, q < 16 → q ≠ p → Sends q ctlTopo [ep, hops + 1] d e) ∧ (16 ≤ hops → e.ports = d.ports)))) ∧
    (∀ k hops b route back ep, x.vc0 = true →
      (16 < b → Does (.probe p k hops b route back ep) s (fun e => e = d)) ∧
      (b ≤ 16 → hops ≤ b → Does (.probe p k hops b route back ep) s (fun e => others e ∧ e.fab = d.fab ∧
        Sends p ctlReply [k, b - 1, back, d.fab.epoch, s.fuses.serial, d.regN pgAlnk 0 0x1004 % 256, d.fabIndex, d.portStates] d e)) ∧
      (b ≤ 16 → b < hops → Does (.probe p k hops b route back ep) s (fun e => e.fab = d.fab ∧ SameMem d e ∧
        Sends (route / 16 ^ b % 16) ctlProbe [k, hops, b + 1, route, back + p * 16 ^ (b - 1), ep] d e))) ∧
    (∀ k left back ep serial prio ix ps, x.vc0 = true →
      (left ≠ 0 → Does (.probeReply p k left back ep serial prio ix ps) s (fun e => e.fab = d.fab ∧ SameMem d e ∧
        Sends (back / 16 ^ (left - 1) % 16) ctlReply [k, left - 1, back, ep, serial, prio, ix, ps] d e)) ∧
      (left = 0 → (d.probe k).state ≠ 1 → Does (.probeReply p k left back ep serial prio ix ps) s (fun e => e = d)) ∧
      (left = 0 → (d.probe k).state = 1 → Does (.probeReply p k left back ep serial prio ix ps) s (fun e => e.ports = d.ports ∧ e.regs = d.regs ∧ (∀ j, j ≠ k → e.probe j = d.probe j) ∧
        (ep = (d.probe k).epoch → (e.probe k).state = 2 ∧ (e.probe k).reply = [serial % 2 ^ 32, serial / 2 ^ 32, prio, ep, ps, ix]) ∧
        (ep ≠ (d.probe k).epoch → (e.probe k).state = 3 ∧ (e.probe k).status = Status.epochStale.code)))) ∧
    (∀ port v, ctlPort port = true →
      let k := d.bankN pgAlnk port 0x1040 % 64
      (bit v 31 = false → Does (.fabProbeStart port v now) s (fun e => e = dn)) ∧
      (bit v 31 = true → v % 32 = 0 ∨ 16 < v % 32 → Does (.fabProbeStart port v now) s (fun e => Logged pgAlnk port (errEntry pgAlnk 0x104C .value port v) d e ∧ e.fab = d.fab ∧
        e.ports = d.ports)) ∧
      (bit v 31 = true → 1 ≤ v % 32 → v % 32 ≤ 16 → Does (.fabProbeStart port v now) s (fun e => e.probe k = { state := 1, epoch := d.fab.epoch, since := dn.now } ∧
        (∀ j, j ≠ k → e.probe j = d.probe j) ∧
        (let route := d.regN pgAlnk k 0x1044 + 2 ^ 32 * d.regN pgAlnk k 0x1048
         Sends (route % 16) ctlProbe [k, v % 32, 1, route, 0, d.fab.epoch] d e)))) ∧
    (∀ k, ((d.probe k).state = 1 ∧ (d.probe k).since + 20000 ≤ dn.now → Does (.probeTimeout k now) s (fun e => (e.probe k).state = 3 ∧ (e.probe k).status = Status.groupTimeout.code ∧
        (∀ j, j ≠ k → e.probe j = d.probe j) ∧ e.ports = d.ports ∧ e.regs = d.regs)) ∧
      ((d.probe k).state ≠ 1 ∨ dn.now < (d.probe k).since + 20000 → Does (.probeTimeout k now) s (fun e => e = dn))) ∧
    (∀ port ep, ctlPort port = true →
      (ep ≠ d.fab.epoch ∨ 4096 < d.regN pgAlnk 0 0x1030 → Does (.fabPublish port ep) s (fun e => bit (e.regN pgAlnk 0 0x1028) 1 = true ∧ e.fab = d.fab ∧ e.ports = d.ports)) ∧
      (ep = d.fab.epoch → d.regN pgAlnk 0 0x1030 ≤ 4096 → Does (.fabPublish port ep) s (fun e => e.regs = d.regs ∧ SameMem d e ∧ e.fab.published = some ep ∧ e.fab.epoch = d.fab.epoch ∧
        ∀ q, q < 16 → (e.lk q).state = (if (d.lk q).state = .vc0Only ∧ (d.lk q).peerPub = some ep ∧ (d.lk q).upEpoch ≤ ep ∧ (d.lk q).mismatch = false then .active else (d.lk q).state)))) ∧
    (∀ port, ctlPort port = true →
      (d.fab.gm = true → d.fab.published = none → (∀ q, q < 16 → (d.lk q).slotMode = false) → Does (.picotTimeLoad port) s (fun e => e = { d with now := d.reg64 pgPicot 0 0x1008 })) ∧
      (d.fab.gm = true → d.fab.published = none → NoFrames d → Does (.picotTimeLoad port) s (fun e => e.now = d.reg64 pgPicot 0 0x1008 ∧
        ∀ q, q < 16 → (d.lk q).slotMode = true → Suspends q d e)) ∧
      (d.fab.gm = false ∨ d.fab.published ≠ none → Does (.picotTimeLoad port) s (fun e => Logged pgPicot port (errEntry pgPicot 0x1010 .value port 1) d e ∧ e.now = d.now ∧
        e.ports = d.ports))) ∧
    (∀ port, ctlPort port = false → (∀ v, Does (.fabProbeStart port v now) s (fun e => e = dn)) ∧ (∀ ep, Does (.fabPublish port ep) s (fun e => e = d)) ∧
      Does (.picotTimeLoad port) s (fun e => e = d))

/-- R321, R333 to R335. Arrival offsets are in 1/16 ns; o / 0.5714 ns is o × 7 / 64 LCLK cycles. -/
def Obligations.PicotPath : Prop :=
  ∀ (s : State) (p now : Nat), s.dev.live = true → p < 16 →
    let d := s.dev
    let dn := s.dev.at now
    let x := d.lk p
    let others := fun (e : Dev) => SameMem d e ∧ ∀ q, q ≠ p → e.lk q = d.lk q
    (∀ i gen, x.vc0 = true → (tabGet pairDflt x.pairs i).valid = true → Does (.unpair p i gen) s (fun e => others e ∧ SameObjects d e ∧ e.regs = d.regs ∧
      tabGet pairDflt (e.lk p).pairs i = { tabGet pairDflt x.pairs i with txGen := gen % 16, rxGen := gen % 16 } ∧
      ∀ j, j ≠ i → tabGet pairDflt (e.lk p).pairs j = tabGet pairDflt x.pairs j)) ∧
    (∀ i gen, x.vc0 = false ∨ (tabGet pairDflt x.pairs i).valid = false → Does (.unpair p i gen) s (fun e => e = d)) ∧
    (∀ k, x.slotMode = false ∨ d.slotFrame p k = none → Does (.picotSlotLaunch p k now) s (fun e => e = dn)) ∧
    (∀ k g l i y, x.slotMode = true → d.slotFrame p k = some (g, l) → d.txEntry p (d.grp g).hoop (d.grp g).key (d.grp g).gen = .ok (i, y) →
      Does (.picotSlotLaunch p k now) s (fun e => others e ∧ Emit.picotFrame p k (y.frame (d.grp g).peerSlot k l.head l.payload) ∈ e.out ∧
        (e.grp g).launches.length + 1 = (d.grp g).launches.length ∧ (k, g, l.head, l.payload) ∈ (e.lk p).kept ∧ tabGet pairDflt (e.lk p).pairs i = { y with rctr := y.rctr + 1 } ∧
        e.reg64 pgPicot p 0x0128 = (d.reg64 pgPicot p 0x0128 + 1) % 2 ^ 64)) ∧
    (∀ k o f, x.slotMode = false → Does (.picotFrameReceive p k o f now) s (fun e => e = dn)) ∧
    (∀ k (o : Int) f, x.slotMode = true → 64 < o ∨ bytesNat f 4 4 ≠ k % 2 ^ 32 →
      let prior := (x.landings.filter (fun j => decide (k < j + 1024) && j != k)).length
      (prior < 2 → x.driftRun < 63 → Does (.picotFrameReceive p k o f now) s (fun e => others e ∧ SameObjects d e ∧ e.groupTab = d.groupTab ∧ (e.lk p).slotMode = true ∧
        (e.lk p).pairs = x.pairs ∧ (e.lk p).lastOfs = o ∧ e.regN pgPicot p 0x010C = min (d.regN pgPicot p 0x010C + 1) 0xFFFFFFFF ∧ Sends p ctlGuard [k, unsint 16 o] d e)) ∧
      (2 ≤ prior → NoFrames d → Does (.picotFrameReceive p k o f now) s (fun e => Suspends p d e))) ∧
    (∀ k (o : Int) f, x.slotMode = true → o ≤ 64 → bytesNat f 4 4 = k % 2 ^ 32 → x.driftRun < 63 →
      (x.checkFrame f = .stale → Does (.picotFrameReceive p k o f now) s (fun e => others e ∧ SameObjects d e ∧ e.groupTab = d.groupTab ∧ (e.lk p).pairs = x.pairs ∧ (e.lk p).lastOfs = o ∧
        (o < -64 → (e.lk p).drift = true ∧ Sends p ctlDrift [unsint 16 o] d e) ∧ e.regN pgAlnk p 0x0150 = min (d.regN pgAlnk p 0x0150 + 1) 0xFFFFFFFF)) ∧
      (x.checkFrame f = .counter → Does (.picotFrameReceive p k o f now) s (fun e => others e ∧ SameObjects d e ∧ e.groupTab = d.groupTab ∧ (e.lk p).pairs = x.pairs ∧ (e.lk p).lastOfs = o ∧
        e.regN pgAlnk p 0x0154 = min (d.regN pgAlnk p 0x0154 + 1) 0xFFFFFFFF)) ∧
      (∀ i y pay, x.checkFrame f = .good i y pay → (d.grp (bytesNat f 0 1)).state ≠ .active → Does (.picotFrameReceive p k o f now) s (fun e => others e ∧ SameObjects d e ∧
        tabGet pairDflt (e.lk p).pairs i = y ∧ e.groupTab = d.groupTab ∧ e.regN pgShut (bytesNat f 0 1) 0x0144 = min (d.regN pgShut (bytesNat f 0 1) 0x0144 + 1) 0xFFFFFFFF))) ∧
    (∀ k (o : Int), x.vc0 = true → Does (.guardNotice p k o) s (fun e => others e ∧ SameObjects d e ∧ e.regs = d.regs ∧
      (∃ n : Int, (2 * (64 * n - 7 * o)).natAbs ≤ 64 ∧ (e.lk p).trim = max (-16) (min 16 (x.trim - n))) ∧
      (∀ f, x.kept.find? (fun f => f.1 == k) = some f → (e.grp f.2.1).launches = ({ slot := k + 2, resend := true, head := f.2.2.1, payload := f.2.2.2 } : Launch) :: (d.grp f.2.1).launches) ∧
      (x.kept.find? (fun f => f.1 == k) = none → e.groupTab = d.groupTab))) ∧
    (∀ (o : Int), x.vc0 = true → Does (.driftNotice p o) s (fun e => others e ∧ SameObjects d e ∧ e.regs = d.regs ∧ e.groupTab = d.groupTab ∧
      (∃ n : Int, (2 * (64 * n - 7 * o)).natAbs ≤ 64 ∧ (e.lk p).trim = max (-16) (min 16 (x.trim - n))))) ∧
    (∀ o, x.vc0 = false → Does (.driftNotice p o) s (fun e => e = d) ∧ ∀ k, Does (.guardNotice p k o) s (fun e => e = d)) ∧
    (∀ b, b = false ∨ x.slotMode = false → Does (.picotState p b) s (fun e => e = d)) ∧
    (x.slotMode = true → NoFrames d → Does (.picotState p true) s (fun e => others e ∧ e.groupTab = d.groupTab ∧ Suspends p d e)) ∧
    (∀ port, ctlPort port = true → x.suspended = true → d.eligible p = true → Does (.picotResume port p) s (fun e => others e ∧ e.regs = d.regs ∧ e.lk p = { x with resume := true })) ∧
    (∀ port, ctlPort port = false ∨ x.suspended = false ∨ d.eligible p = false → Does (.picotResume port p) s (fun e => e = d)) ∧
    (∀ port, ctlPort port = true →
      let t := d.reg64 pgPicot 0 0x102C
      (t % 65536 = 0 → dn.now < t → Does (.picotSwapArm port now) s (fun e => e = { dn with fab := { d.fab with swapAt := some t } })) ∧
      (t % 65536 ≠ 0 ∨ t ≤ dn.now → Does (.picotSwapArm port now) s (fun e => Logged pgPicot port (errEntry pgPicot 0x1034 .value port 1) d e ∧ e.fab = d.fab))) ∧
    (d.fab.swapAt = none ∨ (∃ t, d.fab.swapAt = some t ∧ dn.now < t) → Does (.picotScheduleSwap now) s (fun e => e = dn)) ∧
    (∀ t, d.fab.swapAt = some t → t ≤ dn.now → Does (.picotScheduleSwap now) s (fun e => SameMem d e ∧ SameObjects d e ∧ e.fab = { d.fab with swapAt := none } ∧
      ∀ q, q < 16 → (e.lk q).sched = (d.lk q).schedStaged ∧ (e.lk q).schedStaged = (d.lk q).sched ∧ (e.lk q).resume = false ∧
        ((e.lk q).slotMode = true ↔ (d.lk q).slotMode = true ∨ ((d.lk q).resume = true ∧ d.eligible q = true))))
/-! ### RTP requests, keys and pairing (chapter 17) -/

namespace Sys2Proof.Machine

/-- The RTP's next request is `r`, core A runs, and the block at its address reads as `bs`: its header is in form and its code is `code` (R385, R386). -/
def Asks (d : Dev) (r : RtpReq) (code : Nat) (bs : List Byte) : Prop :=
  d.nextReq = some r ∧ d.rtpUp = true ∧ d.readVa r.ctx r.addr 32 = .data (bs.take 32) ∧ d.readVa r.ctx r.addr (bytesNat bs 4 4) = .data bs ∧
  32 ≤ bytesNat bs 4 4 ∧ bytesNat bs 4 4 ≤ 65536 ∧ (∀ b ∈ (bs.take 32).drop 21, b = 0) ∧ bytesNat bs 0 2 = code ∧ bytesNat bs 20 1 ≤ 15

/-- The issuer may ask for the hoop, which is in use: the PF, the RTP, or a VF for its own (R386). -/
def MayAsk (d : Dev) (port h : Nat) : Prop := (port = portPf ∨ port = portRtp ∨ d.vfHoop port = some h) ∧ (d.hoop h).state ≠ .free

/-- A response of `n` bytes fits the buffer that the block names, and its pages take a write (R386, R530). -/
def FitsResp (d : Dev) (r : RtpReq) (bs : List Byte) (n : Nat) : Prop :=
  bytesNat bs 8 8 ≠ 0 ∧ n ≤ bytesNat bs 16 4 ∧ ∃ ps, d.reach r.ctx (bytesNat bs 8 8) n true = .ok ps

/-- The request has completed with a status: out of its queue, the status in `SEC_MB_STS`, bit 0 of the page's interrupt status set in the port's
bank; `BUSY` is clear when no other request of the port remains (R417). -/
def Answered (r : RtpReq) (st : Nat) (d e : Dev) : Prop :=
  e.sec.reqs = d.sec.reqs.erase r ∧ e.bankN pgSec r.port 0x1010 % 65536 = st ∧ bit (e.bankN pgSec r.port 0x0018) 0 = true ∧
  (bit (e.bankN pgSec r.port 0x1010) 16 = true ↔ e.mbTaken r.port ≠ 0)

/-- What answering a request leaves as it is of every key slot: writes into the block may count as uses of the page key, nothing else (R246, R398). -/
def SameKey (x y : KeySlot) : Prop :=
  y.usage = x.usage ∧ y.hoop = x.hoop ∧ y.gen = x.gen ∧ y.base = x.base ∧ y.owner = x.owner ∧ y.limit = x.limit ∧ y.imported = x.imported ∧
  (x.state = .empty ∨ x.state = .draining → y.state = x.state)

/-- No device halt has come in between: a write of the answer can meet the counter wrap of R240. -/
def Unhalted (P : Dev → Prop) (e : Dev) : Prop := e.aon.halted = false → P e

end Sys2Proof.Machine

/-- R398 to R400, R403, R529, with the bodies as R529 lays them out; a reservation counts as a slot held (log entry 33). -/
def Obligations.KeySlots : Prop :=
  ∀ (s : State) (now : Nat),
    let d := s.dev.at now
    (∀ r bs, d.live = true → Asks d r 2 bs → MayAsk d r.port (bytesNat bs 20 1) → bs.length = 48 →
      let h := bytesNat bs 20 1
      let u := bytesNat bs 32 1
      let o := bytesNat bs 33 1
      let lim := bytesNat bs 40 8
      1 ≤ u → u ≤ 5 → (o = 0 ∨ (o ≤ 8 ∧ o ∈ d.ownersOf h)) → bytesNat bs 35 5 = 0 → (u = 4 → 1 ≤ lim ∧ lim ≤ 2 ^ 32) → (u ≠ 4 → lim = 0) → FitsResp d r bs 8 →
      (∀ k, bytesNat bs 34 1 = 0 → d.keyLcErrs false = [] → d.keysHeld h < (d.hoop h).inForce.keys →
        IsLowest k 4096 (fun n => n ≠ 0 ∧ (d.key n).state = .empty ∧ ∀ a ∈ d.sec.awaiting, a.slot ≠ n) → Does (.keyCreate now) s (Unhalted (fun e =>
          (∃ n b, e.key k = { state := .active, usage := u, hoop := h, gen := (d.key k).gen, base := b, owner := o, limit := lim, uses := n }) ∧
          (∀ j, j ≠ k → SameKey (d.key j) (e.key j)) ∧ Answered r 0 d e))) ∧
      (∀ k, bytesNat bs 34 1 = 1 → 3 ≤ u → d.keyLcErrs true = [] → d.keysHeld h < (d.hoop h).inForce.keys →
        IsLowest k 4096 (fun n => n ≠ 0 ∧ (d.key n).state = .empty ∧ ∀ a ∈ d.sec.awaiting, a.slot ≠ n) → Does (.keyCreate now) s (fun e => e.keys = d.keys ∧
          e.sec.reqs = d.sec.reqs.erase r ∧ e.sec.awaiting = d.sec.awaiting ++ [{ slot := k, resp := bytesNat bs 8 8, time := d.now, req := r, hoop := h, usage := u, owner := o, limit := lim }] ∧
          bit (e.bankN pgSec r.port 0x1010) 16 = true ∧ SameMem d e)) ∧
      (bytesNat bs 34 1 = 0 → d.keyLcErrs false = [] → ((d.hoop h).inForce.keys ≤ d.keysHeld h ∨ ∀ n, 1 ≤ n → n < 4096 → (d.key n).state ≠ .empty) → Does (.keyCreate now) s (Unhalted (fun e =>
        (∀ j, SameKey (d.key j) (e.key j)) ∧ Answered r Status.rejectNoCapacity.code d e)))) ∧
    (∀ r bs, d.live = true → Asks d r 3 bs → MayAsk d r.port (bytesNat bs 20 1) → bs.length = 40 → bytesNat bs 32 2 < 4096 → bytesNat bs 34 6 = 0 → bytesNat bs 8 8 = 0 → bytesNat bs 16 4 = 0 →
      let k := bytesNat bs 32 2
      let named := k ≠ 0 ∧ (d.key k).state ≠ .empty ∧ (d.key k).hoop = bytesNat bs 20 1
      (named → (d.key k).state ≠ .draining → Does (.keyRevoke now) s (Unhalted (fun e => (e.key k).state = .draining ∧ (e.key k).gen = ((d.key k).gen + 1) % 16 ∧
        (e.key k).base = (d.key k).base ∧ (∀ j, j ≠ k → SameKey (d.key j) (e.key j)) ∧ Answered r 0 d e))) ∧
      (named → (d.key k).state = .draining → Does (.keyRevoke now) s (Unhalted (fun e => (∀ j, SameKey (d.key j) (e.key j)) ∧ Answered r 0 d e))) ∧
      (¬ named → Does (.keyRevoke now) s (Unhalted (fun e => (∀ j, SameKey (d.key j) (e.key j)) ∧ Answered r Status.accessDenied.code d e)))) ∧
    (∀ port v, d.aon.ready = true →
      let k := v % 4096
      let may := k ≠ 0 ∧ (d.key k).state ≠ .empty ∧ (port = portPf ∨ port = portRtp ∨ (port ≤ 63 ∧ d.vfHoop port = some (d.key k).hoop))
      (bit v 31 = false → Does (.keysZeroize port v now) s (fun e => e = d)) ∧
      (bit v 31 = true → ¬ may → Does (.keysZeroize port v now) s (fun e => e.keys = d.keys ∧ Logged pgKeys port (errEntry pgKeys 0x1008 .port port v) d e ∧
        e.bankN pgKeys port 0x100C = Status.accessDenied.code)) ∧
      (bit v 31 = true → may → Does (.keysZeroize port v now) s (fun e => e.bankN pgKeys port 0x100C = 0 ∧ SameMem d e ∧ (∀ j, j ≠ k → e.key j = d.key j) ∧
        ((d.key k).state = .draining → e.keys = d.keys) ∧
        ((d.key k).state ≠ .draining → e.key k = { d.key k with state := .draining, gen := ((d.key k).gen + 1) % 16, deckReady := false, sweeping := false, prevKept := false, base := 0 })))) ∧
    (∀ k, d.live = true →
      let x := d.key k
      let may := x.state = .active ∧ 1 ≤ x.usage ∧ x.usage ≤ 4 ∧ x.phase < 255 ∧ x.deckReady = false ∧ d.rtpUp = true
      (¬ may → Does (.deckDerive k now) s (fun e => e = d)) ∧
      (may → Does (.deckDerive k now) s (fun e => SameMem d e ∧ (∀ j, j ≠ k → e.key j = d.key j) ∧
        ((x.phaseLimit = 0 ∨ x.uses < x.phaseLimit ∨ x.sweeping = true) → e.key k = { x with deckReady := true }) ∧
        (x.phaseLimit ≠ 0 → x.phaseLimit ≤ x.uses → x.sweeping = false → (e.key k).phase = x.phase + 1 ∧ (e.key k).uses = 0 ∧ (e.key k).deckReady = false ∧
          bit (e.regN pgKeys k 0x0118) 0 = true)))) ∧
    (∀ k a, d.sec.awaiting.find? (fun a => a.slot == k) = some a →
      (a.time + 60000000000 < d.now → Does (.keyDeliverTimeout k now) s (fun e => (d.aon.halted = false → Unhalted (fun e => (∀ j, SameKey (d.key j) (e.key j)) ∧
        (∀ b ∈ e.sec.awaiting, b.slot ≠ a.slot) ∧ e.bankN pgSec a.req.port 0x1010 % 65536 = Status.authRequired.code) e))) ∧
      (d.now ≤ a.time + 60000000000 → Does (.keyDeliverTimeout k now) s (fun e => e = d))) ∧
    (∀ k, (∀ a ∈ d.sec.awaiting, a.slot ≠ k) → Does (.keyDeliverTimeout k now) s (fun e => e = d))

/-- R405. -/
def Obligations.LinkPairing : Prop :=
  ∀ (s : State) (p now : Nat),
    let d := s.dev.at now
    let written := fun (w : PairWait) (gen : Nat) (e : Dev) => ∃ b, tabGet pairDflt (e.lk p).pairs w.pairing = { valid := true, slot := w.slot, txGen := (d.key w.slot).gen, rxGen := gen % 16, peer := w.peerPairing, base := b }
    let ended := fun (w : PairWait) (st : Nat) (e : Dev) => (∀ x ∈ e.sec.pairs, ¬ (x.linkPort = w.linkPort ∧ x.pairing = w.pairing)) ∧ e.bankN pgSec w.req.port 0x1010 % 65536 = st ∧
      bit (e.bankN pgSec w.req.port 0x0018) 0 = true
    (∀ r bs k i pi ps, d.live = true → Asks d r 6 bs → MayAsk d r.port (bytesNat bs 20 1) → (r.port = portPf ∨ r.port = portRtp) → p < 16 → i < 1024 → pi < 1024 →
      d.keyCheck (bytesNat bs 20 1) useLink k (d.key k).gen = none → d.pairLive p i = false → d.pairPending p i = false → d.hasIdentity = true →
      ((d.lk p).state = .active → (∀ o ∈ d.sec.offers, ¬ (o.1 = p ∧ o.2.pairing = i ∧ o.2.peerPairing = pi ∧ o.2.serial = ps)) → Does (.pairLink p k i pi ps now) s (fun e =>
        SameMem d e ∧ e.keys = d.keys ∧ e.sec.reqs = d.sec.reqs.erase r ∧ (e.lk p).pairs = (d.lk p).pairs ∧ bit (e.bankN pgSec r.port 0x1010) 16 = true ∧
        ∃ w, e.sec.pairs = d.sec.pairs ++ [w] ∧ w.linkPort = p ∧ w.slot = k ∧ w.pairing = i ∧ w.peerPairing = pi ∧ w.peerSerial = ps ∧ w.time = d.now ∧ w.req = r ∧ w.offer = none)) ∧
      ((d.lk p).state ≠ .active → Does (.pairLink p k i pi ps now) s (Unhalted (fun e => e.sec.pairs = d.sec.pairs ∧ Answered r Status.linkDown.code d e)))) ∧
    (∀ i w, d.sec.pairs.find? (fun w => w.linkPort == p && w.pairing == i) = some w →
      (w.time + 10000000000 < d.now → Does (.pairLinkTimeout p i now) s (fun e => d.aon.halted = false → Unhalted (ended w Status.groupTimeout.code) e)) ∧
      (d.now ≤ w.time + 10000000000 → Does (.pairLinkTimeout p i now) s (fun e => e = d))) ∧
    (∀ i, (∀ w ∈ d.sec.pairs, ¬ (w.linkPort = p ∧ w.pairing = i)) → Does (.pairLinkTimeout p i now) s (fun e => e = d)) ∧
    (∀ m, d.live = true → (d.lk p).vc0 = false ∨ d.rtpUp = false → Does (.keyx p m now) s (fun e => e = d)) ∧
    (∀ m, d.live = true → (d.lk p).vc0 = true → d.rtpUp = true →
      ((∀ w ∈ d.sec.pairs, keyxFor w p m = false) → m.ct = true → Does (.keyx p m now) s (fun e => e = d)) ∧
      ((∀ w ∈ d.sec.pairs, keyxFor w p m = false) → m.ct = false → Does (.keyx p m now) s (fun e => e.ports = d.ports ∧ e.regs = d.regs ∧ e.sec.pairs = d.sec.pairs ∧ (p, m) ∈ e.sec.offers)) ∧
      (∀ w, d.sec.pairs.find? (fun w => keyxFor w p m) = some w →
        let digests := (d.hoop (d.key w.slot).hoop).isSealed = true → m.policy = d.policyDigest (d.key w.slot).hoop
        ((d.lk p).state ≠ .active → Does (.keyx p m now) s (Unhalted (fun e => e.ports = d.ports ∧ ended w Status.linkDown.code e))) ∧
        ((d.lk p).state = .active → ¬ (m.good = true ∧ digests) → Does (.keyx p m now) s (Unhalted (fun e => e.ports = d.ports ∧ ended w Status.authRequired.code e))) ∧
        ((d.lk p).state = .active → m.good = true → digests → (d.key w.slot).state = .active →
          ((d.lk p).leader = true → m.ct = false → Does (.keyx p m now) s (Unhalted (fun e => written w m.gen e ∧ ended w 0 e))) ∧
          ((d.lk p).leader = false → m.ct = false → Does (.keyx p m now) s (fun e => e.ports = d.ports ∧ e.regs = d.regs ∧ { w with offer := some m } ∈ e.sec.pairs)) ∧
          (∀ o, (d.lk p).leader = false → m.ct = true → w.offer = some o → Does (.keyx p m now) s (Unhalted (fun e => written w o.gen e ∧ ended w 0 e))))))
namespace Sys2Proof.Machine

/-- A staged record of hoop `h` authorises a change with the given parameters: its code, the digest of the parameters, the operator (not for CONSENT)
and every owner but one removed among its signers, and a nonce of the hoop, unused and at most 60 s old (R411). -/
def Authorised (d : Dev) (h code : Nat) (params : List Byte) (removed : Nat) : Prop :=
  ∃ a, (d.hoopSec h).record = some a ∧ a.code = code ∧ a.params = digest params ∧ (code ≠ 9 → 0 ∈ a.signers) ∧
    (∀ o ∈ d.ownersOf h, ¬ (code = 8 ∧ o = removed) → o ∈ a.signers) ∧
    ∃ n ∈ d.sec.nonces, n.hoop = h ∧ n.bytes = a.nonce ∧ n.used = false ∧ d.now ≤ n.time + 60000000000

/-- A request for a change: no block of response, no command of the hoop accepted and not completed (R412). -/
def Quiet (d : Dev) (h : Nat) : Prop := d.cmdsOf (fun m => m.hoop == h) = []

end Sys2Proof.Machine

/-- R385, R386, R410 to R417. The parameters of requests whose bodies the spec does not lay out are the row's operands (log entry 34). -/
def Obligations.TwoPartyRequests : Prop :=
  ∀ (s : State) (now : Nat),
    let d := s.dev.at now
    let denied := fun (r : RtpReq) (st : Nat) (e : Dev) => (∀ j, SameKey (d.key j) (e.key j)) ∧ e.hoops = d.hoops ∧ e.sec.hoops = d.sec.hoops ∧ e.sec.nonces = d.sec.nonces ∧ Answered r st d e
    let spent := fun (h : Nat) (e : Dev) => (e.hoopSec h).record = none ∧ ∀ a, (d.hoopSec h).record = some a → ∀ n ∈ e.sec.nonces, n.bytes = a.nonce → n.used = true
    (∀ port v, d.live = true ∨ (d.aon.safe = true ∧ d.aon.halted = false) →
      let c := d.bankN pgSec port 0x1008 % 4096
      let room := if port = portPf then 32 else if port = portRtp then 64 else 4
      (63 < port → port ≠ portRtp → Does (.secMbGo port v now) s (fun e => e.sec = d.sec ∧ Logged pgSec port (errEntry pgSec 0x100C .port port v) d e)) ∧
      (port ≤ 63 ∨ port = portRtp →
        (bit v 0 = false → Does (.secMbGo port v now) s (fun e => e = d)) ∧
        (bit v 0 = true → room ≤ d.mbTaken port → Does (.secMbGo port v now) s (fun e => e.sec = d.sec ∧ SameMem d e ∧ e.bankN pgSec port 0x1010 % 65536 = Status.rtpBusy.code ∧
          bit (e.bankN pgSec port 0x1010) 17 = true)) ∧
        (bit v 0 = true → d.mbTaken port < room → (d.ctx c).state = .free ∨ (port ≠ portRtp ∧ (d.ctx c).func ≠ port) → Does (.secMbGo port v now) s (fun e => e.sec = d.sec ∧ SameMem d e ∧
          e.bankN pgSec port 0x1010 % 65536 = Status.accessDenied.code)) ∧
        (bit v 0 = true → d.mbTaken port < room → (d.ctx c).state ≠ .free → port = portRtp ∨ (d.ctx c).func = port → Does (.secMbGo port v now) s (Unhalted (fun e =>
          e.sec = { d.sec with reqs := d.sec.reqs ++ [{ port := port, ctx := c, addr := d.bankN pgSec port 0x1000 + d.bankN pgSec port 0x1004 % 65536 * 2 ^ 32 }] } ∧
          bit (e.bankN pgSec port 0x1010) 16 = true ∧ bit (e.bankN pgSec port 0x1010) 17 = false ∧ fld (e.bankN pgSec port 0x1010) 23 18 = min 63 (d.mbTaken port + 1)))))) ∧
    (d.live = true → d.nextReq = none → Does (.getNonce now) s (fun e => e = d) ∧ Does (.authorise now) s (fun e => e = d) ∧ Does (.releasePolicy now) s (fun e => e = d)) ∧
    (∀ r bs, d.live = true → Asks d r 1 bs → (d.hoop (bytesNat bs 20 1)).state ≠ .free → bs.length = 32 → FitsResp d r bs 32 → Does (.getNonce now) s (Unhalted (fun e =>
      (∃ b, b.length = 32 ∧ e.sec.nonces = d.sec.nonces ++ [{ hoop := bytesNat bs 20 1, bytes := b, time := d.now }]) ∧ (∀ j, SameKey (d.key j) (e.key j)) ∧ Answered r 0 d e))) ∧
    (∀ r bs, d.live = true → Asks d r 4 bs → (d.hoop (bytesNat bs 20 1)).state ≠ .free →
      let h := bytesNat bs 20 1
      let rc := bs.drop 32
      (authBad h rc = true → Does (.authorise now) s (Unhalted (denied r Status.badDescriptor.code))) ∧
      (authBad h rc = false → Does (.authorise now) s (Unhalted (fun e => Answered r 0 d e ∧ e.sec.nonces = d.sec.nonces ∧ ∃ a, (e.hoopSec h).record = some a ∧ a.code = bytesNat rc 8 1 ∧
        a.nonce = (rc.drop 16).take 32 ∧ a.params = (rc.drop 48).take 48 ∧
        ∀ n, n ∈ a.signers ↔ ∃ i, i < bytesNat rc 10 1 ∧ bytesNat (signerEntry rc i) 0 1 = n ∧ ∃ k, d.signerKey h n = some k ∧
          Config.ecdsaVerify k.1 (rc.take 96) (((signerEntry rc i).drop 8).take 96) = true ∧ Config.mldsaVerify k.2 (rc.take 96) (((signerEntry rc i).drop 104).take 4627) = true)))) ∧
    (∀ r bs k o lim, d.live = true → Asks d r 5 bs → MayAsk d r.port (bytesNat bs 20 1) →
      let h := bytesNat bs 20 1
      d.ownSlot h k = true → (d.key k).state ≠ .draining → (o = 0 ∨ o ∈ d.ownersOf h) → ((d.key k).usage = 4 → 1 ≤ lim ∧ lim ≤ 2 ^ 32) → ((d.key k).usage ≠ 4 → lim = 0) → Quiet d h →
      (Authorised d h 3 (bs.drop 32) 0 → Does (.keyPolicy k o lim now) s (Unhalted (fun e => (e.key k).owner = o ∧ (e.key k).limit = lim ∧ (e.key k).hoop = h ∧ (e.key k).gen = (d.key k).gen ∧
        (∀ j, j ≠ k → SameKey (d.key j) (e.key j)) ∧ spent h e ∧ Answered r 0 d e))) ∧
      (¬ Authorised d h 3 (bs.drop 32) 0 → Does (.keyPolicy k o lim now) s (Unhalted (denied r Status.authRequired.code)))) ∧
    (∀ r bs o m ec pq k, d.live = true → Asks d r 7 bs → MayAsk d r.port (bytesNat bs 20 1) →
      let h := bytesNat bs 20 1
      m.length = 48 → o ≠ 0 → d.signerKey h o = some k →
      let good := Config.ecdsaVerify k.1 (ascii "HTAPPROV" ++ toBytes 1 h ++ m) ec = true ∧ Config.mldsaVerify k.2 (ascii "HTAPPROV" ++ toBytes 1 h ++ m) pq = true
      (good → Does (.approve o m ec pq now) s (Unhalted (fun e => (o, m) ∈ (e.hoopSec h).approvals ∧ (∀ x, x ≠ (o, m) → (x ∈ (e.hoopSec h).approvals ↔ x ∈ (d.hoopSec h).approvals)) ∧
        Answered r 0 d e))) ∧
      (¬ good → Does (.approve o m ec pq now) s (Unhalted (denied r Status.authRequired.code)))) ∧
    (∀ r bs, d.live = true → Asks d r 8 bs → MayAsk d r.port (bytesNat bs 20 1) →
      let h := bytesNat bs 20 1
      let b := bs.drop 32
      let n := b.length / 8
      (d.hoop h).joint = true → b.length % 8 = 0 → n ≤ 32 → (∀ i, i < n → d.policyEntryBad h (policyEntry b i) = false ∧ bytesNat b (8 * i + 6) 2 = 0) → Quiet d h →
      (Authorised d h 6 b 0 → Does (.releasePolicy now) s (Unhalted (fun e => (e.hoopSec h).policy = (List.range n).map (policyEntry b) ∧ spent h e ∧ Answered r 0 d e))) ∧
      (¬ Authorised d h 6 b 0 → Does (.releasePolicy now) s (Unhalted (denied r Status.authRequired.code)))) ∧
    (∀ r bs i, d.live = true → Asks d r 8 bs → MayAsk d r.port (bytesNat bs 20 1) → i < (bs.drop 32).length / 8 →
      d.policyEntryBad (bytesNat bs 20 1) (policyEntry (bs.drop 32) i) = true → Authorised d (bytesNat bs 20 1) 6 (bs.drop 32) 0 → Quiet d (bytesNat bs 20 1) →
      Does (.releasePolicy now) s (Unhalted (denied r Status.badDescriptor.code))) ∧
    (∀ r bs nonce, d.live = true → Asks d r 9 bs → (r.port = portPf ∨ r.port = portRtp) → nonce.length = 32 →
      (d.hasIdentity = true → FitsResp d r bs (d.report s.fuses.serial nonce none).length → Does (.attest nonce now) s (Unhalted (denied r 0))) ∧
      (d.hasIdentity = false → FitsResp d r bs (d.report s.fuses.serial nonce none).length → Does (.attest nonce now) s (Unhalted (denied r Status.authRequired.code)))) ∧
    (∀ nonce h, nonce.length = 32 →
      let t := d.report s.fuses.serial nonce h
      t.take 8 = ascii "HTREPORT" ∧ bytesNat t 8 4 = 0x00010000 ∧ (t.drop 16).take 32 = nonce ∧ bytesNat t 48 8 = s.fuses.serial % 2 ^ 64 ∧ bytesNat t 56 1 = d.lc.inForce % 256) ∧
    (∀ r bs o ec pq a, d.live = true → Asks d r 10 bs → MayAsk d r.port (bytesNat bs 20 1) →
      let h := bytesNat bs 20 1
      1 ≤ o → o ≤ 8 → o ∉ d.ownersOf h → d.lc.inForce = lcSecured → Quiet d h → (d.hoopSec h).record = some a → a.newKeys ≠ [] →
      Config.ecdsaVerify ec (a.newKeys.take 96) ((a.newKeys.drop 96).take 96) = true → Config.mldsaVerify pq (a.newKeys.take 96) (a.newKeys.drop 192) = true → Authorised d h 7 (bs.drop 32) 0 →
      ((d.hoop h).isSealed = true ∨ d.ownersOf h = [] → Does (.ownerAdd o ec pq now) s (Unhalted (fun e => (e.hoopSec h).owners = (d.hoopSec h).owners ++ [(o, ec, pq)] ∧
        ((e.hoop h).joint = true ↔ 1 ≤ (d.ownersOf h).length) ∧ spent h e ∧ Answered r 0 d e))) ∧
      ((d.hoop h).isSealed = false → d.ownersOf h ≠ [] → Does (.ownerAdd o ec pq now) s (Unhalted (denied r Status.badDescriptor.code)))) ∧
    (∀ r bs o, d.live = true → Asks d r 11 bs → MayAsk d r.port (bytesNat bs 20 1) →
      let h := bytesNat bs 20 1
      o ∈ d.ownersOf h → Quiet d h →
      (Authorised d h 8 (bs.drop 32) o → Does (.ownerRemove o now) s (Unhalted (fun e => (e.hoopSec h).owners = (d.hoopSec h).owners.filter (fun x => x.1 != o) ∧
        (∀ x ∈ (e.hoopSec h).approvals, x.1 ≠ o) ∧ spent h e ∧ Answered r 0 d e))) ∧
      (¬ Authorised d h 8 (bs.drop 32) o → Does (.ownerRemove o now) s (Unhalted (denied r Status.authRequired.code)))) ∧
    (∀ r bs fl, d.live = true → Asks d r 12 bs → MayAsk d r.port (bytesNat bs 20 1) → fl < 16 →
      let h := bytesNat bs 20 1
      (Authorised d h 9 (bs.drop 32) 0 → Does (.consent fl now) s (Unhalted (fun e => (e.hoopSec h).consent = fl ∧ (e.hoopSec h).owners = (d.hoopSec h).owners ∧ spent h e ∧ Answered r 0 d e))) ∧
      (¬ Authorised d h 9 (bs.drop 32) 0 → Does (.consent fl now) s (Unhalted (denied r Status.authRequired.code))))
namespace Sys2Proof.Machine

/-- An SPDM answer goes out, and nothing else happens. -/
def Says (mctp : Bool) (a : SpdmAns) (p : List Byte) (d e : Dev) : Prop := e = { d with out := Emit.spdm mctp a p :: d.out }

/-- Every session but `n` is as before. -/
def SameSessionsBut (n : Nat) (d e : Dev) : Prop := ∀ m, m ≠ n → e.session m = d.session m

end Sys2Proof.Machine

/-- R384, R390, R394 to R396, R398; which messages core B answers besides reports and certificates, and the answer Busy, are readings (log entry 57). -/
def Obligations.SpdmSessions : Prop :=
  ∀ (s : State) (now : Nat),
    let d := s.dev.at now
    let serial := s.fuses.serial
    (d.rtpUp = false → d.sec.coreB = false → ∀ m v nonce,
      Does (.getVersion m now) s (fun e => e = d) ∧ Does (.spdmReport m none nonce now) s (fun e => e = d) ∧ Does (.pqCert m none now) s (fun e => e = d) ∧
      (∀ a b c f g h, Does (.negotiateAlgorithms m v a b c f g h now) s (fun e => e = d)) ∧ (∀ sl len peer, Does (.keyExchange m v sl len peer now) s (fun e => e = d)) ∧
      (∀ n good leaf, Does (.spdmFinish n good leaf now) s (fun e => e = d)) ∧ (∀ n ct, Does (.kemEncap n ct now) s (fun e => e = d)) ∧
      (∀ len ix, Does (.getMeasurements m v len none ix nonce now) s (fun e => e = d))) ∧
    (d.rtpUp = false → d.sec.coreB = true → ∀ m v, (∀ sl len peer, Does (.keyExchange m v sl len peer now) s (Says m .busy [] d)) ∧
      (∀ n good leaf, Does (.spdmFinish n good leaf now) s (Says (d.session n).mctp .busy [] d)) ∧ (∀ n ct, Does (.kemEncap n ct now) s (Says (d.session n).mctp .busy [] d))) ∧
    (d.rtpUp = true ∨ d.sec.coreB = true →
      (∀ m, Does (.getVersion m now) s (Says m .ok [0x13] d)) ∧
      (∀ m v a b c f g h,
        (v ≠ 0x13 → Does (.negotiateAlgorithms m v a b c f g h now) s (Says m .versionMismatch [] d)) ∧
        (v = 0x13 → ¬ (a = true ∧ b = true ∧ c = true ∧ f = true ∧ g = true ∧ h = true) → Does (.negotiateAlgorithms m v a b c f g h now) s (Says m .invalidRequest [] d)) ∧
        (v = 0x13 → a = true → b = true → c = true → f = true → g = true → h = true → Does (.negotiateAlgorithms m v a b c f g h now) s (fun e =>
          e.out = .spdm m .ok [] :: d.out ∧ (if m then 1 else 0) ∈ e.sec.negotiated ∧ e.sec.sessions = d.sec.sessions ∧ e.keys = d.keys))) ∧
      (∀ m nonce,
        (d.hasIdentity = false → Does (.spdmReport m none nonce now) s (Says m .unspecified [] d) ∧ Does (.pqCert m none now) s (Says m .unspecified [] d)) ∧
        (d.hasIdentity = true → Does (.spdmReport m none nonce now) s (Says m .ok (d.report serial nonce none) d) ∧ Does (.pqCert m none now) s (fun e => ∃ p, p.length = 5184 ∧ Says m .ok p d e))) ∧
      (∀ m nonce n, (d.session n).stage = .kem → d.hasIdentity = true →
        Does (.spdmReport m (some n) nonce now) s (Says m .ok (d.report serial nonce ((d.session n).bound.map (·.1))) d) ∧
        Does (.getMeasurements m 0x13 100 (some n) 0xF0 nonce now) s (fun e => ∃ sig, sig.length = 96 ∧ Says m .ok (d.report serial nonce ((d.session n).bound.map (·.1)) ++ sig) d e)) ∧
      (∀ m nonce n v len ix, (d.session n).stage = .finished →
        let ends := fun (e : Dev) => (e.session n).stage = .none ∧ SameSessionsBut n d e ∧ e.out = d.out ∧ e.keys = d.keys
        Does (.spdmReport m (some n) nonce now) s ends ∧ Does (.pqCert m (some n) now) s ends ∧ Does (.getMeasurements m v len (some n) ix nonce now) s ends) ∧
      (∀ m v len ix nonce,
        (v ≠ 0x13 → Does (.getMeasurements m v len none ix nonce now) s (Says m .versionMismatch [] d)) ∧
        (v = 0x13 → 65536 < len → Does (.getMeasurements m v len none ix nonce now) s (Says m .responseTooLarge [] d)) ∧
        (v = 0x13 → len ≤ 65536 → ix ≠ 0 → ix ≠ 0xF0 → ix ≠ 0xFF → Does (.getMeasurements m v len none ix nonce now) s (Says m .invalidRequest [] d)))) ∧
    (d.rtpUp = true →
      (∀ m v sl len peer,
        (v ≠ 0x13 → Does (.keyExchange m v sl len peer now) s (Says m .versionMismatch [] d)) ∧
        (v = 0x13 → len ≤ 65536 → (if m then 1 else 0) ∈ d.sec.negotiated →
          (1 < sl → Does (.keyExchange m v sl len peer now) s (Says m .invalidRequest [] d)) ∧
          (sl ≤ 1 → d.hasIdentity = false → Does (.keyExchange m v sl len peer now) s (Says m .unspecified [] d)) ∧
          (sl ≤ 1 → d.hasIdentity = true → (∀ n, n < 32 → (d.session n).stage ≠ .none) → Does (.keyExchange m v sl len peer now) s (Says m .sessionLimitExceeded [] d)) ∧
          (∀ n, sl ≤ 1 → d.hasIdentity = true → IsLowest n 32 (fun n => (d.session n).stage = .none) → Does (.keyExchange m v sl len peer now) s (fun e =>
            (e.session n).stage = .exchanged ∧ (e.session n).mctp = m ∧ (e.session n).bound = none ∧ SameSessionsBut n d e ∧ e.keys = d.keys ∧ e.regs = d.regs ∧
            ∃ p, e.out = .spdm m .ok (toBytes 2 n ++ p) :: d.out)))) ∧
      (∀ n leaf, (d.session n).stage = .exchanged →
        Does (.spdmFinish n true leaf now) s (fun e => e.session n = { d.session n with stage := .finished, leaf := leaf } ∧ SameSessionsBut n d e ∧ e.keys = d.keys) ∧
        Does (.spdmFinish n false leaf now) s (fun e => (e.session n).stage = .none ∧ SameSessionsBut n d e ∧ e.out = .spdm (d.session n).mctp .unspecified [] :: d.out)) ∧
      (∀ n ct, (d.session n).stage = .finished → d.hasIdentity = true →
        let x := d.session n
        Does (.kemEncap n ct now) s (fun e => (e.session n).stage = .kem ∧ (e.session n).secret = kdf x.secret "HT-PQ" (Config.mlkemDecap (d.kemSeed serial) ct) 384 ∧ SameSessionsBut n d e ∧
          e.keys = d.keys ∧ e.out = .spdm x.mctp .ok [] :: d.out ∧
          (∀ h o, (e.session n).bound = some (h, o) → h < 16 ∧ x.leaf ≠ [] ∧ ∃ pq, (o, x.leaf, pq) ∈ (d.hoopSec h).owners) ∧
          ((e.session n).bound = none → x.leaf = [] ∨ ∀ h, h < 16 → ∀ w ∈ (d.hoopSec h).owners, w.2.1 ≠ x.leaf)))) ∧
    (∀ n slot secret a, d.live = true → d.rtpUp = true → (d.session n).stage = .kem → d.sec.awaiting.find? (fun a => a.slot == slot) = some a →
      let may := (∃ o, (d.session n).bound = some (a.hoop, o) ∧ (a.owner = 0 ∨ a.owner = o)) ∧ d.now ≤ a.time + 60000000000
      (secret.length ≠ 32 → Does (.keyDeliver n slot secret now) s (Says (d.session n).mctp .invalidRequest [] d)) ∧
      (secret.length = 32 → may → Does (.keyDeliver n slot secret now) s (Unhalted (fun e =>
        (∃ u, e.key slot = { state := .active, usage := a.usage, hoop := a.hoop, gen := (d.key slot).gen, base := beNat (fit 32 secret), owner := a.owner, limit := a.limit, imported := true, uses := u }) ∧
        (∀ j, j ≠ slot → SameKey (d.key j) (e.key j)) ∧ (∀ b ∈ e.sec.awaiting, b.slot ≠ slot) ∧ e.bankN pgSec a.req.port 0x1010 % 65536 = 0 ∧
        e.out.head? = some (.spdm (d.session n).mctp .ok [])))) ∧
      (secret.length = 32 → ¬ may → Does (.keyDeliver n slot secret now) s (Unhalted (fun e => (∀ j, SameKey (d.key j) (e.key j)) ∧ (∀ b ∈ e.sec.awaiting, b.slot ≠ slot) ∧
        e.bankN pgSec a.req.port 0x1010 % 65536 = Status.authRequired.code ∧ e.out.head? = some (.spdm (d.session n).mctp .unspecified []))))) ∧
    (∀ n, Does (.heartbeatTimeout n now) s (fun e => (e.session n).stage = .none ∧ SameSessionsBut n d e ∧ e.keys = d.keys ∧ e.regs = d.regs ∧ e.out = d.out))
/-! ### The cipher engine (chapter 17) -/

namespace Sys2Proof.Machine

/-- The device after writes through a context's translation, in order. -/
def Dev.stored (d : Dev) (c : Nat) (ws : List (Nat × List Byte)) : Dev := ws.foldl (fun d w => (d.writeVa c w.1 w.2).1) d

end Sys2Proof.Machine

/-- R402, R407 to R409; integer fields of the IV are little-endian (log entry 35). -/
def Obligations.CipherRequests : Prop :=
  ∀ (s : State) (h own lender stall now : Nat), s.dev.live = true → h < 16 →
    let d := s.dev.at now
    let g := pgCiphu + h
    let c := d.cuCtx h
    let n := d.cuTaken h
    let z : List Byte := List.replicate 12 0
    let cpl := d.cu h 0x100C + d.cu h 0x1010 % 65536 * 2 ^ 32 + 32 * (n % 2 ^ d.cuLog2 h)
    let record := fun (st phase : Nat) (iv : List Byte) => toBytes 2 st ++ toBytes 1 phase ++ toBytes 1 (1 - n / 2 ^ d.cuLog2 h % 2) ++ toBytes 4 n ++ iv ++ z
    let rows := [Instr.gcmEnc h own lender stall now, .gcmDec h own lender stall now, .sha384 h own lender stall now, .hmac384 h own lender stall now]
    let served := bit (d.cu h 0x1000) 0 = true ∧ n ≠ d.cu h 0x1014 ∧ (d.ctx c).state = .active
    let desc := d.readVa c (d.cu h 0x1004 + d.cu h 0x1008 % 65536 * 2 ^ 32 + 64 * (n % 2 ^ d.cuLog2 h)) 64
    let ended := fun (ws : List (Nat × List Byte)) (st phase len : Nat) (iv : List Byte) (e : Dev) =>
      e.cellar = (d.stored c (ws ++ [(cpl, record st phase iv)])).cellar ∧ e.cuTaken h = (n + 1) % 2 ^ 32 ∧ e.pantry = d.pantry ∧ e.hostMem = d.hostMem ∧ e.flash = d.flash ∧
      e.reg64 g 0 0x1020 = (d.reg64 g 0 0x1020 + len) % 2 ^ 64 ∧ e.reg64 pgCiph h 0x1020 = (d.reg64 pgCiph h 0x1020 + 1) % 2 ^ 64 ∧ e.cmds = d.cmds ∧ e.hoops = d.hoops ∧
      (((d.stored c ws).writeVa c cpl (record st phase iv)).2 = none → e.regN g 0 0x1018 = (d.regN g 0 0x1018 + 1) % 2 ^ 32)
    (∀ port v,
      let t := v % 2 ^ 32
      let adv := (t + 2 ^ 32 - d.cu h 0x1014) % 2 ^ 32
      let sees := port = portPf ∨ port = portRtp ∨ (port ≤ 63 ∧ d.vfHoop port = some h)
      let flags := fun (b : Nat) (e : Dev) => bit (e.cu h 0x1028) b = true ∧ e.cu h 0x1014 = d.cu h 0x1014 ∧ SameRegsBut (fun p i o => p = g ∧ i = 0 ∧ o = 0x1028) d e ∧ SameMem d e
      (¬ sees → Does (.ciphuTail port h v now) s (fun e => e = d)) ∧
      (sees → bit (d.cu h 0x1000) 0 = false ∨ adv = 0 → Does (.ciphuTail port h v now) s (flags 1)) ∧
      (sees → bit (d.cu h 0x1000) 0 = true → adv ≠ 0 → 64 < adv ∨ 2 ^ d.cuLog2 h < (t + 2 ^ 32 - d.cu h 0x101C) % 2 ^ 32 → Does (.ciphuTail port h v now) s (flags 0)) ∧
      (sees → bit (d.cu h 0x1000) 0 = true → adv ≠ 0 → adv ≤ 64 → (t + 2 ^ 32 - d.cu h 0x101C) % 2 ^ 32 ≤ 2 ^ d.cuLog2 h → Does (.ciphuTail port h v now) s (fun e =>
        e.cu h 0x1014 = t ∧ SameRegsBut (fun p i o => p = g ∧ i = 0 ∧ o = 0x1014) d e ∧ SameMem d e ∧ e.sec = d.sec))) ∧
    (¬ served → ∀ i ∈ rows, Does i s (fun e => e = d)) ∧
    (served → ∀ b, desc = .data b →
      (∀ k i, rows[k]? = some i → 1 ≤ (creqOf b).op → (creqOf b).op ≤ 4 → (creqOf b).op ≠ k + 1 → Does i s (fun e => e = d)) ∧
      ((creqOf b).op = 0 ∨ 4 < (creqOf b).op → ∀ i ∈ rows, Does i s (ended [] Status.badDescriptor.code 0 0 z))) ∧
    (served → ∀ st, desc.status = some st → ∀ i ∈ rows, Does i s (ended [] st.code 0 0 z)) ∧
    (served → ∀ b k i, desc = .data b → rows[k]? = some i → (creqOf b).op = k + 1 →
      let q := creqOf b
      let x := d.key q.key
      let φ := if q.op = 2 then q.phase else x.phase
      let K := kdf (beBytes 32 x.base) "HT-CIPH" (beBytes 1 φ) 256
      let fits := (∀ w ∈ q.writes, ∃ ps, d.reach c w.1 w.2 true = .ok ps) ∧ d.creqEgressBad h c q = false
      let same := fun (e : Dev) => (e.key q.key).uses = x.uses ∧ (e.key q.key).phase = x.phase
      let counts := fun (e : Dev) => (x.uses + 1 < x.phaseLimit → (e.key q.key).uses = x.uses + 1 ∧ (e.key q.key).phase = x.phase) ∧
        (x.state = .active → x.phaseLimit = x.uses + 1 → x.phase < 255 → x.deckReady = true → x.sweeping = false → (e.key q.key).uses = 0 ∧ (e.key q.key).phase = x.phase + 1)
      let keyed := x.state = .active ∧ q.key ≠ 0 ∧ x.hoop = h ∧ x.gen = q.gen
      (q.bad = true → (q.op = 3 ∨ (keyed ∧ x.usage = 4 ∧ x.uses < x.phaseLimit)) → Does i s (ended [] Status.badDescriptor.code 0 0 z)) ∧
      (q.bad = false → q.op ≠ 3 → keyed → x.usage ≠ 4 → Does i s (fun e => ended [] Status.badDescriptor.code 0 0 z e ∧ (x.usage ≠ 1 → same e))) ∧
      (q.bad = false → q.op ≠ 3 → q.key = 0 ∨ x.state = .empty → Does i s (fun e => (e.cuTaken h = (n + 1) % 2 ^ 32 ∧ (x.state = .empty → ended [] Status.accessDenied.code 0 0 z e)))) ∧
      (q.bad = false → q.op ≠ 3 → x.state ≠ .empty → q.key ≠ 0 → x.hoop = h → x.usage = 4 → (x.state = .draining ∨ x.gen ≠ q.gen) → x.uses < x.phaseLimit → x.state ≠ .exhausted →
        Does i s (fun e => ended [] Status.keyRevoked.code 0 0 z e ∧ same e)) ∧
      (q.bad = false → q.op = 1 ∨ q.op = 4 → keyed → x.usage = 4 → x.phaseLimit ≤ x.uses → x.phaseLimit ≠ 0 → Does i s (fun e => ended [] Status.keyExhausted.code 0 0 z e ∧ same e)) ∧
      (q.bad = false → fits →
        (∀ src aad, q.op = 1 → keyed → x.usage = 4 → x.uses < x.phaseLimit → d.readVa c q.src q.len = .data src → d.readVa c q.aad q.aadLen = .data aad →
          let iv := q.ivFix ++ toBytes 8 x.uses
          let ct := gcmCrypt (beNat K) (beNat iv) src
          Does i s (fun e => ended [(q.dst, ct), (q.tag, gcmTag (beNat K) (beNat iv) aad ct)] 0 φ q.len iv e ∧ counts e)) ∧
        (∀ src aad tag, q.op = 2 → keyed → x.usage = 4 → d.readVa c q.src q.len = .data src → d.readVa c q.aad q.aadLen = .data aad → d.readVa c q.tag 16 = .data tag →
          (gcmTag (beNat K) (beNat q.iv) aad src = tag → Does i s (fun e => ended [(q.dst, gcmCrypt (beNat K) (beNat q.iv) src)] 0 φ q.len q.iv e ∧ same e)) ∧
          (gcmTag (beNat K) (beNat q.iv) aad src ≠ tag → Does i s (fun e => ended [(q.dst, List.replicate q.len 0)] Status.authRequired.code φ q.len q.iv e ∧ same e ∧
            e.regN pgCiph 0 0x1028 = min (d.regN pgCiph 0 0x1028 + 1) 0xFFFFFFFF))) ∧
        (∀ src, q.op = 3 → d.readVa c q.src q.len = .data src → Does i s (ended [(q.dst, digest src)] 0 0 q.len z)) ∧
        (∀ src, q.op = 4 → keyed → x.usage = 4 → x.uses < x.phaseLimit → d.readVa c q.src q.len = .data src → Does i s (fun e =>
          ended [(q.dst, hmac384 K src)] 0 φ q.len z e ∧ counts e))) ∧
      (q.bad = false → d.creqFaults c q ≠ [] → q.op = 3 ∨ (keyed ∧ x.usage = 4 ∧ x.uses < x.phaseLimit) → Does i s (fun e => e.cuTaken h = (n + 1) % 2 ^ 32 ∧
        e.pantry = d.pantry ∧ e.hostMem = d.hostMem ∧ (q.op ≠ 3 → same e) ∧ ∃ ws : List (Nat × List Byte), ws.map (fun w => (w.1, w.2.length)) = pieces q.dst (if q.op ≤ 2 then q.len else 48) ∧
          e.cellar = (d.stored c (ws ++ [(cpl, record (stAll (d.creqFaults c q)) (if q.op = 3 then 0 else φ) z)])).cellar)))
/-! ### Life cycle and debug (chapter 18) -/

namespace Sys2Proof.Machine

/-- The transition row of a target state's code. -/
def lcRow (t port vbat bad : Nat) (lost : Option Nat) (now : Nat) : Instr :=
  match t with
  | 1 => .lcToTestUnlocked port vbat bad lost now
  | 2 => .lcToTestLocked port vbat bad lost now
  | 3 => .lcToManufactured port vbat bad lost now
  | 4 => .lcToSecured port vbat bad lost now
  | 5 => .lcToRma port vbat bad lost now
  | _ => .lcToScrapped port vbat bad lost now

/-- The command answers a next state whose queue is as before and whose fuses and device are as `P` says. -/
def DoesF (i : Instr) (s : State) (P : Fuses → Dev → Prop) : Prop := ∃ f e, exec i s = .next { s with fuses := f, dev := e } ∧ P f e

/-- Table 3 of R424, INVALID apart: the target is allowed from a state. -/
def lcTarget (frm t : Nat) : Prop :=
  (t = 1 ∧ frm = 0) ∨ (t = 2 ∧ frm = 1) ∨ (t = 3 ∧ frm = 2) ∨ (t = 4 ∧ frm = 3) ∨ (t = 5 ∧ (frm = 3 ∨ frm = 4)) ∨ (t = 6 ∧ frm ≠ 6)

end Sys2Proof.Machine

/-- R424 to R427. -/
def Obligations.LifeCycleTransitions : Prop :=
  ∀ (s : State) (t port vbat bad : Nat) (lost : Option Nat) (now : Nat), 1 ≤ t → t ≤ 6 → s.dev.aon.aonUp = true →
    let d := s.dev.at now
    let f := s.fuses
    let i := lcRow t port vbat bad lost now
    let mayWrite := port = portPf ∨ port = portBmc ∨ port = portJtag
    let kept := fun (g : Fuses) (e : Dev) => g = f ∧ e.keys = d.keys ∧ e.hoops = d.hoops ∧ e.batt = d.batt ∧ e.dbg = d.dbg ∧ SameMem d e
    let refused := fun (st : Status) => DoesF i s (fun g e => kept g e ∧ e.regN pgLc 0 0x1008 = st.code)
    let again := (∀ k, k < 6 → f.cond k ≠ .foreign ∧ (f.cond k = .part ↔ k = t - 1)) ∧ lcTarget (lcDecode (f.conds.map (fun c => if c = .part then .clear else c))) t
    let C := lcConst (t - 1)
    let w := f.word (t - 1)
    (¬ mayWrite → DoesF i s (fun g e => kept g e ∧ Logged pgLc port (errEntry pgLc 0x1004 .port port t) d e)) ∧
    (mayWrite → bit (d.regN pgLc 0 0x1008) 16 = true → DoesF i s (fun g e => kept g e ∧ Logged pgLc port (errEntry pgLc 0x1004 .busy port t) d e)) ∧
    (mayWrite → bit (d.regN pgLc 0 0x1008) 16 = false →
      (d.lc.inForce ≠ 0xF → ¬ lcTarget d.lc.inForce t → refused .lcInvalid) ∧
      (d.lc.inForce = 2 → t = 3 → vbat < 2500 ∨ 3600 < vbat → refused .lcInvalid) ∧
      (d.lc.inForce = 3 ∨ d.lc.inForce = 4 → t = 5 → d.dbg.rmaCert = false → refused .authRequired) ∧
      (d.lc.inForce = 0xF → t ≠ 6 → ¬ again → refused .lcInvalid) ∧
      ((d.lc.inForce ≠ 0xF ∧ lcTarget d.lc.inForce t ∧ (t = 3 → 2500 ≤ vbat ∧ vbat ≤ 3600) ∧ (t = 5 → d.dbg.rmaCert = true)) ∨ (d.lc.inForce = 0xF ∧ (t = 6 ∨ again)) →
        DoesF i s (fun g e => (∀ k, k ≠ t - 1 → g.word k = f.word k) ∧ g.svnWord = f.svnWord ∧ g.serial = f.serial ∧
          (∀ b, bit (g.word (t - 1)) b = true ↔ bit w b = true ∨ (b < 128 ∧ bit C b = true ∧ bit bad b = false ∧
            ∀ n, lost = some n → ((List.range b).filter (fun j => bit C j && !bit w j)).length < n)) ∧
          (lost = none → (g.word (t - 1) = C → e.regN pgLc 0 0x1008 % 2 ^ 17 = 0) ∧ (g.word (t - 1) ≠ C → e.regN pgLc 0 0x1008 % 2 ^ 17 = Status.lcInvalid.code)) ∧
          (lost ≠ none → bit (e.regN pgLc 0 0x1008) 16 = true) ∧
          (t = 1 ∨ t = 2 ∨ t = 4 → e.batt = d.batt ∧ e.keys = d.keys ∧ e.hoops = d.hoops) ∧
          (t = 3 → e.keys = d.keys ∧ (d.batt.root.isSome = true → e.batt = d.batt) ∧ (d.batt.root = none → f.cond 2 ≠ .set → d.batt.osc = true → e.batt.root.isSome = true)) ∧
          (t = 5 ∨ t = 6 → e.batt.root = none ∧ ∀ k, (e.key k).base = 0) ∧
          (lost = none → g.word (t - 1) = C → t = 2 ∨ t = 4 ∨ t = 6 → e.dbg.rights = 0 ∧ e.dbg.scope = 0 ∧ e.dbgRights = 0))))

/-- R428 to R436; which port's queue can be full is a reading (log entry 59). -/
def Obligations.DebugGrants : Prop :=
  ∀ (s : State) (port ctx tile now : Nat), s.dev.live = true →
    let d := s.dev.at now
    let ser := s.fuses.serial
    let may := port = portPf ∨ port = portRtp ∨ port = portBmc ∨ port = portJtag
    let rows := [(1, Instr.dbgEnable port ctx now), (3, .dbgResponse port ctx now)]
    let ours := (d.ctx ctx).state ≠ .free ∧ (d.ctx ctx).func = portPf
    let failed := fun (st : Status) (e : Dev) => e.dbg.rights = d.dbg.rights ∧ e.dbg.scope = d.dbg.scope ∧ e.dbg.legacy = d.dbg.legacy ∧ e.keys = d.keys ∧ e.sec = d.sec ∧ SameMem d e ∧
      e.tiles = d.tiles ∧ e.regN pgDbg 0 0x1010 = st.code
    let settled := fun (e : Dev) => SameMem d e ∧ e.hoops = d.hoops ∧ e.batt = d.batt ∧ e.regN pgDbg 0 0x1010 = 0
    (¬ may → (Does (.dbgEnable port ctx now) s (fun e => e.keys = d.keys ∧ e.dbg = d.dbg ∧ Logged pgDbg port (errEntry pgDbg 0x1004 .port port (1 + ctx % 4096 * 2 ^ 8)) d e)) ∧
      Does (.dbgChallenge port now) s (fun e => e.dbg = d.dbg) ∧ Does (.dbgResponse port ctx now) s (fun e => e.dbg = d.dbg) ∧ Does (.dbgRevoke port now) s (fun e => e.dbg = d.dbg) ∧
      Does (.dbgHalt port ctx tile now) s (fun e => e.tiles = d.tiles) ∧ Does (.dbgResume port ctx tile now) s (fun e => e.tiles = d.tiles)) ∧
    (may → ¬ ours → ∀ x ∈ rows, Does x.2 s (failed .accessDenied)) ∧
    (∀ c, may → ours → d.readVa ctx (d.reg64 pgDbg 0 0x1008) 4800 = .data c → d.rtpUp = true → d.certFull port = false → d.lc.inForce ≠ 6 → d.lc.inForce ≠ 0xF →
      let r := bytesNat c 20 1
      let sc := bytesNat c 22 2
      let form := c.take 8 = ascii "HTDBGCRT" ∧ bytesNat c 8 4 = 0x00010000 ∧ r < 64 ∧ (32 ≤ r → r = 32) ∧ bytesNat c 21 1 < 128 ∧ (∀ b ∈ (c.drop 32).take 32, b = 0) ∧ (∀ b ∈ c.drop 4787, b = 0) ∧ c.length = 4800
      let ok := bytesNat c 12 8 = ser ∧ Config.ecdsaVerify Config.ezDebugEc (c.take 64) ((c.drop 64).take 96) = true ∧ Config.mldsaVerify Config.ezDebugPq (c.take 64) ((c.drop 160).take 4627) = true ∧
        bit (bytesNat c 21 1) d.lc.inForce = true ∧ bytesNat c 24 4 ≤ d.batt.bootCount ∧ d.batt.bootCount ≤ bytesNat c 28 4
      let records := d.lc.inForce = 4 → (sc = 0 → d.grantRecord 0 (digest (c.take 64)) [] = true) ∧ (∀ h, h < 16 → bit sc h = true → d.grantRecord h (digest (c.take 64)) (d.ownersOf h) = true)
      let scan := bit r 4 = true → d.scanFree = true
      (¬ (form ∧ scan) → ok → records → Does (.dbgEnable port ctx now) s (failed .badDescriptor)) ∧
      (form → scan → ¬ (ok ∧ records) → Does (.dbgEnable port ctx now) s (failed .authRequired)) ∧
      (form → scan → ok → records → Does (.dbgEnable port ctx now) s (fun e => settled e ∧ e.dbg.rights = r % 32 ∧ e.dbg.scope = sc ∧ e.dbg.legacy = false ∧
        (r = 32 → e.dbg.rmaCert = true ∧ e.dbg.rights = 0) ∧ (bit r 4 = false → e.keys = d.keys) ∧ (bit r 4 = true → ∀ k, (e.key k).base = 0) ∧
        (d.lc.inForce = 4 → sc = 0 → (e.hoopSec 0).record = none) ∧ (d.lc.inForce ≠ 4 → e.sec = d.sec)))) ∧
    (may → Does (.dbgChallenge port now) s (fun e => SameMem d e ∧ e.keys = d.keys ∧ e.dbg.chal.length = 32 ∧ e.dbg.chalTime = d.now ∧ e.dbg.chalValid = true ∧ e.dbg.rights = d.dbg.rights ∧
      e.regN pgDbg 0 0x1010 = 0)) ∧
    (∀ sig, may → ours → d.readVa ctx (d.reg64 pgDbg 0 0x1008) 96 = .data sig →
      let good := d.dbg.chalValid = true ∧ d.now ≤ d.dbg.chalTime + 60000000000 ∧ Config.ecdsaVerify Config.ezLegacyEc (ascii "HT8100LG" ++ toBytes 8 ser ++ d.dbg.chal) sig = true ∧
        (d.lc.inForce = 4 → d.grantRecord 0 (digest sig) [] = true)
      (d.lc.inForce = 3 ∨ d.lc.inForce = 4 → good → Does (.dbgResponse port ctx now) s (fun e => settled e ∧ e.keys = d.keys ∧ e.dbg.rights = 3 ∧ e.dbg.scope = 0 ∧ e.dbg.legacy = true ∧
        e.dbg.chalValid = false)) ∧
      (d.lc.inForce = 3 ∨ d.lc.inForce = 4 → ¬ good → Does (.dbgResponse port ctx now) s (failed .authRequired)) ∧
      (d.lc.inForce ≠ 3 → d.lc.inForce ≠ 4 → Does (.dbgResponse port ctx now) s (failed .lcInvalid))) ∧
    (may → Does (.dbgRevoke port now) s (fun e => settled e ∧ e.keys = d.keys ∧ e.dbg.rights = 0 ∧ e.dbg.scope = 0 ∧ e.dbg.legacy = false ∧ e.dbg.rmaCert = d.dbg.rmaCert)) ∧
    (may → ctx < 4096 → tile < 128 → ∀ on, let row := if on then Instr.dbgHalt port ctx tile now else .dbgResume port ctx tile now
      let h := (d.ctx ctx).hoop
      (((d.ctx ctx).state = .free ∨ d.dbgReaches 2 h = false) → Does row s (fun e => e.tiles = d.tiles ∧ e.dbg = d.dbg ∧
        Logged pgDbg port (errEntry pgDbg 0x1004 .notVisible port ((if on then 5 else 6) + ctx * 2 ^ 8 + tile * 2 ^ 20)) d e)) ∧
      ((d.ctx ctx).state ≠ .free → d.dbgReaches 2 h = true → (d.hoop h).excl = false → Does row s (fun e => failed .badDescriptor e ∧ e.tiles = d.tiles)) ∧
      ((d.ctx ctx).state ≠ .free → d.dbgReaches 2 h = true → (d.hoop h).excl = true → Does row s (fun e => settled e ∧ e.keys = d.keys ∧ e.dbg = d.dbg ∧
        (∀ k, (tile, k) ∈ d.slotsOf ctx → e.slot tile k = { d.slot tile k with halted := on }) ∧
        (∀ t k, ¬ (t = tile ∧ (t, k) ∈ d.slotsOf ctx) → e.slot t k = d.slot t k))))
/-! ### Collectives (chapter 15) -/

namespace Sys2Proof.Machine

/-- A rank that starts no chunk of the group's operation, has nothing ready to pass on and holds no ring record: it waits for its previous member. -/
def Awaits (d : Dev) (g : CGroup) : Prop :=
  g.state = .active ∧ g.co.op ≠ 6 ∧ 0 < g.co.segs ∧ (∀ h ∈ g.held, h.engine ≠ 0) ∧ g.pass0.ready = [] ∧ g.pass1.ready = [] ∧ g.pass0.rxChunk = g.co.first ∧
  g.pass1.rxChunk = g.co.first ∧ g.co.first ≤ g.pass0.txChunk ∧ g.co.first ≤ g.pass1.txChunk ∧ ∀ i, g.co.first ≤ i → i < g.co.first + g.co.segs → if g.co.reduces then g.chunkFirst i ≠ g.rank else d.chunkHome g i ≠ g.rank

/-- The collective row of an operation code of R343. -/
def ringRow (op trk now : Nat) : Instr :=
  match op with
  | 1 => .allreduce trk now
  | 2 => .allreducePair trk now
  | 3 => .reduceScatter trk now
  | 4 => .allgather trk now
  | _ => .broadcast trk now

end Sys2Proof.Machine

/-- R339, R340. -/
def Obligations.CollectiveGroups : Prop :=
  ∀ (s : State) (port group now : Nat), s.dev.live = true →
    let d := s.dev.at now
    let a := fun n => d.bankN pgShut portPf (0x1014 + 4 * n)
    let k := group % 256
    let g := d.grp k
    let c := fld (a 0) 11 0
    let hoop := (d.ctx c).hoop
    let pic := bit (a 0) 14 = true
    let quiet := fun (e : Dev) => SameMem d e ∧ SameObjects d e ∧ e.groupTab = d.groupTab ∧ e.ports = d.ports
    let logged := fun (v : Nat) (e : Dev) => quiet e ∧ Logged pgShut port (errEntry pgShut 0x1010 .port port v) d e
    let bad := (d.ctx c).state ≠ .active ∨ fld (a 1) 12 0 < 2 ∨ 4096 < fld (a 1) 12 0 ∨ fld (a 1) 12 0 ≤ fld (a 1) 27 16 ∨ a 4 < 10000 ∨ 10000000 < a 4 ∨ a 5 < 100000 ∨ 1000000 < a 5 ∨
      (pic ∧ (256 < fld (a 1) 12 0 ∨ ∃ x ∈ d.groupTab, x.2.state ≠ .free ∧ x.2.picot = true ∧ x.2.sched = fld (a 2) 23 16)) ∨
      fld (a 0) 31 15 ≠ 0 ∨ fld (a 1) 15 13 ≠ 0 ∨ fld (a 1) 31 28 ≠ 0 ∨ fld (a 2) 31 24 ≠ 0 ∨ fld (a 3) 31 16 ≠ 0
    let full := (∀ j, j < 256 → (d.grp j).state ≠ .free) ∨ (d.hoop hoop).inForce.groups ≤ d.groupsOf hoop
    let down := (d.lk (fld (a 2) 3 0)).state ≠ .active ∨ (d.lk (fld (a 2) 7 4)).state ≠ .active
    let fails := fun (st : Status) => (st = .badDescriptor ∧ bad) ∨ d.keyCheck hoop useLink (fld (a 3) 11 0) (fld (a 3) 15 12) = some st ∨ (st = .linkDown ∧ down) ∨ (st = .rejectNoCapacity ∧ full)
    (port ≠ portPf →
      (portIsFunc port = false → Does (.shutCreate port now) s (logged 1)) ∧
      (portIsFunc port = true → bit (d.bankN pgShut port 0x102C) 16 = false → Does (.shutCreate port now) s (fun e => quiet e ∧ OpFailed pgShut port 0x1010 0x102C 1 .accessDenied d e)) ∧
      Does (.shutDestroy port group now) s (logged (2 + k * 256)) ∧ Does (.shutFence port group now) s (logged (3 + k * 256)) ∧
      Does (.shutGLease port now) s (fun e => quiet e ∧ Logged pgShut port (errEntry pgShut 0x0118 .port port 1) d e)) ∧
    (bit (d.bankN pgShut portPf 0x102C) 16 = false →
      (∀ st, fails st → (∀ x, fails x → x.code ≤ st.code) → Does (.shutCreate portPf now) s (OpFailed pgShut portPf 0x1010 0x102C 1 st d)) ∧
      ((∀ st, ¬ fails st) → Does (.shutCreate portPf now) s (fun e => OpDone pgShut portPf 0x1010 0x102C 1 .ok e ∧ SameMem d e ∧ SameObjects d e ∧ e.ports = d.ports ∧
        ∃ n, IsLowest n 256 (fun n => (d.grp n).state = .free) ∧ e.bankN pgShut portPf 0x1030 = n ∧ (∀ j, j ≠ n → e.grp j = d.grp j) ∧
          e.grp n = { state := .active, ctx := c, hoop := hoop, cls := fld (a 0) 13 12, picot := bit (a 0) 14, n := fld (a 1) 12 0, rank := fld (a 1) 27 16, next := fld (a 2) 3 0, prev := fld (a 2) 7 4, peerSlot := fld (a 2) 15 8, sched := fld (a 2) 23 16, key := fld (a 3) 11 0, gen := fld (a 3) 15 12, timeout := a 4, lease := a 5, renewed := d.now })) ∧
      (g.state = .free → Does (.shutDestroy portPf group now) s (OpFailed pgShut portPf 0x1010 0x102C (2 + k * 256) .badDescriptor d) ∧
        Does (.shutFence portPf group now) s (OpFailed pgShut portPf 0x1010 0x102C (3 + k * 256) .badDescriptor d)) ∧
      (g.state ≠ .free → Does (.shutDestroy portPf group now) s (fun e => OpDone pgShut portPf 0x1010 0x102C (2 + k * 256) .ok e ∧ SameMem d e ∧ e.ports = d.ports ∧ e.grp k = {} ∧
        (∀ j, j ≠ k → e.grp j = d.grp j) ∧ (∀ t, t ∉ d.shCmds k → e.cmd t = d.cmd t) ∧
        ∀ t, (d.cmd t).live = true → (d.cmd t).typ = tyCollective → (d.cmd t).xcgid = k → (d.cmd t).stage ≠ .finished →
          e.cmd t = { d.cmd t with status := stCombine (d.cmd t).status Status.contextAborted.code, stage := .finished })) ∧
      (g.state = .fenced → Does (.shutFence portPf group now) s (fun e => OpDone pgShut portPf 0x1010 0x102C (3 + k * 256) .ok e ∧ quiet e)) ∧
      (g.state = .active → Does (.shutFence portPf group now) s (fun e => e.bankN pgShut portPf 0x102C = 0 ∧ (e.grp k).state = .fenced ∧ (e.grp k).held = [] ∧ (e.grp k).launches = [] ∧
        ∀ t, (d.cmd t).live = true → (d.cmd t).typ = tyCollective → (d.cmd t).xcgid = k → (d.cmd t).stage ≠ .finished → (e.cmd t).stage = .finished))) ∧
    (let n := d.bankN pgShut portPf 0x0030
     (n < 256 → (d.grp n).state = .active → Does (.shutGLease portPf now) s (fun e => e.grp n = { d.grp n with renewed := d.now } ∧ (∀ j, j ≠ n → e.grp j = d.grp j) ∧ e.regs = d.regs ∧
        SameMem d e ∧ SameObjects d e)) ∧
     (256 ≤ n ∨ (d.grp n).state ≠ .active → Does (.shutGLease portPf now) s (fun e => e = d))) ∧
    (let x := d.grp group
     (x.state = .active → x.renewed + x.lease * 10 ≤ d.now → Does (.leaseExpiry group now) s (fun e => (e.grp group).state = .fenced ∧ (e.grp group).held = [] ∧ bit (e.regN pgShut group 0x0148) 2 = true)) ∧
     (x.state ≠ .active ∨ d.now < x.renewed + x.lease * 10 → Does (.leaseExpiry group now) s (fun e => e = d)))

/-- R341, R344, R347, R348, R351, R353, R357; handoffs run side by side (log entry 36). -/
def Obligations.CollectiveCommands : Prop :=
  ∀ (s : State) (op trk now : Nat), s.dev.live = true →
    let d := s.dev.at now
    let m := d.cmd trk
    let k := m.xcgid
    let g := d.grp k
    let rows := [(op, ringRow op trk now), (6, Instr.picotAllreduce trk now)]
    let same := fun (e : Dev) => SameMem d e ∧ e.ports = d.ports ∧ e.regs = d.regs ∧ e.ctxs = d.ctxs ∧ e.keys = d.keys ∧ ∀ j, j ≠ k → e.grp j = d.grp j
    let ended := fun (st : Status) (e : Dev) => e.cmd trk = { m with status := stCombine m.status st.code, stage := .finished }
    let free := g.running = none ∧ d.shEarlier k trk = false
    let linked := (d.lk g.next).state ≠ .down ∧ (d.lk g.prev).state ≠ .down
    let d0 := d.shTake k trk (d.collOf m)
    let g0 := d0.grp k
    let o := d.collOf m
    (1 ≤ op → op ≤ 5 → ∀ x ∈ rows,
      (d.collReady trk x.1 = false → Does x.2 s (fun e => e = d)) ∧
      (d.collReady trk x.1 = true →
        (g.state = .free → Does x.2 s (fun e => same e ∧ e.groupTab = d.groupTab ∧ ended .badDescriptor e)) ∧
        (g.state = .fenced → g.running ≠ some trk → Does x.2 s (fun e => e.groupTab = d.groupTab ∧ ended .groupPartitioned e)) ∧
        (g.state = .active → g.running ≠ some trk → ¬ free → Does x.2 s (fun e => e = d)) ∧
        (g.state = .active → free → ¬ linked → Does x.2 s (fun e => e.groupTab = d.groupTab ∧ ended .linkDown e)))) ∧
    (1 ≤ op → op ≤ 5 → d.collReady trk op = true → g.state = .active → free → linked →
      (d.now < o.start → Does (ringRow op trk now) s (fun e => same e ∧ e.cmds = d.cmds ∧ (e.grp k).running = some trk ∧ (e.grp k).begun = false ∧ (e.grp k).co = o)) ∧
      (o.start ≤ d.now → Awaits d0 g0 → Does (ringRow op trk now) s (fun e => same e ∧ e.cmds = d.cmds ∧ (e.grp k).running = some trk ∧ (e.grp k).begun = true ∧ (e.grp k).co = o ∧
        (e.grp k).held = g.held ∧ (e.grp k).lastRx = d.now)) ∧
      (∀ w, op = 5 → o.start ≤ d.now → o.dst = 0 → o.root % 4096 = g.rank → g.rank < g.n → 2 ≤ g.n → o.first = 0 → o.segs = 1 → o.count ≤ 65536 → (∀ h ∈ g.held, h.engine ≠ 0) →
        d0.shRead g0 [(o.src, o.count)] = .ok w →
        let r := (d0.chunkGood k 0).sendRecords g.next g.hoop g.key g.gen (2 + g.cls) 0 (fun sg => shTgt g.peerSlot g.inst 1 false sg 0) w
        r.2 = none → Does (.broadcast trk now) s (fun e => (e.cmd trk).stage = .finished ∧ (e.grp k).running = none ∧ (e.grp k).inst = (g.inst + 1) % 4096 ∧
          (e.aon.halted = false → e.ports = r.1.ports)))) ∧
    ((g.running = some trk ∧ g.begun = false ∧ g.co.start ≤ d.now → m.stage = .running → Awaits d g → Does (.collectiveStartTime trk now) s (fun e => same e ∧ e.cmds = d.cmds ∧
        e.grp k = { g with begun := true, lastRx := d.now })) ∧
      (¬ (g.running = some trk ∧ g.begun = false ∧ g.co.start ≤ d.now) → Does (.collectiveStartTime trk now) s (fun e => e = d))) ∧
    (g.running = some trk → m.live = true → m.typ = tyCollective → m.handoff = false → g.co.internal = none → m.stage = .running →
      let late := g.begun = true ∧ (g.lastRx + g.timeout * 10 ≤ d.now ∨ (m.cls = 0 ∧ m.released = true ∧ m.deadline < d.now))
      (late → Does (.groupTimeout k now) s (fun e => (e.cmd trk).stage = .finished ∧ (e.grp k).running = none ∧ (e.grp k).inst = (g.inst + 1) % 4096 ∧ bit (e.regN pgShut k 0x0148) 3 = true)) ∧
      (¬ late → Does (.groupTimeout k now) s (fun e => e = d))) ∧
    (∀ w, d.collReady trk 6 = true → g.state = .active → free → linked → (∀ h ∈ g.held, h.engine ≠ 0) → (d.lk g.next).slotMode = true →
      let d1 := d0.updGrp k (fun g => { g with begun := true })
      d1.shRead (d1.grp k) [(m.xcsrc, m.xccount)] = .ok w → Does (.picotAllreduce trk now) s (fun e => same e ∧ e.cmds = d.cmds ∧ (e.grp k).running = some trk ∧ (e.grp k).picotSrc = some w ∧
        (g.rank ≠ 0 → (e.grp k).launches = g.launches) ∧
        (g.rank = 0 → (e.grp k).launches = g.launches ++ [{ slot := m.xcstart / 64, head := picotHead (m.xcred + 1) false false 1 g.inst g.peerSlot (m.xcstart / 64), payload := w }]))) ∧
    (∀ x ∈ [(7, Instr.xsend trk now), (8, .xrecv trk now)],
      (d.collReady trk x.1 = false → Does x.2 s (fun e => e = d)) ∧
      (d.collReady trk x.1 = true → g.state = .free → Does x.2 s (fun e => same e ∧ e.groupTab = d.groupTab ∧ ended .badDescriptor e)) ∧
      (d.collReady trk x.1 = true → g.state = .fenced → Does x.2 s (fun e => e.groupTab = d.groupTab ∧ (e.cmd trk).stage = .finished))) ∧
    (d.collReady trk 7 = true → g.state = .active → m.scratch.headD 0 ≠ 1 →
      let d1 := d.updCmd trk (fun m => { m with started := true })
      ((∀ c ∈ g.credits, c.1 ≠ m.htag) → Does (.xsend trk now) s (fun e => same e ∧ e.groupTab = d.groupTab ∧ e.cmd trk = { m with started := true })) ∧
      (∀ n r, d1.hoOldest k 7 m.htag = some trk → g.credits = (m.htag, n) :: r →
        (n ≠ m.xccount → Does (.xsend trk now) s (fun e => (e.cmd trk).stage = .finished ∧ (e.grp k).credits = r)) ∧
        (n = m.xccount → 0 < n → n ≤ 65536 → m.cursor = 0 →
          let d2 := (d1.setGrp k { g with credits := r }).updCmd trk (fun m => { m with scratch := [1] })
          ∀ w, d2.shRead (d2.grp k) [(m.xcsrc, n)] = .ok w →
            let q := d2.sendRecords g.next g.hoop g.key g.gen 6 1 (fun i => hoTgt g.peerSlot m.htag false i) w
            q.2 = none → Does (.xsend trk now) s (fun e => (e.cmd trk).stage = .finished ∧ (e.grp k).credits = r ∧ (e.aon.halted = false → e.ports = q.1.ports))))) ∧
    (d.collReady trk 8 = true → g.state = .active → g.held = [] →
      (m.started = true → Does (.xrecv trk now) s (fun e => e = d)) ∧
      (m.started = false →
        let q := d.hoSend k g.prev (hoTgt g.peerSlot m.htag true 0) (toBytes 8 m.xccount)
        (q.2 = none → Does (.xrecv trk now) s (fun e => e.ports = q.1.ports ∧ SameMem d e ∧ e.groupTab = d.groupTab ∧ (e.cmd trk).started = true ∧ (e.cmd trk).scratch = [0] ∧ (e.cmd trk).stage = .running)) ∧
        (q.2 ≠ none → Does (.xrecv trk now) s (fun e => (e.cmd trk).stage = .finished))))
/-! ### Storage (chapter 16) -/

namespace Sys2Proof.Machine

/-- No live I/O of the device uses a session directly. -/
def Idle (d : Dev) (k : Nat) : Prop := ∀ x ∈ d.ios, ¬ (x.2.live = true ∧ x.2.session = k ∧ x.2.relay = none)

/-- A STORAGE command that ended at its start: its work has ended with a status, and nothing was issued. -/
def StorEnded (trk : Nat) (st : Status) (d e : Dev) : Prop :=
  (e.cmd trk).stage = .finished ∧ (e.cmd trk).status = stCombine (d.cmd trk).status st.code ∧ e.out = d.out ∧ e.sessions = d.sessions ∧ e.rkeyNext = d.rkeyNext ∧ e.cap trk = {}

end Sys2Proof.Machine

/-- R360 to R367. -/
def Obligations.StorageEngine : Prop :=
  ∀ (s : State) (port ctx k rkey trk lba blocks cyc now : Nat) (good nsOk : Bool), s.dev.live = true →
    let d := s.dev.at now
    let others := fun (e : Dev) => ∀ j, j ≠ k → e.sess j = d.sess j
    let x := d.sess k
    let io := d.io rkey
    (port ≠ portPf → Does (.storOpen port ctx good nsOk lba blocks now) s (fun e => e.sessions = d.sessions ∧ e.out = d.out ∧ Logged pgStor port (errEntry pgStor 0x1010 .port port 1) d e) ∧
      Does (.storClose port k now) s (fun e => e.sessions = d.sessions ∧ e.out = d.out ∧ Logged pgStor port (errEntry pgStor 0x1010 .port port (2 + k % 64 * 256)) d e)) ∧
    (bit (d.bankN pgStor portPf 0x101C) 16 = false →
      let row := Instr.storOpen portPf ctx good nsOk lba blocks now
      let a := d.bankN pgStor portPf 0x1014 + 2 ^ 32 * d.bankN pgStor portPf 0x1018
      let ours := (d.ctx ctx).state = .active ∧ (d.ctx ctx).func = portPf
      let fails := fun (st : Status) => Does row s (fun e => OpFailed pgStor portPf 0x1010 0x101C 1 st d e ∧ e.sessions = d.sessions)
      (¬ ours → fails .accessDenied) ∧
      ((∀ b, d.readVa ctx a 480 ≠ .data b) → Does row s (fun e => e.sessions = d.sessions ∧ SameMem d e ∧ e.out = d.out)) ∧
      (∀ b, ours → d.readVa ctx a 480 = .data b →
        let inRange := b.length = 480 ∧ bytesNat b 0 1 < 2 ∧ 1 ≤ bytesNat b 1 1 ∧ bytesNat b 1 1 ≤ 8 ∧ 2 ≤ bytesNat b 2 2 ∧ bytesNat b 2 2 ≤ 128 ∧ 1 ≤ bytesNat b 26 2 ∧ bytesNat b 26 2 ≤ 60 ∧ bytesNat b 28 4 = 0
        let again := fun (j : Nat) => (d.sess j).state = .down ∧ (d.sess j).target = b
        let takes := fun (j : Nat) => IsLowest j 64 again ∨ ((∀ i, i < 64 → ¬ again i) ∧ IsLowest j 64 (fun i => (d.sess i).state = .closed))
        (¬ inRange → fails .badDescriptor) ∧
        (inRange → (∀ j, j < 64 → ¬ again j ∧ (d.sess j).state ≠ .closed) → fails .rejectNoCapacity) ∧
        (inRange → (∃ j, takes j) → (good = false → fails .linkDown) ∧ (good = true → nsOk = false ∨ (lba ≠ 9 ∧ lba ≠ 12) → fails .badDescriptor)) ∧
        (∀ j, inRange → takes j → good = true → nsOk = true → lba = 9 ∨ lba = 12 → Does row s (fun e => OpDone pgStor portPf 0x1010 0x101C 1 .ok e ∧ e.bankN pgStor portPf 0x1020 = j ∧ SameMem d e ∧ SameObjects d e ∧
          (∀ i, i ≠ j → e.sess i = d.sess i) ∧ e.sess j = { state := .opened, port := bytesNat b 0 1, ioq := bytesNat b 1 1, depth := bytesNat b 2 2, nsid := bytesNat b 4 4, kato := bytesNat b 26 2, target := b, lba := lba, blocks := blocks, lastKa := d.now })))) ∧
    (k < 64 → bit (d.bankN pgStor portPf 0x101C) 16 = false →
      (x.state = .closed → Does (.storClose portPf k now) s (fun e => OpFailed pgStor portPf 0x1010 0x101C (2 + k * 256) .badDescriptor d e ∧ e.sessions = d.sessions)) ∧
      (x.state ≠ .closed → Idle d k → Does (.storClose portPf k now) s (fun e => OpDone pgStor portPf 0x1010 0x101C (2 + k * 256) .ok e ∧ e.sess k = {} ∧ others e ∧ SameMem d e ∧ SameObjects d e))) ∧
    (let due := x.state = .opened ∧ x.lastKa + x.kato * 500000000 ≤ d.now
     let sent := fun (e : Dev) => e.out = .storage k stKeepAlive [] [] :: d.out ∧ others e ∧ SameMem d e ∧ SameObjects d e
     (¬ due → Does (.keepAliveTimer k good now) s (fun e => e = d)) ∧
     (due → good = true → Does (.keepAliveTimer k good now) s (fun e => sent e ∧ e.sess k = { x with lastKa := d.now } ∧ e.regs = d.regs)) ∧
     (due → good = false → Idle d k → Does (.keepAliveTimer k good now) s (fun e => sent e ∧ (e.sess k).state = .down ∧ bit (e.regN pgStor k 0x0118) 2 = true))) ∧
    (∀ p len tags fragment rateOk, (let drops := bit s.dev.ethUp p = true ∧ (9216 < len ∨ 2 ≤ tags ∨ fragment = true)
       (drops → Does (.ethernetFrame p len tags fragment) s (fun e => SameMem s.dev e ∧ e.sessions = s.dev.sessions ∧ e.ios = s.dev.ios ∧ e.regN pgStor 0 0x1004 = min (s.dev.regN pgStor 0 0x1004 + 1) 0xFFFFFFFF)) ∧
       (¬ drops → Does (.ethernetFrame p len tags fragment) s (fun e => e = s.dev))) ∧
      Does (.ethernetLinkUp p rateOk) s (fun e => e = { s.dev with ethUp := e.ethUp } ∧ ∀ b, bit e.ethUp b = true ↔ bit s.dev.ethUp b = true ∨ (b = p ∧ p < 2 ∧ rateOk = true)) ∧
      (bit s.dev.ethUp p = true → p < 2 → (∀ y ∈ s.dev.ios, y.2.live = false) → Does (.ethernetLinkDown p) s (fun e => bit e.ethUp p = false ∧ SameMem s.dev e ∧
        ∀ j, (s.dev.sess j).state = .opened → (s.dev.sess j).port = p → (e.sess j).state = .down)) ∧
      (bit s.dev.ethUp p = false → Does (.ethernetLinkDown p) s (fun e => e = s.dev))) ∧
    (let mine := io.live = true ∧ io.session = k ∧ io.relay = none
     let nakked := fun (e : Dev) => e.out = .storage k stNak [rkey] [] :: d.out ∧ (e.sess k).state = .down ∧ others e ∧ SameMem d e ∧ SameObjects d e
     let m := d.cmd io.trk
     let c := d.cap io.trk
     let lastFlush := d.ios = [(rkey, io)] ∧ io.peer = none ∧ io.chunk = 0 ∧ m.live = true ∧ m.stage = .running ∧ m.typ = tyStorage ∧ m.sop = 3 ∧ c.total = 1 ∧ c.next = 1 ∧ c.done = [] ∧ c.bad = [] ∧ c.area = false
     let kept := io.peer = none ∧ m.typ = tyCheckpoint
     (x.state ≠ .opened ∨ ¬ mine → Does (.nvmeCompletion k rkey good cyc now) s (fun e => e = d)) ∧
     (x.state ≠ .opened → Does (.sendWithInvalidate k rkey good cyc now) s (fun e => e = d) ∧ (∀ off n bs, Does (.rdmaRead k rkey off n now) s (fun e => e = d) ∧ Does (.rdmaWrite k rkey off bs now) s (fun e => e = d))) ∧
     (x.state = .opened → ¬ mine → Idle d k → Does (.sendWithInvalidate k rkey good cyc now) s nakked) ∧
     (∀ row ∈ [Instr.nvmeCompletion k rkey good cyc now, .sendWithInvalidate k rkey good cyc now], x.state = .opened → mine →
       (kept → good = true → Does row s (fun e => e.io rkey = { io with live := false } ∧ e.captures = d.captures ∧ SameMem d e ∧ e.out = d.out ∧ e.reg64 pgStor k 0x010C = (d.reg64 pgStor k 0x010C + 1) % 2 ^ 64)) ∧
       (kept → good = false → Does row s (fun e => (e.cap io.trk).bad = c.bad ++ [io.chunk] ∧ SameMem d e ∧ e.out = d.out ∧ e.regN pgStor k 0x0114 = min (d.regN pgStor k 0x0114 + 1) 0xFFFFFFFF)) ∧
       (lastFlush → good = true → Does row s (fun e => (e.cmd io.trk).stage = .finished ∧ (e.cmd io.trk).failed = m.failed ∧ e.cap io.trk = {} ∧ e.ios = [])) ∧
       (lastFlush → good = false → Does row s (fun e => (e.cmd io.trk).stage = .finished ∧ 0 ∈ (e.cmd io.trk).failed ∧ e.cap io.trk = {} ∧ e.ios = []))) ∧
     (let late := io.live = true ∧ io.issued + 10 * d.regN pgStor 0 0x100C ≤ d.now
      (¬ late → Does (.nvmeIoTimeout rkey now) s (fun e => e = d)) ∧
      (late → kept → Does (.nvmeIoTimeout rkey now) s (fun e => (e.cap io.trk).bad = c.bad ++ [io.chunk] ∧ SameMem d e ∧ e.out = d.out)) ∧
      (late → lastFlush → Does (.nvmeIoTimeout rkey now) s (fun e => (e.cmd io.trk).stage = .finished ∧ 0 ∈ (e.cmd io.trk).failed ∧ e.ios = []))) ∧
     (∀ off n bs, x.state = .opened →
       let may := fun (write : Bool) (len : Nat) => mine ∧ io.kind ≠ 2 ∧ io.write = write ∧ off + len ≤ io.len
       (¬ may true n → Idle d k → Does (.rdmaRead k rkey off n now) s nakked) ∧
       (∀ ct, may true n → d.ioBytes io = .ok ct → Does (.rdmaRead k rkey off n now) s (fun e => e = { d with out := .storage k stReadAnswer [rkey, off, n] ((ct.drop off).take n) :: d.out })) ∧
       (¬ may false bs.length → Idle d k → Does (.rdmaWrite k rkey off bs now) s nakked) ∧
       (may false bs.length → Does (.rdmaWrite k rkey off bs now) s (fun e => e.out = .storage k stAck [rkey, off, bs.length] [] :: d.out ∧ SameMem d e ∧ SameObjects d e ∧ e.sessions = d.sessions ∧
         (∀ j, j ≠ rkey → e.io j = d.io j) ∧ e.io rkey = { io with got := (padTo io.len io.got).take off ++ bs ++ (padTo io.len io.got).drop (off + bs.length) })))) ∧
    (let m := d.cmd trk
     let rows := [(1, Instr.storageRead trk now), (2, .storageWrite trk now), (3, .storageFlush trk now)]
     (∀ r ∈ rows, d.storReady trk r.1 = false → Does r.2 s (fun e => e = d)) ∧
     (∀ raw f, (d.cap trk).live = false → d.fileRead m.ctx m.sfile = .ok (raw, f) →
       let rel := bit m.srelay 7
       let bad := d.fileBad rel raw f = true ∨ (m.sop = 1 ∧ f.chunks < m.sfirst + m.scount)
       let key := d.keyCheck m.hoop useFile f.key f.gen
       (∀ r ∈ rows, d.storReady trk r.1 = true → bad → Does r.2 s (StorEnded trk .badDescriptor d)) ∧
       (∀ sn n l0, ¬ bad → key = none → rel = false → f.extents = [(sn, n, l0)] →
         let z := d.sess sn
         let cap := fun (kind l len at' : Nat) => Emit.storage sn kind [z.nsid, l, len / 2 ^ z.lba, if at' = 0 then d.rkeyNext else (d.rkeyNext + 1) % 2 ^ 32, len] []
         (d.storReady trk 3 = true → Does (.storageFlush trk now) s (fun e => e.out = cap stFlush 0 0 0 :: d.out ∧ (e.cmd trk).started = true ∧ (e.cmd trk).stage = .running ∧ SameMem d e ∧ (e.io d.rkeyNext).live = true)) ∧
         (d.storReady trk 1 = true → m.scount = 1 →
           let i := m.sfirst
           let len := roundUp (f.chunkLen i) 4096
           let area := 65536 * f.chunks + (64 + 16 * i) / 4096 * 4096
           Does (.storageRead trk now) s (fun e => e.out = cap stRead (l0 + area / 2 ^ z.lba) 4096 1 :: cap stRead (l0 + 65536 * i / 2 ^ z.lba) len 0 :: d.out ∧ (e.cmd trk).started = true ∧ (e.cmd trk).stage = .running ∧
             SameMem d e ∧ e.rkeyNext = (d.rkeyNext + 2) % 2 ^ 32)) ∧
         (d.storReady trk 2 = true →
           let f' := { f with length := m.slen }
           (d.fileBad false raw f' = false → d.drawNonce f.key f'.chunks = none → Does (.storageWrite trk now) s (StorEnded trk .keyExhausted d)) ∧
           (∀ d1 nonce d2, d.fileBad false raw f' = false → m.slen ≤ 65536 → 0 < m.slen → d.drawNonce f.key f'.chunks = some (d1, nonce) → d1.writeFile m.ctx { f' with nonce := nonce } = .ok d2 →
             let d3 := ((d2.setCap trk { live := true, files := [{ f' with nonce := nonce }], total := m.sChunks }).updCmd trk (fun m => { m with started := true, segs := m.sChunks })).updCap trk (fun c => { c with next := 1 })
             ∀ p, d3.chunkCipher trk 0 = .ok p → Does (.storageWrite trk now) s (fun e => e.out = cap stWrite l0 (roundUp m.slen 4096) 0 :: d.out ∧ (e.cmd trk).stage = .running ∧ SameMem d2 e ∧
               (e.io d.rkeyNext).live = true ∧ (e.io d.rkeyNext).write = true))))))
/-! ### Checkpoints (chapter 16) -/

/-- R370 to R372, R378 to R382; COPYOUT's reading of the staging region is log entry 42. -/
def Obligations.CheckpointEngine : Prop :=
  ∀ (s : State) (port fence value trk now : Nat), s.dev.live = true →
    let d := s.dev.at now
    let m := d.cmd trk
    let c := d.cap trk
    let t := d.trig fence
    let f := d.fence m.kFence
    let ended := fun (st : Status) (e : Dev) => (e.cmd trk).stage = .finished ∧ (e.cmd trk).status = stCombine m.status st.code ∧ e.cap trk = {} ∧ e.out = d.out
    let owned := f.state ≠ .free ∧ f.ctx = m.ctx
    ((d.fence fence).state ≠ .free ∧ d.seesCtx port (d.fence fence).ctx = true → Does (.ckptTmsWrite port fence value now) s (fun e => e.regN pgCkpt fence 0x0100 = value % 2 ^ 32 ∧
      e.trig fence = { t with since := d.now } ∧ (∀ j, j ≠ fence → e.trig j = d.trig j) ∧ SameMem d e ∧ SameObjects d e)) ∧
    (¬ ((d.fence fence).state ≠ .free ∧ d.seesCtx port (d.fence fence).ctx = true) → Does (.ckptTmsWrite port fence value now) s (fun e => e.triggers = d.triggers ∧
      Logged pgCkpt port (errEntry pgCkpt 0x0100 .notVisible port value) d e)) ∧
    (let due := d.regN pgCkpt fence 0x0100 ≠ 0 ∧ t.since + d.regN pgCkpt fence 0x0100 * 1000000 ≤ d.now
     (¬ due → Does (.ckptTimerFire fence now) s (fun e => e = d)) ∧
     (due → t.fired = true → Does (.ckptTimerFire fence now) s (fun e => e.trig fence = { t with since := d.now } ∧ e.regs = d.regs ∧ e.fences = d.fences ∧ e.captures = d.captures)) ∧
     (due → t.fired = false → d.armedOn fence = [] → Does (.ckptTimerFire fence now) s (fun e => e.trig fence = { t with since := d.now } ∧ bit (e.regN pgCkpt fence 0x011C) 0 = true ∧
       e.fences = d.fences ∧ e.captures = d.captures)) ∧
     (∀ k, due → t.fired = false → k ∈ d.armedOn fence → (∀ j ∈ d.armedOn fence, j ≠ k → (d.cmd k).relOrder < (d.cmd j).relOrder) → (d.cmd k).kFence = fence →
       Does (.ckptTimerFire fence now) s (fun e => e.trig fence = { since := d.now, fired := true, lastStep := (d.fence fence).step } ∧ e.regN pgCkpt fence 0x010C = (d.fence fence).step % 2 ^ 32 ∧
         e.fence fence = { d.fence fence with waiting := (d.fence fence).waiting ++ [(k, false)] } ∧ e.cap k = { d.cap k with live := true, phase := 1 } ∧ (∀ j, j ≠ k → e.cap j = d.cap j) ∧
         SameMem d e ∧ e.cmds = d.cmds))) ∧
    (d.ckReady trk 1 = false → Does (.capture trk now) s (fun e => e = d)) ∧
    (d.ckReady trk 1 = true → c.live = false → m.kArmed = true → Does (.capture trk now) s (fun e => e = d)) ∧
    (d.ckReady trk 1 = true → c.live = true → c.phase = 1 →
      let short := m.kStage ≠ 0 ∧ m.kStageLen < ((d.shardFiles m).map StorFile.stageLen).foldl (· + ·) 0
      (¬ owned → Does (.capture trk now) s (ended .accessDenied)) ∧
      (owned → f.state = .incomplete ∨ f.state = .lost → Does (.capture trk now) s (fun e => ended .contextAborted e ∧ SameMem d e ∧ e.fences = d.fences ∧ e.regN pgCkpt m.kFence 0x0114 = (m.finalStatus Status.contextAborted.code) % 2 ^ 32 ∧
        (e.trig m.kFence).fired = false)) ∧
      (owned → f.state ≠ .incomplete → f.state ≠ .lost → short → Does (.capture trk now) s (ended .badDescriptor)) ∧
      (owned → f.state ≠ .incomplete → f.state ≠ .lost → ¬ short → trk ∉ f.readers → f.myTurn trk false = false → Does (.capture trk now) s (fun e => e = d)) ∧
      (owned → f.state ≠ .incomplete → f.state ≠ .lost → ¬ short → trk ∉ f.readers → f.myTurn trk false = true → c.result = none → (d.grp m.kGid).state = .active → (d.grp m.kGid).ctx = m.ctx →
        (∃ u, (d.grp m.kGid).running = some u) → Does (.capture trk now) s (fun e => e.cap trk = { c with phase := 2, step := f.step } ∧ trk ∈ (e.fence m.kFence).readers ∧ (∀ w ∈ (e.fence m.kFence).waiting, w.1 ≠ trk) ∧
          e.groupTab = d.groupTab ∧ e.cmds = d.cmds ∧ SameMem d e))) ∧
    (∀ code tab (st : Status), d.ckReady trk 1 = true → c.live = true → c.phase = 8 → c.result = some (code, tab) → m.status = 0 → m.cause = 0 →
      stCombine code (f32Code (bytesNat (tabGet (fun _ => []) tab 0) 0 4)) = st.code → Does (.capture trk now) s (fun e => (e.cmd trk).stage = .finished ∧ (e.cmd trk).status = st.code ∧ e.cap trk = {} ∧
        e.regN pgCkpt m.kFence 0x0114 = st.code ∧ (e.trig m.kFence).fired = false ∧ (st = .ok → e.regN pgCkpt m.kFence 0x0118 = min (d.regN pgCkpt m.kFence 0x0118 + 1) 0xFFFFFFFF))) ∧
    (d.ckReady trk 2 = false → Does (.copyout trk now) s (fun e => e = d)) ∧
    (d.ckReady trk 2 = true → c.live = false →
      let fs := d.shardFiles m
      let c0 : Capture := { live := true, files := fs }
      let head := fun (j : Nat) => (d.readVa m.ctx (m.kStage + c0.stageOff j + 65536 * (fs.getD j {}).chunks) 64).bytes
      let staged := fun (j : Nat) => (head j).take 4 = ascii "LRTG" ∧ bytesNat (head j) 8 8 = (fs.getD j {}).fileId ∧ bytesNat (head j) 16 8 = (fs.getD j {}).nonce
      (m.kStage = 0 → Does (.copyout trk now) s (ended .badDescriptor)) ∧
      (m.kStage ≠ 0 → (∀ j, j < m.kShards → ¬ staged j) → Does (.copyout trk now) s (ended .ok)) ∧
      (∀ file sn n l0, m.kStage ≠ 0 → m.kShards = 1 → staged 0 → fs = [file] → 0 < file.length → file.length ≤ 65536 → file.extents = [(sn, n, l0)] → (d.sess sn).state = .opened →
        roundUp file.length 4096 ≤ n * 2 ^ (d.sess sn).lba →
        let d3 := ((d.setCap trk c0).updCap trk (fun c => c.begin 0 1)).updCap trk (fun c => { c with next := 1 })
        ∀ p, d3.chunkCipher trk 0 = .ok p → Does (.copyout trk now) s (fun e => (e.cmd trk).stage = .running ∧ SameMem d e ∧
          e.out = .storage sn stWrite [(d.sess sn).nsid, l0, roundUp file.length 4096 / 2 ^ (d.sess sn).lba, d.rkeyNext, roundUp file.length 4096] [] :: d.out))) ∧
    (d.ckReady trk 3 = false → Does (.restore trk now) s (fun e => e = d)) ∧
    (d.ckReady trk 3 = true → c.live = false →
      (¬ owned → Does (.restore trk now) s (ended .accessDenied)) ∧
      (owned → f.running ≠ some trk → f.myTurn trk true = false → Does (.restore trk now) s (fun e => e.cap trk = { live := true, phase := 1 } ∧ e.fences = d.fences ∧ (e.cmd trk).started = true ∧ SameMem d e ∧ e.out = d.out)) ∧
      (owned → f.running = none → f.myTurn trk true = true → f.state = .incomplete → ¬ (f.listAddr = m.arg ∧ f.listCount = 0) → Does (.restore trk now) s (fun e => ended .badDescriptor e ∧
        (e.fence m.kFence).running = none ∧ (e.fence m.kFence).state = .incomplete)) ∧
      (∀ raw mf sn n l0, owned → f.running = none → f.myTurn trk true = true → f.state ≠ .incomplete → d.fileRead m.ctx m.kManifest = .ok (raw, mf) → d.fileBad false raw mf = false →
        d.keyCheck m.hoop useFile mf.key mf.gen = none → mf.chunks = 1 → mf.extents = [(sn, n, l0)] →
        let z := d.sess sn
        let len := roundUp mf.length 4096
        Does (.restore trk now) s (fun e => e.fence m.kFence = f.take trk true ∧ (e.cap trk).phase = 2 ∧ (e.cmd trk).stage = .running ∧ SameMem d e ∧
          e.out = .storage sn stRead [z.nsid, l0 + 65536 / 2 ^ z.lba, 4096 / 2 ^ z.lba, (d.rkeyNext + 1) % 2 ^ 32, 4096] [] :: .storage sn stRead [z.nsid, l0, len / 2 ^ z.lba, d.rkeyNext, len] [] :: d.out))) ∧
    (d.ckReady trk 3 = true → c.live = true → c.phase = 5 → (m.kVerify = false ∨ (d.needed m c).all (fun e => match c.fileFor e with
        | some i => digest (c.keptBytes i 0 (c.files.getD i {}).length) == e.dig
        | none => false) = true) →
      (∀ x ∈ d.targets m, targetStatus x ((Dev.sourcesOf c x).map (fun y => (y.1, y.2.1))) = none) →
      let ws := ((List.range m.kShards).zip (d.targets m)).flatMap (fun p => targetWrites p.2 (Dev.sourcesOf c p.2) (m.kSource p.1))
      ∀ ps, d.reachFrom m.ctx true (ws.flatMap (fun w => pieces w.1 w.2.length)) = .ok ps →
        let d1 := (d.setFence m.kFence { f with state := .updating, listAddr := m.arg, listCount := 0 }).updCap trk (fun c => { c with written := true })
        (d1.putParts ps (ws.flatMap (·.2))).2 = .ok → Does (.restore trk now) s (fun e => (e.cmd trk).stage = .finished ∧ (e.cmd trk).cursor = m.kShards ∧ e.cap trk = {} ∧ (e.fence m.kFence).state = .idle ∧
          (e.fence m.kFence).step = bytesNat c.manifest 24 4 ∧ (e.fence m.kFence).running = none))
/-! ### Faults, watchdogs, halts and sparing (chapters 17 and 19) -/

namespace Sys2Proof.Machine

/-- The device halts with a cause from 0x10 up (R248, R249, R438): record, keys destroyed, links down. One halted before only marks `MULTI`. -/
def HaltsWith (cause wher : Nat) (d e : Dev) : Prop :=
  (d.aon.halted = false → e.aon.halted = true ∧ e.aon.halt = { valid := true, cause := cause, wher := wher, boot := d.batt.bootCount, time := d.now } ∧ (∀ k, (e.key k).base = 0) ∧
    (∀ p, (d.lk p).state ≠ .disabled → (e.lk p).state = .down) ∧ e.ethUp = 0 ∧ (d.aon.boot.step = 0 → SameMem d e) ∧ e.ctxs = d.ctxs ∧ e.hoops = d.hoops) ∧
  (d.aon.halted = true → e.aon.halt = { d.aon.halt with multi := true } ∧ e.aon.halted = true ∧ SameObjects d e ∧ (d.aon.boot.step = 0 → SameMem d e))

end Sys2Proof.Machine

/-- R387, R389, R391, R438, R440, R450, R455. -/
def Obligations.FaultsAndSparing : Prop :=
  ∀ (s : State) (port a b now : Nat) (f : Bool), s.dev.aon.aonUp = true →
    let d := s.dev.at now
    (d.live = true →
      let lost := fun (c : Nat) (e : Dev) => (e.ctx c).pricking = none ∧ (e.ctx c).faults = []
      let t := b % 128
      let works := fun (k : Nat) => (d.ctx b).state = .active ∧ d.ctxHeld b = false ∧ d.unitWorks k a b = true
      let m := d.cmd a
      let waits := m.live = true ∧ m.stage ≠ .finished ∧ (m.started = false ∨ (m.typ = tyCollective ∧ (m.xcop = 7 ∨ m.xcop = 8)))
      (∀ k, (works k → Does (.engineWatchdog k a b now) s (lost b)) ∧ (¬ works k → Does (.engineWatchdog k a b now) s (fun e => e = d))) ∧
      (waits → (d.ctx m.ctx).state = .active → Does (.queueWatchdog a now) s (lost m.ctx)) ∧ (¬ waits → Does (.queueWatchdog a now) s (fun e => e = d)) ∧
      (port ≠ portPf → Does (.remapTile port b f now) s (fun e => e.tiles = d.tiles ∧ Logged pgAttic port (errEntry pgAttic 0x1004 .port port (1 + t * 2 ^ 4 + b2n f * 2 ^ 16)) d e) ∧
        Does (.remapCancel port b now) s (fun e => e.tiles = d.tiles ∧ Logged pgAttic port (errEntry pgAttic 0x1004 .port port (2 + t * 2 ^ 4)) d e)) ∧
      (bit (d.bankN pgAttic portPf 0x1008) 16 = false →
        let bad := 95 < t ∨ (d.tile t).out = true ∨ ∃ i, i < 12 ∧ (d.tile (12 * (t / 12) + i)).armed = true
        let fails := fun (st : Status) => (st = .badDescriptor ∧ bad) ∨ (st = .rejectNoCapacity ∧ bit (d.regN pgAttic 0 0x1000) (t / 12) = false)
        let others := fun (e : Dev) => (∀ j, j ≠ t → e.tile j = d.tile j) ∧ SameMem d e ∧ SameObjects d e
        (∀ st, fails st → (∀ x, fails x → x.code ≤ st.code) → Does (.remapTile portPf b f now) s (fun e => OpFailed pgAttic portPf 0x1004 0x1008 (1 + t * 2 ^ 4 + b2n f * 2 ^ 16) st d e ∧ e.tiles = d.tiles)) ∧
        ((∀ st, ¬ fails st) → Does (.remapTile portPf b f now) s (fun e => OpDone pgAttic portPf 0x1004 0x1008 (1 + t * 2 ^ 4 + b2n f * 2 ^ 16) .ok e ∧ others e ∧
          e.tile t = { d.tile t with armed := true, holding := f })) ∧
        Does (.remapCancel portPf b now) s (fun e => OpDone pgAttic portPf 0x1004 0x1008 (2 + t * 2 ^ 4) .ok e ∧ others e ∧ e.tile t = { d.tile t with armed := false, holding := false })) ∧
      (let goes := (d.tile b).holding = true ∧ d.tileQuiet b = true
       (goes → Does (.tileRemapExecute b now) s (fun e => e.tile b = { d.tile b with phys := 13, standin := false, retired := [], rate := 65536, cohort := 65536, winNom := 0, winElapsed := 0, arrMap := [], colUsed := [], spareArrays := 2, armed := false, holding := false } ∧
         (∀ j, j ≠ b → e.tile j = d.tile j) ∧ SameMem d e ∧ SameObjects d e ∧ bit (e.regN pgAttic 0 0x1000) (b / 12) = false ∧ bit (e.bankN pgAttic portPf 0x0018) 0 = true ∧ e.reg64 pgTile b 0x0180 = 0)) ∧
       (¬ goes → Does (.tileRemapExecute b now) s (fun e => e = d)))) ∧
    (let may := port = portPf ∨ port = portBmc ∨ port = portJtag
     (¬ may → d.aon.boot.step = 0 → Does (.rasHaltReq port a now) s (fun e => e.aon = d.aon ∧ e.keys = d.keys ∧ Logged pgRas port (errEntry pgRas 0x1030 .port port a) d e)) ∧
     (may → a ≠ 0x48414C54 → d.aon.boot.step = 0 → Does (.rasHaltReq port a now) s (fun e => e.aon = d.aon ∧ e.keys = d.keys ∧ Logged pgRas port (errEntry pgRas 0x1030 .value port a) d e)) ∧
     (may → a = 0x48414C54 → Does (.rasHaltReq port a now) s (HaltsWith 0x15 (if port = portPf then 0 else 1) d)) ∧
     (may ∨ port = portRtp → bit a 0 = true → Does (.rasHaltStsClear port a) s (fun e => e = { s.dev with aon := { s.dev.aon with halt := {} } })) ∧
     (¬ (may ∨ port = portRtp) ∨ bit a 0 = false → Does (.rasHaltStsClear port a) s (fun e => e = s.dev))) ∧
    (let low := d.aon.halted = false ∧ bit (d.regN pgRas 0 0x102C) 0 = true
     (low → Does (.haltNLow now) s (HaltsWith 0x16 0 d)) ∧ (¬ low → Does (.haltNLow now) s (fun e => e = d))) ∧
    (let trips := d.batt.vbat = true ∧ 1 ≤ a ∧ a ≤ 6
     (¬ trips → Does (.tamperTrip a b now) s (fun e => e = d)) ∧
     (trips → Does (.tamperTrip a b now) s (fun e => HaltsWith 0x10 a d e ∧ e.batt.root = none ∧ e.batt.trips = min 255 (d.batt.trips + 1) ∧ e.batt.tamperHead = (d.batt.tamperHead + 1) % 8 ∧
       tabGet (fun _ => ((0 : Nat), (0 : Nat))) e.batt.tamperLog d.batt.tamperHead = (a, b % 2 ^ 48)))) ∧
    (let runs := if a = 0 then d.sec.coreA else d.sec.coreB
     let again := ∃ t, d.sec.lastRestart = some t ∧ d.now ≤ t + 1000000000
     (runs = false → Does (.rtpWatchdog a b now) s (fun e => e = d)) ∧
     (runs = true → a < 64 → a ≠ 0 ∨ again → Does (.rtpWatchdog a b now) s (fun e => HaltsWith 0x11 a d e ∧ (a = 0 → e.sec.coreA = false))) ∧
     (runs = true → a = 0 → ¬ again → Does (.rtpWatchdog a b now) s (fun e => e.sec.reqs = [] ∧ e.sec.pairs = [] ∧ e.sec.awaiting = [] ∧ e.sec.restarts = min 255 (d.sec.restarts + 1) ∧
       e.sec.lastRestart = some d.now ∧ e.sec.restartEnd = d.now + min b 100000000 ∧ (d.sec.reqs = [] → d.sec.pairs = [] → d.sec.awaiting = [] → SameMem d e ∧ e.keys = d.keys)))) ∧
    (let recent := (d.sec.fails.filter (fun t => decide (d.now ≤ t + 1000000000))).length
     (f = true ∨ 2 ≤ recent → Does (.entropyHealthFail f now) s (HaltsWith 0x12 0 d)) ∧
     (f = false → recent < 2 → d.aon.boot.step = 0 → Does (.entropyHealthFail f now) s (fun e => e.aon = d.aon ∧ SameMem d e ∧ e.keys = d.keys ∧ e.sec.fails.length = recent + 1)))
/-! ### Starts and boot (chapter 20) -/

namespace Sys2Proof.Machine

/-- Nothing holds the core in reset (R458, R502, R514). -/
def StartFree (d : Dev) : Prop :=
  d.aon.sysRstLow = false ∧ (∀ i, i < 5 → tabGet natDflt d.aon.pg i ≠ 0) ∧ d.aon.seqErr = false ∧ ¬ (d.aon.halted = true ∧ d.aon.halt.cause = 0x13 ∧ d.therm.cool = false)

/-- The first twelve bytes of a 64-byte ledger record (R469 Table 6). -/
def RecHead (count attempt trigger : Nat) (cold : Bool) (outcome : Nat) (r : List Byte) : Prop :=
  r.length = 64 ∧ r.take 12 = ascii "HTBL" ++ toBytes 4 count ++ toBytes 1 attempt ++ toBytes 1 (if trigger = 5 then (if cold then 2 else 3) else if cold then 0 else 1) ++ toBytes 1 trigger ++ toBytes 1 outcome

/-- The core's state is lost (R458, R460); the host's memory, the battery domain and the flash's firmware are not the core's. -/
def CoreLost (d e : Dev) : Prop :=
  e.ctxs = [] ∧ e.queues = [] ∧ e.events = [] ∧ e.cmds = [] ∧ e.hoops = [] ∧ e.keys = [] ∧ e.groups = [] ∧ e.pot = [] ∧ e.cellar = [] ∧ e.pantry = [] ∧ e.sessions = [] ∧ e.groupTab = [] ∧
  e.batt = d.batt ∧ e.flash = d.flash ∧ e.hostMem = d.hostMem ∧ e.now = d.now

/-- What the always-on domain keeps across a start (R460). -/
def AonKept (d e : Dev) : Prop :=
  e.aon.halt = d.aon.halt ∧ e.aon.halted = d.aon.halted ∧ e.aon.ledger = d.aon.ledger ∧ e.aon.series = d.aon.series ∧ e.aon.trained = d.aon.trained ∧ e.aon.retired = d.aon.retired ∧ e.aon.mbist = d.aon.mbist

/-- Every step of an attempt can be met (R461, R462). -/
def AllGood (f : Fuses) (b : BootOp) (cold : Bool) (series : Nat) (d : Dev) : Prop :=
  series < 3 ∧ d.aon.boot.step = 0 ∧ b.hang = none ∧ lcShut (lcSense f (f.flipped b.flips)).inForce = false ∧ b.entropy = true ∧ b.romBad = none ∧ b.flashBad = false ∧
  (d.fwGood f 0 = true ∨ d.fwGood f 0x100000 = true) ∧ (d.batt.root = none ∨ b.dice = true) ∧ b.vMeas ≤ f.vop + 15 ∧ f.vop ≤ b.vMeas + 15 ∧ b.plls = true ∧ b.pcie = true ∧ d.aon.perstLow = false ∧
  b.stacksBad % 256 = 0 ∧ (cold = true ∨ d.aon.trained = true) ∧ b.metaOk = true ∧ b.readyOk = true

/-- A start has run an attempt as far as it goes: `series` failed attempts before it. -/
def Attempted (f : Fuses) (b : BootOp) (trigger : Nat) (cold : Bool) (series : Nat) (d e : Dev) : Prop :=
  let n := min 4 (series + 1)
  (e.ctxs = [] ∧ e.queues = [] ∧ e.cmds = [] ∧ e.cellar = [] ∧ e.pantry = [] ∧ e.sessions = [] ∧ e.groupTab = [] ∧ e.hostMem = d.hostMem) ∧
  e.batt = { d.batt with bootCount := if d.batt.vbat = true ∧ b.hang ≠ some 1 then (d.batt.bootCount + 1) % 2 ^ 32 else d.batt.bootCount } ∧
  e.aon.attempt = n ∧ e.aon.boot.trigger = trigger ∧ e.aon.boot.cold = cold ∧ e.aon.due = none ∧
  (∃ prev, (d.aon.boot.step = 0 → prev = d.aon.ledger) ∧
    (d.aon.boot.step ≠ 0 → ∃ r, prev = (r :: d.aon.ledger).take 4 ∧ RecHead d.batt.bootCount d.aon.attempt d.aon.boot.trigger d.aon.boot.cold 3 r) ∧
    (e.aon.boot.step ≠ 0 → e.aon.ledger = prev) ∧
    (e.aon.boot.step = 0 → ∃ r, e.aon.ledger = (r :: prev).take 4 ∧
      RecHead e.batt.bootCount n trigger cold (if e.aon.ready then 0 else if e.aon.safe then 4 else if e.aon.halted then 2 else 1) r)) ∧
  (e.aon.ready = true → n ≠ 4 ∧ e.aon.boot.step = 0 ∧ e.aon.safe = false ∧ e.aon.retryDue = false ∧ e.aon.series = 0 ∧ e.aon.altFw = false ∧ e.aon.altHbm = false ∧ e.aon.skipPorts = 0 ∧ e.aon.laneAlt = 0 ∧
    (e.hoop 0).state = .active ∧ (e.hoop 0).inForce = hoop0 ∧ (∀ h, h ≠ 0 → (e.hoop h).state = .free) ∧ (∀ p, (e.potOf p).granted = decide (p < 16)) ∧ (∀ p, p < 16 → (e.potOf p).hoop = 0) ∧
    bit (e.bankN pgBoot portPf 0x0018) 0 = true ∧ e.regN pgCap 0 0x0100 % 2 = 0) ∧
  (e.aon.safe = true → e.aon.boot.step = 0 ∧ e.aon.ready = false ∧ e.aon.retryDue = false ∧ e.aon.series = series ∧ e.hoops = [] ∧ (n = 4 ∨ lcShut e.lc.inForce = true)) ∧
  (e.aon.retryDue = true → e.aon.boot.step = 0 ∧ e.aon.ready = false ∧ e.aon.series = series + 1 ∧ e.hoops = [] ∧
    e.aon.boot.failStep ∈ [1, 4, 5, 7, 8, 9, 10, 11, 12, 15] ∧ e.aon.altFw = decide (e.aon.boot.failStep = 4) ∧ e.aon.altHbm = decide (e.aon.boot.failStep = 11) ∧ e.aon.skipPorts = e.aon.boot.portFail) ∧
  (e.aon.halted = true → e.aon.boot.step = 0 ∧ e.aon.ready = false ∧ e.aon.retryDue = false ∧ e.aon.series = series + 1 ∧ e.aon.halt.valid = true ∧
    ((e.aon.boot.failStep = 2 ∧ e.aon.halt.cause = 0x12) ∨ (e.aon.boot.failStep = 3 ∧ e.aon.halt.cause = 0x11))) ∧
  (e.aon.halted = false → e.aon.halt = d.aon.halt) ∧
  (e.aon.boot.step ≠ 0 → e.aon.ready = false ∧ e.aon.safe = false ∧ e.aon.retryDue = false ∧ e.aon.halted = false ∧ e.aon.series = series) ∧
  (e.aon.boot.step = 0 → e.aon.ready = true ∨ e.aon.safe = true ∨ e.aon.retryDue = true ∨ e.aon.halted = true) ∧
  (AllGood f b cold series d → e.aon.ready = true)

/-- A row starts an attempt, at once or, where something holds the core, as soon as it may. -/
def Starts (row : Instr) (s : State) (b : BootOp) (trigger : Nat) (cold : Bool) (series : Nat) (d : Dev) : Prop :=
  (StartFree d → Does row s (Attempted s.fuses b trigger cold series d)) ∧
  (¬ StartFree d → Does row s (fun e => e.aon.due = some (trigger, cold) ∧ e.aon.boot = d.aon.boot ∧ e.aon.halted = d.aon.halted ∧ e.aon.halt = d.aon.halt ∧ e.batt = d.batt ∧ SameMem d e ∧ SameObjects d e))

/-- The attempt in progress ends at step `k` with an entry and an outcome: its record is written (R469). -/
def AttemptEnds (outcome k code dur : Nat) (d e : Dev) : Prop :=
  e.aon.boot.step = 0 ∧ e.aon.ready = d.aon.ready ∧ e.batt = d.batt ∧
  ∃ r, e.aon.ledger = (r :: d.aon.ledger).take 4 ∧ RecHead d.batt.bootCount d.aon.attempt d.aon.boot.trigger d.aon.boot.cold outcome r ∧
    bytesNat r 12 2 = k ∧ bytesNat r (14 + 2 * k) 2 = code ∧ bytesNat r 56 4 = (d.aon.boot.elapsed + dur) / 10000 % 2 ^ 32

/-- A required step fails: the attempt is counted, and the next one of the series is due with the alternative of that step (R462, R463). -/
def AttemptFails (k code dur : Nat) (d e : Dev) : Prop :=
  AttemptEnds 1 k code dur d e ∧ e.aon.retryDue = true ∧ e.aon.series = d.aon.series + 1 ∧ e.aon.altFw = decide (k = 4) ∧ e.aon.altHbm = decide (k = 11) ∧ e.aon.skipPorts = d.aon.boot.portFail

end Sys2Proof.Machine

/-- R458 to R465, R469, R470, R502, R514. -/
def Obligations.BootAttempts : Prop :=
  ∀ (s : State) (b : BootOp) (port a v now : Nat) (rails : List Nat) (i : Bool) (lost : Option Nat),
    let d := s.dev.at now
    let high := fun (x : Dev) => { x with aon := { x.aon with sysRstLow := false } }
    let may := port = portPf ∨ port = portBmc ∨ port = portJtag
    let k := d.aon.boot.step
    let same := fun (e : Dev) => e = d
    let used := d.aon.ready = true ∨ d.aon.safe = true ∨ d.aon.halted = true ∨ k ≠ 0
    (d.aon.aonUp = true →
      (∀ t, d.aon.due = some t → Starts (.powerOn b now) s b t.1 t.2 d.aon.series d) ∧ (d.aon.due = none → Does (.powerOn b now) s same) ∧
      (d.aon.sysRstLow = true → Starts (.sysRstNRelease b now) s b 1 true d.aon.series (high d)) ∧ (d.aon.sysRstLow = false → Does (.sysRstNRelease b now) s same) ∧
      Does (.sysRstNAssert now) s (fun e => CoreLost d e ∧ AonKept d e ∧ e.aon.sysRstLow = true ∧ e.aon.ready = false ∧ e.aon.safe = false ∧ e.aon.retryDue = false) ∧
      (a < 5 → tabGet natDflt d.aon.pg a ≠ 0 → used → Does (.powerGoodLoss a now) s (fun e => CoreLost d e ∧ AonKept d e ∧ e.aon.due = some (2, true) ∧ e.aon.ready = false ∧ e.aon.safe = false ∧
        tabGet natDflt e.aon.pg a = 0 ∧ (∀ j, j ≠ a → tabGet natDflt e.aon.pg j = tabGet natDflt d.aon.pg j))) ∧
      (a < 5 → tabGet natDflt d.aon.pg a ≠ 0 → ¬ used → Does (.powerGoodLoss a now) s (fun e => e = { d with aon := { d.aon with pg := e.aon.pg, retryDue := false } } ∧
        tabGet natDflt e.aon.pg a = 0 ∧ (∀ j, j ≠ a → tabGet natDflt e.aon.pg j = tabGet natDflt d.aon.pg j))) ∧
      (5 ≤ a ∨ tabGet natDflt d.aon.pg a = 0 → Does (.powerGoodLoss a now) s same) ∧
      (let rises := fun (r : Nat) => r < 5 ∧ r ∈ rails ∧ tabGet natDflt d.aon.pg r = 0
       let early := ∃ r q, rises r ∧ q < r ∧ tabGet natDflt d.aon.pg q = 0 ∧ q ∉ rails
       Does (.pgRise rails now) s (fun e => (∀ r, (rises r → tabGet natDflt e.aon.pg r = d.aon.pg.length + 1) ∧ (¬ rises r → tabGet natDflt e.aon.pg r = tabGet natDflt d.aon.pg r)) ∧
         (e.aon.seqErr = true ↔ d.aon.seqErr = true ∨ early) ∧ (early → bit (e.regN pgTel 0 0x102C) 1 = true) ∧ SameObjects d e ∧ SameMem d e)) ∧
      (d.aon.pg = [] → Does (.seqHoldRelease now) s (fun e => e = { d with aon := { d.aon with seqErr := false } })) ∧ (d.aon.pg ≠ [] → Does (.seqHoldRelease now) s same) ∧
      Does (.perstNAssert now) s (fun e => e = { d with aon := { d.aon with perstLow := true, pcieUp := false, warmPending := d.aon.warmPending || d.aon.ready || d.aon.safe } }) ∧
      (d.aon.warmPending = true → Starts (.perstNRelease b now) s b 3 false d.aon.series { d with aon := { d.aon with perstLow := false } }) ∧
      (d.aon.warmPending = false → k ≠ 8 ∨ d.aon.halted = true → Does (.perstNRelease b now) s (fun e => e = { d with aon := { d.aon with perstLow := false } })) ∧
      (d.aon.warmPending = false → k = 8 → d.aon.halted = false →
        (b.hang = some 8 → Does (.perstNRelease b now) s (fun e => e.aon.boot.step = 8 ∧ e.aon.perstLow = false ∧ e.aon.ledger = d.aon.ledger)) ∧
        (b.hang ≠ some 8 → b.pcie = false → Does (.perstNRelease b now) s (AttemptFails 8 4 b.dur d)) ∧
        (b.hang ≠ some 8 → b.pcie = true → d.aon.attempt = 4 ∨ lcShut d.lc.inForce = true → Does (.perstNRelease b now) s (fun e => e.aon.safe = true ∧ e.aon.pcieUp = true ∧ e.aon.boot.step = 0 ∧ tabGet natDflt e.aon.boot.steps 8 = 1 ∧
          ∃ r, e.aon.ledger = (r :: d.aon.ledger).take 4 ∧ RecHead d.batt.bootCount d.aon.attempt d.aon.boot.trigger d.aon.boot.cold 4 r)) ∧
        (b.hang ≠ some 8 → b.pcie = true → d.aon.attempt ≠ 4 → lcShut d.lc.inForce = false → Does (.perstNRelease b now) s (fun e => e.aon.pcieUp = true ∧ tabGet natDflt e.aon.boot.steps 8 = 1 ∧ e.aon.boot.step ≠ 8))) ∧
      (may → Starts (.bootCtlWarm port b now) s b 4 false d.aon.series d ∧ Starts (.clearSeries port b now) s b 4 false 0 d) ∧
      (¬ may → Does (.bootCtlWarm port b now) s (fun e => e.aon = d.aon ∧ Logged pgBoot port (errEntry pgBoot 0x1058 .port port 1) d e) ∧
        Does (.clearSeries port b now) s (fun e => e.aon = d.aon ∧ Logged pgBoot port (errEntry pgBoot 0x1058 .port port 3) d e)) ∧
      (let due := d.aon.retryDue = true ∧ d.aon.halted = false
       (due → Starts (.bootRetry b now) s b 5 d.aon.boot.cold d.aon.series d) ∧ (¬ due → Does (.bootRetry b now) s same)) ∧
      (k = 0 ∨ d.aon.halted = true → Does (.bootStepTimeout b now) s same) ∧
      (k ∈ [1, 4, 5, 7, 8, 9, 10, 11, 12, 15] → d.aon.halted = false → Does (.bootStepTimeout b now) s (AttemptFails k 5 b.dur d)) ∧
      (k = 2 ∨ k = 3 → d.aon.halted = false → Does (.bootStepTimeout b now) s (fun e => AttemptEnds 2 k 5 b.dur d e ∧ e.aon.halted = true ∧ e.aon.halt.cause = (if k = 2 then 0x12 else 0x11) ∧
        e.aon.retryDue = d.aon.retryDue ∧ e.aon.series = d.aon.series + 1)) ∧
      (k = 6 ∨ k = 13 ∨ k = 14 → d.aon.halted = false → Does (.bootStepTimeout b now) s (fun e => tabGet natDflt e.aon.boot.steps k = 5 ∧ e.aon.boot.step ≠ k ∧ (k = 6 → e.aon.noOpcfg = true ∧ e.aon.portsOp = 0)))) ∧
    (let f := s.fuses
     let commits := fun (g : Fuses) (e : Dev) => e = d ∧ (∀ n, bit f.svnWord n = true → bit g.svnWord n = true) ∧ g = { f with svnWord := g.svnWord } ∧ svnFloor g.svnWord ≤ max (svnFloor f.svnWord) d.aon.svnRunning
     (d.aon.aonUp = false → Does (.bootSvnCommit port v lost now) s same) ∧
     (d.aon.aonUp = true → ¬ may → Does (.bootSvnCommit port v lost now) s (fun e => e.aon = d.aon ∧ Logged pgBoot port (errEntry pgBoot 0x105C .port port v) d e)) ∧
     (d.aon.aonUp = true → may → v ≠ 0x53564E43 → Does (.bootSvnCommit port v lost now) s (fun e => e.aon = d.aon ∧ Logged pgBoot port (errEntry pgBoot 0x105C .value port v) d e)) ∧
     (d.aon.aonUp = true → may → v = 0x53564E43 → d.sec.coreA = false → Does (.bootSvnCommit port v lost now) s same) ∧
     (d.aon.aonUp = true → may → v = 0x53564E43 → d.sec.coreA = true → DoesF (.bootSvnCommit port v lost now) s commits ∧
       (d.aon.svnRunning ≤ 64 → lost = none → DoesF (.bootSvnCommit port v lost now) s (fun g _ => svnFloor g.svnWord = max (svnFloor f.svnWord) d.aon.svnRunning)))) ∧
    (d.aon.aonUp = true → Does (.alwaysOnResetRelease i a now) s same) ∧
    (d.aon.aonUp = false → Does (.alwaysOnResetRelease i a now) s (fun e => e = { d with aon := { i3c := i, mgmtAddr := 0x58 + a % 4 } })) ∧
    Does (.vddAonLoss now) s (fun e => CoreLost d e ∧ e.aon = { aonUp := false, due := none } ∧ ∀ p x, p ≠ pgAttic → x < 0x10000 → e.regN p 0 x = (Dev.regN {} p 0 x)) ∧
    Does (.oscillatorStart i now) s (fun e => e = { d with batt := if i then { osc := true } else { d.batt with osc := true } })
/-! ### Flash, regulator, clocks and crossings (chapters 20 to 22) -/

/-- R471 to R473, R500, R438, R254, R492, R493. -/
def Obligations.FlashAndPackage : Prop :=
  ∀ (s : State) (port op n m v now : Nat) (f : Bool),
    let d := s.dev.at now
    let same := fun (e : Dev) => e = d
    (d.aon.aonUp = true →
      let may := port = portPf ∨ port = portBmc ∨ port = portJtag
      let busy := bit (d.regN pgBoot 0 0x1068) 16 = true
      let uses := d.aon.boot.step = 4 ∨ d.aon.boot.step = 6 ∨ d.aon.boot.step = 10
      let a := d.regN pgBoot 0 0x1064
      let byte := fun (x : Dev) (i : Nat) => tabGet erasedByte x.flash i
      let fails := fun (o : Nat) (st : Status) => (st = .badDescriptor ∧ (0x320000 ≤ a ∨ (o = 1 ∧ a % 4096 ≠ 0) ∨ (o ≠ 1 ∧ a % 256 ≠ 0) ∨ o = 0 ∨ 3 < o)) ∨ (st = .accessDenied ∧ o ≠ 3 ∧ 0x210000 ≤ a ∧ a < 0x320000)
      let rest := fun (e : Dev) => SameObjects d e ∧ e.cellar = d.cellar ∧ e.hostMem = d.hostMem ∧ e.pantry = d.pantry ∧ e.tiles = d.tiles ∧ e.batt = d.batt ∧
        SameRegsBut (fun p i x => p = pgBoot ∧ i = 0 ∧ (x = 0x1060 ∨ x = 0x1068 ∨ (0x1100 ≤ x ∧ x < 0x1200))) d e
      let ends := fun (o st : Nat) (e : Dev) => e.regN pgBoot 0 0x1060 = o ∧ e.regN pgBoot 0 0x1068 = st ∧ e.aon = d.aon ∧ rest e
      let rows := [((1 : Nat), Instr.flashErase port now), (2, .flashProgram port now), (3, .flashRead port now)]
      (∀ x ∈ rows ++ (if op < 4 then [(op, Instr.flashBusyTimeout port op now)] else []),
        (¬ may → Does x.2 s (fun e => e.flash = d.flash ∧ e.aon = d.aon ∧ Logged pgBoot port (errEntry pgBoot 0x1060 .port port x.1) d e)) ∧
        (may → busy → Does x.2 s (fun e => e.flash = d.flash ∧ e.aon = d.aon ∧ Logged pgBoot port (errEntry pgBoot 0x1060 .busy port x.1) d e)) ∧
        (may → ¬ busy → uses → Does x.2 s (fun e => e.flash = d.flash ∧ e.aon = { d.aon with flashWait := some x.1 } ∧ e.regN pgBoot 0 0x1060 = x.1 ∧ e.regN pgBoot 0 0x1068 = 2 ^ 16 ∧ rest e)) ∧
        (∀ st, may → ¬ busy → ¬ uses → fails x.1 st → (∀ t, fails x.1 t → t.code ≤ st.code) → Does x.2 s (fun e => ends x.1 st.code e ∧ e.flash = d.flash ∧
          ∀ i, e.regN pgBoot 0 (0x1100 + i) = d.regN pgBoot 0 (0x1100 + i)))) ∧
      (may → ¬ busy → ¬ uses →
        ((∀ st, ¬ fails 1 st) → Does (.flashErase port now) s (fun e => ends 1 0 e ∧ ∀ i, byte e i = if i / 4096 = a / 4096 then 0xFF else byte d i)) ∧
        ((∀ st, ¬ fails 2 st) → Does (.flashProgram port now) s (fun e => ends 2 0 e ∧
          ∀ i, byte e i = if a ≤ i ∧ i < a + 256 then BitVec.ofNat 8 (d.regN pgBoot 0 (0x1100 + (i - a) / 4 * 4) / 256 ^ ((i - a) % 4)) else byte d i)) ∧
        ((∀ st, ¬ fails 3 st) → Does (.flashRead port now) s (fun e => ends 3 0 e ∧ e.flash = d.flash ∧
          ∀ i, i < 256 → (byte d (a + i)).toNat = e.regN pgBoot 0 (0x1100 + i / 4 * 4) / 256 ^ (i % 4) % 256)) ∧
        (op < 4 → (∀ st, ¬ fails op st) → Does (.flashBusyTimeout port op now) s (fun e => ends op (Status.partialDone.code + 2 ^ 17) e ∧ (op = 3 → e.flash = d.flash) ∧
          (∀ i, ¬ (op = 1 ∧ i / 4096 = a / 4096) → ¬ (op = 2 ∧ i / 256 = a / 256) → byte e i = byte d i)))) ∧
      (let on := d.aon.ready = true ∨ d.aon.safe = true
       let old := d.regN pgTel 0 0x1018
       let may' := on ∧ d.therm.safe = false ∧ v ≤ s.fuses.vop + 25 ∧ s.fuses.vop ≤ v + 25 ∧ v ≤ old + 5 ∧ old ≤ v + 5
       (¬ may' → Does (.avsUpdate v m f now) s same) ∧
       (may' → Does (.avsUpdate v m f now) s (fun e => e.out = .avs v :: d.out ∧ e.regN pgTel 0 0x1030 = min (d.regN pgTel 0 0x1030 + (if f then 3 else min m 3)) 0xFFFFFFFF ∧
         e.regN pgTel 0 0x1018 = (if f then old else v % 2 ^ 32) ∧ (f = true → bit (e.regN pgTel 0 0x102C) 0 = true) ∧ SameMem d e ∧ SameObjects d e ∧ e.aon = d.aon ∧
         SameRegsBut (fun p i x => p = pgTel ∧ i = 0 ∧ (x = 0x1018 ∨ x = 0x1030 ∨ (f = true ∧ x = 0x102C))) d e))) ∧
      Does (.icoreRead v now) s (fun e => e.regN pgTel 0 0x1020 = v % 2 ^ 14 ∧ SameRegsBut (fun p i x => p = pgTel ∧ i = 0 ∧ x = 0x1020) d e ∧ SameMem d e ∧ SameObjects d e ∧ e.aon = d.aon)) ∧
    (let acts := d.aon.halted = false ∧ (d.aon.ready = true ∨ d.aon.safe = true ∨ 7 < d.aon.boot.step) ∧ n < 4
     (acts → Does (.pllLockLoss n now) s (fun e => HaltsWith 0x14 n d e ∧ bit (e.regN pgClk 0 0x1000) n = false ∧ e.aon.boot.step = 0 ∧
       (d.aon.boot.step ≠ 0 → ∃ r, e.aon.ledger = (r :: d.aon.ledger).take 4 ∧ RecHead d.batt.bootCount d.aon.attempt d.aon.boot.trigger d.aon.boot.cold 2 r))) ∧
     (¬ acts → Does (.pllLockLoss n now) s same)) ∧
    (let valid := d.live = true ∧ (d.queue n).valid = true
     (n < 65536 → valid → Does (.completionTimeout true n m now) s (fun e => e.queue n = { d.queue n with error := true } ∧ (∀ j, j ≠ n → e.queue j = d.queue j) ∧ bit (e.regN pgQue n 0x012C) 2 = true ∧ SameMem d e ∧
       e.ctxs = d.ctxs ∧ e.cmds = d.cmds ∧ e.hoops = d.hoops ∧ SameRegsBut (fun p i x => p = pgQue ∧ i = n ∧ x = 0x012C) d e)) ∧
     (¬ valid → Does (.completionTimeout true n m now) s same) ∧
     exec (.completionTimeout false n m now) s = exec (.dmaSegmentComplete n 0 true m now) s) ∧
    (let ok := d.live = true ∧ n < 145 ∧ op < 2
     let sts := d.regN pgClk n 0x0104
     let frame := fun (e : Dev) => SameRegsBut (fun p i x => p = pgClk ∧ i = n ∧ (x = 0x0104 ∨ x = 0x0108 ∨ x = 0x0110)) d e ∧ SameMem d e ∧ SameObjects d e ∧ e.aon = d.aon
     (¬ ok → Does (.peerResetEntry n op v now) s same ∧ Does (.crossingReopen n op now) s same) ∧
     (ok → Does (.peerResetEntry n op v now) s (fun e => frame e ∧ bit (e.regN pgClk n 0x0104) op = true ∧ bit (e.regN pgClk n 0x0104) 3 = false ∧
       bit (e.regN pgClk n 0x0104) (1 - op) = bit sts (1 - op) ∧ e.regN pgClk n 0x0108 = min (d.regN pgClk n 0x0108 + v) 0xFFFFFFFF ∧ (v ≠ 0 → bit (e.regN pgClk n 0x0110) 0 = true))) ∧
     (ok → bit sts op = false → Does (.crossingReopen n op now) s same) ∧
     (ok → bit sts op = true → bit sts (1 - op) = true → Does (.crossingReopen n op now) s (fun e => frame e ∧ bit (e.regN pgClk n 0x0104) op = false ∧ bit (e.regN pgClk n 0x0104) (1 - op) = true ∧
       bit (e.regN pgClk n 0x0104) 3 = bit sts 3)) ∧
     (ok → bit sts op = true → bit sts (1 - op) = false → Does (.crossingReopen n op now) s (fun e => frame e ∧ e.regN pgClk n 0x0104 = 8 ∧ bit (e.regN pgClk n 0x0110) 1 = true)))
/-! ### Production and field test (chapter 23) -/

/-- R517 to R528. -/
def Obligations.LaneAndScanTests : Prop :=
  ∀ (s : State) (port v kind p l errs bits t rows now cells : Nat) (units arrays : List Nat) (crock hard pass lanes : Bool) (bytes : List Byte),
    let d := s.dev.at now
    let same := fun (e : Dev) => e = d
    let ctl := port = portPf ∨ port = portRtp ∨ port = portBmc ∨ port = portJtag
    let lc := d.lc.inForce
    let openLc := lc = lcBlank ∨ lc = lcTestUnlocked ∨ lc = lcRma
    let shut := lc = lcScrapped ∨ lc = lcInvalid
    let lane := fun (x : Dev) (k : Nat) => tabGet laneDflt x.laneTests k
    let key := fun (x : Nat) => (x % 4) * 4096 + (x / 16 % 16) * 256 + x / 256 % 16
    let quiet := fun (e : Dev) => SameMem d e ∧ SameObjects d e ∧ e.tiles = d.tiles ∧ e.keys = d.keys
    (¬ (d.live = true ∧ ctl) → Does (.testLselWrite port v now) s same ∧ Does (.testLctlWrite port v now) s same ∧ Does (.mbistTile port t units rows crock arrays now) s same ∧
      Does (.hbmTest port t hard pass lanes rows now) s same) ∧
    (d.live = true → ctl →
      let l' := v / 256 % 16
      let fits := (v % 4 = 0 ∧ l' < 9) ∨ (v % 4 = 1 ∧ v / 16 % 16 < 2 ∧ l' < 8) ∨ (v % 4 = 2 ∧ v / 16 % 16 = 0)
      let sel := d.bankN pgTest port 0x1000
      let q := sel / 16 % 16
      let used := (sel % 4 = 0 ∧ (¬ ((d.lk q).state = .disabled ∨ (d.lk q).state = .down) ∨ bit (d.regN pgAlnk q 0x011C) 0 = true)) ∨
        (sel % 4 = 1 ∧ (bit d.ethUp q = true ∨ ∃ x ∈ d.sessions, x.2.port = q ∧ x.2.state ≠ .closed))
      let held := (sel % 4 = 0 ∧ (bit d.aon.boot.portFail q = true ∨ bit d.aon.boot.skip q = true)) ∨ (sel % 4 = 1 ∧ (bit d.aon.boot.portFail (16 + q) = true ∨ bit d.aon.boot.skip (16 + q) = true))
      let fails := fun (st : Status) => (st = .accessDenied ∧ used) ∨ (st = .lcInvalid ∧ (shut ∨ (sel % 4 = 2 ∧ ¬ (openLc ∧ port = portJtag)))) ∨ (st = .linkDown ∧ held) ∨ (st = .badDescriptor ∧ 4 ≤ v / 16 % 8)
      (fits → Does (.testLselWrite port v now) s (fun e => e.bankN pgTest port 0x1000 = v &&& 0xFF3 ∧ SameRegsBut (fun a i o => a = pgTest ∧ i = bank port ∧ o = 0x1000) d e ∧ quiet e)) ∧
      (¬ fits → Does (.testLselWrite port v now) s (fun e => e.bankN pgTest port 0x1000 = sel ∧ Logged pgTest port (errEntry pgTest 0x1000 .selRange port v) d e ∧ quiet e)) ∧
      (∀ st, fails st → (∀ x, fails x → x.code ≤ st.code) → Does (.testLctlWrite port v now) s (fun e => Logged pgTest port (errEntry pgTest 0x1004 .value port v) d e ∧ quiet e ∧ e.aon = d.aon ∧
        lane e (key sel) = { lane d (key sel) with last := st.code } ∧ (∀ k, k ≠ key sel → lane e k = lane d k))) ∧
      ((∀ st, ¬ fails st) → Does (.testLctlWrite port v now) s (fun e => quiet e ∧ e.regs = d.regs ∧ lane e (key sel) = { ctl := v % 256 } ∧ (∀ k, k ≠ key sel → lane e k = lane d k) ∧
        (sel % 4 ≠ 2 → e.aon = d.aon) ∧ (sel % 4 = 2 → LaneTest.active { ctl := v % 256 } = true → e.aon.pcieUp = false))) ∧
      (let i := t % 128
       let named := ∃ x ∈ d.hoops, x.2.state ≠ .free ∧ bit x.2.inForce.tiles i = true
       let bad := fun (st : Status) => (st = .badDescriptor ∧ (96 ≤ i ∨ named)) ∨ (st = .lcInvalid ∧ shut)
       (∀ st, bad st → (∀ x, bad x → x.code ≤ st.code) → Does (.mbistTile port t units rows crock arrays now) s (fun e => e.regN pgTest 0 0x101C = st.code ∧ quiet e ∧ e.aon = d.aon)) ∧
       ((∀ st, ¬ bad st) → Does (.mbistTile port t units rows crock arrays now) s (fun e => e.regN pgTest 0 0x101C = 0 ∧ (∀ j, j ≠ i → e.tile j = d.tile j) ∧ (e.tile i).retired = units ∧ (crock = true → (e.tile i).standin = true) ∧
         (arrays = [] → e.tile i = { d.tile i with retired := units, standin := crock } ∧ SameObjects d e ∧ e.regN pgTest 0 0x1020 = units.length % 128 + rows % 128 * 256 + (if crock then 65536 else 0)) ∧
         (∀ a, memGet e.pantry a = if i * 2 ^ 22 ≤ a ∧ a < (i + 1) * 2 ^ 22 then 0 else memGet d.pantry a) ∧ e.cellar = d.cellar ∧ e.hostMem = d.hostMem))) ∧
      (let k := t % 8
       let free := (∀ h, 1 ≤ h → h < 16 → (d.hoop h).state = .free) ∧ d.ctxCount 0 = 0
       let bad := fun (st : Status) => (st = .badDescriptor ∧ ¬ free) ∨ (st = .lcInvalid ∧ ¬ openLc)
       (∀ st, bad st → (∀ x, bad x → x.code ≤ st.code) → Does (.hbmTest port t hard pass lanes rows now) s (fun e => e.regN pgTest 0 0x101C = st.code ∧ quiet e ∧ e.groups = d.groups ∧ e.pot = d.pot)) ∧
       ((∀ st, ¬ bad st) → Does (.hbmTest port t hard pass lanes rows now) s (fun e => e.regN pgTest 0 0x101C = 0 ∧ SameObjects d e ∧ e.hostMem = d.hostMem ∧ e.pantry = d.pantry ∧
         (∀ a, memGet e.cellar a = if a / 2 ^ 16 % 8 = k then 0 else memGet d.cellar a) ∧ (∀ n, e.potOf n = if n % 8 = k then {} else d.potOf n) ∧ (∀ g, e.group g = if g / 4 % 8 = k then {} else d.group g) ∧
         (∀ j, j < 16 → bit (e.regN pgTest 0 0x102C) j = if j = k then pass else if j = 8 + k then lanes else bit (d.regN pgTest 0 0x102C) j) ∧
         e.regN pgTest 0 0x102C / 65536 = if hard then rows % 65536 else 0)))) ∧
    (let d := s.dev
     let k := kind * 4096 + p * 256 + l
     let x := lane d k
     let runs := d.live = true ∧ bit x.ctl 3 = true ∧ x.ctl % 4 ≠ 0
     let y := { x with errs := min (x.errs + errs) 0xFFFFFFFF, bits := (x.bits + bits) % 2 ^ 64 }
     let only := fun (z : LaneTest) (e : Dev) => lane e k = z ∧ (∀ j, j ≠ k → lane e j = lane d j) ∧ e = { d with laneTests := e.laneTests }
     (runs → x.lock = false → Does (.checkerLock kind p l errs bits) s (only { y with lock := true })) ∧ (¬ runs ∨ x.lock = true → Does (.checkerLock kind p l errs bits) s (fun e => e = d)) ∧
     (runs → x.lock = true → Does (.checkerLossOfLock kind p l errs bits) s (only { y with lock := false })) ∧ (¬ runs ∨ x.lock = false → Does (.checkerLossOfLock kind p l errs bits) s (fun e => e = d)) ∧
     (d.aon.aonUp = true →
       let ir := fun (n : Nat) => ({ d with tap := { d.tap with ir := n } } : Dev)
       let drives := (d.lc.inForce = lcBlank ∨ d.lc.inForce = lcTestUnlocked ∨ d.lc.inForce = lcRma) ∨ d.aon.sysRstLow = true
       let refused := fun (e : Dev) => e.tap = { d.tap with ir := 0xFF } ∧ bit (e.regN pgTest 0 0x1030) 0 = true ∧ e.out = d.out ∧ SameObjects d e ∧ SameMem d e ∧ e.aon = d.aon ∧
         SameRegsBut (fun a i o => a = pgTest ∧ i = 0 ∧ o = 0x1030) d e
       Does .tapReset s (fun e => e = ir 1) ∧ Does .bypass s (fun e => e = ir 0xFF) ∧
       Does .idcode s (fun e => e = { ir 1 with out := .tap 1 0x096247AB :: d.out }) ∧
       Does (.samplePreload v cells) s (fun e => e = { d with tap := { ir := 2, cells := cells }, out := .tap 2 v :: d.out }) ∧
       (drives → Does (.extest cells) s (fun e => e = { d with tap := { ir := 0, cells := cells }, out := .tap 0 cells :: d.out }) ∧
         Does .tapClamp s (fun e => e = { ir 3 with out := .tap 3 d.tap.cells :: d.out }) ∧ Does .highz s (fun e => e = ir 4)) ∧
       (¬ drives → Does (.extest cells) s refused ∧ Does .tapClamp s refused ∧ Does .highz s refused) ∧
       (d.live = true → Does .dbgtap s (fun e => e = { ir 0x12 with out := .tap 0x12 (d.dbgRights ||| (if d.dbg.scan then 16 else 0)) :: d.out })))) ∧
    (d.aon.aonUp = true →
      (d.live = false → Does (.dbgcert bytes now) s (fun e => e = { d with tap := { d.tap with ir := 0x11 } })) ∧
      (d.live = true → bytes.length ≠ 96 → certBad bytes = true ∨ shut ∨ d.rtpUp = false →
        Does (.dbgcert bytes now) s (fun e => e.dbg = d.dbg ∧ e.keys = d.keys ∧ e.tap.ir = 0x11 ∧ SameMem d e ∧ ∃ st : Status, stSuccess st.code = false ∧ e.out = .tap 0x11 st.code :: d.out)) ∧
      (d.live = true → bytes.length = 96 → lc ≠ lcManufactured → lc ≠ lcSecured → Does (.dbgcert bytes now) s (fun e => e.dbg = { d.dbg with chalValid := false } ∧ e.keys = d.keys ∧ e.tap.ir = 0x11 ∧
        SameMem d e ∧ ∃ st : Status, st.code ≥ Status.lcInvalid.code ∧ e.out = .tap 0x11 st.code :: d.out)) ∧
      (let x := ({ d with tap := { d.tap with ir := 0x11 } } : Dev)
       d.live = true → bytes.length ≠ 96 → x.certErrs s.fuses.serial false bytes = [] → Does (.dbgcert bytes now) s (fun e => e = (x.certTake bytes).emit (.tap 0x11 0))))
/-! ### Invariants of every step -/

/-- R421: a fuse goes from 0 to 1 only. -/
def Obligations.FusesOnlyRise : Prop :=
  ∀ s s' : State, step s = .next s' →
    (∀ k b, bit (s.fuses.word k) b = true → bit (s'.fuses.word k) b = true) ∧ (∀ b, bit s.fuses.svnWord b = true → bit s'.fuses.svnWord b = true) ∧
    s'.fuses.serial = s.fuses.serial ∧ s'.fuses.romDigest = s.fuses.romDigest ∧ s'.fuses.vop = s.fuses.vop

/-- R419, R422, for the device of `State.reset`, whose fuses nothing has programmed (the model's choice, log entry 7). -/
def Obligations.BlankFuses : Prop :=
  (∀ k, State.reset.fuses.cond k = .clear) ∧ State.reset.fuses.decode = 0 ∧ svnFloor State.reset.fuses.svnWord = 0
end

