-- ==== Sys2Proof/Laws/State.lean ====
section
/-! SUPPORT. What the named updates of the device leave alone: one lemma per update and field, true by unfolding. -/
namespace Sys2Proof.Machine

/-! ### `Dev.setReg` -/
@[simp] theorem Dev.setReg_freeCtr (d : Dev) (p i o : Nat) (v : Word) : (d.setReg p i o v).freeCtr = d.freeCtr := rfl
@[simp] theorem Dev.setReg_out (d : Dev) (p i o : Nat) (v : Word) : (d.setReg p i o v).out = d.out := rfl
@[simp] theorem Dev.setReg_now (d : Dev) (p i o : Nat) (v : Word) : (d.setReg p i o v).now = d.now := rfl
@[simp] theorem Dev.setReg_latches (d : Dev) (p i o : Nat) (v : Word) : (d.setReg p i o v).latches = d.latches := rfl
@[simp] theorem Dev.setReg_stagedWords (d : Dev) (p i o : Nat) (v : Word) : (d.setReg p i o v).stagedWords = d.stagedWords := rfl
@[simp] theorem Dev.setReg_cellar (d : Dev) (p i o : Nat) (v : Word) : (d.setReg p i o v).cellar = d.cellar := rfl
@[simp] theorem Dev.setReg_hostMem (d : Dev) (p i o : Nat) (v : Word) : (d.setReg p i o v).hostMem = d.hostMem := rfl
@[simp] theorem Dev.setReg_groups (d : Dev) (p i o : Nat) (v : Word) : (d.setReg p i o v).groups = d.groups := rfl
@[simp] theorem Dev.setReg_pot (d : Dev) (p i o : Nat) (v : Word) : (d.setReg p i o v).pot = d.pot := rfl
@[simp] theorem Dev.setReg_funcs (d : Dev) (p i o : Nat) (v : Word) : (d.setReg p i o v).funcs = d.funcs := rfl
@[simp] theorem Dev.setReg_ctxs (d : Dev) (p i o : Nat) (v : Word) : (d.setReg p i o v).ctxs = d.ctxs := rfl
@[simp] theorem Dev.setReg_queues (d : Dev) (p i o : Nat) (v : Word) : (d.setReg p i o v).queues = d.queues := rfl
@[simp] theorem Dev.setReg_events (d : Dev) (p i o : Nat) (v : Word) : (d.setReg p i o v).events = d.events := rfl
@[simp] theorem Dev.setReg_cmds (d : Dev) (p i o : Nat) (v : Word) : (d.setReg p i o v).cmds = d.cmds := rfl
@[simp] theorem Dev.setReg_hoops (d : Dev) (p i o : Nat) (v : Word) : (d.setReg p i o v).hoops = d.hoops := rfl
@[simp] theorem Dev.setReg_dmaCh (d : Dev) (p i o : Nat) (v : Word) : (d.setReg p i o v).dmaCh = d.dmaCh := rfl
@[simp] theorem Dev.setReg_keys (d : Dev) (p i o : Nat) (v : Word) : (d.setReg p i o v).keys = d.keys := rfl
@[simp] theorem Dev.setReg_cmdSeq (d : Dev) (p i o : Nat) (v : Word) : (d.setReg p i o v).cmdSeq = d.cmdSeq := rfl
@[simp] theorem Dev.setReg_pantry (d : Dev) (p i o : Nat) (v : Word) : (d.setReg p i o v).pantry = d.pantry := rfl
@[simp] theorem Dev.setReg_tiles (d : Dev) (p i o : Nat) (v : Word) : (d.setReg p i o v).tiles = d.tiles := rfl
@[simp] theorem Dev.setReg_sats (d : Dev) (p i o : Nat) (v : Word) : (d.setReg p i o v).sats = d.sats := rfl
@[simp] theorem Dev.setReg_lsts (d : Dev) (p i o : Nat) (v : Word) : (d.setReg p i o v).lsts = d.lsts := rfl
@[simp] theorem Dev.setReg_fences (d : Dev) (p i o : Nat) (v : Word) : (d.setReg p i o v).fences = d.fences := rfl
@[simp] theorem Dev.setReg_darners (d : Dev) (p i o : Nat) (v : Word) : (d.setReg p i o v).darners = d.darners := rfl
@[simp] theorem Dev.setReg_mc (d : Dev) (p i o : Nat) (v : Word) : (d.setReg p i o v).mc = d.mc := rfl
@[simp] theorem Dev.setReg_mcLookups (d : Dev) (p i o : Nat) (v : Word) : (d.setReg p i o v).mcLookups = d.mcLookups := rfl
@[simp] theorem Dev.setReg_sec (d : Dev) (p i o : Nat) (v : Word) : (d.setReg p i o v).sec = d.sec := rfl
@[simp] theorem Dev.setReg_batt (d : Dev) (p i o : Nat) (v : Word) : (d.setReg p i o v).batt = d.batt := rfl
@[simp] theorem Dev.setReg_dbg (d : Dev) (p i o : Nat) (v : Word) : (d.setReg p i o v).dbg = d.dbg := rfl
@[simp] theorem Dev.setReg_lc (d : Dev) (p i o : Nat) (v : Word) : (d.setReg p i o v).lc = d.lc := rfl
@[simp] theorem Dev.setReg_ras (d : Dev) (p i o : Nat) (v : Word) : (d.setReg p i o v).ras = d.ras := rfl
@[simp] theorem Dev.setReg_aon (d : Dev) (p i o : Nat) (v : Word) : (d.setReg p i o v).aon = d.aon := rfl
@[simp] theorem Dev.setReg_retireQ (d : Dev) (p i o : Nat) (v : Word) : (d.setReg p i o v).retireQ = d.retireQ := rfl
@[simp] theorem Dev.setReg_therm (d : Dev) (p i o : Nat) (v : Word) : (d.setReg p i o v).therm = d.therm := rfl
@[simp] theorem Dev.setReg_dmaTurns (d : Dev) (p i o : Nat) (v : Word) : (d.setReg p i o v).dmaTurns = d.dmaTurns := rfl
@[simp] theorem Dev.setReg_dmaTurn (d : Dev) (p i o : Nat) (v : Word) : (d.setReg p i o v).dmaTurn = d.dmaTurn := rfl
@[simp] theorem Dev.setReg_vfEnable (d : Dev) (p i o : Nat) (v : Word) : (d.setReg p i o v).vfEnable = d.vfEnable := rfl
@[simp] theorem Dev.setReg_numVfs (d : Dev) (p i o : Nat) (v : Word) : (d.setReg p i o v).numVfs = d.numVfs := rfl
@[simp] theorem Dev.setReg_linkInsecure (d : Dev) (p i o : Nat) (v : Word) : (d.setReg p i o v).linkInsecure = d.linkInsecure := rfl
@[simp] theorem Dev.setReg_doeError (d : Dev) (p i o : Nat) (v : Word) : (d.setReg p i o v).doeError = d.doeError := rfl
@[simp] theorem Dev.setReg_ports (d : Dev) (p i o : Nat) (v : Word) : (d.setReg p i o v).ports = d.ports := rfl
@[simp] theorem Dev.setReg_fab (d : Dev) (p i o : Nat) (v : Word) : (d.setReg p i o v).fab = d.fab := rfl
@[simp] theorem Dev.setReg_groupTab (d : Dev) (p i o : Nat) (v : Word) : (d.setReg p i o v).groupTab = d.groupTab := rfl
@[simp] theorem Dev.setReg_sessions (d : Dev) (p i o : Nat) (v : Word) : (d.setReg p i o v).sessions = d.sessions := rfl
@[simp] theorem Dev.setReg_ios (d : Dev) (p i o : Nat) (v : Word) : (d.setReg p i o v).ios = d.ios := rfl
@[simp] theorem Dev.setReg_rkeyNext (d : Dev) (p i o : Nat) (v : Word) : (d.setReg p i o v).rkeyNext = d.rkeyNext := rfl
@[simp] theorem Dev.setReg_captures (d : Dev) (p i o : Nat) (v : Word) : (d.setReg p i o v).captures = d.captures := rfl
@[simp] theorem Dev.setReg_triggers (d : Dev) (p i o : Nat) (v : Word) : (d.setReg p i o v).triggers = d.triggers := rfl
@[simp] theorem Dev.setReg_relayIn (d : Dev) (p i o : Nat) (v : Word) : (d.setReg p i o v).relayIn = d.relayIn := rfl
@[simp] theorem Dev.setReg_ethUp (d : Dev) (p i o : Nat) (v : Word) : (d.setReg p i o v).ethUp = d.ethUp := rfl
@[simp] theorem Dev.setReg_laneTests (d : Dev) (p i o : Nat) (v : Word) : (d.setReg p i o v).laneTests = d.laneTests := rfl
@[simp] theorem Dev.setReg_tap (d : Dev) (p i o : Nat) (v : Word) : (d.setReg p i o v).tap = d.tap := rfl
@[simp] theorem Dev.setReg_flash (d : Dev) (p i o : Nat) (v : Word) : (d.setReg p i o v).flash = d.flash := rfl
@[simp] theorem Dev.setReg_larderOut (d : Dev) (p i o : Nat) (v : Word) : (d.setReg p i o v).larderOut = d.larderOut := rfl
@[simp] theorem Dev.setReg_wayOut (d : Dev) (p i o : Nat) (v : Word) : (d.setReg p i o v).wayOut = d.wayOut := rfl
/-! ### `Dev.setRegN` -/
@[simp] theorem Dev.setRegN_freeCtr (d : Dev) (p i o v : Nat) : (d.setRegN p i o v).freeCtr = d.freeCtr := rfl
@[simp] theorem Dev.setRegN_out (d : Dev) (p i o v : Nat) : (d.setRegN p i o v).out = d.out := rfl
@[simp] theorem Dev.setRegN_now (d : Dev) (p i o v : Nat) : (d.setRegN p i o v).now = d.now := rfl
@[simp] theorem Dev.setRegN_latches (d : Dev) (p i o v : Nat) : (d.setRegN p i o v).latches = d.latches := rfl
@[simp] theorem Dev.setRegN_stagedWords (d : Dev) (p i o v : Nat) : (d.setRegN p i o v).stagedWords = d.stagedWords := rfl
@[simp] theorem Dev.setRegN_cellar (d : Dev) (p i o v : Nat) : (d.setRegN p i o v).cellar = d.cellar := rfl
@[simp] theorem Dev.setRegN_hostMem (d : Dev) (p i o v : Nat) : (d.setRegN p i o v).hostMem = d.hostMem := rfl
@[simp] theorem Dev.setRegN_groups (d : Dev) (p i o v : Nat) : (d.setRegN p i o v).groups = d.groups := rfl
@[simp] theorem Dev.setRegN_pot (d : Dev) (p i o v : Nat) : (d.setRegN p i o v).pot = d.pot := rfl
@[simp] theorem Dev.setRegN_funcs (d : Dev) (p i o v : Nat) : (d.setRegN p i o v).funcs = d.funcs := rfl
@[simp] theorem Dev.setRegN_ctxs (d : Dev) (p i o v : Nat) : (d.setRegN p i o v).ctxs = d.ctxs := rfl
@[simp] theorem Dev.setRegN_queues (d : Dev) (p i o v : Nat) : (d.setRegN p i o v).queues = d.queues := rfl
@[simp] theorem Dev.setRegN_events (d : Dev) (p i o v : Nat) : (d.setRegN p i o v).events = d.events := rfl
@[simp] theorem Dev.setRegN_cmds (d : Dev) (p i o v : Nat) : (d.setRegN p i o v).cmds = d.cmds := rfl
@[simp] theorem Dev.setRegN_hoops (d : Dev) (p i o v : Nat) : (d.setRegN p i o v).hoops = d.hoops := rfl
@[simp] theorem Dev.setRegN_dmaCh (d : Dev) (p i o v : Nat) : (d.setRegN p i o v).dmaCh = d.dmaCh := rfl
@[simp] theorem Dev.setRegN_keys (d : Dev) (p i o v : Nat) : (d.setRegN p i o v).keys = d.keys := rfl
@[simp] theorem Dev.setRegN_cmdSeq (d : Dev) (p i o v : Nat) : (d.setRegN p i o v).cmdSeq = d.cmdSeq := rfl
@[simp] theorem Dev.setRegN_pantry (d : Dev) (p i o v : Nat) : (d.setRegN p i o v).pantry = d.pantry := rfl
@[simp] theorem Dev.setRegN_tiles (d : Dev) (p i o v : Nat) : (d.setRegN p i o v).tiles = d.tiles := rfl
@[simp] theorem Dev.setRegN_sats (d : Dev) (p i o v : Nat) : (d.setRegN p i o v).sats = d.sats := rfl
@[simp] theorem Dev.setRegN_lsts (d : Dev) (p i o v : Nat) : (d.setRegN p i o v).lsts = d.lsts := rfl
@[simp] theorem Dev.setRegN_fences (d : Dev) (p i o v : Nat) : (d.setRegN p i o v).fences = d.fences := rfl
@[simp] theorem Dev.setRegN_darners (d : Dev) (p i o v : Nat) : (d.setRegN p i o v).darners = d.darners := rfl
@[simp] theorem Dev.setRegN_mc (d : Dev) (p i o v : Nat) : (d.setRegN p i o v).mc = d.mc := rfl
@[simp] theorem Dev.setRegN_mcLookups (d : Dev) (p i o v : Nat) : (d.setRegN p i o v).mcLookups = d.mcLookups := rfl
@[simp] theorem Dev.setRegN_sec (d : Dev) (p i o v : Nat) : (d.setRegN p i o v).sec = d.sec := rfl
@[simp] theorem Dev.setRegN_batt (d : Dev) (p i o v : Nat) : (d.setRegN p i o v).batt = d.batt := rfl
@[simp] theorem Dev.setRegN_dbg (d : Dev) (p i o v : Nat) : (d.setRegN p i o v).dbg = d.dbg := rfl
@[simp] theorem Dev.setRegN_lc (d : Dev) (p i o v : Nat) : (d.setRegN p i o v).lc = d.lc := rfl
@[simp] theorem Dev.setRegN_ras (d : Dev) (p i o v : Nat) : (d.setRegN p i o v).ras = d.ras := rfl
@[simp] theorem Dev.setRegN_aon (d : Dev) (p i o v : Nat) : (d.setRegN p i o v).aon = d.aon := rfl
@[simp] theorem Dev.setRegN_retireQ (d : Dev) (p i o v : Nat) : (d.setRegN p i o v).retireQ = d.retireQ := rfl
@[simp] theorem Dev.setRegN_therm (d : Dev) (p i o v : Nat) : (d.setRegN p i o v).therm = d.therm := rfl
@[simp] theorem Dev.setRegN_dmaTurns (d : Dev) (p i o v : Nat) : (d.setRegN p i o v).dmaTurns = d.dmaTurns := rfl
@[simp] theorem Dev.setRegN_dmaTurn (d : Dev) (p i o v : Nat) : (d.setRegN p i o v).dmaTurn = d.dmaTurn := rfl
@[simp] theorem Dev.setRegN_vfEnable (d : Dev) (p i o v : Nat) : (d.setRegN p i o v).vfEnable = d.vfEnable := rfl
@[simp] theorem Dev.setRegN_numVfs (d : Dev) (p i o v : Nat) : (d.setRegN p i o v).numVfs = d.numVfs := rfl
@[simp] theorem Dev.setRegN_linkInsecure (d : Dev) (p i o v : Nat) : (d.setRegN p i o v).linkInsecure = d.linkInsecure := rfl
@[simp] theorem Dev.setRegN_doeError (d : Dev) (p i o v : Nat) : (d.setRegN p i o v).doeError = d.doeError := rfl
@[simp] theorem Dev.setRegN_ports (d : Dev) (p i o v : Nat) : (d.setRegN p i o v).ports = d.ports := rfl
@[simp] theorem Dev.setRegN_fab (d : Dev) (p i o v : Nat) : (d.setRegN p i o v).fab = d.fab := rfl
@[simp] theorem Dev.setRegN_groupTab (d : Dev) (p i o v : Nat) : (d.setRegN p i o v).groupTab = d.groupTab := rfl
@[simp] theorem Dev.setRegN_sessions (d : Dev) (p i o v : Nat) : (d.setRegN p i o v).sessions = d.sessions := rfl
@[simp] theorem Dev.setRegN_ios (d : Dev) (p i o v : Nat) : (d.setRegN p i o v).ios = d.ios := rfl
@[simp] theorem Dev.setRegN_rkeyNext (d : Dev) (p i o v : Nat) : (d.setRegN p i o v).rkeyNext = d.rkeyNext := rfl
@[simp] theorem Dev.setRegN_captures (d : Dev) (p i o v : Nat) : (d.setRegN p i o v).captures = d.captures := rfl
@[simp] theorem Dev.setRegN_triggers (d : Dev) (p i o v : Nat) : (d.setRegN p i o v).triggers = d.triggers := rfl
@[simp] theorem Dev.setRegN_relayIn (d : Dev) (p i o v : Nat) : (d.setRegN p i o v).relayIn = d.relayIn := rfl
@[simp] theorem Dev.setRegN_ethUp (d : Dev) (p i o v : Nat) : (d.setRegN p i o v).ethUp = d.ethUp := rfl
@[simp] theorem Dev.setRegN_laneTests (d : Dev) (p i o v : Nat) : (d.setRegN p i o v).laneTests = d.laneTests := rfl
@[simp] theorem Dev.setRegN_tap (d : Dev) (p i o v : Nat) : (d.setRegN p i o v).tap = d.tap := rfl
@[simp] theorem Dev.setRegN_flash (d : Dev) (p i o v : Nat) : (d.setRegN p i o v).flash = d.flash := rfl
@[simp] theorem Dev.setRegN_larderOut (d : Dev) (p i o v : Nat) : (d.setRegN p i o v).larderOut = d.larderOut := rfl
@[simp] theorem Dev.setRegN_wayOut (d : Dev) (p i o v : Nat) : (d.setRegN p i o v).wayOut = d.wayOut := rfl
/-! ### `Dev.setBankN` -/
@[simp] theorem Dev.setBankN_freeCtr (d : Dev) (p i o v : Nat) : (d.setBankN p i o v).freeCtr = d.freeCtr := rfl
@[simp] theorem Dev.setBankN_out (d : Dev) (p i o v : Nat) : (d.setBankN p i o v).out = d.out := rfl
@[simp] theorem Dev.setBankN_now (d : Dev) (p i o v : Nat) : (d.setBankN p i o v).now = d.now := rfl
@[simp] theorem Dev.setBankN_latches (d : Dev) (p i o v : Nat) : (d.setBankN p i o v).latches = d.latches := rfl
@[simp] theorem Dev.setBankN_stagedWords (d : Dev) (p i o v : Nat) : (d.setBankN p i o v).stagedWords = d.stagedWords := rfl
@[simp] theorem Dev.setBankN_cellar (d : Dev) (p i o v : Nat) : (d.setBankN p i o v).cellar = d.cellar := rfl
@[simp] theorem Dev.setBankN_hostMem (d : Dev) (p i o v : Nat) : (d.setBankN p i o v).hostMem = d.hostMem := rfl
@[simp] theorem Dev.setBankN_groups (d : Dev) (p i o v : Nat) : (d.setBankN p i o v).groups = d.groups := rfl
@[simp] theorem Dev.setBankN_pot (d : Dev) (p i o v : Nat) : (d.setBankN p i o v).pot = d.pot := rfl
@[simp] theorem Dev.setBankN_funcs (d : Dev) (p i o v : Nat) : (d.setBankN p i o v).funcs = d.funcs := rfl
@[simp] theorem Dev.setBankN_ctxs (d : Dev) (p i o v : Nat) : (d.setBankN p i o v).ctxs = d.ctxs := rfl
@[simp] theorem Dev.setBankN_queues (d : Dev) (p i o v : Nat) : (d.setBankN p i o v).queues = d.queues := rfl
@[simp] theorem Dev.setBankN_events (d : Dev) (p i o v : Nat) : (d.setBankN p i o v).events = d.events := rfl
@[simp] theorem Dev.setBankN_cmds (d : Dev) (p i o v : Nat) : (d.setBankN p i o v).cmds = d.cmds := rfl
@[simp] theorem Dev.setBankN_hoops (d : Dev) (p i o v : Nat) : (d.setBankN p i o v).hoops = d.hoops := rfl
@[simp] theorem Dev.setBankN_dmaCh (d : Dev) (p i o v : Nat) : (d.setBankN p i o v).dmaCh = d.dmaCh := rfl
@[simp] theorem Dev.setBankN_keys (d : Dev) (p i o v : Nat) : (d.setBankN p i o v).keys = d.keys := rfl
@[simp] theorem Dev.setBankN_cmdSeq (d : Dev) (p i o v : Nat) : (d.setBankN p i o v).cmdSeq = d.cmdSeq := rfl
@[simp] theorem Dev.setBankN_pantry (d : Dev) (p i o v : Nat) : (d.setBankN p i o v).pantry = d.pantry := rfl
@[simp] theorem Dev.setBankN_tiles (d : Dev) (p i o v : Nat) : (d.setBankN p i o v).tiles = d.tiles := rfl
@[simp] theorem Dev.setBankN_sats (d : Dev) (p i o v : Nat) : (d.setBankN p i o v).sats = d.sats := rfl
@[simp] theorem Dev.setBankN_lsts (d : Dev) (p i o v : Nat) : (d.setBankN p i o v).lsts = d.lsts := rfl
@[simp] theorem Dev.setBankN_fences (d : Dev) (p i o v : Nat) : (d.setBankN p i o v).fences = d.fences := rfl
@[simp] theorem Dev.setBankN_darners (d : Dev) (p i o v : Nat) : (d.setBankN p i o v).darners = d.darners := rfl
@[simp] theorem Dev.setBankN_mc (d : Dev) (p i o v : Nat) : (d.setBankN p i o v).mc = d.mc := rfl
@[simp] theorem Dev.setBankN_mcLookups (d : Dev) (p i o v : Nat) : (d.setBankN p i o v).mcLookups = d.mcLookups := rfl
@[simp] theorem Dev.setBankN_sec (d : Dev) (p i o v : Nat) : (d.setBankN p i o v).sec = d.sec := rfl
@[simp] theorem Dev.setBankN_batt (d : Dev) (p i o v : Nat) : (d.setBankN p i o v).batt = d.batt := rfl
@[simp] theorem Dev.setBankN_dbg (d : Dev) (p i o v : Nat) : (d.setBankN p i o v).dbg = d.dbg := rfl
@[simp] theorem Dev.setBankN_lc (d : Dev) (p i o v : Nat) : (d.setBankN p i o v).lc = d.lc := rfl
@[simp] theorem Dev.setBankN_ras (d : Dev) (p i o v : Nat) : (d.setBankN p i o v).ras = d.ras := rfl
@[simp] theorem Dev.setBankN_aon (d : Dev) (p i o v : Nat) : (d.setBankN p i o v).aon = d.aon := rfl
@[simp] theorem Dev.setBankN_retireQ (d : Dev) (p i o v : Nat) : (d.setBankN p i o v).retireQ = d.retireQ := rfl
@[simp] theorem Dev.setBankN_therm (d : Dev) (p i o v : Nat) : (d.setBankN p i o v).therm = d.therm := rfl
@[simp] theorem Dev.setBankN_dmaTurns (d : Dev) (p i o v : Nat) : (d.setBankN p i o v).dmaTurns = d.dmaTurns := rfl
@[simp] theorem Dev.setBankN_dmaTurn (d : Dev) (p i o v : Nat) : (d.setBankN p i o v).dmaTurn = d.dmaTurn := rfl
@[simp] theorem Dev.setBankN_vfEnable (d : Dev) (p i o v : Nat) : (d.setBankN p i o v).vfEnable = d.vfEnable := rfl
@[simp] theorem Dev.setBankN_numVfs (d : Dev) (p i o v : Nat) : (d.setBankN p i o v).numVfs = d.numVfs := rfl
@[simp] theorem Dev.setBankN_linkInsecure (d : Dev) (p i o v : Nat) : (d.setBankN p i o v).linkInsecure = d.linkInsecure := rfl
@[simp] theorem Dev.setBankN_doeError (d : Dev) (p i o v : Nat) : (d.setBankN p i o v).doeError = d.doeError := rfl
@[simp] theorem Dev.setBankN_ports (d : Dev) (p i o v : Nat) : (d.setBankN p i o v).ports = d.ports := rfl
@[simp] theorem Dev.setBankN_fab (d : Dev) (p i o v : Nat) : (d.setBankN p i o v).fab = d.fab := rfl
@[simp] theorem Dev.setBankN_groupTab (d : Dev) (p i o v : Nat) : (d.setBankN p i o v).groupTab = d.groupTab := rfl
@[simp] theorem Dev.setBankN_sessions (d : Dev) (p i o v : Nat) : (d.setBankN p i o v).sessions = d.sessions := rfl
@[simp] theorem Dev.setBankN_ios (d : Dev) (p i o v : Nat) : (d.setBankN p i o v).ios = d.ios := rfl
@[simp] theorem Dev.setBankN_rkeyNext (d : Dev) (p i o v : Nat) : (d.setBankN p i o v).rkeyNext = d.rkeyNext := rfl
@[simp] theorem Dev.setBankN_captures (d : Dev) (p i o v : Nat) : (d.setBankN p i o v).captures = d.captures := rfl
@[simp] theorem Dev.setBankN_triggers (d : Dev) (p i o v : Nat) : (d.setBankN p i o v).triggers = d.triggers := rfl
@[simp] theorem Dev.setBankN_relayIn (d : Dev) (p i o v : Nat) : (d.setBankN p i o v).relayIn = d.relayIn := rfl
@[simp] theorem Dev.setBankN_ethUp (d : Dev) (p i o v : Nat) : (d.setBankN p i o v).ethUp = d.ethUp := rfl
@[simp] theorem Dev.setBankN_laneTests (d : Dev) (p i o v : Nat) : (d.setBankN p i o v).laneTests = d.laneTests := rfl
@[simp] theorem Dev.setBankN_tap (d : Dev) (p i o v : Nat) : (d.setBankN p i o v).tap = d.tap := rfl
@[simp] theorem Dev.setBankN_flash (d : Dev) (p i o v : Nat) : (d.setBankN p i o v).flash = d.flash := rfl
@[simp] theorem Dev.setBankN_larderOut (d : Dev) (p i o v : Nat) : (d.setBankN p i o v).larderOut = d.larderOut := rfl
@[simp] theorem Dev.setBankN_wayOut (d : Dev) (p i o v : Nat) : (d.setBankN p i o v).wayOut = d.wayOut := rfl
/-! ### `Dev.orReg` -/
@[simp] theorem Dev.orReg_freeCtr (d : Dev) (p i o v : Nat) : (d.orReg p i o v).freeCtr = d.freeCtr := rfl
@[simp] theorem Dev.orReg_out (d : Dev) (p i o v : Nat) : (d.orReg p i o v).out = d.out := rfl
@[simp] theorem Dev.orReg_now (d : Dev) (p i o v : Nat) : (d.orReg p i o v).now = d.now := rfl
@[simp] theorem Dev.orReg_latches (d : Dev) (p i o v : Nat) : (d.orReg p i o v).latches = d.latches := rfl
@[simp] theorem Dev.orReg_stagedWords (d : Dev) (p i o v : Nat) : (d.orReg p i o v).stagedWords = d.stagedWords := rfl
@[simp] theorem Dev.orReg_cellar (d : Dev) (p i o v : Nat) : (d.orReg p i o v).cellar = d.cellar := rfl
@[simp] theorem Dev.orReg_hostMem (d : Dev) (p i o v : Nat) : (d.orReg p i o v).hostMem = d.hostMem := rfl
@[simp] theorem Dev.orReg_groups (d : Dev) (p i o v : Nat) : (d.orReg p i o v).groups = d.groups := rfl
@[simp] theorem Dev.orReg_pot (d : Dev) (p i o v : Nat) : (d.orReg p i o v).pot = d.pot := rfl
@[simp] theorem Dev.orReg_funcs (d : Dev) (p i o v : Nat) : (d.orReg p i o v).funcs = d.funcs := rfl
@[simp] theorem Dev.orReg_ctxs (d : Dev) (p i o v : Nat) : (d.orReg p i o v).ctxs = d.ctxs := rfl
@[simp] theorem Dev.orReg_queues (d : Dev) (p i o v : Nat) : (d.orReg p i o v).queues = d.queues := rfl
@[simp] theorem Dev.orReg_events (d : Dev) (p i o v : Nat) : (d.orReg p i o v).events = d.events := rfl
@[simp] theorem Dev.orReg_cmds (d : Dev) (p i o v : Nat) : (d.orReg p i o v).cmds = d.cmds := rfl
@[simp] theorem Dev.orReg_hoops (d : Dev) (p i o v : Nat) : (d.orReg p i o v).hoops = d.hoops := rfl
@[simp] theorem Dev.orReg_dmaCh (d : Dev) (p i o v : Nat) : (d.orReg p i o v).dmaCh = d.dmaCh := rfl
@[simp] theorem Dev.orReg_keys (d : Dev) (p i o v : Nat) : (d.orReg p i o v).keys = d.keys := rfl
@[simp] theorem Dev.orReg_cmdSeq (d : Dev) (p i o v : Nat) : (d.orReg p i o v).cmdSeq = d.cmdSeq := rfl
@[simp] theorem Dev.orReg_pantry (d : Dev) (p i o v : Nat) : (d.orReg p i o v).pantry = d.pantry := rfl
@[simp] theorem Dev.orReg_tiles (d : Dev) (p i o v : Nat) : (d.orReg p i o v).tiles = d.tiles := rfl
@[simp] theorem Dev.orReg_sats (d : Dev) (p i o v : Nat) : (d.orReg p i o v).sats = d.sats := rfl
@[simp] theorem Dev.orReg_lsts (d : Dev) (p i o v : Nat) : (d.orReg p i o v).lsts = d.lsts := rfl
@[simp] theorem Dev.orReg_fences (d : Dev) (p i o v : Nat) : (d.orReg p i o v).fences = d.fences := rfl
@[simp] theorem Dev.orReg_darners (d : Dev) (p i o v : Nat) : (d.orReg p i o v).darners = d.darners := rfl
@[simp] theorem Dev.orReg_mc (d : Dev) (p i o v : Nat) : (d.orReg p i o v).mc = d.mc := rfl
@[simp] theorem Dev.orReg_mcLookups (d : Dev) (p i o v : Nat) : (d.orReg p i o v).mcLookups = d.mcLookups := rfl
@[simp] theorem Dev.orReg_sec (d : Dev) (p i o v : Nat) : (d.orReg p i o v).sec = d.sec := rfl
@[simp] theorem Dev.orReg_batt (d : Dev) (p i o v : Nat) : (d.orReg p i o v).batt = d.batt := rfl
@[simp] theorem Dev.orReg_dbg (d : Dev) (p i o v : Nat) : (d.orReg p i o v).dbg = d.dbg := rfl
@[simp] theorem Dev.orReg_lc (d : Dev) (p i o v : Nat) : (d.orReg p i o v).lc = d.lc := rfl
@[simp] theorem Dev.orReg_ras (d : Dev) (p i o v : Nat) : (d.orReg p i o v).ras = d.ras := rfl
@[simp] theorem Dev.orReg_aon (d : Dev) (p i o v : Nat) : (d.orReg p i o v).aon = d.aon := rfl
@[simp] theorem Dev.orReg_retireQ (d : Dev) (p i o v : Nat) : (d.orReg p i o v).retireQ = d.retireQ := rfl
@[simp] theorem Dev.orReg_therm (d : Dev) (p i o v : Nat) : (d.orReg p i o v).therm = d.therm := rfl
@[simp] theorem Dev.orReg_dmaTurns (d : Dev) (p i o v : Nat) : (d.orReg p i o v).dmaTurns = d.dmaTurns := rfl
@[simp] theorem Dev.orReg_dmaTurn (d : Dev) (p i o v : Nat) : (d.orReg p i o v).dmaTurn = d.dmaTurn := rfl
@[simp] theorem Dev.orReg_vfEnable (d : Dev) (p i o v : Nat) : (d.orReg p i o v).vfEnable = d.vfEnable := rfl
@[simp] theorem Dev.orReg_numVfs (d : Dev) (p i o v : Nat) : (d.orReg p i o v).numVfs = d.numVfs := rfl
@[simp] theorem Dev.orReg_linkInsecure (d : Dev) (p i o v : Nat) : (d.orReg p i o v).linkInsecure = d.linkInsecure := rfl
@[simp] theorem Dev.orReg_doeError (d : Dev) (p i o v : Nat) : (d.orReg p i o v).doeError = d.doeError := rfl
@[simp] theorem Dev.orReg_ports (d : Dev) (p i o v : Nat) : (d.orReg p i o v).ports = d.ports := rfl
@[simp] theorem Dev.orReg_fab (d : Dev) (p i o v : Nat) : (d.orReg p i o v).fab = d.fab := rfl
@[simp] theorem Dev.orReg_groupTab (d : Dev) (p i o v : Nat) : (d.orReg p i o v).groupTab = d.groupTab := rfl
@[simp] theorem Dev.orReg_sessions (d : Dev) (p i o v : Nat) : (d.orReg p i o v).sessions = d.sessions := rfl
@[simp] theorem Dev.orReg_ios (d : Dev) (p i o v : Nat) : (d.orReg p i o v).ios = d.ios := rfl
@[simp] theorem Dev.orReg_rkeyNext (d : Dev) (p i o v : Nat) : (d.orReg p i o v).rkeyNext = d.rkeyNext := rfl
@[simp] theorem Dev.orReg_captures (d : Dev) (p i o v : Nat) : (d.orReg p i o v).captures = d.captures := rfl
@[simp] theorem Dev.orReg_triggers (d : Dev) (p i o v : Nat) : (d.orReg p i o v).triggers = d.triggers := rfl
@[simp] theorem Dev.orReg_relayIn (d : Dev) (p i o v : Nat) : (d.orReg p i o v).relayIn = d.relayIn := rfl
@[simp] theorem Dev.orReg_ethUp (d : Dev) (p i o v : Nat) : (d.orReg p i o v).ethUp = d.ethUp := rfl
@[simp] theorem Dev.orReg_laneTests (d : Dev) (p i o v : Nat) : (d.orReg p i o v).laneTests = d.laneTests := rfl
@[simp] theorem Dev.orReg_tap (d : Dev) (p i o v : Nat) : (d.orReg p i o v).tap = d.tap := rfl
@[simp] theorem Dev.orReg_flash (d : Dev) (p i o v : Nat) : (d.orReg p i o v).flash = d.flash := rfl
@[simp] theorem Dev.orReg_larderOut (d : Dev) (p i o v : Nat) : (d.orReg p i o v).larderOut = d.larderOut := rfl
@[simp] theorem Dev.orReg_wayOut (d : Dev) (p i o v : Nat) : (d.orReg p i o v).wayOut = d.wayOut := rfl
/-! ### `Dev.clrReg` -/
@[simp] theorem Dev.clrReg_freeCtr (d : Dev) (p i o v : Nat) : (d.clrReg p i o v).freeCtr = d.freeCtr := rfl
@[simp] theorem Dev.clrReg_out (d : Dev) (p i o v : Nat) : (d.clrReg p i o v).out = d.out := rfl
@[simp] theorem Dev.clrReg_now (d : Dev) (p i o v : Nat) : (d.clrReg p i o v).now = d.now := rfl
@[simp] theorem Dev.clrReg_latches (d : Dev) (p i o v : Nat) : (d.clrReg p i o v).latches = d.latches := rfl
@[simp] theorem Dev.clrReg_stagedWords (d : Dev) (p i o v : Nat) : (d.clrReg p i o v).stagedWords = d.stagedWords := rfl
@[simp] theorem Dev.clrReg_cellar (d : Dev) (p i o v : Nat) : (d.clrReg p i o v).cellar = d.cellar := rfl
@[simp] theorem Dev.clrReg_hostMem (d : Dev) (p i o v : Nat) : (d.clrReg p i o v).hostMem = d.hostMem := rfl
@[simp] theorem Dev.clrReg_groups (d : Dev) (p i o v : Nat) : (d.clrReg p i o v).groups = d.groups := rfl
@[simp] theorem Dev.clrReg_pot (d : Dev) (p i o v : Nat) : (d.clrReg p i o v).pot = d.pot := rfl
@[simp] theorem Dev.clrReg_funcs (d : Dev) (p i o v : Nat) : (d.clrReg p i o v).funcs = d.funcs := rfl
@[simp] theorem Dev.clrReg_ctxs (d : Dev) (p i o v : Nat) : (d.clrReg p i o v).ctxs = d.ctxs := rfl
@[simp] theorem Dev.clrReg_queues (d : Dev) (p i o v : Nat) : (d.clrReg p i o v).queues = d.queues := rfl
@[simp] theorem Dev.clrReg_events (d : Dev) (p i o v : Nat) : (d.clrReg p i o v).events = d.events := rfl
@[simp] theorem Dev.clrReg_cmds (d : Dev) (p i o v : Nat) : (d.clrReg p i o v).cmds = d.cmds := rfl
@[simp] theorem Dev.clrReg_hoops (d : Dev) (p i o v : Nat) : (d.clrReg p i o v).hoops = d.hoops := rfl
@[simp] theorem Dev.clrReg_dmaCh (d : Dev) (p i o v : Nat) : (d.clrReg p i o v).dmaCh = d.dmaCh := rfl
@[simp] theorem Dev.clrReg_keys (d : Dev) (p i o v : Nat) : (d.clrReg p i o v).keys = d.keys := rfl
@[simp] theorem Dev.clrReg_cmdSeq (d : Dev) (p i o v : Nat) : (d.clrReg p i o v).cmdSeq = d.cmdSeq := rfl
@[simp] theorem Dev.clrReg_pantry (d : Dev) (p i o v : Nat) : (d.clrReg p i o v).pantry = d.pantry := rfl
@[simp] theorem Dev.clrReg_tiles (d : Dev) (p i o v : Nat) : (d.clrReg p i o v).tiles = d.tiles := rfl
@[simp] theorem Dev.clrReg_sats (d : Dev) (p i o v : Nat) : (d.clrReg p i o v).sats = d.sats := rfl
@[simp] theorem Dev.clrReg_lsts (d : Dev) (p i o v : Nat) : (d.clrReg p i o v).lsts = d.lsts := rfl
@[simp] theorem Dev.clrReg_fences (d : Dev) (p i o v : Nat) : (d.clrReg p i o v).fences = d.fences := rfl
@[simp] theorem Dev.clrReg_darners (d : Dev) (p i o v : Nat) : (d.clrReg p i o v).darners = d.darners := rfl
@[simp] theorem Dev.clrReg_mc (d : Dev) (p i o v : Nat) : (d.clrReg p i o v).mc = d.mc := rfl
@[simp] theorem Dev.clrReg_mcLookups (d : Dev) (p i o v : Nat) : (d.clrReg p i o v).mcLookups = d.mcLookups := rfl
@[simp] theorem Dev.clrReg_sec (d : Dev) (p i o v : Nat) : (d.clrReg p i o v).sec = d.sec := rfl
@[simp] theorem Dev.clrReg_batt (d : Dev) (p i o v : Nat) : (d.clrReg p i o v).batt = d.batt := rfl
@[simp] theorem Dev.clrReg_dbg (d : Dev) (p i o v : Nat) : (d.clrReg p i o v).dbg = d.dbg := rfl
@[simp] theorem Dev.clrReg_lc (d : Dev) (p i o v : Nat) : (d.clrReg p i o v).lc = d.lc := rfl
@[simp] theorem Dev.clrReg_ras (d : Dev) (p i o v : Nat) : (d.clrReg p i o v).ras = d.ras := rfl
@[simp] theorem Dev.clrReg_aon (d : Dev) (p i o v : Nat) : (d.clrReg p i o v).aon = d.aon := rfl
@[simp] theorem Dev.clrReg_retireQ (d : Dev) (p i o v : Nat) : (d.clrReg p i o v).retireQ = d.retireQ := rfl
@[simp] theorem Dev.clrReg_therm (d : Dev) (p i o v : Nat) : (d.clrReg p i o v).therm = d.therm := rfl
@[simp] theorem Dev.clrReg_dmaTurns (d : Dev) (p i o v : Nat) : (d.clrReg p i o v).dmaTurns = d.dmaTurns := rfl
@[simp] theorem Dev.clrReg_dmaTurn (d : Dev) (p i o v : Nat) : (d.clrReg p i o v).dmaTurn = d.dmaTurn := rfl
@[simp] theorem Dev.clrReg_vfEnable (d : Dev) (p i o v : Nat) : (d.clrReg p i o v).vfEnable = d.vfEnable := rfl
@[simp] theorem Dev.clrReg_numVfs (d : Dev) (p i o v : Nat) : (d.clrReg p i o v).numVfs = d.numVfs := rfl
@[simp] theorem Dev.clrReg_linkInsecure (d : Dev) (p i o v : Nat) : (d.clrReg p i o v).linkInsecure = d.linkInsecure := rfl
@[simp] theorem Dev.clrReg_doeError (d : Dev) (p i o v : Nat) : (d.clrReg p i o v).doeError = d.doeError := rfl
@[simp] theorem Dev.clrReg_ports (d : Dev) (p i o v : Nat) : (d.clrReg p i o v).ports = d.ports := rfl
@[simp] theorem Dev.clrReg_fab (d : Dev) (p i o v : Nat) : (d.clrReg p i o v).fab = d.fab := rfl
@[simp] theorem Dev.clrReg_groupTab (d : Dev) (p i o v : Nat) : (d.clrReg p i o v).groupTab = d.groupTab := rfl
@[simp] theorem Dev.clrReg_sessions (d : Dev) (p i o v : Nat) : (d.clrReg p i o v).sessions = d.sessions := rfl
@[simp] theorem Dev.clrReg_ios (d : Dev) (p i o v : Nat) : (d.clrReg p i o v).ios = d.ios := rfl
@[simp] theorem Dev.clrReg_rkeyNext (d : Dev) (p i o v : Nat) : (d.clrReg p i o v).rkeyNext = d.rkeyNext := rfl
@[simp] theorem Dev.clrReg_captures (d : Dev) (p i o v : Nat) : (d.clrReg p i o v).captures = d.captures := rfl
@[simp] theorem Dev.clrReg_triggers (d : Dev) (p i o v : Nat) : (d.clrReg p i o v).triggers = d.triggers := rfl
@[simp] theorem Dev.clrReg_relayIn (d : Dev) (p i o v : Nat) : (d.clrReg p i o v).relayIn = d.relayIn := rfl
@[simp] theorem Dev.clrReg_ethUp (d : Dev) (p i o v : Nat) : (d.clrReg p i o v).ethUp = d.ethUp := rfl
@[simp] theorem Dev.clrReg_laneTests (d : Dev) (p i o v : Nat) : (d.clrReg p i o v).laneTests = d.laneTests := rfl
@[simp] theorem Dev.clrReg_tap (d : Dev) (p i o v : Nat) : (d.clrReg p i o v).tap = d.tap := rfl
@[simp] theorem Dev.clrReg_flash (d : Dev) (p i o v : Nat) : (d.clrReg p i o v).flash = d.flash := rfl
@[simp] theorem Dev.clrReg_larderOut (d : Dev) (p i o v : Nat) : (d.clrReg p i o v).larderOut = d.larderOut := rfl
@[simp] theorem Dev.clrReg_wayOut (d : Dev) (p i o v : Nat) : (d.clrReg p i o v).wayOut = d.wayOut := rfl
/-! ### `Dev.bumpRc` -/
@[simp] theorem Dev.bumpRc_freeCtr (d : Dev) (p i o v : Nat) : (d.bumpRc p i o v).freeCtr = d.freeCtr := rfl
@[simp] theorem Dev.bumpRc_out (d : Dev) (p i o v : Nat) : (d.bumpRc p i o v).out = d.out := rfl
@[simp] theorem Dev.bumpRc_now (d : Dev) (p i o v : Nat) : (d.bumpRc p i o v).now = d.now := rfl
@[simp] theorem Dev.bumpRc_latches (d : Dev) (p i o v : Nat) : (d.bumpRc p i o v).latches = d.latches := rfl
@[simp] theorem Dev.bumpRc_stagedWords (d : Dev) (p i o v : Nat) : (d.bumpRc p i o v).stagedWords = d.stagedWords := rfl
@[simp] theorem Dev.bumpRc_cellar (d : Dev) (p i o v : Nat) : (d.bumpRc p i o v).cellar = d.cellar := rfl
@[simp] theorem Dev.bumpRc_hostMem (d : Dev) (p i o v : Nat) : (d.bumpRc p i o v).hostMem = d.hostMem := rfl
@[simp] theorem Dev.bumpRc_groups (d : Dev) (p i o v : Nat) : (d.bumpRc p i o v).groups = d.groups := rfl
@[simp] theorem Dev.bumpRc_pot (d : Dev) (p i o v : Nat) : (d.bumpRc p i o v).pot = d.pot := rfl
@[simp] theorem Dev.bumpRc_funcs (d : Dev) (p i o v : Nat) : (d.bumpRc p i o v).funcs = d.funcs := rfl
@[simp] theorem Dev.bumpRc_ctxs (d : Dev) (p i o v : Nat) : (d.bumpRc p i o v).ctxs = d.ctxs := rfl
@[simp] theorem Dev.bumpRc_queues (d : Dev) (p i o v : Nat) : (d.bumpRc p i o v).queues = d.queues := rfl
@[simp] theorem Dev.bumpRc_events (d : Dev) (p i o v : Nat) : (d.bumpRc p i o v).events = d.events := rfl
@[simp] theorem Dev.bumpRc_cmds (d : Dev) (p i o v : Nat) : (d.bumpRc p i o v).cmds = d.cmds := rfl
@[simp] theorem Dev.bumpRc_hoops (d : Dev) (p i o v : Nat) : (d.bumpRc p i o v).hoops = d.hoops := rfl
@[simp] theorem Dev.bumpRc_dmaCh (d : Dev) (p i o v : Nat) : (d.bumpRc p i o v).dmaCh = d.dmaCh := rfl
@[simp] theorem Dev.bumpRc_keys (d : Dev) (p i o v : Nat) : (d.bumpRc p i o v).keys = d.keys := rfl
@[simp] theorem Dev.bumpRc_cmdSeq (d : Dev) (p i o v : Nat) : (d.bumpRc p i o v).cmdSeq = d.cmdSeq := rfl
@[simp] theorem Dev.bumpRc_pantry (d : Dev) (p i o v : Nat) : (d.bumpRc p i o v).pantry = d.pantry := rfl
@[simp] theorem Dev.bumpRc_tiles (d : Dev) (p i o v : Nat) : (d.bumpRc p i o v).tiles = d.tiles := rfl
@[simp] theorem Dev.bumpRc_sats (d : Dev) (p i o v : Nat) : (d.bumpRc p i o v).sats = d.sats := rfl
@[simp] theorem Dev.bumpRc_lsts (d : Dev) (p i o v : Nat) : (d.bumpRc p i o v).lsts = d.lsts := rfl
@[simp] theorem Dev.bumpRc_fences (d : Dev) (p i o v : Nat) : (d.bumpRc p i o v).fences = d.fences := rfl
@[simp] theorem Dev.bumpRc_darners (d : Dev) (p i o v : Nat) : (d.bumpRc p i o v).darners = d.darners := rfl
@[simp] theorem Dev.bumpRc_mc (d : Dev) (p i o v : Nat) : (d.bumpRc p i o v).mc = d.mc := rfl
@[simp] theorem Dev.bumpRc_mcLookups (d : Dev) (p i o v : Nat) : (d.bumpRc p i o v).mcLookups = d.mcLookups := rfl
@[simp] theorem Dev.bumpRc_sec (d : Dev) (p i o v : Nat) : (d.bumpRc p i o v).sec = d.sec := rfl
@[simp] theorem Dev.bumpRc_batt (d : Dev) (p i o v : Nat) : (d.bumpRc p i o v).batt = d.batt := rfl
@[simp] theorem Dev.bumpRc_dbg (d : Dev) (p i o v : Nat) : (d.bumpRc p i o v).dbg = d.dbg := rfl
@[simp] theorem Dev.bumpRc_lc (d : Dev) (p i o v : Nat) : (d.bumpRc p i o v).lc = d.lc := rfl
@[simp] theorem Dev.bumpRc_ras (d : Dev) (p i o v : Nat) : (d.bumpRc p i o v).ras = d.ras := rfl
@[simp] theorem Dev.bumpRc_aon (d : Dev) (p i o v : Nat) : (d.bumpRc p i o v).aon = d.aon := rfl
@[simp] theorem Dev.bumpRc_retireQ (d : Dev) (p i o v : Nat) : (d.bumpRc p i o v).retireQ = d.retireQ := rfl
@[simp] theorem Dev.bumpRc_therm (d : Dev) (p i o v : Nat) : (d.bumpRc p i o v).therm = d.therm := rfl
@[simp] theorem Dev.bumpRc_dmaTurns (d : Dev) (p i o v : Nat) : (d.bumpRc p i o v).dmaTurns = d.dmaTurns := rfl
@[simp] theorem Dev.bumpRc_dmaTurn (d : Dev) (p i o v : Nat) : (d.bumpRc p i o v).dmaTurn = d.dmaTurn := rfl
@[simp] theorem Dev.bumpRc_vfEnable (d : Dev) (p i o v : Nat) : (d.bumpRc p i o v).vfEnable = d.vfEnable := rfl
@[simp] theorem Dev.bumpRc_numVfs (d : Dev) (p i o v : Nat) : (d.bumpRc p i o v).numVfs = d.numVfs := rfl
@[simp] theorem Dev.bumpRc_linkInsecure (d : Dev) (p i o v : Nat) : (d.bumpRc p i o v).linkInsecure = d.linkInsecure := rfl
@[simp] theorem Dev.bumpRc_doeError (d : Dev) (p i o v : Nat) : (d.bumpRc p i o v).doeError = d.doeError := rfl
@[simp] theorem Dev.bumpRc_ports (d : Dev) (p i o v : Nat) : (d.bumpRc p i o v).ports = d.ports := rfl
@[simp] theorem Dev.bumpRc_fab (d : Dev) (p i o v : Nat) : (d.bumpRc p i o v).fab = d.fab := rfl
@[simp] theorem Dev.bumpRc_groupTab (d : Dev) (p i o v : Nat) : (d.bumpRc p i o v).groupTab = d.groupTab := rfl
@[simp] theorem Dev.bumpRc_sessions (d : Dev) (p i o v : Nat) : (d.bumpRc p i o v).sessions = d.sessions := rfl
@[simp] theorem Dev.bumpRc_ios (d : Dev) (p i o v : Nat) : (d.bumpRc p i o v).ios = d.ios := rfl
@[simp] theorem Dev.bumpRc_rkeyNext (d : Dev) (p i o v : Nat) : (d.bumpRc p i o v).rkeyNext = d.rkeyNext := rfl
@[simp] theorem Dev.bumpRc_captures (d : Dev) (p i o v : Nat) : (d.bumpRc p i o v).captures = d.captures := rfl
@[simp] theorem Dev.bumpRc_triggers (d : Dev) (p i o v : Nat) : (d.bumpRc p i o v).triggers = d.triggers := rfl
@[simp] theorem Dev.bumpRc_relayIn (d : Dev) (p i o v : Nat) : (d.bumpRc p i o v).relayIn = d.relayIn := rfl
@[simp] theorem Dev.bumpRc_ethUp (d : Dev) (p i o v : Nat) : (d.bumpRc p i o v).ethUp = d.ethUp := rfl
@[simp] theorem Dev.bumpRc_laneTests (d : Dev) (p i o v : Nat) : (d.bumpRc p i o v).laneTests = d.laneTests := rfl
@[simp] theorem Dev.bumpRc_tap (d : Dev) (p i o v : Nat) : (d.bumpRc p i o v).tap = d.tap := rfl
@[simp] theorem Dev.bumpRc_flash (d : Dev) (p i o v : Nat) : (d.bumpRc p i o v).flash = d.flash := rfl
@[simp] theorem Dev.bumpRc_larderOut (d : Dev) (p i o v : Nat) : (d.bumpRc p i o v).larderOut = d.larderOut := rfl
@[simp] theorem Dev.bumpRc_wayOut (d : Dev) (p i o v : Nat) : (d.bumpRc p i o v).wayOut = d.wayOut := rfl
/-! ### `Dev.setReg64` -/
@[simp] theorem Dev.setReg64_freeCtr (d : Dev) (p i o v : Nat) : (d.setReg64 p i o v).freeCtr = d.freeCtr := rfl
@[simp] theorem Dev.setReg64_out (d : Dev) (p i o v : Nat) : (d.setReg64 p i o v).out = d.out := rfl
@[simp] theorem Dev.setReg64_now (d : Dev) (p i o v : Nat) : (d.setReg64 p i o v).now = d.now := rfl
@[simp] theorem Dev.setReg64_latches (d : Dev) (p i o v : Nat) : (d.setReg64 p i o v).latches = d.latches := rfl
@[simp] theorem Dev.setReg64_stagedWords (d : Dev) (p i o v : Nat) : (d.setReg64 p i o v).stagedWords = d.stagedWords := rfl
@[simp] theorem Dev.setReg64_cellar (d : Dev) (p i o v : Nat) : (d.setReg64 p i o v).cellar = d.cellar := rfl
@[simp] theorem Dev.setReg64_hostMem (d : Dev) (p i o v : Nat) : (d.setReg64 p i o v).hostMem = d.hostMem := rfl
@[simp] theorem Dev.setReg64_groups (d : Dev) (p i o v : Nat) : (d.setReg64 p i o v).groups = d.groups := rfl
@[simp] theorem Dev.setReg64_pot (d : Dev) (p i o v : Nat) : (d.setReg64 p i o v).pot = d.pot := rfl
@[simp] theorem Dev.setReg64_funcs (d : Dev) (p i o v : Nat) : (d.setReg64 p i o v).funcs = d.funcs := rfl
@[simp] theorem Dev.setReg64_ctxs (d : Dev) (p i o v : Nat) : (d.setReg64 p i o v).ctxs = d.ctxs := rfl
@[simp] theorem Dev.setReg64_queues (d : Dev) (p i o v : Nat) : (d.setReg64 p i o v).queues = d.queues := rfl
@[simp] theorem Dev.setReg64_events (d : Dev) (p i o v : Nat) : (d.setReg64 p i o v).events = d.events := rfl
@[simp] theorem Dev.setReg64_cmds (d : Dev) (p i o v : Nat) : (d.setReg64 p i o v).cmds = d.cmds := rfl
@[simp] theorem Dev.setReg64_hoops (d : Dev) (p i o v : Nat) : (d.setReg64 p i o v).hoops = d.hoops := rfl
@[simp] theorem Dev.setReg64_dmaCh (d : Dev) (p i o v : Nat) : (d.setReg64 p i o v).dmaCh = d.dmaCh := rfl
@[simp] theorem Dev.setReg64_keys (d : Dev) (p i o v : Nat) : (d.setReg64 p i o v).keys = d.keys := rfl
@[simp] theorem Dev.setReg64_cmdSeq (d : Dev) (p i o v : Nat) : (d.setReg64 p i o v).cmdSeq = d.cmdSeq := rfl
@[simp] theorem Dev.setReg64_pantry (d : Dev) (p i o v : Nat) : (d.setReg64 p i o v).pantry = d.pantry := rfl
@[simp] theorem Dev.setReg64_tiles (d : Dev) (p i o v : Nat) : (d.setReg64 p i o v).tiles = d.tiles := rfl
@[simp] theorem Dev.setReg64_sats (d : Dev) (p i o v : Nat) : (d.setReg64 p i o v).sats = d.sats := rfl
@[simp] theorem Dev.setReg64_lsts (d : Dev) (p i o v : Nat) : (d.setReg64 p i o v).lsts = d.lsts := rfl
@[simp] theorem Dev.setReg64_fences (d : Dev) (p i o v : Nat) : (d.setReg64 p i o v).fences = d.fences := rfl
@[simp] theorem Dev.setReg64_darners (d : Dev) (p i o v : Nat) : (d.setReg64 p i o v).darners = d.darners := rfl
@[simp] theorem Dev.setReg64_mc (d : Dev) (p i o v : Nat) : (d.setReg64 p i o v).mc = d.mc := rfl
@[simp] theorem Dev.setReg64_mcLookups (d : Dev) (p i o v : Nat) : (d.setReg64 p i o v).mcLookups = d.mcLookups := rfl
@[simp] theorem Dev.setReg64_sec (d : Dev) (p i o v : Nat) : (d.setReg64 p i o v).sec = d.sec := rfl
@[simp] theorem Dev.setReg64_batt (d : Dev) (p i o v : Nat) : (d.setReg64 p i o v).batt = d.batt := rfl
@[simp] theorem Dev.setReg64_dbg (d : Dev) (p i o v : Nat) : (d.setReg64 p i o v).dbg = d.dbg := rfl
@[simp] theorem Dev.setReg64_lc (d : Dev) (p i o v : Nat) : (d.setReg64 p i o v).lc = d.lc := rfl
@[simp] theorem Dev.setReg64_ras (d : Dev) (p i o v : Nat) : (d.setReg64 p i o v).ras = d.ras := rfl
@[simp] theorem Dev.setReg64_aon (d : Dev) (p i o v : Nat) : (d.setReg64 p i o v).aon = d.aon := rfl
@[simp] theorem Dev.setReg64_retireQ (d : Dev) (p i o v : Nat) : (d.setReg64 p i o v).retireQ = d.retireQ := rfl
@[simp] theorem Dev.setReg64_therm (d : Dev) (p i o v : Nat) : (d.setReg64 p i o v).therm = d.therm := rfl
@[simp] theorem Dev.setReg64_dmaTurns (d : Dev) (p i o v : Nat) : (d.setReg64 p i o v).dmaTurns = d.dmaTurns := rfl
@[simp] theorem Dev.setReg64_dmaTurn (d : Dev) (p i o v : Nat) : (d.setReg64 p i o v).dmaTurn = d.dmaTurn := rfl
@[simp] theorem Dev.setReg64_vfEnable (d : Dev) (p i o v : Nat) : (d.setReg64 p i o v).vfEnable = d.vfEnable := rfl
@[simp] theorem Dev.setReg64_numVfs (d : Dev) (p i o v : Nat) : (d.setReg64 p i o v).numVfs = d.numVfs := rfl
@[simp] theorem Dev.setReg64_linkInsecure (d : Dev) (p i o v : Nat) : (d.setReg64 p i o v).linkInsecure = d.linkInsecure := rfl
@[simp] theorem Dev.setReg64_doeError (d : Dev) (p i o v : Nat) : (d.setReg64 p i o v).doeError = d.doeError := rfl
@[simp] theorem Dev.setReg64_ports (d : Dev) (p i o v : Nat) : (d.setReg64 p i o v).ports = d.ports := rfl
@[simp] theorem Dev.setReg64_fab (d : Dev) (p i o v : Nat) : (d.setReg64 p i o v).fab = d.fab := rfl
@[simp] theorem Dev.setReg64_groupTab (d : Dev) (p i o v : Nat) : (d.setReg64 p i o v).groupTab = d.groupTab := rfl
@[simp] theorem Dev.setReg64_sessions (d : Dev) (p i o v : Nat) : (d.setReg64 p i o v).sessions = d.sessions := rfl
@[simp] theorem Dev.setReg64_ios (d : Dev) (p i o v : Nat) : (d.setReg64 p i o v).ios = d.ios := rfl
@[simp] theorem Dev.setReg64_rkeyNext (d : Dev) (p i o v : Nat) : (d.setReg64 p i o v).rkeyNext = d.rkeyNext := rfl
@[simp] theorem Dev.setReg64_captures (d : Dev) (p i o v : Nat) : (d.setReg64 p i o v).captures = d.captures := rfl
@[simp] theorem Dev.setReg64_triggers (d : Dev) (p i o v : Nat) : (d.setReg64 p i o v).triggers = d.triggers := rfl
@[simp] theorem Dev.setReg64_relayIn (d : Dev) (p i o v : Nat) : (d.setReg64 p i o v).relayIn = d.relayIn := rfl
@[simp] theorem Dev.setReg64_ethUp (d : Dev) (p i o v : Nat) : (d.setReg64 p i o v).ethUp = d.ethUp := rfl
@[simp] theorem Dev.setReg64_laneTests (d : Dev) (p i o v : Nat) : (d.setReg64 p i o v).laneTests = d.laneTests := rfl
@[simp] theorem Dev.setReg64_tap (d : Dev) (p i o v : Nat) : (d.setReg64 p i o v).tap = d.tap := rfl
@[simp] theorem Dev.setReg64_flash (d : Dev) (p i o v : Nat) : (d.setReg64 p i o v).flash = d.flash := rfl
@[simp] theorem Dev.setReg64_larderOut (d : Dev) (p i o v : Nat) : (d.setReg64 p i o v).larderOut = d.larderOut := rfl
@[simp] theorem Dev.setReg64_wayOut (d : Dev) (p i o v : Nat) : (d.setReg64 p i o v).wayOut = d.wayOut := rfl
/-! ### `Dev.emit` -/
@[simp] theorem Dev.emit_freeCtr (d : Dev) (e : Emit) : (d.emit e).freeCtr = d.freeCtr := rfl
@[simp] theorem Dev.emit_now (d : Dev) (e : Emit) : (d.emit e).now = d.now := rfl
@[simp] theorem Dev.emit_regs (d : Dev) (e : Emit) : (d.emit e).regs = d.regs := rfl
@[simp] theorem Dev.emit_latches (d : Dev) (e : Emit) : (d.emit e).latches = d.latches := rfl
@[simp] theorem Dev.emit_stagedWords (d : Dev) (e : Emit) : (d.emit e).stagedWords = d.stagedWords := rfl
@[simp] theorem Dev.emit_cellar (d : Dev) (e : Emit) : (d.emit e).cellar = d.cellar := rfl
@[simp] theorem Dev.emit_hostMem (d : Dev) (e : Emit) : (d.emit e).hostMem = d.hostMem := rfl
@[simp] theorem Dev.emit_groups (d : Dev) (e : Emit) : (d.emit e).groups = d.groups := rfl
@[simp] theorem Dev.emit_pot (d : Dev) (e : Emit) : (d.emit e).pot = d.pot := rfl
@[simp] theorem Dev.emit_funcs (d : Dev) (e : Emit) : (d.emit e).funcs = d.funcs := rfl
@[simp] theorem Dev.emit_ctxs (d : Dev) (e : Emit) : (d.emit e).ctxs = d.ctxs := rfl
@[simp] theorem Dev.emit_queues (d : Dev) (e : Emit) : (d.emit e).queues = d.queues := rfl
@[simp] theorem Dev.emit_events (d : Dev) (e : Emit) : (d.emit e).events = d.events := rfl
@[simp] theorem Dev.emit_cmds (d : Dev) (e : Emit) : (d.emit e).cmds = d.cmds := rfl
@[simp] theorem Dev.emit_hoops (d : Dev) (e : Emit) : (d.emit e).hoops = d.hoops := rfl
@[simp] theorem Dev.emit_dmaCh (d : Dev) (e : Emit) : (d.emit e).dmaCh = d.dmaCh := rfl
@[simp] theorem Dev.emit_keys (d : Dev) (e : Emit) : (d.emit e).keys = d.keys := rfl
@[simp] theorem Dev.emit_cmdSeq (d : Dev) (e : Emit) : (d.emit e).cmdSeq = d.cmdSeq := rfl
@[simp] theorem Dev.emit_pantry (d : Dev) (e : Emit) : (d.emit e).pantry = d.pantry := rfl
@[simp] theorem Dev.emit_tiles (d : Dev) (e : Emit) : (d.emit e).tiles = d.tiles := rfl
@[simp] theorem Dev.emit_sats (d : Dev) (e : Emit) : (d.emit e).sats = d.sats := rfl
@[simp] theorem Dev.emit_lsts (d : Dev) (e : Emit) : (d.emit e).lsts = d.lsts := rfl
@[simp] theorem Dev.emit_fences (d : Dev) (e : Emit) : (d.emit e).fences = d.fences := rfl
@[simp] theorem Dev.emit_darners (d : Dev) (e : Emit) : (d.emit e).darners = d.darners := rfl
@[simp] theorem Dev.emit_mc (d : Dev) (e : Emit) : (d.emit e).mc = d.mc := rfl
@[simp] theorem Dev.emit_mcLookups (d : Dev) (e : Emit) : (d.emit e).mcLookups = d.mcLookups := rfl
@[simp] theorem Dev.emit_sec (d : Dev) (e : Emit) : (d.emit e).sec = d.sec := rfl
@[simp] theorem Dev.emit_batt (d : Dev) (e : Emit) : (d.emit e).batt = d.batt := rfl
@[simp] theorem Dev.emit_dbg (d : Dev) (e : Emit) : (d.emit e).dbg = d.dbg := rfl
@[simp] theorem Dev.emit_lc (d : Dev) (e : Emit) : (d.emit e).lc = d.lc := rfl
@[simp] theorem Dev.emit_ras (d : Dev) (e : Emit) : (d.emit e).ras = d.ras := rfl
@[simp] theorem Dev.emit_aon (d : Dev) (e : Emit) : (d.emit e).aon = d.aon := rfl
@[simp] theorem Dev.emit_retireQ (d : Dev) (e : Emit) : (d.emit e).retireQ = d.retireQ := rfl
@[simp] theorem Dev.emit_therm (d : Dev) (e : Emit) : (d.emit e).therm = d.therm := rfl
@[simp] theorem Dev.emit_dmaTurns (d : Dev) (e : Emit) : (d.emit e).dmaTurns = d.dmaTurns := rfl
@[simp] theorem Dev.emit_dmaTurn (d : Dev) (e : Emit) : (d.emit e).dmaTurn = d.dmaTurn := rfl
@[simp] theorem Dev.emit_vfEnable (d : Dev) (e : Emit) : (d.emit e).vfEnable = d.vfEnable := rfl
@[simp] theorem Dev.emit_numVfs (d : Dev) (e : Emit) : (d.emit e).numVfs = d.numVfs := rfl
@[simp] theorem Dev.emit_linkInsecure (d : Dev) (e : Emit) : (d.emit e).linkInsecure = d.linkInsecure := rfl
@[simp] theorem Dev.emit_doeError (d : Dev) (e : Emit) : (d.emit e).doeError = d.doeError := rfl
@[simp] theorem Dev.emit_ports (d : Dev) (e : Emit) : (d.emit e).ports = d.ports := rfl
@[simp] theorem Dev.emit_fab (d : Dev) (e : Emit) : (d.emit e).fab = d.fab := rfl
@[simp] theorem Dev.emit_groupTab (d : Dev) (e : Emit) : (d.emit e).groupTab = d.groupTab := rfl
@[simp] theorem Dev.emit_sessions (d : Dev) (e : Emit) : (d.emit e).sessions = d.sessions := rfl
@[simp] theorem Dev.emit_ios (d : Dev) (e : Emit) : (d.emit e).ios = d.ios := rfl
@[simp] theorem Dev.emit_rkeyNext (d : Dev) (e : Emit) : (d.emit e).rkeyNext = d.rkeyNext := rfl
@[simp] theorem Dev.emit_captures (d : Dev) (e : Emit) : (d.emit e).captures = d.captures := rfl
@[simp] theorem Dev.emit_triggers (d : Dev) (e : Emit) : (d.emit e).triggers = d.triggers := rfl
@[simp] theorem Dev.emit_relayIn (d : Dev) (e : Emit) : (d.emit e).relayIn = d.relayIn := rfl
@[simp] theorem Dev.emit_ethUp (d : Dev) (e : Emit) : (d.emit e).ethUp = d.ethUp := rfl
@[simp] theorem Dev.emit_laneTests (d : Dev) (e : Emit) : (d.emit e).laneTests = d.laneTests := rfl
@[simp] theorem Dev.emit_tap (d : Dev) (e : Emit) : (d.emit e).tap = d.tap := rfl
@[simp] theorem Dev.emit_flash (d : Dev) (e : Emit) : (d.emit e).flash = d.flash := rfl
@[simp] theorem Dev.emit_larderOut (d : Dev) (e : Emit) : (d.emit e).larderOut = d.larderOut := rfl
@[simp] theorem Dev.emit_wayOut (d : Dev) (e : Emit) : (d.emit e).wayOut = d.wayOut := rfl
/-! ### `Dev.tick` -/
@[simp] theorem Dev.tick_out (d : Dev) : (d.tick).out = d.out := rfl
@[simp] theorem Dev.tick_now (d : Dev) : (d.tick).now = d.now := rfl
@[simp] theorem Dev.tick_regs (d : Dev) : (d.tick).regs = d.regs := rfl
@[simp] theorem Dev.tick_latches (d : Dev) : (d.tick).latches = d.latches := rfl
@[simp] theorem Dev.tick_stagedWords (d : Dev) : (d.tick).stagedWords = d.stagedWords := rfl
@[simp] theorem Dev.tick_cellar (d : Dev) : (d.tick).cellar = d.cellar := rfl
@[simp] theorem Dev.tick_hostMem (d : Dev) : (d.tick).hostMem = d.hostMem := rfl
@[simp] theorem Dev.tick_groups (d : Dev) : (d.tick).groups = d.groups := rfl
@[simp] theorem Dev.tick_pot (d : Dev) : (d.tick).pot = d.pot := rfl
@[simp] theorem Dev.tick_funcs (d : Dev) : (d.tick).funcs = d.funcs := rfl
@[simp] theorem Dev.tick_ctxs (d : Dev) : (d.tick).ctxs = d.ctxs := rfl
@[simp] theorem Dev.tick_queues (d : Dev) : (d.tick).queues = d.queues := rfl
@[simp] theorem Dev.tick_events (d : Dev) : (d.tick).events = d.events := rfl
@[simp] theorem Dev.tick_cmds (d : Dev) : (d.tick).cmds = d.cmds := rfl
@[simp] theorem Dev.tick_hoops (d : Dev) : (d.tick).hoops = d.hoops := rfl
@[simp] theorem Dev.tick_dmaCh (d : Dev) : (d.tick).dmaCh = d.dmaCh := rfl
@[simp] theorem Dev.tick_keys (d : Dev) : (d.tick).keys = d.keys := rfl
@[simp] theorem Dev.tick_cmdSeq (d : Dev) : (d.tick).cmdSeq = d.cmdSeq := rfl
@[simp] theorem Dev.tick_pantry (d : Dev) : (d.tick).pantry = d.pantry := rfl
@[simp] theorem Dev.tick_tiles (d : Dev) : (d.tick).tiles = d.tiles := rfl
@[simp] theorem Dev.tick_sats (d : Dev) : (d.tick).sats = d.sats := rfl
@[simp] theorem Dev.tick_lsts (d : Dev) : (d.tick).lsts = d.lsts := rfl
@[simp] theorem Dev.tick_fences (d : Dev) : (d.tick).fences = d.fences := rfl
@[simp] theorem Dev.tick_darners (d : Dev) : (d.tick).darners = d.darners := rfl
@[simp] theorem Dev.tick_mc (d : Dev) : (d.tick).mc = d.mc := rfl
@[simp] theorem Dev.tick_mcLookups (d : Dev) : (d.tick).mcLookups = d.mcLookups := rfl
@[simp] theorem Dev.tick_sec (d : Dev) : (d.tick).sec = d.sec := rfl
@[simp] theorem Dev.tick_batt (d : Dev) : (d.tick).batt = d.batt := rfl
@[simp] theorem Dev.tick_dbg (d : Dev) : (d.tick).dbg = d.dbg := rfl
@[simp] theorem Dev.tick_lc (d : Dev) : (d.tick).lc = d.lc := rfl
@[simp] theorem Dev.tick_ras (d : Dev) : (d.tick).ras = d.ras := rfl
@[simp] theorem Dev.tick_aon (d : Dev) : (d.tick).aon = d.aon := rfl
@[simp] theorem Dev.tick_retireQ (d : Dev) : (d.tick).retireQ = d.retireQ := rfl
@[simp] theorem Dev.tick_therm (d : Dev) : (d.tick).therm = d.therm := rfl
@[simp] theorem Dev.tick_dmaTurns (d : Dev) : (d.tick).dmaTurns = d.dmaTurns := rfl
@[simp] theorem Dev.tick_dmaTurn (d : Dev) : (d.tick).dmaTurn = d.dmaTurn := rfl
@[simp] theorem Dev.tick_vfEnable (d : Dev) : (d.tick).vfEnable = d.vfEnable := rfl
@[simp] theorem Dev.tick_numVfs (d : Dev) : (d.tick).numVfs = d.numVfs := rfl
@[simp] theorem Dev.tick_linkInsecure (d : Dev) : (d.tick).linkInsecure = d.linkInsecure := rfl
@[simp] theorem Dev.tick_doeError (d : Dev) : (d.tick).doeError = d.doeError := rfl
@[simp] theorem Dev.tick_ports (d : Dev) : (d.tick).ports = d.ports := rfl
@[simp] theorem Dev.tick_fab (d : Dev) : (d.tick).fab = d.fab := rfl
@[simp] theorem Dev.tick_groupTab (d : Dev) : (d.tick).groupTab = d.groupTab := rfl
@[simp] theorem Dev.tick_sessions (d : Dev) : (d.tick).sessions = d.sessions := rfl
@[simp] theorem Dev.tick_ios (d : Dev) : (d.tick).ios = d.ios := rfl
@[simp] theorem Dev.tick_rkeyNext (d : Dev) : (d.tick).rkeyNext = d.rkeyNext := rfl
@[simp] theorem Dev.tick_captures (d : Dev) : (d.tick).captures = d.captures := rfl
@[simp] theorem Dev.tick_triggers (d : Dev) : (d.tick).triggers = d.triggers := rfl
@[simp] theorem Dev.tick_relayIn (d : Dev) : (d.tick).relayIn = d.relayIn := rfl
@[simp] theorem Dev.tick_ethUp (d : Dev) : (d.tick).ethUp = d.ethUp := rfl
@[simp] theorem Dev.tick_laneTests (d : Dev) : (d.tick).laneTests = d.laneTests := rfl
@[simp] theorem Dev.tick_tap (d : Dev) : (d.tick).tap = d.tap := rfl
@[simp] theorem Dev.tick_flash (d : Dev) : (d.tick).flash = d.flash := rfl
@[simp] theorem Dev.tick_larderOut (d : Dev) : (d.tick).larderOut = d.larderOut := rfl
@[simp] theorem Dev.tick_wayOut (d : Dev) : (d.tick).wayOut = d.wayOut := rfl
/-! ### `Dev.ticks` -/
@[simp] theorem Dev.ticks_out (d : Dev) (n : Nat) : (d.ticks n).out = d.out := rfl
@[simp] theorem Dev.ticks_now (d : Dev) (n : Nat) : (d.ticks n).now = d.now := rfl
@[simp] theorem Dev.ticks_regs (d : Dev) (n : Nat) : (d.ticks n).regs = d.regs := rfl
@[simp] theorem Dev.ticks_latches (d : Dev) (n : Nat) : (d.ticks n).latches = d.latches := rfl
@[simp] theorem Dev.ticks_stagedWords (d : Dev) (n : Nat) : (d.ticks n).stagedWords = d.stagedWords := rfl
@[simp] theorem Dev.ticks_cellar (d : Dev) (n : Nat) : (d.ticks n).cellar = d.cellar := rfl
@[simp] theorem Dev.ticks_hostMem (d : Dev) (n : Nat) : (d.ticks n).hostMem = d.hostMem := rfl
@[simp] theorem Dev.ticks_groups (d : Dev) (n : Nat) : (d.ticks n).groups = d.groups := rfl
@[simp] theorem Dev.ticks_pot (d : Dev) (n : Nat) : (d.ticks n).pot = d.pot := rfl
@[simp] theorem Dev.ticks_funcs (d : Dev) (n : Nat) : (d.ticks n).funcs = d.funcs := rfl
@[simp] theorem Dev.ticks_ctxs (d : Dev) (n : Nat) : (d.ticks n).ctxs = d.ctxs := rfl
@[simp] theorem Dev.ticks_queues (d : Dev) (n : Nat) : (d.ticks n).queues = d.queues := rfl
@[simp] theorem Dev.ticks_events (d : Dev) (n : Nat) : (d.ticks n).events = d.events := rfl
@[simp] theorem Dev.ticks_cmds (d : Dev) (n : Nat) : (d.ticks n).cmds = d.cmds := rfl
@[simp] theorem Dev.ticks_hoops (d : Dev) (n : Nat) : (d.ticks n).hoops = d.hoops := rfl
@[simp] theorem Dev.ticks_dmaCh (d : Dev) (n : Nat) : (d.ticks n).dmaCh = d.dmaCh := rfl
@[simp] theorem Dev.ticks_keys (d : Dev) (n : Nat) : (d.ticks n).keys = d.keys := rfl
@[simp] theorem Dev.ticks_cmdSeq (d : Dev) (n : Nat) : (d.ticks n).cmdSeq = d.cmdSeq := rfl
@[simp] theorem Dev.ticks_pantry (d : Dev) (n : Nat) : (d.ticks n).pantry = d.pantry := rfl
@[simp] theorem Dev.ticks_tiles (d : Dev) (n : Nat) : (d.ticks n).tiles = d.tiles := rfl
@[simp] theorem Dev.ticks_sats (d : Dev) (n : Nat) : (d.ticks n).sats = d.sats := rfl
@[simp] theorem Dev.ticks_lsts (d : Dev) (n : Nat) : (d.ticks n).lsts = d.lsts := rfl
@[simp] theorem Dev.ticks_fences (d : Dev) (n : Nat) : (d.ticks n).fences = d.fences := rfl
@[simp] theorem Dev.ticks_darners (d : Dev) (n : Nat) : (d.ticks n).darners = d.darners := rfl
@[simp] theorem Dev.ticks_mc (d : Dev) (n : Nat) : (d.ticks n).mc = d.mc := rfl
@[simp] theorem Dev.ticks_mcLookups (d : Dev) (n : Nat) : (d.ticks n).mcLookups = d.mcLookups := rfl
@[simp] theorem Dev.ticks_sec (d : Dev) (n : Nat) : (d.ticks n).sec = d.sec := rfl
@[simp] theorem Dev.ticks_batt (d : Dev) (n : Nat) : (d.ticks n).batt = d.batt := rfl
@[simp] theorem Dev.ticks_dbg (d : Dev) (n : Nat) : (d.ticks n).dbg = d.dbg := rfl
@[simp] theorem Dev.ticks_lc (d : Dev) (n : Nat) : (d.ticks n).lc = d.lc := rfl
@[simp] theorem Dev.ticks_ras (d : Dev) (n : Nat) : (d.ticks n).ras = d.ras := rfl
@[simp] theorem Dev.ticks_aon (d : Dev) (n : Nat) : (d.ticks n).aon = d.aon := rfl
@[simp] theorem Dev.ticks_retireQ (d : Dev) (n : Nat) : (d.ticks n).retireQ = d.retireQ := rfl
@[simp] theorem Dev.ticks_therm (d : Dev) (n : Nat) : (d.ticks n).therm = d.therm := rfl
@[simp] theorem Dev.ticks_dmaTurns (d : Dev) (n : Nat) : (d.ticks n).dmaTurns = d.dmaTurns := rfl
@[simp] theorem Dev.ticks_dmaTurn (d : Dev) (n : Nat) : (d.ticks n).dmaTurn = d.dmaTurn := rfl
@[simp] theorem Dev.ticks_vfEnable (d : Dev) (n : Nat) : (d.ticks n).vfEnable = d.vfEnable := rfl
@[simp] theorem Dev.ticks_numVfs (d : Dev) (n : Nat) : (d.ticks n).numVfs = d.numVfs := rfl
@[simp] theorem Dev.ticks_linkInsecure (d : Dev) (n : Nat) : (d.ticks n).linkInsecure = d.linkInsecure := rfl
@[simp] theorem Dev.ticks_doeError (d : Dev) (n : Nat) : (d.ticks n).doeError = d.doeError := rfl
@[simp] theorem Dev.ticks_ports (d : Dev) (n : Nat) : (d.ticks n).ports = d.ports := rfl
@[simp] theorem Dev.ticks_fab (d : Dev) (n : Nat) : (d.ticks n).fab = d.fab := rfl
@[simp] theorem Dev.ticks_groupTab (d : Dev) (n : Nat) : (d.ticks n).groupTab = d.groupTab := rfl
@[simp] theorem Dev.ticks_sessions (d : Dev) (n : Nat) : (d.ticks n).sessions = d.sessions := rfl
@[simp] theorem Dev.ticks_ios (d : Dev) (n : Nat) : (d.ticks n).ios = d.ios := rfl
@[simp] theorem Dev.ticks_rkeyNext (d : Dev) (n : Nat) : (d.ticks n).rkeyNext = d.rkeyNext := rfl
@[simp] theorem Dev.ticks_captures (d : Dev) (n : Nat) : (d.ticks n).captures = d.captures := rfl
@[simp] theorem Dev.ticks_triggers (d : Dev) (n : Nat) : (d.ticks n).triggers = d.triggers := rfl
@[simp] theorem Dev.ticks_relayIn (d : Dev) (n : Nat) : (d.ticks n).relayIn = d.relayIn := rfl
@[simp] theorem Dev.ticks_ethUp (d : Dev) (n : Nat) : (d.ticks n).ethUp = d.ethUp := rfl
@[simp] theorem Dev.ticks_laneTests (d : Dev) (n : Nat) : (d.ticks n).laneTests = d.laneTests := rfl
@[simp] theorem Dev.ticks_tap (d : Dev) (n : Nat) : (d.ticks n).tap = d.tap := rfl
@[simp] theorem Dev.ticks_flash (d : Dev) (n : Nat) : (d.ticks n).flash = d.flash := rfl
@[simp] theorem Dev.ticks_larderOut (d : Dev) (n : Nat) : (d.ticks n).larderOut = d.larderOut := rfl
@[simp] theorem Dev.ticks_wayOut (d : Dev) (n : Nat) : (d.ticks n).wayOut = d.wayOut := rfl
/-! ### `Dev.at` -/
@[simp] theorem Dev.at_freeCtr (d : Dev) (t : Nat) : (d.at t).freeCtr = d.freeCtr := rfl
@[simp] theorem Dev.at_out (d : Dev) (t : Nat) : (d.at t).out = d.out := rfl
@[simp] theorem Dev.at_regs (d : Dev) (t : Nat) : (d.at t).regs = d.regs := rfl
@[simp] theorem Dev.at_latches (d : Dev) (t : Nat) : (d.at t).latches = d.latches := rfl
@[simp] theorem Dev.at_stagedWords (d : Dev) (t : Nat) : (d.at t).stagedWords = d.stagedWords := rfl
@[simp] theorem Dev.at_cellar (d : Dev) (t : Nat) : (d.at t).cellar = d.cellar := rfl
@[simp] theorem Dev.at_hostMem (d : Dev) (t : Nat) : (d.at t).hostMem = d.hostMem := rfl
@[simp] theorem Dev.at_groups (d : Dev) (t : Nat) : (d.at t).groups = d.groups := rfl
@[simp] theorem Dev.at_pot (d : Dev) (t : Nat) : (d.at t).pot = d.pot := rfl
@[simp] theorem Dev.at_funcs (d : Dev) (t : Nat) : (d.at t).funcs = d.funcs := rfl
@[simp] theorem Dev.at_ctxs (d : Dev) (t : Nat) : (d.at t).ctxs = d.ctxs := rfl
@[simp] theorem Dev.at_queues (d : Dev) (t : Nat) : (d.at t).queues = d.queues := rfl
@[simp] theorem Dev.at_events (d : Dev) (t : Nat) : (d.at t).events = d.events := rfl
@[simp] theorem Dev.at_cmds (d : Dev) (t : Nat) : (d.at t).cmds = d.cmds := rfl
@[simp] theorem Dev.at_hoops (d : Dev) (t : Nat) : (d.at t).hoops = d.hoops := rfl
@[simp] theorem Dev.at_dmaCh (d : Dev) (t : Nat) : (d.at t).dmaCh = d.dmaCh := rfl
@[simp] theorem Dev.at_keys (d : Dev) (t : Nat) : (d.at t).keys = d.keys := rfl
@[simp] theorem Dev.at_cmdSeq (d : Dev) (t : Nat) : (d.at t).cmdSeq = d.cmdSeq := rfl
@[simp] theorem Dev.at_pantry (d : Dev) (t : Nat) : (d.at t).pantry = d.pantry := rfl
@[simp] theorem Dev.at_tiles (d : Dev) (t : Nat) : (d.at t).tiles = d.tiles := rfl
@[simp] theorem Dev.at_sats (d : Dev) (t : Nat) : (d.at t).sats = d.sats := rfl
@[simp] theorem Dev.at_lsts (d : Dev) (t : Nat) : (d.at t).lsts = d.lsts := rfl
@[simp] theorem Dev.at_fences (d : Dev) (t : Nat) : (d.at t).fences = d.fences := rfl
@[simp] theorem Dev.at_darners (d : Dev) (t : Nat) : (d.at t).darners = d.darners := rfl
@[simp] theorem Dev.at_mc (d : Dev) (t : Nat) : (d.at t).mc = d.mc := rfl
@[simp] theorem Dev.at_mcLookups (d : Dev) (t : Nat) : (d.at t).mcLookups = d.mcLookups := rfl
@[simp] theorem Dev.at_sec (d : Dev) (t : Nat) : (d.at t).sec = d.sec := rfl
@[simp] theorem Dev.at_batt (d : Dev) (t : Nat) : (d.at t).batt = d.batt := rfl
@[simp] theorem Dev.at_dbg (d : Dev) (t : Nat) : (d.at t).dbg = d.dbg := rfl
@[simp] theorem Dev.at_lc (d : Dev) (t : Nat) : (d.at t).lc = d.lc := rfl
@[simp] theorem Dev.at_ras (d : Dev) (t : Nat) : (d.at t).ras = d.ras := rfl
@[simp] theorem Dev.at_aon (d : Dev) (t : Nat) : (d.at t).aon = d.aon := rfl
@[simp] theorem Dev.at_retireQ (d : Dev) (t : Nat) : (d.at t).retireQ = d.retireQ := rfl
@[simp] theorem Dev.at_therm (d : Dev) (t : Nat) : (d.at t).therm = d.therm := rfl
@[simp] theorem Dev.at_dmaTurns (d : Dev) (t : Nat) : (d.at t).dmaTurns = d.dmaTurns := rfl
@[simp] theorem Dev.at_dmaTurn (d : Dev) (t : Nat) : (d.at t).dmaTurn = d.dmaTurn := rfl
@[simp] theorem Dev.at_vfEnable (d : Dev) (t : Nat) : (d.at t).vfEnable = d.vfEnable := rfl
@[simp] theorem Dev.at_numVfs (d : Dev) (t : Nat) : (d.at t).numVfs = d.numVfs := rfl
@[simp] theorem Dev.at_linkInsecure (d : Dev) (t : Nat) : (d.at t).linkInsecure = d.linkInsecure := rfl
@[simp] theorem Dev.at_doeError (d : Dev) (t : Nat) : (d.at t).doeError = d.doeError := rfl
@[simp] theorem Dev.at_ports (d : Dev) (t : Nat) : (d.at t).ports = d.ports := rfl
@[simp] theorem Dev.at_fab (d : Dev) (t : Nat) : (d.at t).fab = d.fab := rfl
@[simp] theorem Dev.at_groupTab (d : Dev) (t : Nat) : (d.at t).groupTab = d.groupTab := rfl
@[simp] theorem Dev.at_sessions (d : Dev) (t : Nat) : (d.at t).sessions = d.sessions := rfl
@[simp] theorem Dev.at_ios (d : Dev) (t : Nat) : (d.at t).ios = d.ios := rfl
@[simp] theorem Dev.at_rkeyNext (d : Dev) (t : Nat) : (d.at t).rkeyNext = d.rkeyNext := rfl
@[simp] theorem Dev.at_captures (d : Dev) (t : Nat) : (d.at t).captures = d.captures := rfl
@[simp] theorem Dev.at_triggers (d : Dev) (t : Nat) : (d.at t).triggers = d.triggers := rfl
@[simp] theorem Dev.at_relayIn (d : Dev) (t : Nat) : (d.at t).relayIn = d.relayIn := rfl
@[simp] theorem Dev.at_ethUp (d : Dev) (t : Nat) : (d.at t).ethUp = d.ethUp := rfl
@[simp] theorem Dev.at_laneTests (d : Dev) (t : Nat) : (d.at t).laneTests = d.laneTests := rfl
@[simp] theorem Dev.at_tap (d : Dev) (t : Nat) : (d.at t).tap = d.tap := rfl
@[simp] theorem Dev.at_flash (d : Dev) (t : Nat) : (d.at t).flash = d.flash := rfl
@[simp] theorem Dev.at_larderOut (d : Dev) (t : Nat) : (d.at t).larderOut = d.larderOut := rfl
@[simp] theorem Dev.at_wayOut (d : Dev) (t : Nat) : (d.at t).wayOut = d.wayOut := rfl
/-! ### `Dev.setPot` -/
@[simp] theorem Dev.setPot_freeCtr (d : Dev) (k : Nat) (x : Pot) : (d.setPot k x).freeCtr = d.freeCtr := rfl
@[simp] theorem Dev.setPot_out (d : Dev) (k : Nat) (x : Pot) : (d.setPot k x).out = d.out := rfl
@[simp] theorem Dev.setPot_now (d : Dev) (k : Nat) (x : Pot) : (d.setPot k x).now = d.now := rfl
@[simp] theorem Dev.setPot_regs (d : Dev) (k : Nat) (x : Pot) : (d.setPot k x).regs = d.regs := rfl
@[simp] theorem Dev.setPot_latches (d : Dev) (k : Nat) (x : Pot) : (d.setPot k x).latches = d.latches := rfl
@[simp] theorem Dev.setPot_stagedWords (d : Dev) (k : Nat) (x : Pot) : (d.setPot k x).stagedWords = d.stagedWords := rfl
@[simp] theorem Dev.setPot_cellar (d : Dev) (k : Nat) (x : Pot) : (d.setPot k x).cellar = d.cellar := rfl
@[simp] theorem Dev.setPot_hostMem (d : Dev) (k : Nat) (x : Pot) : (d.setPot k x).hostMem = d.hostMem := rfl
@[simp] theorem Dev.setPot_groups (d : Dev) (k : Nat) (x : Pot) : (d.setPot k x).groups = d.groups := rfl
@[simp] theorem Dev.setPot_funcs (d : Dev) (k : Nat) (x : Pot) : (d.setPot k x).funcs = d.funcs := rfl
@[simp] theorem Dev.setPot_ctxs (d : Dev) (k : Nat) (x : Pot) : (d.setPot k x).ctxs = d.ctxs := rfl
@[simp] theorem Dev.setPot_queues (d : Dev) (k : Nat) (x : Pot) : (d.setPot k x).queues = d.queues := rfl
@[simp] theorem Dev.setPot_events (d : Dev) (k : Nat) (x : Pot) : (d.setPot k x).events = d.events := rfl
@[simp] theorem Dev.setPot_cmds (d : Dev) (k : Nat) (x : Pot) : (d.setPot k x).cmds = d.cmds := rfl
@[simp] theorem Dev.setPot_hoops (d : Dev) (k : Nat) (x : Pot) : (d.setPot k x).hoops = d.hoops := rfl
@[simp] theorem Dev.setPot_dmaCh (d : Dev) (k : Nat) (x : Pot) : (d.setPot k x).dmaCh = d.dmaCh := rfl
@[simp] theorem Dev.setPot_keys (d : Dev) (k : Nat) (x : Pot) : (d.setPot k x).keys = d.keys := rfl
@[simp] theorem Dev.setPot_cmdSeq (d : Dev) (k : Nat) (x : Pot) : (d.setPot k x).cmdSeq = d.cmdSeq := rfl
@[simp] theorem Dev.setPot_pantry (d : Dev) (k : Nat) (x : Pot) : (d.setPot k x).pantry = d.pantry := rfl
@[simp] theorem Dev.setPot_tiles (d : Dev) (k : Nat) (x : Pot) : (d.setPot k x).tiles = d.tiles := rfl
@[simp] theorem Dev.setPot_sats (d : Dev) (k : Nat) (x : Pot) : (d.setPot k x).sats = d.sats := rfl
@[simp] theorem Dev.setPot_lsts (d : Dev) (k : Nat) (x : Pot) : (d.setPot k x).lsts = d.lsts := rfl
@[simp] theorem Dev.setPot_fences (d : Dev) (k : Nat) (x : Pot) : (d.setPot k x).fences = d.fences := rfl
@[simp] theorem Dev.setPot_darners (d : Dev) (k : Nat) (x : Pot) : (d.setPot k x).darners = d.darners := rfl
@[simp] theorem Dev.setPot_mc (d : Dev) (k : Nat) (x : Pot) : (d.setPot k x).mc = d.mc := rfl
@[simp] theorem Dev.setPot_mcLookups (d : Dev) (k : Nat) (x : Pot) : (d.setPot k x).mcLookups = d.mcLookups := rfl
@[simp] theorem Dev.setPot_sec (d : Dev) (k : Nat) (x : Pot) : (d.setPot k x).sec = d.sec := rfl
@[simp] theorem Dev.setPot_batt (d : Dev) (k : Nat) (x : Pot) : (d.setPot k x).batt = d.batt := rfl
@[simp] theorem Dev.setPot_dbg (d : Dev) (k : Nat) (x : Pot) : (d.setPot k x).dbg = d.dbg := rfl
@[simp] theorem Dev.setPot_lc (d : Dev) (k : Nat) (x : Pot) : (d.setPot k x).lc = d.lc := rfl
@[simp] theorem Dev.setPot_ras (d : Dev) (k : Nat) (x : Pot) : (d.setPot k x).ras = d.ras := rfl
@[simp] theorem Dev.setPot_aon (d : Dev) (k : Nat) (x : Pot) : (d.setPot k x).aon = d.aon := rfl
@[simp] theorem Dev.setPot_retireQ (d : Dev) (k : Nat) (x : Pot) : (d.setPot k x).retireQ = d.retireQ := rfl
@[simp] theorem Dev.setPot_therm (d : Dev) (k : Nat) (x : Pot) : (d.setPot k x).therm = d.therm := rfl
@[simp] theorem Dev.setPot_dmaTurns (d : Dev) (k : Nat) (x : Pot) : (d.setPot k x).dmaTurns = d.dmaTurns := rfl
@[simp] theorem Dev.setPot_dmaTurn (d : Dev) (k : Nat) (x : Pot) : (d.setPot k x).dmaTurn = d.dmaTurn := rfl
@[simp] theorem Dev.setPot_vfEnable (d : Dev) (k : Nat) (x : Pot) : (d.setPot k x).vfEnable = d.vfEnable := rfl
@[simp] theorem Dev.setPot_numVfs (d : Dev) (k : Nat) (x : Pot) : (d.setPot k x).numVfs = d.numVfs := rfl
@[simp] theorem Dev.setPot_linkInsecure (d : Dev) (k : Nat) (x : Pot) : (d.setPot k x).linkInsecure = d.linkInsecure := rfl
@[simp] theorem Dev.setPot_doeError (d : Dev) (k : Nat) (x : Pot) : (d.setPot k x).doeError = d.doeError := rfl
@[simp] theorem Dev.setPot_ports (d : Dev) (k : Nat) (x : Pot) : (d.setPot k x).ports = d.ports := rfl
@[simp] theorem Dev.setPot_fab (d : Dev) (k : Nat) (x : Pot) : (d.setPot k x).fab = d.fab := rfl
@[simp] theorem Dev.setPot_groupTab (d : Dev) (k : Nat) (x : Pot) : (d.setPot k x).groupTab = d.groupTab := rfl
@[simp] theorem Dev.setPot_sessions (d : Dev) (k : Nat) (x : Pot) : (d.setPot k x).sessions = d.sessions := rfl
@[simp] theorem Dev.setPot_ios (d : Dev) (k : Nat) (x : Pot) : (d.setPot k x).ios = d.ios := rfl
@[simp] theorem Dev.setPot_rkeyNext (d : Dev) (k : Nat) (x : Pot) : (d.setPot k x).rkeyNext = d.rkeyNext := rfl
@[simp] theorem Dev.setPot_captures (d : Dev) (k : Nat) (x : Pot) : (d.setPot k x).captures = d.captures := rfl
@[simp] theorem Dev.setPot_triggers (d : Dev) (k : Nat) (x : Pot) : (d.setPot k x).triggers = d.triggers := rfl
@[simp] theorem Dev.setPot_relayIn (d : Dev) (k : Nat) (x : Pot) : (d.setPot k x).relayIn = d.relayIn := rfl
@[simp] theorem Dev.setPot_ethUp (d : Dev) (k : Nat) (x : Pot) : (d.setPot k x).ethUp = d.ethUp := rfl
@[simp] theorem Dev.setPot_laneTests (d : Dev) (k : Nat) (x : Pot) : (d.setPot k x).laneTests = d.laneTests := rfl
@[simp] theorem Dev.setPot_tap (d : Dev) (k : Nat) (x : Pot) : (d.setPot k x).tap = d.tap := rfl
@[simp] theorem Dev.setPot_flash (d : Dev) (k : Nat) (x : Pot) : (d.setPot k x).flash = d.flash := rfl
@[simp] theorem Dev.setPot_larderOut (d : Dev) (k : Nat) (x : Pot) : (d.setPot k x).larderOut = d.larderOut := rfl
@[simp] theorem Dev.setPot_wayOut (d : Dev) (k : Nat) (x : Pot) : (d.setPot k x).wayOut = d.wayOut := rfl
/-! ### `Dev.setGroup` -/
@[simp] theorem Dev.setGroup_freeCtr (d : Dev) (k : Nat) (x : Group) : (d.setGroup k x).freeCtr = d.freeCtr := rfl
@[simp] theorem Dev.setGroup_out (d : Dev) (k : Nat) (x : Group) : (d.setGroup k x).out = d.out := rfl
@[simp] theorem Dev.setGroup_now (d : Dev) (k : Nat) (x : Group) : (d.setGroup k x).now = d.now := rfl
@[simp] theorem Dev.setGroup_regs (d : Dev) (k : Nat) (x : Group) : (d.setGroup k x).regs = d.regs := rfl
@[simp] theorem Dev.setGroup_latches (d : Dev) (k : Nat) (x : Group) : (d.setGroup k x).latches = d.latches := rfl
@[simp] theorem Dev.setGroup_stagedWords (d : Dev) (k : Nat) (x : Group) : (d.setGroup k x).stagedWords = d.stagedWords := rfl
@[simp] theorem Dev.setGroup_cellar (d : Dev) (k : Nat) (x : Group) : (d.setGroup k x).cellar = d.cellar := rfl
@[simp] theorem Dev.setGroup_hostMem (d : Dev) (k : Nat) (x : Group) : (d.setGroup k x).hostMem = d.hostMem := rfl
@[simp] theorem Dev.setGroup_pot (d : Dev) (k : Nat) (x : Group) : (d.setGroup k x).pot = d.pot := rfl
@[simp] theorem Dev.setGroup_funcs (d : Dev) (k : Nat) (x : Group) : (d.setGroup k x).funcs = d.funcs := rfl
@[simp] theorem Dev.setGroup_ctxs (d : Dev) (k : Nat) (x : Group) : (d.setGroup k x).ctxs = d.ctxs := rfl
@[simp] theorem Dev.setGroup_queues (d : Dev) (k : Nat) (x : Group) : (d.setGroup k x).queues = d.queues := rfl
@[simp] theorem Dev.setGroup_events (d : Dev) (k : Nat) (x : Group) : (d.setGroup k x).events = d.events := rfl
@[simp] theorem Dev.setGroup_cmds (d : Dev) (k : Nat) (x : Group) : (d.setGroup k x).cmds = d.cmds := rfl
@[simp] theorem Dev.setGroup_hoops (d : Dev) (k : Nat) (x : Group) : (d.setGroup k x).hoops = d.hoops := rfl
@[simp] theorem Dev.setGroup_dmaCh (d : Dev) (k : Nat) (x : Group) : (d.setGroup k x).dmaCh = d.dmaCh := rfl
@[simp] theorem Dev.setGroup_keys (d : Dev) (k : Nat) (x : Group) : (d.setGroup k x).keys = d.keys := rfl
@[simp] theorem Dev.setGroup_cmdSeq (d : Dev) (k : Nat) (x : Group) : (d.setGroup k x).cmdSeq = d.cmdSeq := rfl
@[simp] theorem Dev.setGroup_pantry (d : Dev) (k : Nat) (x : Group) : (d.setGroup k x).pantry = d.pantry := rfl
@[simp] theorem Dev.setGroup_tiles (d : Dev) (k : Nat) (x : Group) : (d.setGroup k x).tiles = d.tiles := rfl
@[simp] theorem Dev.setGroup_sats (d : Dev) (k : Nat) (x : Group) : (d.setGroup k x).sats = d.sats := rfl
@[simp] theorem Dev.setGroup_lsts (d : Dev) (k : Nat) (x : Group) : (d.setGroup k x).lsts = d.lsts := rfl
@[simp] theorem Dev.setGroup_fences (d : Dev) (k : Nat) (x : Group) : (d.setGroup k x).fences = d.fences := rfl
@[simp] theorem Dev.setGroup_darners (d : Dev) (k : Nat) (x : Group) : (d.setGroup k x).darners = d.darners := rfl
@[simp] theorem Dev.setGroup_mc (d : Dev) (k : Nat) (x : Group) : (d.setGroup k x).mc = d.mc := rfl
@[simp] theorem Dev.setGroup_mcLookups (d : Dev) (k : Nat) (x : Group) : (d.setGroup k x).mcLookups = d.mcLookups := rfl
@[simp] theorem Dev.setGroup_sec (d : Dev) (k : Nat) (x : Group) : (d.setGroup k x).sec = d.sec := rfl
@[simp] theorem Dev.setGroup_batt (d : Dev) (k : Nat) (x : Group) : (d.setGroup k x).batt = d.batt := rfl
@[simp] theorem Dev.setGroup_dbg (d : Dev) (k : Nat) (x : Group) : (d.setGroup k x).dbg = d.dbg := rfl
@[simp] theorem Dev.setGroup_lc (d : Dev) (k : Nat) (x : Group) : (d.setGroup k x).lc = d.lc := rfl
@[simp] theorem Dev.setGroup_ras (d : Dev) (k : Nat) (x : Group) : (d.setGroup k x).ras = d.ras := rfl
@[simp] theorem Dev.setGroup_aon (d : Dev) (k : Nat) (x : Group) : (d.setGroup k x).aon = d.aon := rfl
@[simp] theorem Dev.setGroup_retireQ (d : Dev) (k : Nat) (x : Group) : (d.setGroup k x).retireQ = d.retireQ := rfl
@[simp] theorem Dev.setGroup_therm (d : Dev) (k : Nat) (x : Group) : (d.setGroup k x).therm = d.therm := rfl
@[simp] theorem Dev.setGroup_dmaTurns (d : Dev) (k : Nat) (x : Group) : (d.setGroup k x).dmaTurns = d.dmaTurns := rfl
@[simp] theorem Dev.setGroup_dmaTurn (d : Dev) (k : Nat) (x : Group) : (d.setGroup k x).dmaTurn = d.dmaTurn := rfl
@[simp] theorem Dev.setGroup_vfEnable (d : Dev) (k : Nat) (x : Group) : (d.setGroup k x).vfEnable = d.vfEnable := rfl
@[simp] theorem Dev.setGroup_numVfs (d : Dev) (k : Nat) (x : Group) : (d.setGroup k x).numVfs = d.numVfs := rfl
@[simp] theorem Dev.setGroup_linkInsecure (d : Dev) (k : Nat) (x : Group) : (d.setGroup k x).linkInsecure = d.linkInsecure := rfl
@[simp] theorem Dev.setGroup_doeError (d : Dev) (k : Nat) (x : Group) : (d.setGroup k x).doeError = d.doeError := rfl
@[simp] theorem Dev.setGroup_ports (d : Dev) (k : Nat) (x : Group) : (d.setGroup k x).ports = d.ports := rfl
@[simp] theorem Dev.setGroup_fab (d : Dev) (k : Nat) (x : Group) : (d.setGroup k x).fab = d.fab := rfl
@[simp] theorem Dev.setGroup_groupTab (d : Dev) (k : Nat) (x : Group) : (d.setGroup k x).groupTab = d.groupTab := rfl
@[simp] theorem Dev.setGroup_sessions (d : Dev) (k : Nat) (x : Group) : (d.setGroup k x).sessions = d.sessions := rfl
@[simp] theorem Dev.setGroup_ios (d : Dev) (k : Nat) (x : Group) : (d.setGroup k x).ios = d.ios := rfl
@[simp] theorem Dev.setGroup_rkeyNext (d : Dev) (k : Nat) (x : Group) : (d.setGroup k x).rkeyNext = d.rkeyNext := rfl
@[simp] theorem Dev.setGroup_captures (d : Dev) (k : Nat) (x : Group) : (d.setGroup k x).captures = d.captures := rfl
@[simp] theorem Dev.setGroup_triggers (d : Dev) (k : Nat) (x : Group) : (d.setGroup k x).triggers = d.triggers := rfl
@[simp] theorem Dev.setGroup_relayIn (d : Dev) (k : Nat) (x : Group) : (d.setGroup k x).relayIn = d.relayIn := rfl
@[simp] theorem Dev.setGroup_ethUp (d : Dev) (k : Nat) (x : Group) : (d.setGroup k x).ethUp = d.ethUp := rfl
@[simp] theorem Dev.setGroup_laneTests (d : Dev) (k : Nat) (x : Group) : (d.setGroup k x).laneTests = d.laneTests := rfl
@[simp] theorem Dev.setGroup_tap (d : Dev) (k : Nat) (x : Group) : (d.setGroup k x).tap = d.tap := rfl
@[simp] theorem Dev.setGroup_flash (d : Dev) (k : Nat) (x : Group) : (d.setGroup k x).flash = d.flash := rfl
@[simp] theorem Dev.setGroup_larderOut (d : Dev) (k : Nat) (x : Group) : (d.setGroup k x).larderOut = d.larderOut := rfl
@[simp] theorem Dev.setGroup_wayOut (d : Dev) (k : Nat) (x : Group) : (d.setGroup k x).wayOut = d.wayOut := rfl
/-! ### `Dev.setFunc` -/
@[simp] theorem Dev.setFunc_freeCtr (d : Dev) (k : Nat) (x : Func) : (d.setFunc k x).freeCtr = d.freeCtr := rfl
@[simp] theorem Dev.setFunc_out (d : Dev) (k : Nat) (x : Func) : (d.setFunc k x).out = d.out := rfl
@[simp] theorem Dev.setFunc_now (d : Dev) (k : Nat) (x : Func) : (d.setFunc k x).now = d.now := rfl
@[simp] theorem Dev.setFunc_regs (d : Dev) (k : Nat) (x : Func) : (d.setFunc k x).regs = d.regs := rfl
@[simp] theorem Dev.setFunc_latches (d : Dev) (k : Nat) (x : Func) : (d.setFunc k x).latches = d.latches := rfl
@[simp] theorem Dev.setFunc_stagedWords (d : Dev) (k : Nat) (x : Func) : (d.setFunc k x).stagedWords = d.stagedWords := rfl
@[simp] theorem Dev.setFunc_cellar (d : Dev) (k : Nat) (x : Func) : (d.setFunc k x).cellar = d.cellar := rfl
@[simp] theorem Dev.setFunc_hostMem (d : Dev) (k : Nat) (x : Func) : (d.setFunc k x).hostMem = d.hostMem := rfl
@[simp] theorem Dev.setFunc_groups (d : Dev) (k : Nat) (x : Func) : (d.setFunc k x).groups = d.groups := rfl
@[simp] theorem Dev.setFunc_pot (d : Dev) (k : Nat) (x : Func) : (d.setFunc k x).pot = d.pot := rfl
@[simp] theorem Dev.setFunc_ctxs (d : Dev) (k : Nat) (x : Func) : (d.setFunc k x).ctxs = d.ctxs := rfl
@[simp] theorem Dev.setFunc_queues (d : Dev) (k : Nat) (x : Func) : (d.setFunc k x).queues = d.queues := rfl
@[simp] theorem Dev.setFunc_events (d : Dev) (k : Nat) (x : Func) : (d.setFunc k x).events = d.events := rfl
@[simp] theorem Dev.setFunc_cmds (d : Dev) (k : Nat) (x : Func) : (d.setFunc k x).cmds = d.cmds := rfl
@[simp] theorem Dev.setFunc_hoops (d : Dev) (k : Nat) (x : Func) : (d.setFunc k x).hoops = d.hoops := rfl
@[simp] theorem Dev.setFunc_dmaCh (d : Dev) (k : Nat) (x : Func) : (d.setFunc k x).dmaCh = d.dmaCh := rfl
@[simp] theorem Dev.setFunc_keys (d : Dev) (k : Nat) (x : Func) : (d.setFunc k x).keys = d.keys := rfl
@[simp] theorem Dev.setFunc_cmdSeq (d : Dev) (k : Nat) (x : Func) : (d.setFunc k x).cmdSeq = d.cmdSeq := rfl
@[simp] theorem Dev.setFunc_pantry (d : Dev) (k : Nat) (x : Func) : (d.setFunc k x).pantry = d.pantry := rfl
@[simp] theorem Dev.setFunc_tiles (d : Dev) (k : Nat) (x : Func) : (d.setFunc k x).tiles = d.tiles := rfl
@[simp] theorem Dev.setFunc_sats (d : Dev) (k : Nat) (x : Func) : (d.setFunc k x).sats = d.sats := rfl
@[simp] theorem Dev.setFunc_lsts (d : Dev) (k : Nat) (x : Func) : (d.setFunc k x).lsts = d.lsts := rfl
@[simp] theorem Dev.setFunc_fences (d : Dev) (k : Nat) (x : Func) : (d.setFunc k x).fences = d.fences := rfl
@[simp] theorem Dev.setFunc_darners (d : Dev) (k : Nat) (x : Func) : (d.setFunc k x).darners = d.darners := rfl
@[simp] theorem Dev.setFunc_mc (d : Dev) (k : Nat) (x : Func) : (d.setFunc k x).mc = d.mc := rfl
@[simp] theorem Dev.setFunc_mcLookups (d : Dev) (k : Nat) (x : Func) : (d.setFunc k x).mcLookups = d.mcLookups := rfl
@[simp] theorem Dev.setFunc_sec (d : Dev) (k : Nat) (x : Func) : (d.setFunc k x).sec = d.sec := rfl
@[simp] theorem Dev.setFunc_batt (d : Dev) (k : Nat) (x : Func) : (d.setFunc k x).batt = d.batt := rfl
@[simp] theorem Dev.setFunc_dbg (d : Dev) (k : Nat) (x : Func) : (d.setFunc k x).dbg = d.dbg := rfl
@[simp] theorem Dev.setFunc_lc (d : Dev) (k : Nat) (x : Func) : (d.setFunc k x).lc = d.lc := rfl
@[simp] theorem Dev.setFunc_ras (d : Dev) (k : Nat) (x : Func) : (d.setFunc k x).ras = d.ras := rfl
@[simp] theorem Dev.setFunc_aon (d : Dev) (k : Nat) (x : Func) : (d.setFunc k x).aon = d.aon := rfl
@[simp] theorem Dev.setFunc_retireQ (d : Dev) (k : Nat) (x : Func) : (d.setFunc k x).retireQ = d.retireQ := rfl
@[simp] theorem Dev.setFunc_therm (d : Dev) (k : Nat) (x : Func) : (d.setFunc k x).therm = d.therm := rfl
@[simp] theorem Dev.setFunc_dmaTurns (d : Dev) (k : Nat) (x : Func) : (d.setFunc k x).dmaTurns = d.dmaTurns := rfl
@[simp] theorem Dev.setFunc_dmaTurn (d : Dev) (k : Nat) (x : Func) : (d.setFunc k x).dmaTurn = d.dmaTurn := rfl
@[simp] theorem Dev.setFunc_vfEnable (d : Dev) (k : Nat) (x : Func) : (d.setFunc k x).vfEnable = d.vfEnable := rfl
@[simp] theorem Dev.setFunc_numVfs (d : Dev) (k : Nat) (x : Func) : (d.setFunc k x).numVfs = d.numVfs := rfl
@[simp] theorem Dev.setFunc_linkInsecure (d : Dev) (k : Nat) (x : Func) : (d.setFunc k x).linkInsecure = d.linkInsecure := rfl
@[simp] theorem Dev.setFunc_doeError (d : Dev) (k : Nat) (x : Func) : (d.setFunc k x).doeError = d.doeError := rfl
@[simp] theorem Dev.setFunc_ports (d : Dev) (k : Nat) (x : Func) : (d.setFunc k x).ports = d.ports := rfl
@[simp] theorem Dev.setFunc_fab (d : Dev) (k : Nat) (x : Func) : (d.setFunc k x).fab = d.fab := rfl
@[simp] theorem Dev.setFunc_groupTab (d : Dev) (k : Nat) (x : Func) : (d.setFunc k x).groupTab = d.groupTab := rfl
@[simp] theorem Dev.setFunc_sessions (d : Dev) (k : Nat) (x : Func) : (d.setFunc k x).sessions = d.sessions := rfl
@[simp] theorem Dev.setFunc_ios (d : Dev) (k : Nat) (x : Func) : (d.setFunc k x).ios = d.ios := rfl
@[simp] theorem Dev.setFunc_rkeyNext (d : Dev) (k : Nat) (x : Func) : (d.setFunc k x).rkeyNext = d.rkeyNext := rfl
@[simp] theorem Dev.setFunc_captures (d : Dev) (k : Nat) (x : Func) : (d.setFunc k x).captures = d.captures := rfl
@[simp] theorem Dev.setFunc_triggers (d : Dev) (k : Nat) (x : Func) : (d.setFunc k x).triggers = d.triggers := rfl
@[simp] theorem Dev.setFunc_relayIn (d : Dev) (k : Nat) (x : Func) : (d.setFunc k x).relayIn = d.relayIn := rfl
@[simp] theorem Dev.setFunc_ethUp (d : Dev) (k : Nat) (x : Func) : (d.setFunc k x).ethUp = d.ethUp := rfl
@[simp] theorem Dev.setFunc_laneTests (d : Dev) (k : Nat) (x : Func) : (d.setFunc k x).laneTests = d.laneTests := rfl
@[simp] theorem Dev.setFunc_tap (d : Dev) (k : Nat) (x : Func) : (d.setFunc k x).tap = d.tap := rfl
@[simp] theorem Dev.setFunc_flash (d : Dev) (k : Nat) (x : Func) : (d.setFunc k x).flash = d.flash := rfl
@[simp] theorem Dev.setFunc_larderOut (d : Dev) (k : Nat) (x : Func) : (d.setFunc k x).larderOut = d.larderOut := rfl
@[simp] theorem Dev.setFunc_wayOut (d : Dev) (k : Nat) (x : Func) : (d.setFunc k x).wayOut = d.wayOut := rfl
/-! ### `Dev.setCtx` -/
@[simp] theorem Dev.setCtx_freeCtr (d : Dev) (k : Nat) (x : Ctx) : (d.setCtx k x).freeCtr = d.freeCtr := rfl
@[simp] theorem Dev.setCtx_out (d : Dev) (k : Nat) (x : Ctx) : (d.setCtx k x).out = d.out := rfl
@[simp] theorem Dev.setCtx_now (d : Dev) (k : Nat) (x : Ctx) : (d.setCtx k x).now = d.now := rfl
@[simp] theorem Dev.setCtx_regs (d : Dev) (k : Nat) (x : Ctx) : (d.setCtx k x).regs = d.regs := rfl
@[simp] theorem Dev.setCtx_latches (d : Dev) (k : Nat) (x : Ctx) : (d.setCtx k x).latches = d.latches := rfl
@[simp] theorem Dev.setCtx_stagedWords (d : Dev) (k : Nat) (x : Ctx) : (d.setCtx k x).stagedWords = d.stagedWords := rfl
@[simp] theorem Dev.setCtx_cellar (d : Dev) (k : Nat) (x : Ctx) : (d.setCtx k x).cellar = d.cellar := rfl
@[simp] theorem Dev.setCtx_hostMem (d : Dev) (k : Nat) (x : Ctx) : (d.setCtx k x).hostMem = d.hostMem := rfl
@[simp] theorem Dev.setCtx_groups (d : Dev) (k : Nat) (x : Ctx) : (d.setCtx k x).groups = d.groups := rfl
@[simp] theorem Dev.setCtx_pot (d : Dev) (k : Nat) (x : Ctx) : (d.setCtx k x).pot = d.pot := rfl
@[simp] theorem Dev.setCtx_funcs (d : Dev) (k : Nat) (x : Ctx) : (d.setCtx k x).funcs = d.funcs := rfl
@[simp] theorem Dev.setCtx_queues (d : Dev) (k : Nat) (x : Ctx) : (d.setCtx k x).queues = d.queues := rfl
@[simp] theorem Dev.setCtx_events (d : Dev) (k : Nat) (x : Ctx) : (d.setCtx k x).events = d.events := rfl
@[simp] theorem Dev.setCtx_cmds (d : Dev) (k : Nat) (x : Ctx) : (d.setCtx k x).cmds = d.cmds := rfl
@[simp] theorem Dev.setCtx_hoops (d : Dev) (k : Nat) (x : Ctx) : (d.setCtx k x).hoops = d.hoops := rfl
@[simp] theorem Dev.setCtx_dmaCh (d : Dev) (k : Nat) (x : Ctx) : (d.setCtx k x).dmaCh = d.dmaCh := rfl
@[simp] theorem Dev.setCtx_keys (d : Dev) (k : Nat) (x : Ctx) : (d.setCtx k x).keys = d.keys := rfl
@[simp] theorem Dev.setCtx_cmdSeq (d : Dev) (k : Nat) (x : Ctx) : (d.setCtx k x).cmdSeq = d.cmdSeq := rfl
@[simp] theorem Dev.setCtx_pantry (d : Dev) (k : Nat) (x : Ctx) : (d.setCtx k x).pantry = d.pantry := rfl
@[simp] theorem Dev.setCtx_tiles (d : Dev) (k : Nat) (x : Ctx) : (d.setCtx k x).tiles = d.tiles := rfl
@[simp] theorem Dev.setCtx_sats (d : Dev) (k : Nat) (x : Ctx) : (d.setCtx k x).sats = d.sats := rfl
@[simp] theorem Dev.setCtx_lsts (d : Dev) (k : Nat) (x : Ctx) : (d.setCtx k x).lsts = d.lsts := rfl
@[simp] theorem Dev.setCtx_fences (d : Dev) (k : Nat) (x : Ctx) : (d.setCtx k x).fences = d.fences := rfl
@[simp] theorem Dev.setCtx_darners (d : Dev) (k : Nat) (x : Ctx) : (d.setCtx k x).darners = d.darners := rfl
@[simp] theorem Dev.setCtx_mc (d : Dev) (k : Nat) (x : Ctx) : (d.setCtx k x).mc = d.mc := rfl
@[simp] theorem Dev.setCtx_mcLookups (d : Dev) (k : Nat) (x : Ctx) : (d.setCtx k x).mcLookups = d.mcLookups := rfl
@[simp] theorem Dev.setCtx_sec (d : Dev) (k : Nat) (x : Ctx) : (d.setCtx k x).sec = d.sec := rfl
@[simp] theorem Dev.setCtx_batt (d : Dev) (k : Nat) (x : Ctx) : (d.setCtx k x).batt = d.batt := rfl
@[simp] theorem Dev.setCtx_dbg (d : Dev) (k : Nat) (x : Ctx) : (d.setCtx k x).dbg = d.dbg := rfl
@[simp] theorem Dev.setCtx_lc (d : Dev) (k : Nat) (x : Ctx) : (d.setCtx k x).lc = d.lc := rfl
@[simp] theorem Dev.setCtx_ras (d : Dev) (k : Nat) (x : Ctx) : (d.setCtx k x).ras = d.ras := rfl
@[simp] theorem Dev.setCtx_aon (d : Dev) (k : Nat) (x : Ctx) : (d.setCtx k x).aon = d.aon := rfl
@[simp] theorem Dev.setCtx_retireQ (d : Dev) (k : Nat) (x : Ctx) : (d.setCtx k x).retireQ = d.retireQ := rfl
@[simp] theorem Dev.setCtx_therm (d : Dev) (k : Nat) (x : Ctx) : (d.setCtx k x).therm = d.therm := rfl
@[simp] theorem Dev.setCtx_dmaTurns (d : Dev) (k : Nat) (x : Ctx) : (d.setCtx k x).dmaTurns = d.dmaTurns := rfl
@[simp] theorem Dev.setCtx_dmaTurn (d : Dev) (k : Nat) (x : Ctx) : (d.setCtx k x).dmaTurn = d.dmaTurn := rfl
@[simp] theorem Dev.setCtx_vfEnable (d : Dev) (k : Nat) (x : Ctx) : (d.setCtx k x).vfEnable = d.vfEnable := rfl
@[simp] theorem Dev.setCtx_numVfs (d : Dev) (k : Nat) (x : Ctx) : (d.setCtx k x).numVfs = d.numVfs := rfl
@[simp] theorem Dev.setCtx_linkInsecure (d : Dev) (k : Nat) (x : Ctx) : (d.setCtx k x).linkInsecure = d.linkInsecure := rfl
@[simp] theorem Dev.setCtx_doeError (d : Dev) (k : Nat) (x : Ctx) : (d.setCtx k x).doeError = d.doeError := rfl
@[simp] theorem Dev.setCtx_ports (d : Dev) (k : Nat) (x : Ctx) : (d.setCtx k x).ports = d.ports := rfl
@[simp] theorem Dev.setCtx_fab (d : Dev) (k : Nat) (x : Ctx) : (d.setCtx k x).fab = d.fab := rfl
@[simp] theorem Dev.setCtx_groupTab (d : Dev) (k : Nat) (x : Ctx) : (d.setCtx k x).groupTab = d.groupTab := rfl
@[simp] theorem Dev.setCtx_sessions (d : Dev) (k : Nat) (x : Ctx) : (d.setCtx k x).sessions = d.sessions := rfl
@[simp] theorem Dev.setCtx_ios (d : Dev) (k : Nat) (x : Ctx) : (d.setCtx k x).ios = d.ios := rfl
@[simp] theorem Dev.setCtx_rkeyNext (d : Dev) (k : Nat) (x : Ctx) : (d.setCtx k x).rkeyNext = d.rkeyNext := rfl
@[simp] theorem Dev.setCtx_captures (d : Dev) (k : Nat) (x : Ctx) : (d.setCtx k x).captures = d.captures := rfl
@[simp] theorem Dev.setCtx_triggers (d : Dev) (k : Nat) (x : Ctx) : (d.setCtx k x).triggers = d.triggers := rfl
@[simp] theorem Dev.setCtx_relayIn (d : Dev) (k : Nat) (x : Ctx) : (d.setCtx k x).relayIn = d.relayIn := rfl
@[simp] theorem Dev.setCtx_ethUp (d : Dev) (k : Nat) (x : Ctx) : (d.setCtx k x).ethUp = d.ethUp := rfl
@[simp] theorem Dev.setCtx_laneTests (d : Dev) (k : Nat) (x : Ctx) : (d.setCtx k x).laneTests = d.laneTests := rfl
@[simp] theorem Dev.setCtx_tap (d : Dev) (k : Nat) (x : Ctx) : (d.setCtx k x).tap = d.tap := rfl
@[simp] theorem Dev.setCtx_flash (d : Dev) (k : Nat) (x : Ctx) : (d.setCtx k x).flash = d.flash := rfl
@[simp] theorem Dev.setCtx_larderOut (d : Dev) (k : Nat) (x : Ctx) : (d.setCtx k x).larderOut = d.larderOut := rfl
@[simp] theorem Dev.setCtx_wayOut (d : Dev) (k : Nat) (x : Ctx) : (d.setCtx k x).wayOut = d.wayOut := rfl
/-! ### `Dev.setQueue` -/
@[simp] theorem Dev.setQueue_freeCtr (d : Dev) (k : Nat) (x : Queue) : (d.setQueue k x).freeCtr = d.freeCtr := rfl
@[simp] theorem Dev.setQueue_out (d : Dev) (k : Nat) (x : Queue) : (d.setQueue k x).out = d.out := rfl
@[simp] theorem Dev.setQueue_now (d : Dev) (k : Nat) (x : Queue) : (d.setQueue k x).now = d.now := rfl
@[simp] theorem Dev.setQueue_regs (d : Dev) (k : Nat) (x : Queue) : (d.setQueue k x).regs = d.regs := rfl
@[simp] theorem Dev.setQueue_latches (d : Dev) (k : Nat) (x : Queue) : (d.setQueue k x).latches = d.latches := rfl
@[simp] theorem Dev.setQueue_stagedWords (d : Dev) (k : Nat) (x : Queue) : (d.setQueue k x).stagedWords = d.stagedWords := rfl
@[simp] theorem Dev.setQueue_cellar (d : Dev) (k : Nat) (x : Queue) : (d.setQueue k x).cellar = d.cellar := rfl
@[simp] theorem Dev.setQueue_hostMem (d : Dev) (k : Nat) (x : Queue) : (d.setQueue k x).hostMem = d.hostMem := rfl
@[simp] theorem Dev.setQueue_groups (d : Dev) (k : Nat) (x : Queue) : (d.setQueue k x).groups = d.groups := rfl
@[simp] theorem Dev.setQueue_pot (d : Dev) (k : Nat) (x : Queue) : (d.setQueue k x).pot = d.pot := rfl
@[simp] theorem Dev.setQueue_funcs (d : Dev) (k : Nat) (x : Queue) : (d.setQueue k x).funcs = d.funcs := rfl
@[simp] theorem Dev.setQueue_ctxs (d : Dev) (k : Nat) (x : Queue) : (d.setQueue k x).ctxs = d.ctxs := rfl
@[simp] theorem Dev.setQueue_events (d : Dev) (k : Nat) (x : Queue) : (d.setQueue k x).events = d.events := rfl
@[simp] theorem Dev.setQueue_cmds (d : Dev) (k : Nat) (x : Queue) : (d.setQueue k x).cmds = d.cmds := rfl
@[simp] theorem Dev.setQueue_hoops (d : Dev) (k : Nat) (x : Queue) : (d.setQueue k x).hoops = d.hoops := rfl
@[simp] theorem Dev.setQueue_dmaCh (d : Dev) (k : Nat) (x : Queue) : (d.setQueue k x).dmaCh = d.dmaCh := rfl
@[simp] theorem Dev.setQueue_keys (d : Dev) (k : Nat) (x : Queue) : (d.setQueue k x).keys = d.keys := rfl
@[simp] theorem Dev.setQueue_cmdSeq (d : Dev) (k : Nat) (x : Queue) : (d.setQueue k x).cmdSeq = d.cmdSeq := rfl
@[simp] theorem Dev.setQueue_pantry (d : Dev) (k : Nat) (x : Queue) : (d.setQueue k x).pantry = d.pantry := rfl
@[simp] theorem Dev.setQueue_tiles (d : Dev) (k : Nat) (x : Queue) : (d.setQueue k x).tiles = d.tiles := rfl
@[simp] theorem Dev.setQueue_sats (d : Dev) (k : Nat) (x : Queue) : (d.setQueue k x).sats = d.sats := rfl
@[simp] theorem Dev.setQueue_lsts (d : Dev) (k : Nat) (x : Queue) : (d.setQueue k x).lsts = d.lsts := rfl
@[simp] theorem Dev.setQueue_fences (d : Dev) (k : Nat) (x : Queue) : (d.setQueue k x).fences = d.fences := rfl
@[simp] theorem Dev.setQueue_darners (d : Dev) (k : Nat) (x : Queue) : (d.setQueue k x).darners = d.darners := rfl
@[simp] theorem Dev.setQueue_mc (d : Dev) (k : Nat) (x : Queue) : (d.setQueue k x).mc = d.mc := rfl
@[simp] theorem Dev.setQueue_mcLookups (d : Dev) (k : Nat) (x : Queue) : (d.setQueue k x).mcLookups = d.mcLookups := rfl
@[simp] theorem Dev.setQueue_sec (d : Dev) (k : Nat) (x : Queue) : (d.setQueue k x).sec = d.sec := rfl
@[simp] theorem Dev.setQueue_batt (d : Dev) (k : Nat) (x : Queue) : (d.setQueue k x).batt = d.batt := rfl
@[simp] theorem Dev.setQueue_dbg (d : Dev) (k : Nat) (x : Queue) : (d.setQueue k x).dbg = d.dbg := rfl
@[simp] theorem Dev.setQueue_lc (d : Dev) (k : Nat) (x : Queue) : (d.setQueue k x).lc = d.lc := rfl
@[simp] theorem Dev.setQueue_ras (d : Dev) (k : Nat) (x : Queue) : (d.setQueue k x).ras = d.ras := rfl
@[simp] theorem Dev.setQueue_aon (d : Dev) (k : Nat) (x : Queue) : (d.setQueue k x).aon = d.aon := rfl
@[simp] theorem Dev.setQueue_retireQ (d : Dev) (k : Nat) (x : Queue) : (d.setQueue k x).retireQ = d.retireQ := rfl
@[simp] theorem Dev.setQueue_therm (d : Dev) (k : Nat) (x : Queue) : (d.setQueue k x).therm = d.therm := rfl
@[simp] theorem Dev.setQueue_dmaTurns (d : Dev) (k : Nat) (x : Queue) : (d.setQueue k x).dmaTurns = d.dmaTurns := rfl
@[simp] theorem Dev.setQueue_dmaTurn (d : Dev) (k : Nat) (x : Queue) : (d.setQueue k x).dmaTurn = d.dmaTurn := rfl
@[simp] theorem Dev.setQueue_vfEnable (d : Dev) (k : Nat) (x : Queue) : (d.setQueue k x).vfEnable = d.vfEnable := rfl
@[simp] theorem Dev.setQueue_numVfs (d : Dev) (k : Nat) (x : Queue) : (d.setQueue k x).numVfs = d.numVfs := rfl
@[simp] theorem Dev.setQueue_linkInsecure (d : Dev) (k : Nat) (x : Queue) : (d.setQueue k x).linkInsecure = d.linkInsecure := rfl
@[simp] theorem Dev.setQueue_doeError (d : Dev) (k : Nat) (x : Queue) : (d.setQueue k x).doeError = d.doeError := rfl
@[simp] theorem Dev.setQueue_ports (d : Dev) (k : Nat) (x : Queue) : (d.setQueue k x).ports = d.ports := rfl
@[simp] theorem Dev.setQueue_fab (d : Dev) (k : Nat) (x : Queue) : (d.setQueue k x).fab = d.fab := rfl
@[simp] theorem Dev.setQueue_groupTab (d : Dev) (k : Nat) (x : Queue) : (d.setQueue k x).groupTab = d.groupTab := rfl
@[simp] theorem Dev.setQueue_sessions (d : Dev) (k : Nat) (x : Queue) : (d.setQueue k x).sessions = d.sessions := rfl
@[simp] theorem Dev.setQueue_ios (d : Dev) (k : Nat) (x : Queue) : (d.setQueue k x).ios = d.ios := rfl
@[simp] theorem Dev.setQueue_rkeyNext (d : Dev) (k : Nat) (x : Queue) : (d.setQueue k x).rkeyNext = d.rkeyNext := rfl
@[simp] theorem Dev.setQueue_captures (d : Dev) (k : Nat) (x : Queue) : (d.setQueue k x).captures = d.captures := rfl
@[simp] theorem Dev.setQueue_triggers (d : Dev) (k : Nat) (x : Queue) : (d.setQueue k x).triggers = d.triggers := rfl
@[simp] theorem Dev.setQueue_relayIn (d : Dev) (k : Nat) (x : Queue) : (d.setQueue k x).relayIn = d.relayIn := rfl
@[simp] theorem Dev.setQueue_ethUp (d : Dev) (k : Nat) (x : Queue) : (d.setQueue k x).ethUp = d.ethUp := rfl
@[simp] theorem Dev.setQueue_laneTests (d : Dev) (k : Nat) (x : Queue) : (d.setQueue k x).laneTests = d.laneTests := rfl
@[simp] theorem Dev.setQueue_tap (d : Dev) (k : Nat) (x : Queue) : (d.setQueue k x).tap = d.tap := rfl
@[simp] theorem Dev.setQueue_flash (d : Dev) (k : Nat) (x : Queue) : (d.setQueue k x).flash = d.flash := rfl
@[simp] theorem Dev.setQueue_larderOut (d : Dev) (k : Nat) (x : Queue) : (d.setQueue k x).larderOut = d.larderOut := rfl
@[simp] theorem Dev.setQueue_wayOut (d : Dev) (k : Nat) (x : Queue) : (d.setQueue k x).wayOut = d.wayOut := rfl
/-! ### `Dev.setEvt` -/
@[simp] theorem Dev.setEvt_freeCtr (d : Dev) (k : Nat) (x : Event) : (d.setEvt k x).freeCtr = d.freeCtr := rfl
@[simp] theorem Dev.setEvt_out (d : Dev) (k : Nat) (x : Event) : (d.setEvt k x).out = d.out := rfl
@[simp] theorem Dev.setEvt_now (d : Dev) (k : Nat) (x : Event) : (d.setEvt k x).now = d.now := rfl
@[simp] theorem Dev.setEvt_regs (d : Dev) (k : Nat) (x : Event) : (d.setEvt k x).regs = d.regs := rfl
@[simp] theorem Dev.setEvt_latches (d : Dev) (k : Nat) (x : Event) : (d.setEvt k x).latches = d.latches := rfl
@[simp] theorem Dev.setEvt_stagedWords (d : Dev) (k : Nat) (x : Event) : (d.setEvt k x).stagedWords = d.stagedWords := rfl
@[simp] theorem Dev.setEvt_cellar (d : Dev) (k : Nat) (x : Event) : (d.setEvt k x).cellar = d.cellar := rfl
@[simp] theorem Dev.setEvt_hostMem (d : Dev) (k : Nat) (x : Event) : (d.setEvt k x).hostMem = d.hostMem := rfl
@[simp] theorem Dev.setEvt_groups (d : Dev) (k : Nat) (x : Event) : (d.setEvt k x).groups = d.groups := rfl
@[simp] theorem Dev.setEvt_pot (d : Dev) (k : Nat) (x : Event) : (d.setEvt k x).pot = d.pot := rfl
@[simp] theorem Dev.setEvt_funcs (d : Dev) (k : Nat) (x : Event) : (d.setEvt k x).funcs = d.funcs := rfl
@[simp] theorem Dev.setEvt_ctxs (d : Dev) (k : Nat) (x : Event) : (d.setEvt k x).ctxs = d.ctxs := rfl
@[simp] theorem Dev.setEvt_queues (d : Dev) (k : Nat) (x : Event) : (d.setEvt k x).queues = d.queues := rfl
@[simp] theorem Dev.setEvt_cmds (d : Dev) (k : Nat) (x : Event) : (d.setEvt k x).cmds = d.cmds := rfl
@[simp] theorem Dev.setEvt_hoops (d : Dev) (k : Nat) (x : Event) : (d.setEvt k x).hoops = d.hoops := rfl
@[simp] theorem Dev.setEvt_dmaCh (d : Dev) (k : Nat) (x : Event) : (d.setEvt k x).dmaCh = d.dmaCh := rfl
@[simp] theorem Dev.setEvt_keys (d : Dev) (k : Nat) (x : Event) : (d.setEvt k x).keys = d.keys := rfl
@[simp] theorem Dev.setEvt_cmdSeq (d : Dev) (k : Nat) (x : Event) : (d.setEvt k x).cmdSeq = d.cmdSeq := rfl
@[simp] theorem Dev.setEvt_pantry (d : Dev) (k : Nat) (x : Event) : (d.setEvt k x).pantry = d.pantry := rfl
@[simp] theorem Dev.setEvt_tiles (d : Dev) (k : Nat) (x : Event) : (d.setEvt k x).tiles = d.tiles := rfl
@[simp] theorem Dev.setEvt_sats (d : Dev) (k : Nat) (x : Event) : (d.setEvt k x).sats = d.sats := rfl
@[simp] theorem Dev.setEvt_lsts (d : Dev) (k : Nat) (x : Event) : (d.setEvt k x).lsts = d.lsts := rfl
@[simp] theorem Dev.setEvt_fences (d : Dev) (k : Nat) (x : Event) : (d.setEvt k x).fences = d.fences := rfl
@[simp] theorem Dev.setEvt_darners (d : Dev) (k : Nat) (x : Event) : (d.setEvt k x).darners = d.darners := rfl
@[simp] theorem Dev.setEvt_mc (d : Dev) (k : Nat) (x : Event) : (d.setEvt k x).mc = d.mc := rfl
@[simp] theorem Dev.setEvt_mcLookups (d : Dev) (k : Nat) (x : Event) : (d.setEvt k x).mcLookups = d.mcLookups := rfl
@[simp] theorem Dev.setEvt_sec (d : Dev) (k : Nat) (x : Event) : (d.setEvt k x).sec = d.sec := rfl
@[simp] theorem Dev.setEvt_batt (d : Dev) (k : Nat) (x : Event) : (d.setEvt k x).batt = d.batt := rfl
@[simp] theorem Dev.setEvt_dbg (d : Dev) (k : Nat) (x : Event) : (d.setEvt k x).dbg = d.dbg := rfl
@[simp] theorem Dev.setEvt_lc (d : Dev) (k : Nat) (x : Event) : (d.setEvt k x).lc = d.lc := rfl
@[simp] theorem Dev.setEvt_ras (d : Dev) (k : Nat) (x : Event) : (d.setEvt k x).ras = d.ras := rfl
@[simp] theorem Dev.setEvt_aon (d : Dev) (k : Nat) (x : Event) : (d.setEvt k x).aon = d.aon := rfl
@[simp] theorem Dev.setEvt_retireQ (d : Dev) (k : Nat) (x : Event) : (d.setEvt k x).retireQ = d.retireQ := rfl
@[simp] theorem Dev.setEvt_therm (d : Dev) (k : Nat) (x : Event) : (d.setEvt k x).therm = d.therm := rfl
@[simp] theorem Dev.setEvt_dmaTurns (d : Dev) (k : Nat) (x : Event) : (d.setEvt k x).dmaTurns = d.dmaTurns := rfl
@[simp] theorem Dev.setEvt_dmaTurn (d : Dev) (k : Nat) (x : Event) : (d.setEvt k x).dmaTurn = d.dmaTurn := rfl
@[simp] theorem Dev.setEvt_vfEnable (d : Dev) (k : Nat) (x : Event) : (d.setEvt k x).vfEnable = d.vfEnable := rfl
@[simp] theorem Dev.setEvt_numVfs (d : Dev) (k : Nat) (x : Event) : (d.setEvt k x).numVfs = d.numVfs := rfl
@[simp] theorem Dev.setEvt_linkInsecure (d : Dev) (k : Nat) (x : Event) : (d.setEvt k x).linkInsecure = d.linkInsecure := rfl
@[simp] theorem Dev.setEvt_doeError (d : Dev) (k : Nat) (x : Event) : (d.setEvt k x).doeError = d.doeError := rfl
@[simp] theorem Dev.setEvt_ports (d : Dev) (k : Nat) (x : Event) : (d.setEvt k x).ports = d.ports := rfl
@[simp] theorem Dev.setEvt_fab (d : Dev) (k : Nat) (x : Event) : (d.setEvt k x).fab = d.fab := rfl
@[simp] theorem Dev.setEvt_groupTab (d : Dev) (k : Nat) (x : Event) : (d.setEvt k x).groupTab = d.groupTab := rfl
@[simp] theorem Dev.setEvt_sessions (d : Dev) (k : Nat) (x : Event) : (d.setEvt k x).sessions = d.sessions := rfl
@[simp] theorem Dev.setEvt_ios (d : Dev) (k : Nat) (x : Event) : (d.setEvt k x).ios = d.ios := rfl
@[simp] theorem Dev.setEvt_rkeyNext (d : Dev) (k : Nat) (x : Event) : (d.setEvt k x).rkeyNext = d.rkeyNext := rfl
@[simp] theorem Dev.setEvt_captures (d : Dev) (k : Nat) (x : Event) : (d.setEvt k x).captures = d.captures := rfl
@[simp] theorem Dev.setEvt_triggers (d : Dev) (k : Nat) (x : Event) : (d.setEvt k x).triggers = d.triggers := rfl
@[simp] theorem Dev.setEvt_relayIn (d : Dev) (k : Nat) (x : Event) : (d.setEvt k x).relayIn = d.relayIn := rfl
@[simp] theorem Dev.setEvt_ethUp (d : Dev) (k : Nat) (x : Event) : (d.setEvt k x).ethUp = d.ethUp := rfl
@[simp] theorem Dev.setEvt_laneTests (d : Dev) (k : Nat) (x : Event) : (d.setEvt k x).laneTests = d.laneTests := rfl
@[simp] theorem Dev.setEvt_tap (d : Dev) (k : Nat) (x : Event) : (d.setEvt k x).tap = d.tap := rfl
@[simp] theorem Dev.setEvt_flash (d : Dev) (k : Nat) (x : Event) : (d.setEvt k x).flash = d.flash := rfl
@[simp] theorem Dev.setEvt_larderOut (d : Dev) (k : Nat) (x : Event) : (d.setEvt k x).larderOut = d.larderOut := rfl
@[simp] theorem Dev.setEvt_wayOut (d : Dev) (k : Nat) (x : Event) : (d.setEvt k x).wayOut = d.wayOut := rfl
/-! ### `Dev.setCmd` -/
@[simp] theorem Dev.setCmd_freeCtr (d : Dev) (k : Nat) (x : Cmd) : (d.setCmd k x).freeCtr = d.freeCtr := rfl
@[simp] theorem Dev.setCmd_out (d : Dev) (k : Nat) (x : Cmd) : (d.setCmd k x).out = d.out := rfl
@[simp] theorem Dev.setCmd_now (d : Dev) (k : Nat) (x : Cmd) : (d.setCmd k x).now = d.now := rfl
@[simp] theorem Dev.setCmd_regs (d : Dev) (k : Nat) (x : Cmd) : (d.setCmd k x).regs = d.regs := rfl
@[simp] theorem Dev.setCmd_latches (d : Dev) (k : Nat) (x : Cmd) : (d.setCmd k x).latches = d.latches := rfl
@[simp] theorem Dev.setCmd_stagedWords (d : Dev) (k : Nat) (x : Cmd) : (d.setCmd k x).stagedWords = d.stagedWords := rfl
@[simp] theorem Dev.setCmd_cellar (d : Dev) (k : Nat) (x : Cmd) : (d.setCmd k x).cellar = d.cellar := rfl
@[simp] theorem Dev.setCmd_hostMem (d : Dev) (k : Nat) (x : Cmd) : (d.setCmd k x).hostMem = d.hostMem := rfl
@[simp] theorem Dev.setCmd_groups (d : Dev) (k : Nat) (x : Cmd) : (d.setCmd k x).groups = d.groups := rfl
@[simp] theorem Dev.setCmd_pot (d : Dev) (k : Nat) (x : Cmd) : (d.setCmd k x).pot = d.pot := rfl
@[simp] theorem Dev.setCmd_funcs (d : Dev) (k : Nat) (x : Cmd) : (d.setCmd k x).funcs = d.funcs := rfl
@[simp] theorem Dev.setCmd_ctxs (d : Dev) (k : Nat) (x : Cmd) : (d.setCmd k x).ctxs = d.ctxs := rfl
@[simp] theorem Dev.setCmd_queues (d : Dev) (k : Nat) (x : Cmd) : (d.setCmd k x).queues = d.queues := rfl
@[simp] theorem Dev.setCmd_events (d : Dev) (k : Nat) (x : Cmd) : (d.setCmd k x).events = d.events := rfl
@[simp] theorem Dev.setCmd_hoops (d : Dev) (k : Nat) (x : Cmd) : (d.setCmd k x).hoops = d.hoops := rfl
@[simp] theorem Dev.setCmd_dmaCh (d : Dev) (k : Nat) (x : Cmd) : (d.setCmd k x).dmaCh = d.dmaCh := rfl
@[simp] theorem Dev.setCmd_keys (d : Dev) (k : Nat) (x : Cmd) : (d.setCmd k x).keys = d.keys := rfl
@[simp] theorem Dev.setCmd_cmdSeq (d : Dev) (k : Nat) (x : Cmd) : (d.setCmd k x).cmdSeq = d.cmdSeq := rfl
@[simp] theorem Dev.setCmd_pantry (d : Dev) (k : Nat) (x : Cmd) : (d.setCmd k x).pantry = d.pantry := rfl
@[simp] theorem Dev.setCmd_tiles (d : Dev) (k : Nat) (x : Cmd) : (d.setCmd k x).tiles = d.tiles := rfl
@[simp] theorem Dev.setCmd_sats (d : Dev) (k : Nat) (x : Cmd) : (d.setCmd k x).sats = d.sats := rfl
@[simp] theorem Dev.setCmd_lsts (d : Dev) (k : Nat) (x : Cmd) : (d.setCmd k x).lsts = d.lsts := rfl
@[simp] theorem Dev.setCmd_fences (d : Dev) (k : Nat) (x : Cmd) : (d.setCmd k x).fences = d.fences := rfl
@[simp] theorem Dev.setCmd_darners (d : Dev) (k : Nat) (x : Cmd) : (d.setCmd k x).darners = d.darners := rfl
@[simp] theorem Dev.setCmd_mc (d : Dev) (k : Nat) (x : Cmd) : (d.setCmd k x).mc = d.mc := rfl
@[simp] theorem Dev.setCmd_mcLookups (d : Dev) (k : Nat) (x : Cmd) : (d.setCmd k x).mcLookups = d.mcLookups := rfl
@[simp] theorem Dev.setCmd_sec (d : Dev) (k : Nat) (x : Cmd) : (d.setCmd k x).sec = d.sec := rfl
@[simp] theorem Dev.setCmd_batt (d : Dev) (k : Nat) (x : Cmd) : (d.setCmd k x).batt = d.batt := rfl
@[simp] theorem Dev.setCmd_dbg (d : Dev) (k : Nat) (x : Cmd) : (d.setCmd k x).dbg = d.dbg := rfl
@[simp] theorem Dev.setCmd_lc (d : Dev) (k : Nat) (x : Cmd) : (d.setCmd k x).lc = d.lc := rfl
@[simp] theorem Dev.setCmd_ras (d : Dev) (k : Nat) (x : Cmd) : (d.setCmd k x).ras = d.ras := rfl
@[simp] theorem Dev.setCmd_aon (d : Dev) (k : Nat) (x : Cmd) : (d.setCmd k x).aon = d.aon := rfl
@[simp] theorem Dev.setCmd_retireQ (d : Dev) (k : Nat) (x : Cmd) : (d.setCmd k x).retireQ = d.retireQ := rfl
@[simp] theorem Dev.setCmd_therm (d : Dev) (k : Nat) (x : Cmd) : (d.setCmd k x).therm = d.therm := rfl
@[simp] theorem Dev.setCmd_dmaTurns (d : Dev) (k : Nat) (x : Cmd) : (d.setCmd k x).dmaTurns = d.dmaTurns := rfl
@[simp] theorem Dev.setCmd_dmaTurn (d : Dev) (k : Nat) (x : Cmd) : (d.setCmd k x).dmaTurn = d.dmaTurn := rfl
@[simp] theorem Dev.setCmd_vfEnable (d : Dev) (k : Nat) (x : Cmd) : (d.setCmd k x).vfEnable = d.vfEnable := rfl
@[simp] theorem Dev.setCmd_numVfs (d : Dev) (k : Nat) (x : Cmd) : (d.setCmd k x).numVfs = d.numVfs := rfl
@[simp] theorem Dev.setCmd_linkInsecure (d : Dev) (k : Nat) (x : Cmd) : (d.setCmd k x).linkInsecure = d.linkInsecure := rfl
@[simp] theorem Dev.setCmd_doeError (d : Dev) (k : Nat) (x : Cmd) : (d.setCmd k x).doeError = d.doeError := rfl
@[simp] theorem Dev.setCmd_ports (d : Dev) (k : Nat) (x : Cmd) : (d.setCmd k x).ports = d.ports := rfl
@[simp] theorem Dev.setCmd_fab (d : Dev) (k : Nat) (x : Cmd) : (d.setCmd k x).fab = d.fab := rfl
@[simp] theorem Dev.setCmd_groupTab (d : Dev) (k : Nat) (x : Cmd) : (d.setCmd k x).groupTab = d.groupTab := rfl
@[simp] theorem Dev.setCmd_sessions (d : Dev) (k : Nat) (x : Cmd) : (d.setCmd k x).sessions = d.sessions := rfl
@[simp] theorem Dev.setCmd_ios (d : Dev) (k : Nat) (x : Cmd) : (d.setCmd k x).ios = d.ios := rfl
@[simp] theorem Dev.setCmd_rkeyNext (d : Dev) (k : Nat) (x : Cmd) : (d.setCmd k x).rkeyNext = d.rkeyNext := rfl
@[simp] theorem Dev.setCmd_captures (d : Dev) (k : Nat) (x : Cmd) : (d.setCmd k x).captures = d.captures := rfl
@[simp] theorem Dev.setCmd_triggers (d : Dev) (k : Nat) (x : Cmd) : (d.setCmd k x).triggers = d.triggers := rfl
@[simp] theorem Dev.setCmd_relayIn (d : Dev) (k : Nat) (x : Cmd) : (d.setCmd k x).relayIn = d.relayIn := rfl
@[simp] theorem Dev.setCmd_ethUp (d : Dev) (k : Nat) (x : Cmd) : (d.setCmd k x).ethUp = d.ethUp := rfl
@[simp] theorem Dev.setCmd_laneTests (d : Dev) (k : Nat) (x : Cmd) : (d.setCmd k x).laneTests = d.laneTests := rfl
@[simp] theorem Dev.setCmd_tap (d : Dev) (k : Nat) (x : Cmd) : (d.setCmd k x).tap = d.tap := rfl
@[simp] theorem Dev.setCmd_flash (d : Dev) (k : Nat) (x : Cmd) : (d.setCmd k x).flash = d.flash := rfl
@[simp] theorem Dev.setCmd_larderOut (d : Dev) (k : Nat) (x : Cmd) : (d.setCmd k x).larderOut = d.larderOut := rfl
@[simp] theorem Dev.setCmd_wayOut (d : Dev) (k : Nat) (x : Cmd) : (d.setCmd k x).wayOut = d.wayOut := rfl
/-! ### `Dev.setHoop` -/
@[simp] theorem Dev.setHoop_freeCtr (d : Dev) (k : Nat) (x : Hoop) : (d.setHoop k x).freeCtr = d.freeCtr := rfl
@[simp] theorem Dev.setHoop_out (d : Dev) (k : Nat) (x : Hoop) : (d.setHoop k x).out = d.out := rfl
@[simp] theorem Dev.setHoop_now (d : Dev) (k : Nat) (x : Hoop) : (d.setHoop k x).now = d.now := rfl
@[simp] theorem Dev.setHoop_regs (d : Dev) (k : Nat) (x : Hoop) : (d.setHoop k x).regs = d.regs := rfl
@[simp] theorem Dev.setHoop_latches (d : Dev) (k : Nat) (x : Hoop) : (d.setHoop k x).latches = d.latches := rfl
@[simp] theorem Dev.setHoop_stagedWords (d : Dev) (k : Nat) (x : Hoop) : (d.setHoop k x).stagedWords = d.stagedWords := rfl
@[simp] theorem Dev.setHoop_cellar (d : Dev) (k : Nat) (x : Hoop) : (d.setHoop k x).cellar = d.cellar := rfl
@[simp] theorem Dev.setHoop_hostMem (d : Dev) (k : Nat) (x : Hoop) : (d.setHoop k x).hostMem = d.hostMem := rfl
@[simp] theorem Dev.setHoop_groups (d : Dev) (k : Nat) (x : Hoop) : (d.setHoop k x).groups = d.groups := rfl
@[simp] theorem Dev.setHoop_pot (d : Dev) (k : Nat) (x : Hoop) : (d.setHoop k x).pot = d.pot := rfl
@[simp] theorem Dev.setHoop_funcs (d : Dev) (k : Nat) (x : Hoop) : (d.setHoop k x).funcs = d.funcs := rfl
@[simp] theorem Dev.setHoop_ctxs (d : Dev) (k : Nat) (x : Hoop) : (d.setHoop k x).ctxs = d.ctxs := rfl
@[simp] theorem Dev.setHoop_queues (d : Dev) (k : Nat) (x : Hoop) : (d.setHoop k x).queues = d.queues := rfl
@[simp] theorem Dev.setHoop_events (d : Dev) (k : Nat) (x : Hoop) : (d.setHoop k x).events = d.events := rfl
@[simp] theorem Dev.setHoop_cmds (d : Dev) (k : Nat) (x : Hoop) : (d.setHoop k x).cmds = d.cmds := rfl
@[simp] theorem Dev.setHoop_dmaCh (d : Dev) (k : Nat) (x : Hoop) : (d.setHoop k x).dmaCh = d.dmaCh := rfl
@[simp] theorem Dev.setHoop_keys (d : Dev) (k : Nat) (x : Hoop) : (d.setHoop k x).keys = d.keys := rfl
@[simp] theorem Dev.setHoop_cmdSeq (d : Dev) (k : Nat) (x : Hoop) : (d.setHoop k x).cmdSeq = d.cmdSeq := rfl
@[simp] theorem Dev.setHoop_pantry (d : Dev) (k : Nat) (x : Hoop) : (d.setHoop k x).pantry = d.pantry := rfl
@[simp] theorem Dev.setHoop_tiles (d : Dev) (k : Nat) (x : Hoop) : (d.setHoop k x).tiles = d.tiles := rfl
@[simp] theorem Dev.setHoop_sats (d : Dev) (k : Nat) (x : Hoop) : (d.setHoop k x).sats = d.sats := rfl
@[simp] theorem Dev.setHoop_lsts (d : Dev) (k : Nat) (x : Hoop) : (d.setHoop k x).lsts = d.lsts := rfl
@[simp] theorem Dev.setHoop_fences (d : Dev) (k : Nat) (x : Hoop) : (d.setHoop k x).fences = d.fences := rfl
@[simp] theorem Dev.setHoop_darners (d : Dev) (k : Nat) (x : Hoop) : (d.setHoop k x).darners = d.darners := rfl
@[simp] theorem Dev.setHoop_mc (d : Dev) (k : Nat) (x : Hoop) : (d.setHoop k x).mc = d.mc := rfl
@[simp] theorem Dev.setHoop_mcLookups (d : Dev) (k : Nat) (x : Hoop) : (d.setHoop k x).mcLookups = d.mcLookups := rfl
@[simp] theorem Dev.setHoop_sec (d : Dev) (k : Nat) (x : Hoop) : (d.setHoop k x).sec = d.sec := rfl
@[simp] theorem Dev.setHoop_batt (d : Dev) (k : Nat) (x : Hoop) : (d.setHoop k x).batt = d.batt := rfl
@[simp] theorem Dev.setHoop_dbg (d : Dev) (k : Nat) (x : Hoop) : (d.setHoop k x).dbg = d.dbg := rfl
@[simp] theorem Dev.setHoop_lc (d : Dev) (k : Nat) (x : Hoop) : (d.setHoop k x).lc = d.lc := rfl
@[simp] theorem Dev.setHoop_ras (d : Dev) (k : Nat) (x : Hoop) : (d.setHoop k x).ras = d.ras := rfl
@[simp] theorem Dev.setHoop_aon (d : Dev) (k : Nat) (x : Hoop) : (d.setHoop k x).aon = d.aon := rfl
@[simp] theorem Dev.setHoop_retireQ (d : Dev) (k : Nat) (x : Hoop) : (d.setHoop k x).retireQ = d.retireQ := rfl
@[simp] theorem Dev.setHoop_therm (d : Dev) (k : Nat) (x : Hoop) : (d.setHoop k x).therm = d.therm := rfl
@[simp] theorem Dev.setHoop_dmaTurns (d : Dev) (k : Nat) (x : Hoop) : (d.setHoop k x).dmaTurns = d.dmaTurns := rfl
@[simp] theorem Dev.setHoop_dmaTurn (d : Dev) (k : Nat) (x : Hoop) : (d.setHoop k x).dmaTurn = d.dmaTurn := rfl
@[simp] theorem Dev.setHoop_vfEnable (d : Dev) (k : Nat) (x : Hoop) : (d.setHoop k x).vfEnable = d.vfEnable := rfl
@[simp] theorem Dev.setHoop_numVfs (d : Dev) (k : Nat) (x : Hoop) : (d.setHoop k x).numVfs = d.numVfs := rfl
@[simp] theorem Dev.setHoop_linkInsecure (d : Dev) (k : Nat) (x : Hoop) : (d.setHoop k x).linkInsecure = d.linkInsecure := rfl
@[simp] theorem Dev.setHoop_doeError (d : Dev) (k : Nat) (x : Hoop) : (d.setHoop k x).doeError = d.doeError := rfl
@[simp] theorem Dev.setHoop_ports (d : Dev) (k : Nat) (x : Hoop) : (d.setHoop k x).ports = d.ports := rfl
@[simp] theorem Dev.setHoop_fab (d : Dev) (k : Nat) (x : Hoop) : (d.setHoop k x).fab = d.fab := rfl
@[simp] theorem Dev.setHoop_groupTab (d : Dev) (k : Nat) (x : Hoop) : (d.setHoop k x).groupTab = d.groupTab := rfl
@[simp] theorem Dev.setHoop_sessions (d : Dev) (k : Nat) (x : Hoop) : (d.setHoop k x).sessions = d.sessions := rfl
@[simp] theorem Dev.setHoop_ios (d : Dev) (k : Nat) (x : Hoop) : (d.setHoop k x).ios = d.ios := rfl
@[simp] theorem Dev.setHoop_rkeyNext (d : Dev) (k : Nat) (x : Hoop) : (d.setHoop k x).rkeyNext = d.rkeyNext := rfl
@[simp] theorem Dev.setHoop_captures (d : Dev) (k : Nat) (x : Hoop) : (d.setHoop k x).captures = d.captures := rfl
@[simp] theorem Dev.setHoop_triggers (d : Dev) (k : Nat) (x : Hoop) : (d.setHoop k x).triggers = d.triggers := rfl
@[simp] theorem Dev.setHoop_relayIn (d : Dev) (k : Nat) (x : Hoop) : (d.setHoop k x).relayIn = d.relayIn := rfl
@[simp] theorem Dev.setHoop_ethUp (d : Dev) (k : Nat) (x : Hoop) : (d.setHoop k x).ethUp = d.ethUp := rfl
@[simp] theorem Dev.setHoop_laneTests (d : Dev) (k : Nat) (x : Hoop) : (d.setHoop k x).laneTests = d.laneTests := rfl
@[simp] theorem Dev.setHoop_tap (d : Dev) (k : Nat) (x : Hoop) : (d.setHoop k x).tap = d.tap := rfl
@[simp] theorem Dev.setHoop_flash (d : Dev) (k : Nat) (x : Hoop) : (d.setHoop k x).flash = d.flash := rfl
@[simp] theorem Dev.setHoop_larderOut (d : Dev) (k : Nat) (x : Hoop) : (d.setHoop k x).larderOut = d.larderOut := rfl
@[simp] theorem Dev.setHoop_wayOut (d : Dev) (k : Nat) (x : Hoop) : (d.setHoop k x).wayOut = d.wayOut := rfl
/-! ### `Dev.setChannel` -/
@[simp] theorem Dev.setChannel_freeCtr (d : Dev) (k : Nat) (x : DmaChannel) : (d.setChannel k x).freeCtr = d.freeCtr := rfl
@[simp] theorem Dev.setChannel_out (d : Dev) (k : Nat) (x : DmaChannel) : (d.setChannel k x).out = d.out := rfl
@[simp] theorem Dev.setChannel_now (d : Dev) (k : Nat) (x : DmaChannel) : (d.setChannel k x).now = d.now := rfl
@[simp] theorem Dev.setChannel_regs (d : Dev) (k : Nat) (x : DmaChannel) : (d.setChannel k x).regs = d.regs := rfl
@[simp] theorem Dev.setChannel_latches (d : Dev) (k : Nat) (x : DmaChannel) : (d.setChannel k x).latches = d.latches := rfl
@[simp] theorem Dev.setChannel_stagedWords (d : Dev) (k : Nat) (x : DmaChannel) : (d.setChannel k x).stagedWords = d.stagedWords := rfl
@[simp] theorem Dev.setChannel_cellar (d : Dev) (k : Nat) (x : DmaChannel) : (d.setChannel k x).cellar = d.cellar := rfl
@[simp] theorem Dev.setChannel_hostMem (d : Dev) (k : Nat) (x : DmaChannel) : (d.setChannel k x).hostMem = d.hostMem := rfl
@[simp] theorem Dev.setChannel_groups (d : Dev) (k : Nat) (x : DmaChannel) : (d.setChannel k x).groups = d.groups := rfl
@[simp] theorem Dev.setChannel_pot (d : Dev) (k : Nat) (x : DmaChannel) : (d.setChannel k x).pot = d.pot := rfl
@[simp] theorem Dev.setChannel_funcs (d : Dev) (k : Nat) (x : DmaChannel) : (d.setChannel k x).funcs = d.funcs := rfl
@[simp] theorem Dev.setChannel_ctxs (d : Dev) (k : Nat) (x : DmaChannel) : (d.setChannel k x).ctxs = d.ctxs := rfl
@[simp] theorem Dev.setChannel_queues (d : Dev) (k : Nat) (x : DmaChannel) : (d.setChannel k x).queues = d.queues := rfl
@[simp] theorem Dev.setChannel_events (d : Dev) (k : Nat) (x : DmaChannel) : (d.setChannel k x).events = d.events := rfl
@[simp] theorem Dev.setChannel_cmds (d : Dev) (k : Nat) (x : DmaChannel) : (d.setChannel k x).cmds = d.cmds := rfl
@[simp] theorem Dev.setChannel_hoops (d : Dev) (k : Nat) (x : DmaChannel) : (d.setChannel k x).hoops = d.hoops := rfl
@[simp] theorem Dev.setChannel_keys (d : Dev) (k : Nat) (x : DmaChannel) : (d.setChannel k x).keys = d.keys := rfl
@[simp] theorem Dev.setChannel_cmdSeq (d : Dev) (k : Nat) (x : DmaChannel) : (d.setChannel k x).cmdSeq = d.cmdSeq := rfl
@[simp] theorem Dev.setChannel_pantry (d : Dev) (k : Nat) (x : DmaChannel) : (d.setChannel k x).pantry = d.pantry := rfl
@[simp] theorem Dev.setChannel_tiles (d : Dev) (k : Nat) (x : DmaChannel) : (d.setChannel k x).tiles = d.tiles := rfl
@[simp] theorem Dev.setChannel_sats (d : Dev) (k : Nat) (x : DmaChannel) : (d.setChannel k x).sats = d.sats := rfl
@[simp] theorem Dev.setChannel_lsts (d : Dev) (k : Nat) (x : DmaChannel) : (d.setChannel k x).lsts = d.lsts := rfl
@[simp] theorem Dev.setChannel_fences (d : Dev) (k : Nat) (x : DmaChannel) : (d.setChannel k x).fences = d.fences := rfl
@[simp] theorem Dev.setChannel_darners (d : Dev) (k : Nat) (x : DmaChannel) : (d.setChannel k x).darners = d.darners := rfl
@[simp] theorem Dev.setChannel_mc (d : Dev) (k : Nat) (x : DmaChannel) : (d.setChannel k x).mc = d.mc := rfl
@[simp] theorem Dev.setChannel_mcLookups (d : Dev) (k : Nat) (x : DmaChannel) : (d.setChannel k x).mcLookups = d.mcLookups := rfl
@[simp] theorem Dev.setChannel_sec (d : Dev) (k : Nat) (x : DmaChannel) : (d.setChannel k x).sec = d.sec := rfl
@[simp] theorem Dev.setChannel_batt (d : Dev) (k : Nat) (x : DmaChannel) : (d.setChannel k x).batt = d.batt := rfl
@[simp] theorem Dev.setChannel_dbg (d : Dev) (k : Nat) (x : DmaChannel) : (d.setChannel k x).dbg = d.dbg := rfl
@[simp] theorem Dev.setChannel_lc (d : Dev) (k : Nat) (x : DmaChannel) : (d.setChannel k x).lc = d.lc := rfl
@[simp] theorem Dev.setChannel_ras (d : Dev) (k : Nat) (x : DmaChannel) : (d.setChannel k x).ras = d.ras := rfl
@[simp] theorem Dev.setChannel_aon (d : Dev) (k : Nat) (x : DmaChannel) : (d.setChannel k x).aon = d.aon := rfl
@[simp] theorem Dev.setChannel_retireQ (d : Dev) (k : Nat) (x : DmaChannel) : (d.setChannel k x).retireQ = d.retireQ := rfl
@[simp] theorem Dev.setChannel_therm (d : Dev) (k : Nat) (x : DmaChannel) : (d.setChannel k x).therm = d.therm := rfl
@[simp] theorem Dev.setChannel_dmaTurns (d : Dev) (k : Nat) (x : DmaChannel) : (d.setChannel k x).dmaTurns = d.dmaTurns := rfl
@[simp] theorem Dev.setChannel_dmaTurn (d : Dev) (k : Nat) (x : DmaChannel) : (d.setChannel k x).dmaTurn = d.dmaTurn := rfl
@[simp] theorem Dev.setChannel_vfEnable (d : Dev) (k : Nat) (x : DmaChannel) : (d.setChannel k x).vfEnable = d.vfEnable := rfl
@[simp] theorem Dev.setChannel_numVfs (d : Dev) (k : Nat) (x : DmaChannel) : (d.setChannel k x).numVfs = d.numVfs := rfl
@[simp] theorem Dev.setChannel_linkInsecure (d : Dev) (k : Nat) (x : DmaChannel) : (d.setChannel k x).linkInsecure = d.linkInsecure := rfl
@[simp] theorem Dev.setChannel_doeError (d : Dev) (k : Nat) (x : DmaChannel) : (d.setChannel k x).doeError = d.doeError := rfl
@[simp] theorem Dev.setChannel_ports (d : Dev) (k : Nat) (x : DmaChannel) : (d.setChannel k x).ports = d.ports := rfl
@[simp] theorem Dev.setChannel_fab (d : Dev) (k : Nat) (x : DmaChannel) : (d.setChannel k x).fab = d.fab := rfl
@[simp] theorem Dev.setChannel_groupTab (d : Dev) (k : Nat) (x : DmaChannel) : (d.setChannel k x).groupTab = d.groupTab := rfl
@[simp] theorem Dev.setChannel_sessions (d : Dev) (k : Nat) (x : DmaChannel) : (d.setChannel k x).sessions = d.sessions := rfl
@[simp] theorem Dev.setChannel_ios (d : Dev) (k : Nat) (x : DmaChannel) : (d.setChannel k x).ios = d.ios := rfl
@[simp] theorem Dev.setChannel_rkeyNext (d : Dev) (k : Nat) (x : DmaChannel) : (d.setChannel k x).rkeyNext = d.rkeyNext := rfl
@[simp] theorem Dev.setChannel_captures (d : Dev) (k : Nat) (x : DmaChannel) : (d.setChannel k x).captures = d.captures := rfl
@[simp] theorem Dev.setChannel_triggers (d : Dev) (k : Nat) (x : DmaChannel) : (d.setChannel k x).triggers = d.triggers := rfl
@[simp] theorem Dev.setChannel_relayIn (d : Dev) (k : Nat) (x : DmaChannel) : (d.setChannel k x).relayIn = d.relayIn := rfl
@[simp] theorem Dev.setChannel_ethUp (d : Dev) (k : Nat) (x : DmaChannel) : (d.setChannel k x).ethUp = d.ethUp := rfl
@[simp] theorem Dev.setChannel_laneTests (d : Dev) (k : Nat) (x : DmaChannel) : (d.setChannel k x).laneTests = d.laneTests := rfl
@[simp] theorem Dev.setChannel_tap (d : Dev) (k : Nat) (x : DmaChannel) : (d.setChannel k x).tap = d.tap := rfl
@[simp] theorem Dev.setChannel_flash (d : Dev) (k : Nat) (x : DmaChannel) : (d.setChannel k x).flash = d.flash := rfl
@[simp] theorem Dev.setChannel_larderOut (d : Dev) (k : Nat) (x : DmaChannel) : (d.setChannel k x).larderOut = d.larderOut := rfl
@[simp] theorem Dev.setChannel_wayOut (d : Dev) (k : Nat) (x : DmaChannel) : (d.setChannel k x).wayOut = d.wayOut := rfl
/-! ### `Dev.setKey` -/
@[simp] theorem Dev.setKey_freeCtr (d : Dev) (k : Nat) (x : KeySlot) : (d.setKey k x).freeCtr = d.freeCtr := rfl
@[simp] theorem Dev.setKey_out (d : Dev) (k : Nat) (x : KeySlot) : (d.setKey k x).out = d.out := rfl
@[simp] theorem Dev.setKey_now (d : Dev) (k : Nat) (x : KeySlot) : (d.setKey k x).now = d.now := rfl
@[simp] theorem Dev.setKey_regs (d : Dev) (k : Nat) (x : KeySlot) : (d.setKey k x).regs = d.regs := rfl
@[simp] theorem Dev.setKey_latches (d : Dev) (k : Nat) (x : KeySlot) : (d.setKey k x).latches = d.latches := rfl
@[simp] theorem Dev.setKey_stagedWords (d : Dev) (k : Nat) (x : KeySlot) : (d.setKey k x).stagedWords = d.stagedWords := rfl
@[simp] theorem Dev.setKey_cellar (d : Dev) (k : Nat) (x : KeySlot) : (d.setKey k x).cellar = d.cellar := rfl
@[simp] theorem Dev.setKey_hostMem (d : Dev) (k : Nat) (x : KeySlot) : (d.setKey k x).hostMem = d.hostMem := rfl
@[simp] theorem Dev.setKey_groups (d : Dev) (k : Nat) (x : KeySlot) : (d.setKey k x).groups = d.groups := rfl
@[simp] theorem Dev.setKey_pot (d : Dev) (k : Nat) (x : KeySlot) : (d.setKey k x).pot = d.pot := rfl
@[simp] theorem Dev.setKey_funcs (d : Dev) (k : Nat) (x : KeySlot) : (d.setKey k x).funcs = d.funcs := rfl
@[simp] theorem Dev.setKey_ctxs (d : Dev) (k : Nat) (x : KeySlot) : (d.setKey k x).ctxs = d.ctxs := rfl
@[simp] theorem Dev.setKey_queues (d : Dev) (k : Nat) (x : KeySlot) : (d.setKey k x).queues = d.queues := rfl
@[simp] theorem Dev.setKey_events (d : Dev) (k : Nat) (x : KeySlot) : (d.setKey k x).events = d.events := rfl
@[simp] theorem Dev.setKey_cmds (d : Dev) (k : Nat) (x : KeySlot) : (d.setKey k x).cmds = d.cmds := rfl
@[simp] theorem Dev.setKey_hoops (d : Dev) (k : Nat) (x : KeySlot) : (d.setKey k x).hoops = d.hoops := rfl
@[simp] theorem Dev.setKey_dmaCh (d : Dev) (k : Nat) (x : KeySlot) : (d.setKey k x).dmaCh = d.dmaCh := rfl
@[simp] theorem Dev.setKey_cmdSeq (d : Dev) (k : Nat) (x : KeySlot) : (d.setKey k x).cmdSeq = d.cmdSeq := rfl
@[simp] theorem Dev.setKey_pantry (d : Dev) (k : Nat) (x : KeySlot) : (d.setKey k x).pantry = d.pantry := rfl
@[simp] theorem Dev.setKey_tiles (d : Dev) (k : Nat) (x : KeySlot) : (d.setKey k x).tiles = d.tiles := rfl
@[simp] theorem Dev.setKey_sats (d : Dev) (k : Nat) (x : KeySlot) : (d.setKey k x).sats = d.sats := rfl
@[simp] theorem Dev.setKey_lsts (d : Dev) (k : Nat) (x : KeySlot) : (d.setKey k x).lsts = d.lsts := rfl
@[simp] theorem Dev.setKey_fences (d : Dev) (k : Nat) (x : KeySlot) : (d.setKey k x).fences = d.fences := rfl
@[simp] theorem Dev.setKey_darners (d : Dev) (k : Nat) (x : KeySlot) : (d.setKey k x).darners = d.darners := rfl
@[simp] theorem Dev.setKey_mc (d : Dev) (k : Nat) (x : KeySlot) : (d.setKey k x).mc = d.mc := rfl
@[simp] theorem Dev.setKey_mcLookups (d : Dev) (k : Nat) (x : KeySlot) : (d.setKey k x).mcLookups = d.mcLookups := rfl
@[simp] theorem Dev.setKey_sec (d : Dev) (k : Nat) (x : KeySlot) : (d.setKey k x).sec = d.sec := rfl
@[simp] theorem Dev.setKey_batt (d : Dev) (k : Nat) (x : KeySlot) : (d.setKey k x).batt = d.batt := rfl
@[simp] theorem Dev.setKey_dbg (d : Dev) (k : Nat) (x : KeySlot) : (d.setKey k x).dbg = d.dbg := rfl
@[simp] theorem Dev.setKey_lc (d : Dev) (k : Nat) (x : KeySlot) : (d.setKey k x).lc = d.lc := rfl
@[simp] theorem Dev.setKey_ras (d : Dev) (k : Nat) (x : KeySlot) : (d.setKey k x).ras = d.ras := rfl
@[simp] theorem Dev.setKey_aon (d : Dev) (k : Nat) (x : KeySlot) : (d.setKey k x).aon = d.aon := rfl
@[simp] theorem Dev.setKey_retireQ (d : Dev) (k : Nat) (x : KeySlot) : (d.setKey k x).retireQ = d.retireQ := rfl
@[simp] theorem Dev.setKey_therm (d : Dev) (k : Nat) (x : KeySlot) : (d.setKey k x).therm = d.therm := rfl
@[simp] theorem Dev.setKey_dmaTurns (d : Dev) (k : Nat) (x : KeySlot) : (d.setKey k x).dmaTurns = d.dmaTurns := rfl
@[simp] theorem Dev.setKey_dmaTurn (d : Dev) (k : Nat) (x : KeySlot) : (d.setKey k x).dmaTurn = d.dmaTurn := rfl
@[simp] theorem Dev.setKey_vfEnable (d : Dev) (k : Nat) (x : KeySlot) : (d.setKey k x).vfEnable = d.vfEnable := rfl
@[simp] theorem Dev.setKey_numVfs (d : Dev) (k : Nat) (x : KeySlot) : (d.setKey k x).numVfs = d.numVfs := rfl
@[simp] theorem Dev.setKey_linkInsecure (d : Dev) (k : Nat) (x : KeySlot) : (d.setKey k x).linkInsecure = d.linkInsecure := rfl
@[simp] theorem Dev.setKey_doeError (d : Dev) (k : Nat) (x : KeySlot) : (d.setKey k x).doeError = d.doeError := rfl
@[simp] theorem Dev.setKey_ports (d : Dev) (k : Nat) (x : KeySlot) : (d.setKey k x).ports = d.ports := rfl
@[simp] theorem Dev.setKey_fab (d : Dev) (k : Nat) (x : KeySlot) : (d.setKey k x).fab = d.fab := rfl
@[simp] theorem Dev.setKey_groupTab (d : Dev) (k : Nat) (x : KeySlot) : (d.setKey k x).groupTab = d.groupTab := rfl
@[simp] theorem Dev.setKey_sessions (d : Dev) (k : Nat) (x : KeySlot) : (d.setKey k x).sessions = d.sessions := rfl
@[simp] theorem Dev.setKey_ios (d : Dev) (k : Nat) (x : KeySlot) : (d.setKey k x).ios = d.ios := rfl
@[simp] theorem Dev.setKey_rkeyNext (d : Dev) (k : Nat) (x : KeySlot) : (d.setKey k x).rkeyNext = d.rkeyNext := rfl
@[simp] theorem Dev.setKey_captures (d : Dev) (k : Nat) (x : KeySlot) : (d.setKey k x).captures = d.captures := rfl
@[simp] theorem Dev.setKey_triggers (d : Dev) (k : Nat) (x : KeySlot) : (d.setKey k x).triggers = d.triggers := rfl
@[simp] theorem Dev.setKey_relayIn (d : Dev) (k : Nat) (x : KeySlot) : (d.setKey k x).relayIn = d.relayIn := rfl
@[simp] theorem Dev.setKey_ethUp (d : Dev) (k : Nat) (x : KeySlot) : (d.setKey k x).ethUp = d.ethUp := rfl
@[simp] theorem Dev.setKey_laneTests (d : Dev) (k : Nat) (x : KeySlot) : (d.setKey k x).laneTests = d.laneTests := rfl
@[simp] theorem Dev.setKey_tap (d : Dev) (k : Nat) (x : KeySlot) : (d.setKey k x).tap = d.tap := rfl
@[simp] theorem Dev.setKey_flash (d : Dev) (k : Nat) (x : KeySlot) : (d.setKey k x).flash = d.flash := rfl
@[simp] theorem Dev.setKey_larderOut (d : Dev) (k : Nat) (x : KeySlot) : (d.setKey k x).larderOut = d.larderOut := rfl
@[simp] theorem Dev.setKey_wayOut (d : Dev) (k : Nat) (x : KeySlot) : (d.setKey k x).wayOut = d.wayOut := rfl
/-! ### `Dev.setTile` -/
@[simp] theorem Dev.setTile_freeCtr (d : Dev) (k : Nat) (x : Tile) : (d.setTile k x).freeCtr = d.freeCtr := rfl
@[simp] theorem Dev.setTile_out (d : Dev) (k : Nat) (x : Tile) : (d.setTile k x).out = d.out := rfl
@[simp] theorem Dev.setTile_now (d : Dev) (k : Nat) (x : Tile) : (d.setTile k x).now = d.now := rfl
@[simp] theorem Dev.setTile_regs (d : Dev) (k : Nat) (x : Tile) : (d.setTile k x).regs = d.regs := rfl
@[simp] theorem Dev.setTile_latches (d : Dev) (k : Nat) (x : Tile) : (d.setTile k x).latches = d.latches := rfl
@[simp] theorem Dev.setTile_stagedWords (d : Dev) (k : Nat) (x : Tile) : (d.setTile k x).stagedWords = d.stagedWords := rfl
@[simp] theorem Dev.setTile_cellar (d : Dev) (k : Nat) (x : Tile) : (d.setTile k x).cellar = d.cellar := rfl
@[simp] theorem Dev.setTile_hostMem (d : Dev) (k : Nat) (x : Tile) : (d.setTile k x).hostMem = d.hostMem := rfl
@[simp] theorem Dev.setTile_groups (d : Dev) (k : Nat) (x : Tile) : (d.setTile k x).groups = d.groups := rfl
@[simp] theorem Dev.setTile_pot (d : Dev) (k : Nat) (x : Tile) : (d.setTile k x).pot = d.pot := rfl
@[simp] theorem Dev.setTile_funcs (d : Dev) (k : Nat) (x : Tile) : (d.setTile k x).funcs = d.funcs := rfl
@[simp] theorem Dev.setTile_ctxs (d : Dev) (k : Nat) (x : Tile) : (d.setTile k x).ctxs = d.ctxs := rfl
@[simp] theorem Dev.setTile_queues (d : Dev) (k : Nat) (x : Tile) : (d.setTile k x).queues = d.queues := rfl
@[simp] theorem Dev.setTile_events (d : Dev) (k : Nat) (x : Tile) : (d.setTile k x).events = d.events := rfl
@[simp] theorem Dev.setTile_cmds (d : Dev) (k : Nat) (x : Tile) : (d.setTile k x).cmds = d.cmds := rfl
@[simp] theorem Dev.setTile_hoops (d : Dev) (k : Nat) (x : Tile) : (d.setTile k x).hoops = d.hoops := rfl
@[simp] theorem Dev.setTile_dmaCh (d : Dev) (k : Nat) (x : Tile) : (d.setTile k x).dmaCh = d.dmaCh := rfl
@[simp] theorem Dev.setTile_keys (d : Dev) (k : Nat) (x : Tile) : (d.setTile k x).keys = d.keys := rfl
@[simp] theorem Dev.setTile_cmdSeq (d : Dev) (k : Nat) (x : Tile) : (d.setTile k x).cmdSeq = d.cmdSeq := rfl
@[simp] theorem Dev.setTile_pantry (d : Dev) (k : Nat) (x : Tile) : (d.setTile k x).pantry = d.pantry := rfl
@[simp] theorem Dev.setTile_sats (d : Dev) (k : Nat) (x : Tile) : (d.setTile k x).sats = d.sats := rfl
@[simp] theorem Dev.setTile_lsts (d : Dev) (k : Nat) (x : Tile) : (d.setTile k x).lsts = d.lsts := rfl
@[simp] theorem Dev.setTile_fences (d : Dev) (k : Nat) (x : Tile) : (d.setTile k x).fences = d.fences := rfl
@[simp] theorem Dev.setTile_darners (d : Dev) (k : Nat) (x : Tile) : (d.setTile k x).darners = d.darners := rfl
@[simp] theorem Dev.setTile_mc (d : Dev) (k : Nat) (x : Tile) : (d.setTile k x).mc = d.mc := rfl
@[simp] theorem Dev.setTile_mcLookups (d : Dev) (k : Nat) (x : Tile) : (d.setTile k x).mcLookups = d.mcLookups := rfl
@[simp] theorem Dev.setTile_sec (d : Dev) (k : Nat) (x : Tile) : (d.setTile k x).sec = d.sec := rfl
@[simp] theorem Dev.setTile_batt (d : Dev) (k : Nat) (x : Tile) : (d.setTile k x).batt = d.batt := rfl
@[simp] theorem Dev.setTile_dbg (d : Dev) (k : Nat) (x : Tile) : (d.setTile k x).dbg = d.dbg := rfl
@[simp] theorem Dev.setTile_lc (d : Dev) (k : Nat) (x : Tile) : (d.setTile k x).lc = d.lc := rfl
@[simp] theorem Dev.setTile_ras (d : Dev) (k : Nat) (x : Tile) : (d.setTile k x).ras = d.ras := rfl
@[simp] theorem Dev.setTile_aon (d : Dev) (k : Nat) (x : Tile) : (d.setTile k x).aon = d.aon := rfl
@[simp] theorem Dev.setTile_retireQ (d : Dev) (k : Nat) (x : Tile) : (d.setTile k x).retireQ = d.retireQ := rfl
@[simp] theorem Dev.setTile_therm (d : Dev) (k : Nat) (x : Tile) : (d.setTile k x).therm = d.therm := rfl
@[simp] theorem Dev.setTile_dmaTurns (d : Dev) (k : Nat) (x : Tile) : (d.setTile k x).dmaTurns = d.dmaTurns := rfl
@[simp] theorem Dev.setTile_dmaTurn (d : Dev) (k : Nat) (x : Tile) : (d.setTile k x).dmaTurn = d.dmaTurn := rfl
@[simp] theorem Dev.setTile_vfEnable (d : Dev) (k : Nat) (x : Tile) : (d.setTile k x).vfEnable = d.vfEnable := rfl
@[simp] theorem Dev.setTile_numVfs (d : Dev) (k : Nat) (x : Tile) : (d.setTile k x).numVfs = d.numVfs := rfl
@[simp] theorem Dev.setTile_linkInsecure (d : Dev) (k : Nat) (x : Tile) : (d.setTile k x).linkInsecure = d.linkInsecure := rfl
@[simp] theorem Dev.setTile_doeError (d : Dev) (k : Nat) (x : Tile) : (d.setTile k x).doeError = d.doeError := rfl
@[simp] theorem Dev.setTile_ports (d : Dev) (k : Nat) (x : Tile) : (d.setTile k x).ports = d.ports := rfl
@[simp] theorem Dev.setTile_fab (d : Dev) (k : Nat) (x : Tile) : (d.setTile k x).fab = d.fab := rfl
@[simp] theorem Dev.setTile_groupTab (d : Dev) (k : Nat) (x : Tile) : (d.setTile k x).groupTab = d.groupTab := rfl
@[simp] theorem Dev.setTile_sessions (d : Dev) (k : Nat) (x : Tile) : (d.setTile k x).sessions = d.sessions := rfl
@[simp] theorem Dev.setTile_ios (d : Dev) (k : Nat) (x : Tile) : (d.setTile k x).ios = d.ios := rfl
@[simp] theorem Dev.setTile_rkeyNext (d : Dev) (k : Nat) (x : Tile) : (d.setTile k x).rkeyNext = d.rkeyNext := rfl
@[simp] theorem Dev.setTile_captures (d : Dev) (k : Nat) (x : Tile) : (d.setTile k x).captures = d.captures := rfl
@[simp] theorem Dev.setTile_triggers (d : Dev) (k : Nat) (x : Tile) : (d.setTile k x).triggers = d.triggers := rfl
@[simp] theorem Dev.setTile_relayIn (d : Dev) (k : Nat) (x : Tile) : (d.setTile k x).relayIn = d.relayIn := rfl
@[simp] theorem Dev.setTile_ethUp (d : Dev) (k : Nat) (x : Tile) : (d.setTile k x).ethUp = d.ethUp := rfl
@[simp] theorem Dev.setTile_laneTests (d : Dev) (k : Nat) (x : Tile) : (d.setTile k x).laneTests = d.laneTests := rfl
@[simp] theorem Dev.setTile_tap (d : Dev) (k : Nat) (x : Tile) : (d.setTile k x).tap = d.tap := rfl
@[simp] theorem Dev.setTile_flash (d : Dev) (k : Nat) (x : Tile) : (d.setTile k x).flash = d.flash := rfl
@[simp] theorem Dev.setTile_larderOut (d : Dev) (k : Nat) (x : Tile) : (d.setTile k x).larderOut = d.larderOut := rfl
@[simp] theorem Dev.setTile_wayOut (d : Dev) (k : Nat) (x : Tile) : (d.setTile k x).wayOut = d.wayOut := rfl
/-! ### `Dev.setSlot` -/
@[simp] theorem Dev.setSlot_freeCtr (d : Dev) (t k : Nat) (x : Slot) : (d.setSlot t k x).freeCtr = d.freeCtr := rfl
@[simp] theorem Dev.setSlot_out (d : Dev) (t k : Nat) (x : Slot) : (d.setSlot t k x).out = d.out := rfl
@[simp] theorem Dev.setSlot_now (d : Dev) (t k : Nat) (x : Slot) : (d.setSlot t k x).now = d.now := rfl
@[simp] theorem Dev.setSlot_regs (d : Dev) (t k : Nat) (x : Slot) : (d.setSlot t k x).regs = d.regs := rfl
@[simp] theorem Dev.setSlot_latches (d : Dev) (t k : Nat) (x : Slot) : (d.setSlot t k x).latches = d.latches := rfl
@[simp] theorem Dev.setSlot_stagedWords (d : Dev) (t k : Nat) (x : Slot) : (d.setSlot t k x).stagedWords = d.stagedWords := rfl
@[simp] theorem Dev.setSlot_cellar (d : Dev) (t k : Nat) (x : Slot) : (d.setSlot t k x).cellar = d.cellar := rfl
@[simp] theorem Dev.setSlot_hostMem (d : Dev) (t k : Nat) (x : Slot) : (d.setSlot t k x).hostMem = d.hostMem := rfl
@[simp] theorem Dev.setSlot_groups (d : Dev) (t k : Nat) (x : Slot) : (d.setSlot t k x).groups = d.groups := rfl
@[simp] theorem Dev.setSlot_pot (d : Dev) (t k : Nat) (x : Slot) : (d.setSlot t k x).pot = d.pot := rfl
@[simp] theorem Dev.setSlot_funcs (d : Dev) (t k : Nat) (x : Slot) : (d.setSlot t k x).funcs = d.funcs := rfl
@[simp] theorem Dev.setSlot_ctxs (d : Dev) (t k : Nat) (x : Slot) : (d.setSlot t k x).ctxs = d.ctxs := rfl
@[simp] theorem Dev.setSlot_queues (d : Dev) (t k : Nat) (x : Slot) : (d.setSlot t k x).queues = d.queues := rfl
@[simp] theorem Dev.setSlot_events (d : Dev) (t k : Nat) (x : Slot) : (d.setSlot t k x).events = d.events := rfl
@[simp] theorem Dev.setSlot_cmds (d : Dev) (t k : Nat) (x : Slot) : (d.setSlot t k x).cmds = d.cmds := rfl
@[simp] theorem Dev.setSlot_hoops (d : Dev) (t k : Nat) (x : Slot) : (d.setSlot t k x).hoops = d.hoops := rfl
@[simp] theorem Dev.setSlot_dmaCh (d : Dev) (t k : Nat) (x : Slot) : (d.setSlot t k x).dmaCh = d.dmaCh := rfl
@[simp] theorem Dev.setSlot_keys (d : Dev) (t k : Nat) (x : Slot) : (d.setSlot t k x).keys = d.keys := rfl
@[simp] theorem Dev.setSlot_cmdSeq (d : Dev) (t k : Nat) (x : Slot) : (d.setSlot t k x).cmdSeq = d.cmdSeq := rfl
@[simp] theorem Dev.setSlot_pantry (d : Dev) (t k : Nat) (x : Slot) : (d.setSlot t k x).pantry = d.pantry := rfl
@[simp] theorem Dev.setSlot_sats (d : Dev) (t k : Nat) (x : Slot) : (d.setSlot t k x).sats = d.sats := rfl
@[simp] theorem Dev.setSlot_lsts (d : Dev) (t k : Nat) (x : Slot) : (d.setSlot t k x).lsts = d.lsts := rfl
@[simp] theorem Dev.setSlot_fences (d : Dev) (t k : Nat) (x : Slot) : (d.setSlot t k x).fences = d.fences := rfl
@[simp] theorem Dev.setSlot_darners (d : Dev) (t k : Nat) (x : Slot) : (d.setSlot t k x).darners = d.darners := rfl
@[simp] theorem Dev.setSlot_mc (d : Dev) (t k : Nat) (x : Slot) : (d.setSlot t k x).mc = d.mc := rfl
@[simp] theorem Dev.setSlot_mcLookups (d : Dev) (t k : Nat) (x : Slot) : (d.setSlot t k x).mcLookups = d.mcLookups := rfl
@[simp] theorem Dev.setSlot_sec (d : Dev) (t k : Nat) (x : Slot) : (d.setSlot t k x).sec = d.sec := rfl
@[simp] theorem Dev.setSlot_batt (d : Dev) (t k : Nat) (x : Slot) : (d.setSlot t k x).batt = d.batt := rfl
@[simp] theorem Dev.setSlot_dbg (d : Dev) (t k : Nat) (x : Slot) : (d.setSlot t k x).dbg = d.dbg := rfl
@[simp] theorem Dev.setSlot_lc (d : Dev) (t k : Nat) (x : Slot) : (d.setSlot t k x).lc = d.lc := rfl
@[simp] theorem Dev.setSlot_ras (d : Dev) (t k : Nat) (x : Slot) : (d.setSlot t k x).ras = d.ras := rfl
@[simp] theorem Dev.setSlot_aon (d : Dev) (t k : Nat) (x : Slot) : (d.setSlot t k x).aon = d.aon := rfl
@[simp] theorem Dev.setSlot_retireQ (d : Dev) (t k : Nat) (x : Slot) : (d.setSlot t k x).retireQ = d.retireQ := rfl
@[simp] theorem Dev.setSlot_therm (d : Dev) (t k : Nat) (x : Slot) : (d.setSlot t k x).therm = d.therm := rfl
@[simp] theorem Dev.setSlot_dmaTurns (d : Dev) (t k : Nat) (x : Slot) : (d.setSlot t k x).dmaTurns = d.dmaTurns := rfl
@[simp] theorem Dev.setSlot_dmaTurn (d : Dev) (t k : Nat) (x : Slot) : (d.setSlot t k x).dmaTurn = d.dmaTurn := rfl
@[simp] theorem Dev.setSlot_vfEnable (d : Dev) (t k : Nat) (x : Slot) : (d.setSlot t k x).vfEnable = d.vfEnable := rfl
@[simp] theorem Dev.setSlot_numVfs (d : Dev) (t k : Nat) (x : Slot) : (d.setSlot t k x).numVfs = d.numVfs := rfl
@[simp] theorem Dev.setSlot_linkInsecure (d : Dev) (t k : Nat) (x : Slot) : (d.setSlot t k x).linkInsecure = d.linkInsecure := rfl
@[simp] theorem Dev.setSlot_doeError (d : Dev) (t k : Nat) (x : Slot) : (d.setSlot t k x).doeError = d.doeError := rfl
@[simp] theorem Dev.setSlot_ports (d : Dev) (t k : Nat) (x : Slot) : (d.setSlot t k x).ports = d.ports := rfl
@[simp] theorem Dev.setSlot_fab (d : Dev) (t k : Nat) (x : Slot) : (d.setSlot t k x).fab = d.fab := rfl
@[simp] theorem Dev.setSlot_groupTab (d : Dev) (t k : Nat) (x : Slot) : (d.setSlot t k x).groupTab = d.groupTab := rfl
@[simp] theorem Dev.setSlot_sessions (d : Dev) (t k : Nat) (x : Slot) : (d.setSlot t k x).sessions = d.sessions := rfl
@[simp] theorem Dev.setSlot_ios (d : Dev) (t k : Nat) (x : Slot) : (d.setSlot t k x).ios = d.ios := rfl
@[simp] theorem Dev.setSlot_rkeyNext (d : Dev) (t k : Nat) (x : Slot) : (d.setSlot t k x).rkeyNext = d.rkeyNext := rfl
@[simp] theorem Dev.setSlot_captures (d : Dev) (t k : Nat) (x : Slot) : (d.setSlot t k x).captures = d.captures := rfl
@[simp] theorem Dev.setSlot_triggers (d : Dev) (t k : Nat) (x : Slot) : (d.setSlot t k x).triggers = d.triggers := rfl
@[simp] theorem Dev.setSlot_relayIn (d : Dev) (t k : Nat) (x : Slot) : (d.setSlot t k x).relayIn = d.relayIn := rfl
@[simp] theorem Dev.setSlot_ethUp (d : Dev) (t k : Nat) (x : Slot) : (d.setSlot t k x).ethUp = d.ethUp := rfl
@[simp] theorem Dev.setSlot_laneTests (d : Dev) (t k : Nat) (x : Slot) : (d.setSlot t k x).laneTests = d.laneTests := rfl
@[simp] theorem Dev.setSlot_tap (d : Dev) (t k : Nat) (x : Slot) : (d.setSlot t k x).tap = d.tap := rfl
@[simp] theorem Dev.setSlot_flash (d : Dev) (t k : Nat) (x : Slot) : (d.setSlot t k x).flash = d.flash := rfl
@[simp] theorem Dev.setSlot_larderOut (d : Dev) (t k : Nat) (x : Slot) : (d.setSlot t k x).larderOut = d.larderOut := rfl
@[simp] theorem Dev.setSlot_wayOut (d : Dev) (t k : Nat) (x : Slot) : (d.setSlot t k x).wayOut = d.wayOut := rfl
/-! ### `Dev.setSat` -/
@[simp] theorem Dev.setSat_freeCtr (d : Dev) (k : Nat) (x : Entry) : (d.setSat k x).freeCtr = d.freeCtr := rfl
@[simp] theorem Dev.setSat_out (d : Dev) (k : Nat) (x : Entry) : (d.setSat k x).out = d.out := rfl
@[simp] theorem Dev.setSat_now (d : Dev) (k : Nat) (x : Entry) : (d.setSat k x).now = d.now := rfl
@[simp] theorem Dev.setSat_regs (d : Dev) (k : Nat) (x : Entry) : (d.setSat k x).regs = d.regs := rfl
@[simp] theorem Dev.setSat_latches (d : Dev) (k : Nat) (x : Entry) : (d.setSat k x).latches = d.latches := rfl
@[simp] theorem Dev.setSat_stagedWords (d : Dev) (k : Nat) (x : Entry) : (d.setSat k x).stagedWords = d.stagedWords := rfl
@[simp] theorem Dev.setSat_cellar (d : Dev) (k : Nat) (x : Entry) : (d.setSat k x).cellar = d.cellar := rfl
@[simp] theorem Dev.setSat_hostMem (d : Dev) (k : Nat) (x : Entry) : (d.setSat k x).hostMem = d.hostMem := rfl
@[simp] theorem Dev.setSat_groups (d : Dev) (k : Nat) (x : Entry) : (d.setSat k x).groups = d.groups := rfl
@[simp] theorem Dev.setSat_pot (d : Dev) (k : Nat) (x : Entry) : (d.setSat k x).pot = d.pot := rfl
@[simp] theorem Dev.setSat_funcs (d : Dev) (k : Nat) (x : Entry) : (d.setSat k x).funcs = d.funcs := rfl
@[simp] theorem Dev.setSat_ctxs (d : Dev) (k : Nat) (x : Entry) : (d.setSat k x).ctxs = d.ctxs := rfl
@[simp] theorem Dev.setSat_queues (d : Dev) (k : Nat) (x : Entry) : (d.setSat k x).queues = d.queues := rfl
@[simp] theorem Dev.setSat_events (d : Dev) (k : Nat) (x : Entry) : (d.setSat k x).events = d.events := rfl
@[simp] theorem Dev.setSat_cmds (d : Dev) (k : Nat) (x : Entry) : (d.setSat k x).cmds = d.cmds := rfl
@[simp] theorem Dev.setSat_hoops (d : Dev) (k : Nat) (x : Entry) : (d.setSat k x).hoops = d.hoops := rfl
@[simp] theorem Dev.setSat_dmaCh (d : Dev) (k : Nat) (x : Entry) : (d.setSat k x).dmaCh = d.dmaCh := rfl
@[simp] theorem Dev.setSat_keys (d : Dev) (k : Nat) (x : Entry) : (d.setSat k x).keys = d.keys := rfl
@[simp] theorem Dev.setSat_cmdSeq (d : Dev) (k : Nat) (x : Entry) : (d.setSat k x).cmdSeq = d.cmdSeq := rfl
@[simp] theorem Dev.setSat_pantry (d : Dev) (k : Nat) (x : Entry) : (d.setSat k x).pantry = d.pantry := rfl
@[simp] theorem Dev.setSat_tiles (d : Dev) (k : Nat) (x : Entry) : (d.setSat k x).tiles = d.tiles := rfl
@[simp] theorem Dev.setSat_lsts (d : Dev) (k : Nat) (x : Entry) : (d.setSat k x).lsts = d.lsts := rfl
@[simp] theorem Dev.setSat_fences (d : Dev) (k : Nat) (x : Entry) : (d.setSat k x).fences = d.fences := rfl
@[simp] theorem Dev.setSat_darners (d : Dev) (k : Nat) (x : Entry) : (d.setSat k x).darners = d.darners := rfl
@[simp] theorem Dev.setSat_mc (d : Dev) (k : Nat) (x : Entry) : (d.setSat k x).mc = d.mc := rfl
@[simp] theorem Dev.setSat_mcLookups (d : Dev) (k : Nat) (x : Entry) : (d.setSat k x).mcLookups = d.mcLookups := rfl
@[simp] theorem Dev.setSat_sec (d : Dev) (k : Nat) (x : Entry) : (d.setSat k x).sec = d.sec := rfl
@[simp] theorem Dev.setSat_batt (d : Dev) (k : Nat) (x : Entry) : (d.setSat k x).batt = d.batt := rfl
@[simp] theorem Dev.setSat_dbg (d : Dev) (k : Nat) (x : Entry) : (d.setSat k x).dbg = d.dbg := rfl
@[simp] theorem Dev.setSat_lc (d : Dev) (k : Nat) (x : Entry) : (d.setSat k x).lc = d.lc := rfl
@[simp] theorem Dev.setSat_ras (d : Dev) (k : Nat) (x : Entry) : (d.setSat k x).ras = d.ras := rfl
@[simp] theorem Dev.setSat_aon (d : Dev) (k : Nat) (x : Entry) : (d.setSat k x).aon = d.aon := rfl
@[simp] theorem Dev.setSat_retireQ (d : Dev) (k : Nat) (x : Entry) : (d.setSat k x).retireQ = d.retireQ := rfl
@[simp] theorem Dev.setSat_therm (d : Dev) (k : Nat) (x : Entry) : (d.setSat k x).therm = d.therm := rfl
@[simp] theorem Dev.setSat_dmaTurns (d : Dev) (k : Nat) (x : Entry) : (d.setSat k x).dmaTurns = d.dmaTurns := rfl
@[simp] theorem Dev.setSat_dmaTurn (d : Dev) (k : Nat) (x : Entry) : (d.setSat k x).dmaTurn = d.dmaTurn := rfl
@[simp] theorem Dev.setSat_vfEnable (d : Dev) (k : Nat) (x : Entry) : (d.setSat k x).vfEnable = d.vfEnable := rfl
@[simp] theorem Dev.setSat_numVfs (d : Dev) (k : Nat) (x : Entry) : (d.setSat k x).numVfs = d.numVfs := rfl
@[simp] theorem Dev.setSat_linkInsecure (d : Dev) (k : Nat) (x : Entry) : (d.setSat k x).linkInsecure = d.linkInsecure := rfl
@[simp] theorem Dev.setSat_doeError (d : Dev) (k : Nat) (x : Entry) : (d.setSat k x).doeError = d.doeError := rfl
@[simp] theorem Dev.setSat_ports (d : Dev) (k : Nat) (x : Entry) : (d.setSat k x).ports = d.ports := rfl
@[simp] theorem Dev.setSat_fab (d : Dev) (k : Nat) (x : Entry) : (d.setSat k x).fab = d.fab := rfl
@[simp] theorem Dev.setSat_groupTab (d : Dev) (k : Nat) (x : Entry) : (d.setSat k x).groupTab = d.groupTab := rfl
@[simp] theorem Dev.setSat_sessions (d : Dev) (k : Nat) (x : Entry) : (d.setSat k x).sessions = d.sessions := rfl
@[simp] theorem Dev.setSat_ios (d : Dev) (k : Nat) (x : Entry) : (d.setSat k x).ios = d.ios := rfl
@[simp] theorem Dev.setSat_rkeyNext (d : Dev) (k : Nat) (x : Entry) : (d.setSat k x).rkeyNext = d.rkeyNext := rfl
@[simp] theorem Dev.setSat_captures (d : Dev) (k : Nat) (x : Entry) : (d.setSat k x).captures = d.captures := rfl
@[simp] theorem Dev.setSat_triggers (d : Dev) (k : Nat) (x : Entry) : (d.setSat k x).triggers = d.triggers := rfl
@[simp] theorem Dev.setSat_relayIn (d : Dev) (k : Nat) (x : Entry) : (d.setSat k x).relayIn = d.relayIn := rfl
@[simp] theorem Dev.setSat_ethUp (d : Dev) (k : Nat) (x : Entry) : (d.setSat k x).ethUp = d.ethUp := rfl
@[simp] theorem Dev.setSat_laneTests (d : Dev) (k : Nat) (x : Entry) : (d.setSat k x).laneTests = d.laneTests := rfl
@[simp] theorem Dev.setSat_tap (d : Dev) (k : Nat) (x : Entry) : (d.setSat k x).tap = d.tap := rfl
@[simp] theorem Dev.setSat_flash (d : Dev) (k : Nat) (x : Entry) : (d.setSat k x).flash = d.flash := rfl
@[simp] theorem Dev.setSat_larderOut (d : Dev) (k : Nat) (x : Entry) : (d.setSat k x).larderOut = d.larderOut := rfl
@[simp] theorem Dev.setSat_wayOut (d : Dev) (k : Nat) (x : Entry) : (d.setSat k x).wayOut = d.wayOut := rfl
/-! ### `Dev.setLst` -/
@[simp] theorem Dev.setLst_freeCtr (d : Dev) (k : Nat) (x : Entry) : (d.setLst k x).freeCtr = d.freeCtr := rfl
@[simp] theorem Dev.setLst_out (d : Dev) (k : Nat) (x : Entry) : (d.setLst k x).out = d.out := rfl
@[simp] theorem Dev.setLst_now (d : Dev) (k : Nat) (x : Entry) : (d.setLst k x).now = d.now := rfl
@[simp] theorem Dev.setLst_regs (d : Dev) (k : Nat) (x : Entry) : (d.setLst k x).regs = d.regs := rfl
@[simp] theorem Dev.setLst_latches (d : Dev) (k : Nat) (x : Entry) : (d.setLst k x).latches = d.latches := rfl
@[simp] theorem Dev.setLst_stagedWords (d : Dev) (k : Nat) (x : Entry) : (d.setLst k x).stagedWords = d.stagedWords := rfl
@[simp] theorem Dev.setLst_cellar (d : Dev) (k : Nat) (x : Entry) : (d.setLst k x).cellar = d.cellar := rfl
@[simp] theorem Dev.setLst_hostMem (d : Dev) (k : Nat) (x : Entry) : (d.setLst k x).hostMem = d.hostMem := rfl
@[simp] theorem Dev.setLst_groups (d : Dev) (k : Nat) (x : Entry) : (d.setLst k x).groups = d.groups := rfl
@[simp] theorem Dev.setLst_pot (d : Dev) (k : Nat) (x : Entry) : (d.setLst k x).pot = d.pot := rfl
@[simp] theorem Dev.setLst_funcs (d : Dev) (k : Nat) (x : Entry) : (d.setLst k x).funcs = d.funcs := rfl
@[simp] theorem Dev.setLst_ctxs (d : Dev) (k : Nat) (x : Entry) : (d.setLst k x).ctxs = d.ctxs := rfl
@[simp] theorem Dev.setLst_queues (d : Dev) (k : Nat) (x : Entry) : (d.setLst k x).queues = d.queues := rfl
@[simp] theorem Dev.setLst_events (d : Dev) (k : Nat) (x : Entry) : (d.setLst k x).events = d.events := rfl
@[simp] theorem Dev.setLst_cmds (d : Dev) (k : Nat) (x : Entry) : (d.setLst k x).cmds = d.cmds := rfl
@[simp] theorem Dev.setLst_hoops (d : Dev) (k : Nat) (x : Entry) : (d.setLst k x).hoops = d.hoops := rfl
@[simp] theorem Dev.setLst_dmaCh (d : Dev) (k : Nat) (x : Entry) : (d.setLst k x).dmaCh = d.dmaCh := rfl
@[simp] theorem Dev.setLst_keys (d : Dev) (k : Nat) (x : Entry) : (d.setLst k x).keys = d.keys := rfl
@[simp] theorem Dev.setLst_cmdSeq (d : Dev) (k : Nat) (x : Entry) : (d.setLst k x).cmdSeq = d.cmdSeq := rfl
@[simp] theorem Dev.setLst_pantry (d : Dev) (k : Nat) (x : Entry) : (d.setLst k x).pantry = d.pantry := rfl
@[simp] theorem Dev.setLst_tiles (d : Dev) (k : Nat) (x : Entry) : (d.setLst k x).tiles = d.tiles := rfl
@[simp] theorem Dev.setLst_sats (d : Dev) (k : Nat) (x : Entry) : (d.setLst k x).sats = d.sats := rfl
@[simp] theorem Dev.setLst_fences (d : Dev) (k : Nat) (x : Entry) : (d.setLst k x).fences = d.fences := rfl
@[simp] theorem Dev.setLst_darners (d : Dev) (k : Nat) (x : Entry) : (d.setLst k x).darners = d.darners := rfl
@[simp] theorem Dev.setLst_mc (d : Dev) (k : Nat) (x : Entry) : (d.setLst k x).mc = d.mc := rfl
@[simp] theorem Dev.setLst_mcLookups (d : Dev) (k : Nat) (x : Entry) : (d.setLst k x).mcLookups = d.mcLookups := rfl
@[simp] theorem Dev.setLst_sec (d : Dev) (k : Nat) (x : Entry) : (d.setLst k x).sec = d.sec := rfl
@[simp] theorem Dev.setLst_batt (d : Dev) (k : Nat) (x : Entry) : (d.setLst k x).batt = d.batt := rfl
@[simp] theorem Dev.setLst_dbg (d : Dev) (k : Nat) (x : Entry) : (d.setLst k x).dbg = d.dbg := rfl
@[simp] theorem Dev.setLst_lc (d : Dev) (k : Nat) (x : Entry) : (d.setLst k x).lc = d.lc := rfl
@[simp] theorem Dev.setLst_ras (d : Dev) (k : Nat) (x : Entry) : (d.setLst k x).ras = d.ras := rfl
@[simp] theorem Dev.setLst_aon (d : Dev) (k : Nat) (x : Entry) : (d.setLst k x).aon = d.aon := rfl
@[simp] theorem Dev.setLst_retireQ (d : Dev) (k : Nat) (x : Entry) : (d.setLst k x).retireQ = d.retireQ := rfl
@[simp] theorem Dev.setLst_therm (d : Dev) (k : Nat) (x : Entry) : (d.setLst k x).therm = d.therm := rfl
@[simp] theorem Dev.setLst_dmaTurns (d : Dev) (k : Nat) (x : Entry) : (d.setLst k x).dmaTurns = d.dmaTurns := rfl
@[simp] theorem Dev.setLst_dmaTurn (d : Dev) (k : Nat) (x : Entry) : (d.setLst k x).dmaTurn = d.dmaTurn := rfl
@[simp] theorem Dev.setLst_vfEnable (d : Dev) (k : Nat) (x : Entry) : (d.setLst k x).vfEnable = d.vfEnable := rfl
@[simp] theorem Dev.setLst_numVfs (d : Dev) (k : Nat) (x : Entry) : (d.setLst k x).numVfs = d.numVfs := rfl
@[simp] theorem Dev.setLst_linkInsecure (d : Dev) (k : Nat) (x : Entry) : (d.setLst k x).linkInsecure = d.linkInsecure := rfl
@[simp] theorem Dev.setLst_doeError (d : Dev) (k : Nat) (x : Entry) : (d.setLst k x).doeError = d.doeError := rfl
@[simp] theorem Dev.setLst_ports (d : Dev) (k : Nat) (x : Entry) : (d.setLst k x).ports = d.ports := rfl
@[simp] theorem Dev.setLst_fab (d : Dev) (k : Nat) (x : Entry) : (d.setLst k x).fab = d.fab := rfl
@[simp] theorem Dev.setLst_groupTab (d : Dev) (k : Nat) (x : Entry) : (d.setLst k x).groupTab = d.groupTab := rfl
@[simp] theorem Dev.setLst_sessions (d : Dev) (k : Nat) (x : Entry) : (d.setLst k x).sessions = d.sessions := rfl
@[simp] theorem Dev.setLst_ios (d : Dev) (k : Nat) (x : Entry) : (d.setLst k x).ios = d.ios := rfl
@[simp] theorem Dev.setLst_rkeyNext (d : Dev) (k : Nat) (x : Entry) : (d.setLst k x).rkeyNext = d.rkeyNext := rfl
@[simp] theorem Dev.setLst_captures (d : Dev) (k : Nat) (x : Entry) : (d.setLst k x).captures = d.captures := rfl
@[simp] theorem Dev.setLst_triggers (d : Dev) (k : Nat) (x : Entry) : (d.setLst k x).triggers = d.triggers := rfl
@[simp] theorem Dev.setLst_relayIn (d : Dev) (k : Nat) (x : Entry) : (d.setLst k x).relayIn = d.relayIn := rfl
@[simp] theorem Dev.setLst_ethUp (d : Dev) (k : Nat) (x : Entry) : (d.setLst k x).ethUp = d.ethUp := rfl
@[simp] theorem Dev.setLst_laneTests (d : Dev) (k : Nat) (x : Entry) : (d.setLst k x).laneTests = d.laneTests := rfl
@[simp] theorem Dev.setLst_tap (d : Dev) (k : Nat) (x : Entry) : (d.setLst k x).tap = d.tap := rfl
@[simp] theorem Dev.setLst_flash (d : Dev) (k : Nat) (x : Entry) : (d.setLst k x).flash = d.flash := rfl
@[simp] theorem Dev.setLst_larderOut (d : Dev) (k : Nat) (x : Entry) : (d.setLst k x).larderOut = d.larderOut := rfl
@[simp] theorem Dev.setLst_wayOut (d : Dev) (k : Nat) (x : Entry) : (d.setLst k x).wayOut = d.wayOut := rfl
/-! ### `Dev.setFence` -/
@[simp] theorem Dev.setFence_freeCtr (d : Dev) (k : Nat) (x : Fence) : (d.setFence k x).freeCtr = d.freeCtr := rfl
@[simp] theorem Dev.setFence_out (d : Dev) (k : Nat) (x : Fence) : (d.setFence k x).out = d.out := rfl
@[simp] theorem Dev.setFence_now (d : Dev) (k : Nat) (x : Fence) : (d.setFence k x).now = d.now := rfl
@[simp] theorem Dev.setFence_regs (d : Dev) (k : Nat) (x : Fence) : (d.setFence k x).regs = d.regs := rfl
@[simp] theorem Dev.setFence_latches (d : Dev) (k : Nat) (x : Fence) : (d.setFence k x).latches = d.latches := rfl
@[simp] theorem Dev.setFence_stagedWords (d : Dev) (k : Nat) (x : Fence) : (d.setFence k x).stagedWords = d.stagedWords := rfl
@[simp] theorem Dev.setFence_cellar (d : Dev) (k : Nat) (x : Fence) : (d.setFence k x).cellar = d.cellar := rfl
@[simp] theorem Dev.setFence_hostMem (d : Dev) (k : Nat) (x : Fence) : (d.setFence k x).hostMem = d.hostMem := rfl
@[simp] theorem Dev.setFence_groups (d : Dev) (k : Nat) (x : Fence) : (d.setFence k x).groups = d.groups := rfl
@[simp] theorem Dev.setFence_pot (d : Dev) (k : Nat) (x : Fence) : (d.setFence k x).pot = d.pot := rfl
@[simp] theorem Dev.setFence_funcs (d : Dev) (k : Nat) (x : Fence) : (d.setFence k x).funcs = d.funcs := rfl
@[simp] theorem Dev.setFence_ctxs (d : Dev) (k : Nat) (x : Fence) : (d.setFence k x).ctxs = d.ctxs := rfl
@[simp] theorem Dev.setFence_queues (d : Dev) (k : Nat) (x : Fence) : (d.setFence k x).queues = d.queues := rfl
@[simp] theorem Dev.setFence_events (d : Dev) (k : Nat) (x : Fence) : (d.setFence k x).events = d.events := rfl
@[simp] theorem Dev.setFence_cmds (d : Dev) (k : Nat) (x : Fence) : (d.setFence k x).cmds = d.cmds := rfl
@[simp] theorem Dev.setFence_hoops (d : Dev) (k : Nat) (x : Fence) : (d.setFence k x).hoops = d.hoops := rfl
@[simp] theorem Dev.setFence_dmaCh (d : Dev) (k : Nat) (x : Fence) : (d.setFence k x).dmaCh = d.dmaCh := rfl
@[simp] theorem Dev.setFence_keys (d : Dev) (k : Nat) (x : Fence) : (d.setFence k x).keys = d.keys := rfl
@[simp] theorem Dev.setFence_cmdSeq (d : Dev) (k : Nat) (x : Fence) : (d.setFence k x).cmdSeq = d.cmdSeq := rfl
@[simp] theorem Dev.setFence_pantry (d : Dev) (k : Nat) (x : Fence) : (d.setFence k x).pantry = d.pantry := rfl
@[simp] theorem Dev.setFence_tiles (d : Dev) (k : Nat) (x : Fence) : (d.setFence k x).tiles = d.tiles := rfl
@[simp] theorem Dev.setFence_sats (d : Dev) (k : Nat) (x : Fence) : (d.setFence k x).sats = d.sats := rfl
@[simp] theorem Dev.setFence_lsts (d : Dev) (k : Nat) (x : Fence) : (d.setFence k x).lsts = d.lsts := rfl
@[simp] theorem Dev.setFence_darners (d : Dev) (k : Nat) (x : Fence) : (d.setFence k x).darners = d.darners := rfl
@[simp] theorem Dev.setFence_mc (d : Dev) (k : Nat) (x : Fence) : (d.setFence k x).mc = d.mc := rfl
@[simp] theorem Dev.setFence_mcLookups (d : Dev) (k : Nat) (x : Fence) : (d.setFence k x).mcLookups = d.mcLookups := rfl
@[simp] theorem Dev.setFence_sec (d : Dev) (k : Nat) (x : Fence) : (d.setFence k x).sec = d.sec := rfl
@[simp] theorem Dev.setFence_batt (d : Dev) (k : Nat) (x : Fence) : (d.setFence k x).batt = d.batt := rfl
@[simp] theorem Dev.setFence_dbg (d : Dev) (k : Nat) (x : Fence) : (d.setFence k x).dbg = d.dbg := rfl
@[simp] theorem Dev.setFence_lc (d : Dev) (k : Nat) (x : Fence) : (d.setFence k x).lc = d.lc := rfl
@[simp] theorem Dev.setFence_ras (d : Dev) (k : Nat) (x : Fence) : (d.setFence k x).ras = d.ras := rfl
@[simp] theorem Dev.setFence_aon (d : Dev) (k : Nat) (x : Fence) : (d.setFence k x).aon = d.aon := rfl
@[simp] theorem Dev.setFence_retireQ (d : Dev) (k : Nat) (x : Fence) : (d.setFence k x).retireQ = d.retireQ := rfl
@[simp] theorem Dev.setFence_therm (d : Dev) (k : Nat) (x : Fence) : (d.setFence k x).therm = d.therm := rfl
@[simp] theorem Dev.setFence_dmaTurns (d : Dev) (k : Nat) (x : Fence) : (d.setFence k x).dmaTurns = d.dmaTurns := rfl
@[simp] theorem Dev.setFence_dmaTurn (d : Dev) (k : Nat) (x : Fence) : (d.setFence k x).dmaTurn = d.dmaTurn := rfl
@[simp] theorem Dev.setFence_vfEnable (d : Dev) (k : Nat) (x : Fence) : (d.setFence k x).vfEnable = d.vfEnable := rfl
@[simp] theorem Dev.setFence_numVfs (d : Dev) (k : Nat) (x : Fence) : (d.setFence k x).numVfs = d.numVfs := rfl
@[simp] theorem Dev.setFence_linkInsecure (d : Dev) (k : Nat) (x : Fence) : (d.setFence k x).linkInsecure = d.linkInsecure := rfl
@[simp] theorem Dev.setFence_doeError (d : Dev) (k : Nat) (x : Fence) : (d.setFence k x).doeError = d.doeError := rfl
@[simp] theorem Dev.setFence_ports (d : Dev) (k : Nat) (x : Fence) : (d.setFence k x).ports = d.ports := rfl
@[simp] theorem Dev.setFence_fab (d : Dev) (k : Nat) (x : Fence) : (d.setFence k x).fab = d.fab := rfl
@[simp] theorem Dev.setFence_groupTab (d : Dev) (k : Nat) (x : Fence) : (d.setFence k x).groupTab = d.groupTab := rfl
@[simp] theorem Dev.setFence_sessions (d : Dev) (k : Nat) (x : Fence) : (d.setFence k x).sessions = d.sessions := rfl
@[simp] theorem Dev.setFence_ios (d : Dev) (k : Nat) (x : Fence) : (d.setFence k x).ios = d.ios := rfl
@[simp] theorem Dev.setFence_rkeyNext (d : Dev) (k : Nat) (x : Fence) : (d.setFence k x).rkeyNext = d.rkeyNext := rfl
@[simp] theorem Dev.setFence_captures (d : Dev) (k : Nat) (x : Fence) : (d.setFence k x).captures = d.captures := rfl
@[simp] theorem Dev.setFence_triggers (d : Dev) (k : Nat) (x : Fence) : (d.setFence k x).triggers = d.triggers := rfl
@[simp] theorem Dev.setFence_relayIn (d : Dev) (k : Nat) (x : Fence) : (d.setFence k x).relayIn = d.relayIn := rfl
@[simp] theorem Dev.setFence_ethUp (d : Dev) (k : Nat) (x : Fence) : (d.setFence k x).ethUp = d.ethUp := rfl
@[simp] theorem Dev.setFence_laneTests (d : Dev) (k : Nat) (x : Fence) : (d.setFence k x).laneTests = d.laneTests := rfl
@[simp] theorem Dev.setFence_tap (d : Dev) (k : Nat) (x : Fence) : (d.setFence k x).tap = d.tap := rfl
@[simp] theorem Dev.setFence_flash (d : Dev) (k : Nat) (x : Fence) : (d.setFence k x).flash = d.flash := rfl
@[simp] theorem Dev.setFence_larderOut (d : Dev) (k : Nat) (x : Fence) : (d.setFence k x).larderOut = d.larderOut := rfl
@[simp] theorem Dev.setFence_wayOut (d : Dev) (k : Nat) (x : Fence) : (d.setFence k x).wayOut = d.wayOut := rfl
/-! ### `Dev.setDarner` -/
@[simp] theorem Dev.setDarner_freeCtr (d : Dev) (k : Nat) (x : Darner) : (d.setDarner k x).freeCtr = d.freeCtr := rfl
@[simp] theorem Dev.setDarner_out (d : Dev) (k : Nat) (x : Darner) : (d.setDarner k x).out = d.out := rfl
@[simp] theorem Dev.setDarner_now (d : Dev) (k : Nat) (x : Darner) : (d.setDarner k x).now = d.now := rfl
@[simp] theorem Dev.setDarner_regs (d : Dev) (k : Nat) (x : Darner) : (d.setDarner k x).regs = d.regs := rfl
@[simp] theorem Dev.setDarner_latches (d : Dev) (k : Nat) (x : Darner) : (d.setDarner k x).latches = d.latches := rfl
@[simp] theorem Dev.setDarner_stagedWords (d : Dev) (k : Nat) (x : Darner) : (d.setDarner k x).stagedWords = d.stagedWords := rfl
@[simp] theorem Dev.setDarner_cellar (d : Dev) (k : Nat) (x : Darner) : (d.setDarner k x).cellar = d.cellar := rfl
@[simp] theorem Dev.setDarner_hostMem (d : Dev) (k : Nat) (x : Darner) : (d.setDarner k x).hostMem = d.hostMem := rfl
@[simp] theorem Dev.setDarner_groups (d : Dev) (k : Nat) (x : Darner) : (d.setDarner k x).groups = d.groups := rfl
@[simp] theorem Dev.setDarner_pot (d : Dev) (k : Nat) (x : Darner) : (d.setDarner k x).pot = d.pot := rfl
@[simp] theorem Dev.setDarner_funcs (d : Dev) (k : Nat) (x : Darner) : (d.setDarner k x).funcs = d.funcs := rfl
@[simp] theorem Dev.setDarner_ctxs (d : Dev) (k : Nat) (x : Darner) : (d.setDarner k x).ctxs = d.ctxs := rfl
@[simp] theorem Dev.setDarner_queues (d : Dev) (k : Nat) (x : Darner) : (d.setDarner k x).queues = d.queues := rfl
@[simp] theorem Dev.setDarner_events (d : Dev) (k : Nat) (x : Darner) : (d.setDarner k x).events = d.events := rfl
@[simp] theorem Dev.setDarner_cmds (d : Dev) (k : Nat) (x : Darner) : (d.setDarner k x).cmds = d.cmds := rfl
@[simp] theorem Dev.setDarner_hoops (d : Dev) (k : Nat) (x : Darner) : (d.setDarner k x).hoops = d.hoops := rfl
@[simp] theorem Dev.setDarner_dmaCh (d : Dev) (k : Nat) (x : Darner) : (d.setDarner k x).dmaCh = d.dmaCh := rfl
@[simp] theorem Dev.setDarner_keys (d : Dev) (k : Nat) (x : Darner) : (d.setDarner k x).keys = d.keys := rfl
@[simp] theorem Dev.setDarner_cmdSeq (d : Dev) (k : Nat) (x : Darner) : (d.setDarner k x).cmdSeq = d.cmdSeq := rfl
@[simp] theorem Dev.setDarner_pantry (d : Dev) (k : Nat) (x : Darner) : (d.setDarner k x).pantry = d.pantry := rfl
@[simp] theorem Dev.setDarner_tiles (d : Dev) (k : Nat) (x : Darner) : (d.setDarner k x).tiles = d.tiles := rfl
@[simp] theorem Dev.setDarner_sats (d : Dev) (k : Nat) (x : Darner) : (d.setDarner k x).sats = d.sats := rfl
@[simp] theorem Dev.setDarner_lsts (d : Dev) (k : Nat) (x : Darner) : (d.setDarner k x).lsts = d.lsts := rfl
@[simp] theorem Dev.setDarner_fences (d : Dev) (k : Nat) (x : Darner) : (d.setDarner k x).fences = d.fences := rfl
@[simp] theorem Dev.setDarner_mc (d : Dev) (k : Nat) (x : Darner) : (d.setDarner k x).mc = d.mc := rfl
@[simp] theorem Dev.setDarner_mcLookups (d : Dev) (k : Nat) (x : Darner) : (d.setDarner k x).mcLookups = d.mcLookups := rfl
@[simp] theorem Dev.setDarner_sec (d : Dev) (k : Nat) (x : Darner) : (d.setDarner k x).sec = d.sec := rfl
@[simp] theorem Dev.setDarner_batt (d : Dev) (k : Nat) (x : Darner) : (d.setDarner k x).batt = d.batt := rfl
@[simp] theorem Dev.setDarner_dbg (d : Dev) (k : Nat) (x : Darner) : (d.setDarner k x).dbg = d.dbg := rfl
@[simp] theorem Dev.setDarner_lc (d : Dev) (k : Nat) (x : Darner) : (d.setDarner k x).lc = d.lc := rfl
@[simp] theorem Dev.setDarner_ras (d : Dev) (k : Nat) (x : Darner) : (d.setDarner k x).ras = d.ras := rfl
@[simp] theorem Dev.setDarner_aon (d : Dev) (k : Nat) (x : Darner) : (d.setDarner k x).aon = d.aon := rfl
@[simp] theorem Dev.setDarner_retireQ (d : Dev) (k : Nat) (x : Darner) : (d.setDarner k x).retireQ = d.retireQ := rfl
@[simp] theorem Dev.setDarner_therm (d : Dev) (k : Nat) (x : Darner) : (d.setDarner k x).therm = d.therm := rfl
@[simp] theorem Dev.setDarner_dmaTurns (d : Dev) (k : Nat) (x : Darner) : (d.setDarner k x).dmaTurns = d.dmaTurns := rfl
@[simp] theorem Dev.setDarner_dmaTurn (d : Dev) (k : Nat) (x : Darner) : (d.setDarner k x).dmaTurn = d.dmaTurn := rfl
@[simp] theorem Dev.setDarner_vfEnable (d : Dev) (k : Nat) (x : Darner) : (d.setDarner k x).vfEnable = d.vfEnable := rfl
@[simp] theorem Dev.setDarner_numVfs (d : Dev) (k : Nat) (x : Darner) : (d.setDarner k x).numVfs = d.numVfs := rfl
@[simp] theorem Dev.setDarner_linkInsecure (d : Dev) (k : Nat) (x : Darner) : (d.setDarner k x).linkInsecure = d.linkInsecure := rfl
@[simp] theorem Dev.setDarner_doeError (d : Dev) (k : Nat) (x : Darner) : (d.setDarner k x).doeError = d.doeError := rfl
@[simp] theorem Dev.setDarner_ports (d : Dev) (k : Nat) (x : Darner) : (d.setDarner k x).ports = d.ports := rfl
@[simp] theorem Dev.setDarner_fab (d : Dev) (k : Nat) (x : Darner) : (d.setDarner k x).fab = d.fab := rfl
@[simp] theorem Dev.setDarner_groupTab (d : Dev) (k : Nat) (x : Darner) : (d.setDarner k x).groupTab = d.groupTab := rfl
@[simp] theorem Dev.setDarner_sessions (d : Dev) (k : Nat) (x : Darner) : (d.setDarner k x).sessions = d.sessions := rfl
@[simp] theorem Dev.setDarner_ios (d : Dev) (k : Nat) (x : Darner) : (d.setDarner k x).ios = d.ios := rfl
@[simp] theorem Dev.setDarner_rkeyNext (d : Dev) (k : Nat) (x : Darner) : (d.setDarner k x).rkeyNext = d.rkeyNext := rfl
@[simp] theorem Dev.setDarner_captures (d : Dev) (k : Nat) (x : Darner) : (d.setDarner k x).captures = d.captures := rfl
@[simp] theorem Dev.setDarner_triggers (d : Dev) (k : Nat) (x : Darner) : (d.setDarner k x).triggers = d.triggers := rfl
@[simp] theorem Dev.setDarner_relayIn (d : Dev) (k : Nat) (x : Darner) : (d.setDarner k x).relayIn = d.relayIn := rfl
@[simp] theorem Dev.setDarner_ethUp (d : Dev) (k : Nat) (x : Darner) : (d.setDarner k x).ethUp = d.ethUp := rfl
@[simp] theorem Dev.setDarner_laneTests (d : Dev) (k : Nat) (x : Darner) : (d.setDarner k x).laneTests = d.laneTests := rfl
@[simp] theorem Dev.setDarner_tap (d : Dev) (k : Nat) (x : Darner) : (d.setDarner k x).tap = d.tap := rfl
@[simp] theorem Dev.setDarner_flash (d : Dev) (k : Nat) (x : Darner) : (d.setDarner k x).flash = d.flash := rfl
@[simp] theorem Dev.setDarner_larderOut (d : Dev) (k : Nat) (x : Darner) : (d.setDarner k x).larderOut = d.larderOut := rfl
@[simp] theorem Dev.setDarner_wayOut (d : Dev) (k : Nat) (x : Darner) : (d.setDarner k x).wayOut = d.wayOut := rfl
/-! ### `Dev.setMce` -/
@[simp] theorem Dev.setMce_freeCtr (d : Dev) (k : Nat) (x : McEntry) : (d.setMce k x).freeCtr = d.freeCtr := rfl
@[simp] theorem Dev.setMce_out (d : Dev) (k : Nat) (x : McEntry) : (d.setMce k x).out = d.out := rfl
@[simp] theorem Dev.setMce_now (d : Dev) (k : Nat) (x : McEntry) : (d.setMce k x).now = d.now := rfl
@[simp] theorem Dev.setMce_regs (d : Dev) (k : Nat) (x : McEntry) : (d.setMce k x).regs = d.regs := rfl
@[simp] theorem Dev.setMce_latches (d : Dev) (k : Nat) (x : McEntry) : (d.setMce k x).latches = d.latches := rfl
@[simp] theorem Dev.setMce_stagedWords (d : Dev) (k : Nat) (x : McEntry) : (d.setMce k x).stagedWords = d.stagedWords := rfl
@[simp] theorem Dev.setMce_cellar (d : Dev) (k : Nat) (x : McEntry) : (d.setMce k x).cellar = d.cellar := rfl
@[simp] theorem Dev.setMce_hostMem (d : Dev) (k : Nat) (x : McEntry) : (d.setMce k x).hostMem = d.hostMem := rfl
@[simp] theorem Dev.setMce_groups (d : Dev) (k : Nat) (x : McEntry) : (d.setMce k x).groups = d.groups := rfl
@[simp] theorem Dev.setMce_pot (d : Dev) (k : Nat) (x : McEntry) : (d.setMce k x).pot = d.pot := rfl
@[simp] theorem Dev.setMce_funcs (d : Dev) (k : Nat) (x : McEntry) : (d.setMce k x).funcs = d.funcs := rfl
@[simp] theorem Dev.setMce_ctxs (d : Dev) (k : Nat) (x : McEntry) : (d.setMce k x).ctxs = d.ctxs := rfl
@[simp] theorem Dev.setMce_queues (d : Dev) (k : Nat) (x : McEntry) : (d.setMce k x).queues = d.queues := rfl
@[simp] theorem Dev.setMce_events (d : Dev) (k : Nat) (x : McEntry) : (d.setMce k x).events = d.events := rfl
@[simp] theorem Dev.setMce_cmds (d : Dev) (k : Nat) (x : McEntry) : (d.setMce k x).cmds = d.cmds := rfl
@[simp] theorem Dev.setMce_hoops (d : Dev) (k : Nat) (x : McEntry) : (d.setMce k x).hoops = d.hoops := rfl
@[simp] theorem Dev.setMce_dmaCh (d : Dev) (k : Nat) (x : McEntry) : (d.setMce k x).dmaCh = d.dmaCh := rfl
@[simp] theorem Dev.setMce_keys (d : Dev) (k : Nat) (x : McEntry) : (d.setMce k x).keys = d.keys := rfl
@[simp] theorem Dev.setMce_cmdSeq (d : Dev) (k : Nat) (x : McEntry) : (d.setMce k x).cmdSeq = d.cmdSeq := rfl
@[simp] theorem Dev.setMce_pantry (d : Dev) (k : Nat) (x : McEntry) : (d.setMce k x).pantry = d.pantry := rfl
@[simp] theorem Dev.setMce_tiles (d : Dev) (k : Nat) (x : McEntry) : (d.setMce k x).tiles = d.tiles := rfl
@[simp] theorem Dev.setMce_sats (d : Dev) (k : Nat) (x : McEntry) : (d.setMce k x).sats = d.sats := rfl
@[simp] theorem Dev.setMce_lsts (d : Dev) (k : Nat) (x : McEntry) : (d.setMce k x).lsts = d.lsts := rfl
@[simp] theorem Dev.setMce_fences (d : Dev) (k : Nat) (x : McEntry) : (d.setMce k x).fences = d.fences := rfl
@[simp] theorem Dev.setMce_darners (d : Dev) (k : Nat) (x : McEntry) : (d.setMce k x).darners = d.darners := rfl
@[simp] theorem Dev.setMce_mcLookups (d : Dev) (k : Nat) (x : McEntry) : (d.setMce k x).mcLookups = d.mcLookups := rfl
@[simp] theorem Dev.setMce_sec (d : Dev) (k : Nat) (x : McEntry) : (d.setMce k x).sec = d.sec := rfl
@[simp] theorem Dev.setMce_batt (d : Dev) (k : Nat) (x : McEntry) : (d.setMce k x).batt = d.batt := rfl
@[simp] theorem Dev.setMce_dbg (d : Dev) (k : Nat) (x : McEntry) : (d.setMce k x).dbg = d.dbg := rfl
@[simp] theorem Dev.setMce_lc (d : Dev) (k : Nat) (x : McEntry) : (d.setMce k x).lc = d.lc := rfl
@[simp] theorem Dev.setMce_ras (d : Dev) (k : Nat) (x : McEntry) : (d.setMce k x).ras = d.ras := rfl
@[simp] theorem Dev.setMce_aon (d : Dev) (k : Nat) (x : McEntry) : (d.setMce k x).aon = d.aon := rfl
@[simp] theorem Dev.setMce_retireQ (d : Dev) (k : Nat) (x : McEntry) : (d.setMce k x).retireQ = d.retireQ := rfl
@[simp] theorem Dev.setMce_therm (d : Dev) (k : Nat) (x : McEntry) : (d.setMce k x).therm = d.therm := rfl
@[simp] theorem Dev.setMce_dmaTurns (d : Dev) (k : Nat) (x : McEntry) : (d.setMce k x).dmaTurns = d.dmaTurns := rfl
@[simp] theorem Dev.setMce_dmaTurn (d : Dev) (k : Nat) (x : McEntry) : (d.setMce k x).dmaTurn = d.dmaTurn := rfl
@[simp] theorem Dev.setMce_vfEnable (d : Dev) (k : Nat) (x : McEntry) : (d.setMce k x).vfEnable = d.vfEnable := rfl
@[simp] theorem Dev.setMce_numVfs (d : Dev) (k : Nat) (x : McEntry) : (d.setMce k x).numVfs = d.numVfs := rfl
@[simp] theorem Dev.setMce_linkInsecure (d : Dev) (k : Nat) (x : McEntry) : (d.setMce k x).linkInsecure = d.linkInsecure := rfl
@[simp] theorem Dev.setMce_doeError (d : Dev) (k : Nat) (x : McEntry) : (d.setMce k x).doeError = d.doeError := rfl
@[simp] theorem Dev.setMce_ports (d : Dev) (k : Nat) (x : McEntry) : (d.setMce k x).ports = d.ports := rfl
@[simp] theorem Dev.setMce_fab (d : Dev) (k : Nat) (x : McEntry) : (d.setMce k x).fab = d.fab := rfl
@[simp] theorem Dev.setMce_groupTab (d : Dev) (k : Nat) (x : McEntry) : (d.setMce k x).groupTab = d.groupTab := rfl
@[simp] theorem Dev.setMce_sessions (d : Dev) (k : Nat) (x : McEntry) : (d.setMce k x).sessions = d.sessions := rfl
@[simp] theorem Dev.setMce_ios (d : Dev) (k : Nat) (x : McEntry) : (d.setMce k x).ios = d.ios := rfl
@[simp] theorem Dev.setMce_rkeyNext (d : Dev) (k : Nat) (x : McEntry) : (d.setMce k x).rkeyNext = d.rkeyNext := rfl
@[simp] theorem Dev.setMce_captures (d : Dev) (k : Nat) (x : McEntry) : (d.setMce k x).captures = d.captures := rfl
@[simp] theorem Dev.setMce_triggers (d : Dev) (k : Nat) (x : McEntry) : (d.setMce k x).triggers = d.triggers := rfl
@[simp] theorem Dev.setMce_relayIn (d : Dev) (k : Nat) (x : McEntry) : (d.setMce k x).relayIn = d.relayIn := rfl
@[simp] theorem Dev.setMce_ethUp (d : Dev) (k : Nat) (x : McEntry) : (d.setMce k x).ethUp = d.ethUp := rfl
@[simp] theorem Dev.setMce_laneTests (d : Dev) (k : Nat) (x : McEntry) : (d.setMce k x).laneTests = d.laneTests := rfl
@[simp] theorem Dev.setMce_tap (d : Dev) (k : Nat) (x : McEntry) : (d.setMce k x).tap = d.tap := rfl
@[simp] theorem Dev.setMce_flash (d : Dev) (k : Nat) (x : McEntry) : (d.setMce k x).flash = d.flash := rfl
@[simp] theorem Dev.setMce_larderOut (d : Dev) (k : Nat) (x : McEntry) : (d.setMce k x).larderOut = d.larderOut := rfl
@[simp] theorem Dev.setMce_wayOut (d : Dev) (k : Nat) (x : McEntry) : (d.setMce k x).wayOut = d.wayOut := rfl

end Sys2Proof.Machine
end

