-- ==== Sys2Proof/Laws/Tab.lean ====
section
/-! SUPPORT. The basic laws of the sparse table and of memory: a read after a write, every other place left alone, and the canonical form that
every operation keeps. -/
namespace Sys2Proof.Machine

section
variable {α : Type} {dflt : Nat → α}

/-- A read of a key inserted. -/
theorem tabGet_tabIns_same (t : Table α) (k : Nat) (v : α) : tabGet dflt (tabIns t k v) k = v := by
  induction t with
  | nil => simp [tabIns, tabGet]
  | cons e r ih =>
    obtain ⟨k', v'⟩ := e
    simp only [tabIns]
    split
    · simp [tabGet]
    · split
      · simp [tabGet]
      · have hne : k' ≠ k := by omega
        simp only [tabGet, hne, if_false, ih]

/-- An insertion leaves every other key alone. -/
theorem tabGet_tabIns_ne (t : Table α) {k j : Nat} (v : α) (h : j ≠ k) : tabGet dflt (tabIns t k v) j = tabGet dflt t j := by
  induction t with
  | nil => simp [tabIns, tabGet, h.symm]
  | cons e r ih =>
    obtain ⟨k', v'⟩ := e
    simp only [tabIns]
    split
    · simp only [tabGet, h.symm, if_false]
    · split
      · rename_i heq
        subst heq
        simp only [tabGet, h.symm, if_false]
      · simp only [tabGet, ih]

/-- A key deleted reads as unlisted. -/
theorem tabGet_delete_same (t : Table α) (k : Nat) : tabGet dflt (t.filter (fun e => e.1 != k)) k = dflt k := by
  induction t with
  | nil => rfl
  | cons e r ih =>
    obtain ⟨k', v'⟩ := e
    rw [List.filter_cons]
    split
    · rename_i hk
      have hne : k' ≠ k := by simpa using hk
      simp only [tabGet, hne, if_false, ih]
    · exact ih

/-- A deletion leaves every other key alone. -/
theorem tabGet_delete_ne (t : Table α) {k j : Nat} (h : j ≠ k) : tabGet dflt (t.filter (fun e => e.1 != k)) j = tabGet dflt t j := by
  induction t with
  | nil => rfl
  | cons e r ih =>
    obtain ⟨k', v'⟩ := e
    rw [List.filter_cons]
    split
    · simp only [tabGet, ih]
    · rename_i hk
      have heq : k' = k := by simpa using hk
      subst heq
      simp only [tabGet, h.symm, if_false, ih]

variable [DecidableEq α]

/-- The canonical form of a table that begins with an entry. -/
theorem tabWfFrom_cons (lo : Option Nat) (k : Nat) (v : α) (r : Table α) : tabWfFrom dflt lo ((k, v) :: r) =
    ((match lo with
      | none => true
      | some l => decide (l < k)) && decide (v ≠ dflt k) && tabWfFrom dflt (some k) r) := by
  cases lo <;> rfl

/-- What a write does: a key deleted, or inserted. -/
theorem tabPut_eq (t : Table α) (k : Nat) (v : α) :
    tabPut dflt t k v = if v = dflt k then t.filter (fun e => e.1 != k) else tabIns t k v := by
  cases t <;> simp [tabPut, tabIns]

/-- A read of the key just written gives the value written. -/
@[simp] theorem tabGet_tabPut_same (t : Table α) (k : Nat) (v : α) : tabGet dflt (tabPut dflt t k v) k = v := by
  rw [tabPut_eq]
  split
  · rename_i hv; rw [tabGet_delete_same, hv]
  · exact tabGet_tabIns_same t k v

/-- A write leaves every other key alone. -/
theorem tabGet_tabPut_ne {t : Table α} {k j : Nat} (v : α) (h : j ≠ k) : tabGet dflt (tabPut dflt t k v) j = tabGet dflt t j := by
  rw [tabPut_eq]
  split
  · exact tabGet_delete_ne t h
  · exact tabGet_tabIns_ne t v h

/-- The canonical form above a bound is the canonical form above any lower one. -/
theorem tabWfFrom_mono {t : Table α} {k j : Nat} (h : tabWfFrom dflt (some k) t = true) (hj : j ≤ k) : tabWfFrom dflt (some j) t = true := by
  cases t with
  | nil => rfl
  | cons e r =>
    obtain ⟨k', v'⟩ := e
    simp only [tabWfFrom, Bool.and_eq_true, decide_eq_true_eq] at h ⊢
    exact ⟨⟨by omega, h.1.2⟩, h.2⟩

/-- The canonical form above a bound is the canonical form. -/
theorem tabWf_of_from {t : Table α} {k : Nat} (h : tabWfFrom dflt (some k) t = true) : tabWf dflt t = true := by
  cases t with
  | nil => rfl
  | cons e r =>
    obtain ⟨k', v'⟩ := e
    simp only [tabWf, tabWfFrom, Bool.and_eq_true, decide_eq_true_eq, Bool.true_and] at h ⊢
    exact ⟨h.1.2, h.2⟩

/-- An insertion of a value that is not the unlisted one keeps the canonical form above a bound, where the key lies above it. -/
theorem tabWfFrom_tabIns {t : Table α} (lo : Option Nat) (h : tabWfFrom dflt lo t = true) (k : Nat) (v : α) (hv : v ≠ dflt k)
    (hk : ∀ l, lo = some l → l < k) : tabWfFrom dflt lo (tabIns t k v) = true := by
  induction t generalizing lo with
  | nil =>
    cases lo with
    | none => simp [tabIns, tabWfFrom, hv]
    | some l => simp [tabIns, tabWfFrom, hv, hk l rfl]
  | cons e r ih =>
    obtain ⟨k', v'⟩ := e
    simp only [tabIns]
    simp only [tabWfFrom, Bool.and_eq_true] at h
    split
    · rename_i hlt
      have h2 : tabWfFrom dflt (some k) ((k', v') :: r) = true := by
        simp only [tabWfFrom, Bool.and_eq_true]; exact ⟨⟨by simpa using hlt, h.1.2⟩, h.2⟩
      rw [tabWfFrom_cons, h2]
      cases lo with
      | none => simp [hv]
      | some l => simp [hv, hk l rfl]
    · split
      · rename_i heq
        subst heq
        rw [tabWfFrom_cons, h.2]
        cases lo with
        | none => simp [hv]
        | some l => simp [hv, hk l rfl]
      · rw [tabWfFrom_cons, ih (some k') h.2 (by intro l hl; cases hl; omega)]
        simp only [Bool.and_true, Bool.and_eq_true]
        exact h.1

/-- A table cut down to some of its entries keeps the canonical form above a bound. -/
theorem tabWfFrom_filter {t : Table α} (p : Nat × α → Bool) (lo : Option Nat) (h : tabWfFrom dflt lo t = true) :
    tabWfFrom dflt lo (t.filter p) = true := by
  induction t generalizing lo with
  | nil => rfl
  | cons e r ih =>
    obtain ⟨k', v'⟩ := e
    simp only [tabWfFrom, Bool.and_eq_true] at h
    rw [List.filter_cons]
    split
    · rw [tabWfFrom_cons, ih (some k') h.2]
      simp only [Bool.and_true, Bool.and_eq_true]
      exact h.1
    · have h3 := ih (some k') h.2
      cases lo with
      | none => exact tabWf_of_from h3
      | some l =>
        have : l < k' := by simpa using h.1.1
        exact tabWfFrom_mono h3 (Nat.le_of_lt this)

/-- A write keeps the canonical form. -/
theorem tabWf_tabPut {t : Table α} (h : tabWf dflt t = true) (k : Nat) (v : α) : tabWf dflt (tabPut dflt t k v) = true := by
  rw [tabPut_eq]
  split
  · exact tabWfFrom_filter _ none h
  · rename_i hv; exact tabWfFrom_tabIns none h k v hv (by intro l hl; cases hl)

/-- Clearing keys keeps the canonical form. -/
theorem tabWf_tabClear {t : Table α} (h : tabWf dflt t = true) (p : Nat → Bool) : tabWf dflt (tabClear p t) = true :=
  tabWfFrom_filter _ none h

end

/-! ### Memory -/

/-- A byte just stored reads back. -/
@[simp] theorem memGet_memPut_same (m : List (Nat × Byte)) (a : Nat) (b : Byte) : memGet (memPut m a b) a = b :=
  tabGet_tabPut_same m a b

/-- A store leaves every other byte alone. -/
theorem memGet_memPut_ne {m : List (Nat × Byte)} {a c : Nat} (b : Byte) (h : c ≠ a) : memGet (memPut m a b) c = memGet m c :=
  tabGet_tabPut_ne b h

/-- A stored byte keeps the canonical form. -/
theorem memWf_memPut {m : List (Nat × Byte)} (h : memWf m = true) (a : Nat) (b : Byte) : memWf (memPut m a b) = true := tabWf_tabPut h a b

/-- Stored bytes keep the canonical form. -/
theorem memWf_memWrite {m : List (Nat × Byte)} (h : memWf m = true) (a : Nat) (bs : List Byte) : memWf (memWrite m a bs) = true := by
  induction bs generalizing m a with
  | nil => exact h
  | cons b r ih => exact ih (memWf_memPut h a b) (a + 1)

/-- Stored bytes leave every byte outside them alone. -/
theorem memGet_memWrite_outside (m : List (Nat × Byte)) (a : Nat) (bs : List Byte) (c : Nat) (h : c < a ∨ a + bs.length ≤ c) :
    memGet (memWrite m a bs) c = memGet m c := by
  induction bs generalizing m a with
  | nil => rfl
  | cons b r ih =>
    simp only [List.length_cons] at h
    rw [memWrite, ih _ _ (by omega), memGet_memPut_ne b (by omega)]

/-- Zeroed bytes keep the canonical form. -/
theorem memWf_memZero {m : List (Nat × Byte)} (h : memWf m = true) (a n : Nat) : memWf (memZero m a n) = true := tabWf_tabClear h _

end Sys2Proof.Machine
end

