-- ==== Sys2Proof/Laws/Ops.lean ====
section
/-! SUPPORT. What the shared operations do, once each: a table of objects read after an update, the gates, the operation registers, the error log. -/
namespace Sys2Proof.Machine

/-- Another object is as before. -/
theorem Dev.potOf_set_ne (d : Dev) {k j : Nat} (x : Pot) (h : j ≠ k) : (d.setPot k x).potOf j = d.potOf j := tabGet_tabPut_ne x h
/-- The object set. -/
@[simp] theorem Dev.potOf_set_same (d : Dev) (k : Nat) (x : Pot) : (d.setPot k x).potOf k = x := tabGet_tabPut_same _ k x
/-- Another object is as before. -/
theorem Dev.group_set_ne (d : Dev) {k j : Nat} (x : Group) (h : j ≠ k) : (d.setGroup k x).group j = d.group j := tabGet_tabPut_ne x h
/-- The object set. -/
@[simp] theorem Dev.group_set_same (d : Dev) (k : Nat) (x : Group) : (d.setGroup k x).group k = x := tabGet_tabPut_same _ k x
/-- Another object is as before. -/
theorem Dev.func_set_ne (d : Dev) {k j : Nat} (x : Func) (h : j ≠ k) : (d.setFunc k x).func j = d.func j := tabGet_tabPut_ne x h
/-- The object set. -/
@[simp] theorem Dev.func_set_same (d : Dev) (k : Nat) (x : Func) : (d.setFunc k x).func k = x := tabGet_tabPut_same _ k x
/-- Another object is as before. -/
theorem Dev.ctx_set_ne (d : Dev) {k j : Nat} (x : Ctx) (h : j ≠ k) : (d.setCtx k x).ctx j = d.ctx j := tabGet_tabPut_ne x h
/-- The object set. -/
@[simp] theorem Dev.ctx_set_same (d : Dev) (k : Nat) (x : Ctx) : (d.setCtx k x).ctx k = x := tabGet_tabPut_same _ k x
/-- Another object is as before. -/
theorem Dev.queue_set_ne (d : Dev) {k j : Nat} (x : Queue) (h : j ≠ k) : (d.setQueue k x).queue j = d.queue j := tabGet_tabPut_ne x h
/-- The object set. -/
@[simp] theorem Dev.queue_set_same (d : Dev) (k : Nat) (x : Queue) : (d.setQueue k x).queue k = x := tabGet_tabPut_same _ k x
/-- Another object is as before. -/
theorem Dev.evt_set_ne (d : Dev) {k j : Nat} (x : Event) (h : j ≠ k) : (d.setEvt k x).evt j = d.evt j := tabGet_tabPut_ne x h
/-- The object set. -/
@[simp] theorem Dev.evt_set_same (d : Dev) (k : Nat) (x : Event) : (d.setEvt k x).evt k = x := tabGet_tabPut_same _ k x
/-- Another object is as before. -/
theorem Dev.cmd_set_ne (d : Dev) {k j : Nat} (x : Cmd) (h : j ≠ k) : (d.setCmd k x).cmd j = d.cmd j := tabGet_tabPut_ne x h
/-- The object set. -/
@[simp] theorem Dev.cmd_set_same (d : Dev) (k : Nat) (x : Cmd) : (d.setCmd k x).cmd k = x := tabGet_tabPut_same _ k x
/-- Another object is as before. -/
theorem Dev.hoop_set_ne (d : Dev) {k j : Nat} (x : Hoop) (h : j ≠ k) : (d.setHoop k x).hoop j = d.hoop j := tabGet_tabPut_ne x h
/-- The object set. -/
@[simp] theorem Dev.hoop_set_same (d : Dev) (k : Nat) (x : Hoop) : (d.setHoop k x).hoop k = x := tabGet_tabPut_same _ k x
/-- Another object is as before. -/
theorem Dev.channel_set_ne (d : Dev) {k j : Nat} (x : DmaChannel) (h : j ≠ k) : (d.setChannel k x).channel j = d.channel j := tabGet_tabPut_ne x h
/-- The object set. -/
@[simp] theorem Dev.channel_set_same (d : Dev) (k : Nat) (x : DmaChannel) : (d.setChannel k x).channel k = x := tabGet_tabPut_same _ k x
/-- Another object is as before. -/
theorem Dev.key_set_ne (d : Dev) {k j : Nat} (x : KeySlot) (h : j ≠ k) : (d.setKey k x).key j = d.key j := tabGet_tabPut_ne x h
/-- The object set. -/
@[simp] theorem Dev.key_set_same (d : Dev) (k : Nat) (x : KeySlot) : (d.setKey k x).key k = x := tabGet_tabPut_same _ k x
/-- Another object is as before. -/
theorem Dev.tile_set_ne (d : Dev) {k j : Nat} (x : Tile) (h : j ≠ k) : (d.setTile k x).tile j = d.tile j := tabGet_tabPut_ne x h
/-- The object set. -/
@[simp] theorem Dev.tile_set_same (d : Dev) (k : Nat) (x : Tile) : (d.setTile k x).tile k = x := tabGet_tabPut_same _ k x
/-- Another object is as before. -/
theorem Dev.sat_set_ne (d : Dev) {k j : Nat} (x : Entry) (h : j ≠ k) : (d.setSat k x).sat j = d.sat j := tabGet_tabPut_ne x h
/-- The object set. -/
@[simp] theorem Dev.sat_set_same (d : Dev) (k : Nat) (x : Entry) : (d.setSat k x).sat k = x := tabGet_tabPut_same _ k x
/-- Another object is as before. -/
theorem Dev.lst_set_ne (d : Dev) {k j : Nat} (x : Entry) (h : j ≠ k) : (d.setLst k x).lst j = d.lst j := tabGet_tabPut_ne x h
/-- The object set. -/
@[simp] theorem Dev.lst_set_same (d : Dev) (k : Nat) (x : Entry) : (d.setLst k x).lst k = x := tabGet_tabPut_same _ k x
/-- Another object is as before. -/
theorem Dev.fence_set_ne (d : Dev) {k j : Nat} (x : Fence) (h : j ≠ k) : (d.setFence k x).fence j = d.fence j := tabGet_tabPut_ne x h
/-- The object set. -/
@[simp] theorem Dev.fence_set_same (d : Dev) (k : Nat) (x : Fence) : (d.setFence k x).fence k = x := tabGet_tabPut_same _ k x
/-- Another object is as before. -/
theorem Dev.darner_set_ne (d : Dev) {k j : Nat} (x : Darner) (h : j ≠ k) : (d.setDarner k x).darner j = d.darner j := tabGet_tabPut_ne x h
/-- The object set. -/
@[simp] theorem Dev.darner_set_same (d : Dev) (k : Nat) (x : Darner) : (d.setDarner k x).darner k = x := tabGet_tabPut_same _ k x
/-- Another object is as before. -/
theorem Dev.mce_set_ne (d : Dev) {k j : Nat} (x : McEntry) (h : j ≠ k) : (d.setMce k x).mce j = d.mce j := tabGet_tabPut_ne x h
/-- The object set. -/
@[simp] theorem Dev.mce_set_same (d : Dev) (k : Nat) (x : McEntry) : (d.setMce k x).mce k = x := tabGet_tabPut_same _ k x

/-! ### Registers -/

/-- Another register is as before. -/
theorem Dev.reg_setReg_ne (d : Dev) {p i o p' i' o' : Nat} (v : Word) (h : rk p' i' o' ≠ rk p i o) : (d.setReg p i o v).reg p' i' o' = d.reg p' i' o' :=
  tabGet_tabPut_ne v h

/-- The register set. -/
@[simp] theorem Dev.reg_setReg_same (d : Dev) (p i o : Nat) (v : Word) : (d.setReg p i o v).reg p i o = v := tabGet_tabPut_same _ (rk p i o) v

/-- A register set keeps the canonical form of the register file. -/
theorem Dev.setReg_wf (d : Dev) (h : tabWf regDflt d.regs = true) (p i o : Nat) (v : Word) : tabWf regDflt (d.setReg p i o v).regs = true :=
  tabWf_tabPut h (rk p i o) v

/-! ### The gates -/

/-- A command of the device answers a next state: the queue and the fuses as before, the device as its effect leaves it. -/
@[simp] theorem onDev_eq (s : State) (f : Dev → Dev) : onDev s f = .next { s with dev := f s.dev } := rfl

/-- Where the core runs, an engine acts. -/
@[simp] theorem Dev.whenLive_live (d : Dev) (f : Dev → Dev) (h : d.live = true) : d.whenLive f = f d := by simp [Dev.whenLive, h]

/-- Where the core does not run, an engine does nothing. -/
theorem Dev.whenLive_dead (d : Dev) (f : Dev → Dev) (h : d.live = false) : d.whenLive f = d := by simp [Dev.whenLive, h]

/-- What an engine's gate answers: the effect, or nothing. -/
theorem Dev.whenLive_cases (d : Dev) (f : Dev → Dev) : d.whenLive f = f d ∨ d.whenLive f = d := by
  unfold Dev.whenLive; split <;> simp

/-- Time carried by a command leaves the gate as it was. -/
@[simp] theorem Dev.live_at (d : Dev) (t : Nat) : (d.at t).live = d.live := rfl

end Sys2Proof.Machine
end

