-- ==== Sys2Proof/Laws/Effects.lean ====
section
/-! SUPPORT. One lemma for each shared operation: everything it can do, and what it leaves alone. -/
namespace Sys2Proof.Machine

/-! ### Registers -/

/-- Keys of registers in range differ where page, instance or offset differ. -/
theorem rk_inj {p i o p' i' o' : Nat} (hi : i < 0x100000) (hi' : i' < 0x100000) (ho : o < 0x10000) (ho' : o' < 0x10000) (h : rk p i o = rk p' i' o') :
    p = p' ∧ i = i' ∧ o = o' := by
  unfold rk at h; omega

/-- A register read after any register is set. -/
theorem Dev.reg_setReg (d : Dev) (p i o p' i' o' : Nat) (v : Word) : (d.setReg p i o v).reg p' i' o' = if rk p' i' o' = rk p i o then v else d.reg p' i' o' := by
  split
  · rename_i h
    unfold Dev.reg Dev.setReg
    rw [h]
    exact tabGet_tabPut_same _ _ _
  · rename_i h
    exact d.reg_setReg_ne v h

/-- The number set is read back modulo 2^32. -/
@[simp] theorem Dev.regN_setRegN_same (d : Dev) (p i o v : Nat) : (d.setRegN p i o v).regN p i o = v % 2 ^ 32 := by
  simp [Dev.regN, Dev.setRegN]

/-- Another register's number is as before. -/
theorem Dev.regN_setRegN_ne (d : Dev) {p i o p' i' o' : Nat} (v : Nat) (h : rk p' i' o' ≠ rk p i o) : (d.setRegN p i o v).regN p' i' o' = d.regN p' i' o' := by
  unfold Dev.regN Dev.setRegN
  rw [d.reg_setReg_ne _ h]

/-- Flags raised are read back joined to those that stood. -/
@[simp] theorem Dev.regN_orReg_same (d : Dev) (p i o m : Nat) : (d.orReg p i o m).regN p i o = (d.regN p i o ||| m) % 2 ^ 32 := by
  simp [Dev.orReg]

/-- A read-clear counter raised: held at its greatest value. -/
@[simp] theorem Dev.regN_bumpRc_same (d : Dev) (p i o n : Nat) : (d.bumpRc p i o n).regN p i o = min (d.regN p i o + n) 0xFFFFFFFF := by
  unfold Dev.bumpRc satAdd
  rw [Dev.regN_setRegN_same]
  omega

/-- Flags raised keep the canonical form of the register file. -/
theorem Dev.orReg_wf (d : Dev) (h : tabWf regDflt d.regs = true) (p i o m : Nat) : tabWf regDflt (d.orReg p i o m).regs = true := d.setReg_wf h p i o _

/-! ### Events and logs -/

/-- An event in one bank: the pending bit is raised, and the port's interrupt leaves where none was pending before. -/
theorem Dev.eventAt_cases (d : Dev) (page b port : Nat) :
    d.eventAt page b port = d.orReg page (bank port) 0x0018 (2 ^ b) ∨ d.eventAt page b port = (d.orReg page (bank port) 0x0018 (2 ^ b)).raisePort port := by
  unfold Dev.eventAt Dev.withInt
  dsimp only
  split
  · exact Or.inr rfl
  · exact Or.inl rfl

/-- What leaves for a port: at most one message, and nothing else changes. -/
theorem Dev.raisePort_eq (d : Dev) (port : Nat) : d.raisePort port = { d with out := (d.raisePort port).out } := by
  unfold Dev.raisePort
  split
  · rfl
  · split
    · rfl
    · split <;> rfl

/-- An event in one bank touches registers and what leaves the block, nothing else. -/
theorem Dev.eventAt_frame (d : Dev) (page b port : Nat) : d.eventAt page b port = { d with regs := (d.eventAt page b port).regs, out := (d.eventAt page b port).out } := by
  rcases d.eventAt_cases page b port with h | h
  · rw [h]; rfl
  · rw [h, Dev.raisePort_eq]; rfl

/-- A log entry touches registers only. -/
theorem Dev.logEntry_frame (d : Dev) (page p : Nat) (e : Nat × Nat) : d.logEntry page p e = { d with regs := (d.logEntry page p e).regs } := rfl

/-- An access turned away touches registers only. -/
theorem Dev.logErr_frame (d : Dev) (port page off : Nat) (r : Reason) (data : Nat) : d.logErr port page off r data = { d with regs := (d.logErr port page off r data).regs } := rfl

/-! ### Operation registers -/

/-- What a write to an operation register does: logged as of the wrong port, logged as busy, or run with its status kept. -/
theorem Dev.runOp_cases (d : Dev) (port page opOff stsOff data : Nat) (ok : Bool) (f : Dev → Status × Dev) :
    (ok = false ∧ d.runOp port page opOff stsOff data ok f = d.logErr port page opOff .port data) ∨
    (ok = true ∧ bit (d.bankN page port stsOff) 16 = true ∧ d.runOp port page opOff stsOff data ok f = d.logErr port page opOff .busy data) ∨
    (ok = true ∧ bit (d.bankN page port stsOff) 16 = false ∧ stSuccess (f (d.setBankN page port opOff data)).1.code = true ∧
      d.runOp port page opOff stsOff data ok f = (f (d.setBankN page port opOff data)).2.setBankN page port stsOff (f (d.setBankN page port opOff data)).1.code) ∨
    (ok = true ∧ bit (d.bankN page port stsOff) 16 = false ∧ stSuccess (f (d.setBankN page port opOff data)).1.code = false ∧
      d.runOp port page opOff stsOff data ok f = (d.setBankN page port opOff data).setBankN page port stsOff (f (d.setBankN page port opOff data)).1.code) := by
  cases ok with
  | false => exact Or.inl ⟨rfl, rfl⟩
  | true =>
    right
    cases hb : bit (d.bankN page port stsOff) 16 with
    | true => left; exact ⟨rfl, rfl, by simp [Dev.runOp, hb]⟩
    | false =>
      right
      cases hs : stSuccess (f (d.setBankN page port opOff data)).1.code with
      | true => left; exact ⟨rfl, rfl, rfl, by simp [Dev.runOp, hb, hs]⟩
      | false => right; exact ⟨rfl, rfl, rfl, by simp [Dev.runOp, hb, hs]⟩

/-- With no failing code the operation runs. -/
@[simp] theorem opOr_nil (d : Dev) (f : Unit → Status × Dev) : opOr d [] f = f () := rfl

/-- With a failing code the device is as before. -/
theorem opOr_cons (d : Dev) (e : Status) (r : List Status) (f : Unit → Status × Dev) : (opOr d (e :: r) f).2 = d := rfl

/-- The highest of several statuses is one of them, and none is higher. -/
theorem status_max (e : Status) (r : List Status) :
    (r.foldl (fun a s => if a.code < s.code then s else a) e) ∈ e :: r ∧ ∀ s ∈ e :: r, s.code ≤ (r.foldl (fun a s => if a.code < s.code then s else a) e).code := by
  induction r generalizing e with
  | nil => exact ⟨List.mem_singleton.mpr rfl, by simp⟩
  | cons x r ih =>
    simp only [List.foldl_cons]
    split
    · rename_i hlt
      obtain ⟨h1, h2⟩ := ih x
      refine ⟨List.mem_cons_of_mem _ h1, ?_⟩
      intro s hs
      rcases List.mem_cons.mp hs with rfl | hs
      · exact Nat.le_trans (Nat.le_of_lt hlt) (h2 x (List.mem_cons_self ..))
      · exact h2 s hs
    · rename_i hge
      obtain ⟨h1, h2⟩ := ih e
      refine ⟨?_, ?_⟩
      · rcases List.mem_cons.mp h1 with h | h
        · rw [h]; exact List.mem_cons_self ..
        · exact List.mem_cons_of_mem _ (List.mem_cons_of_mem _ h)
      · intro s hs
        rcases List.mem_cons.mp hs with rfl | hs
        · exact h2 s (List.mem_cons_self ..)
        · rcases List.mem_cons.mp hs with rfl | hs
          · exact Nat.le_trans (Nat.le_of_not_lt hge) (h2 e (List.mem_cons_self ..))
          · exact h2 s (List.mem_cons_of_mem _ hs)

/-! ### The always-on domain -/

/-- Where the always-on domain runs, it serves. -/
@[simp] theorem Dev.whenAon_up (d : Dev) (f : Dev → Dev) (h : d.aon.aonUp = true) : d.whenAon f = f d := by simp [Dev.whenAon, h]

/-- Where it does not run, nothing happens. -/
theorem Dev.whenAon_down (d : Dev) (f : Dev → Dev) (h : d.aon.aonUp = false) : d.whenAon f = d := by simp [Dev.whenAon, h]

/-- The RAS log takes an entry: registers and the log, nothing else. -/
theorem Dev.rasLog_frame (d : Dev) (e : LogEntry) : d.rasLog e = { d with regs := (d.rasLog e).regs, ras := (d.rasLog e).ras } := by
  unfold Dev.rasLog
  dsimp only
  split <;> rfl

/-- A device halted before only marks `MULTI`. -/
theorem Dev.halt_again (d : Dev) (c w a k n : Nat) (h : d.aon.halted = true) : d.halt c w a k n = { d with aon := { d.aon with halt := { d.aon.halt with multi := true } } } := by
  simp [Dev.halt, h]

/-- After a halt the device is halted, whatever it was. -/
theorem Dev.halt_halted (d : Dev) (c w a k n : Nat) : (d.halt c w a k n).aon.halted = true := by
  unfold Dev.halt
  split
  · assumption
  · rfl

/-- A first halt keeps its record, and touches keys, ports, the logs and the links' state only. -/
theorem Dev.halt_first (d : Dev) (c w a k n : Nat) (h : d.aon.halted = false) :
    d.halt c w a k n = { d with regs := (d.halt c w a k n).regs, ras := (d.halt c w a k n).ras, keys := d.zeroizeKeys.keys, ports := portsDown d.ports, ethUp := 0, aon := { d.aon with halted := true, halt := haltRecord d c w a k n } } := by
  unfold Dev.halt
  simp only [h, Bool.false_eq_true, if_false]
  rw [Dev.rasLog_frame]
  rfl

/-! ### The flash -/

/-- A byte of the flash read after bytes are stored outside it. -/
theorem Dev.flashWrite_outside (d : Dev) (a : Nat) (bs : List Byte) (x : Nat) (h : x < a ∨ a + bs.length ≤ x) : tabGet erasedByte (d.flashWrite a bs).flash x = tabGet erasedByte d.flash x := by
  unfold Dev.flashWrite
  show tabGet erasedByte (bs.foldl _ (d.flash, a)).1 x = _
  generalize d.flash = t
  induction bs generalizing t a with
  | nil => rfl
  | cons b r ih =>
    simp only [List.length_cons] at h
    simp only [List.foldl_cons]
    rw [ih (a + 1) (by omega) (tabPut erasedByte t a b)]
    exact tabGet_tabPut_ne b (by omega)

/-- Stored flash bytes keep the canonical form. -/
theorem Dev.flashWrite_wf (d : Dev) (h : tabWf erasedByte d.flash = true) (a : Nat) (bs : List Byte) : tabWf erasedByte (d.flashWrite a bs).flash = true := by
  unfold Dev.flashWrite
  show tabWf erasedByte (bs.foldl _ (d.flash, a)).1 = true
  revert h
  generalize d.flash = t
  intro h
  induction bs generalizing t a with
  | nil => exact h
  | cons b r ih => exact ih (a + 1) _ (tabWf_tabPut h a b)

/-- An erased sector keeps the canonical form. -/
theorem Dev.flashErase_wf (d : Dev) (h : tabWf erasedByte d.flash = true) (a : Nat) : tabWf erasedByte (d.flashErase a).flash = true :=
  tabWf_tabClear h (fun k => k / 4096 == a / 4096)

end Sys2Proof.Machine
end

