-- ==== Sys2Proof/Tests/Slice0.lean ====
section
/-! SUPPORT. The model's own tests: worked examples and tables of the spec, a witness for the hypotheses of each statement, and the ill-formed
commands that `Instr.wf` refuses. -/
namespace Sys2Proof.Machine

set_option Elab.async false

/-- The core runs, PCIe up, nothing else. -/
def liveDev : Dev := { aon := { ready := true, pcieUp := true } }
/-- A state of that device. -/
def liveState : State := { dev := liveDev }
/-- The device after a command. -/
def after (i : Instr) (s : State) : Dev :=
  match exec i s with
  | .next t => t.dev
  | _ => {}


/-! ### Ill-formed commands -/

theorem test_wf_port : (Instr.selectWrite 0x43 0x010 0x30 0 0).wf = false := by decide
theorem test_wf_time : (Instr.registerWrite 0 0x010 0x30 0 {} (2 ^ 64)).wf = false := by decide
theorem test_wf_tracker : (Instr.commandRelease 65536 0).wf = false := by decide
theorem test_wf_tile : (Instr.nop 96 0).wf = false := by decide
theorem test_wf_slot : (Instr.nop 0 16).wf = false := by decide
theorem test_wf_link : (Instr.alnkEnable 0 16).wf = false := by decide
theorem test_wf_hoop : (Instr.hoopCreate 0 16 0).wf = false := by decide
theorem test_wf_ctx : (Instr.evtCreate 0 false 4096 0).wf = false := by decide
theorem test_wf_func : (Instr.flrVf 64 0).wf = false := by decide
theorem test_wf_page : (Instr.softReset 0 1024 0).wf = false := by decide
theorem test_wf_offset : (Instr.rcRead 0 0 65536 0).wf = false := by decide
theorem test_wf_word : (Instr.blkIntSet 0 0 (2 ^ 32) 0).wf = false := by decide
theorem test_wf_darner : (Instr.darnerSramUe 8).wf = false := by decide
theorem test_wf_channel : (Instr.dmaSegmentComplete 16 0 false 0 0).wf = false := by decide
theorem test_wf_crossing : (Instr.peerResetEntry 145 0 0 0).wf = false := by decide
theorem test_wf_stack : (Instr.hbmTest 0 8 false true false 0 0).wf = false := by decide
theorem test_wf_eth : (Instr.ethernetLinkDown 2).wf = false := by decide
theorem test_wf_group : (Instr.shutFence 0 256 0).wf = false := by decide
theorem test_wf_good : (Instr.nop 95 15).wf = true := by decide

/-! ### Registers -/

theorem up_live : Up liveState := ⟨rfl, rfl, rfl, rfl⟩

/-- A device with context 1 of the PF active in hoop 0, which owns saturation and layer-statistics entry 1. -/
def regDev : Dev :=
  { liveDev with ctxs := [(1, { state := .active })], sats := [(1, { assigned := true, ctx := 1 })], lsts := [(1, { assigned := true, ctx := 1 })] }
/-- A port has selected an instance. -/
def selState (d : Dev) (port page n : Nat) : State := { dev := d.setBankN page port 0x0030 n }

/-- Example of R484: the low word of `TILE_ELAPSED` is 0xFFFF_FF00 with 4 above it; the high word read later answers the latch, although the counter has gone on. -/
def elapsedDev : Dev := ((liveDev.setBankN pgTile 0 0x0030 7).setReg64 pgTile 7 0x0188 0x4FFFFFF00)

theorem test_r484_low : (after (.lowWordRead 0 pgTile 0x0188 0) { dev := elapsedDev }).out = [.readData 0 pgTile 0x0188 0xFFFFFF00] := by decide
theorem test_r484_high : (after (.rcRead 0 pgTile 0x018C 0)
    { dev := (after (.lowWordRead 0 pgTile 0x0188 0) { dev := elapsedDev }).setReg64 pgTile 7 0x0188 0x500000540 }).out.head? =
      some (.readData 0 pgTile 0x018C 4) := by decide
/-- Without the low read first, the high word is the present one. -/
theorem test_r484_high_alone : (after (.rcRead 0 pgTile 0x018C 0) { dev := elapsedDev.setReg64 pgTile 7 0x0188 0x500000540 }).out =
    [.readData 0 pgTile 0x018C 5] := by decide

theorem witness_widthError : Up liveState ∧ (0 : Nat) ≤ 0x41 := ⟨up_live, by decide⟩
theorem witness_served : Served 0 pgTile ∧ Served 1 pgNum ∧ Served 0 pgAlnk ∧ Served 0x40 pgStor ∧ Served 0x41 pgMenc := by
  unfold Served; decide
theorem witness_outOfRange : Up (selState liveDev 0 pgTile 96) ∧ isWindow 0x0100 = true ∧ isWindow 0x0FFC = true ∧
    pageSelMax pgTile < (selState liveDev 0 pgTile 96).dev.bankN pgTile 0 0x0030 ∧ (selectOffs pgTile).contains 0x0100 = false :=
  ⟨⟨rfl, rfl, rfl, rfl⟩, by decide⟩
theorem witness_intSet : Up liveState ∧ portIsFunc 63 = true ∧ (0xFFFFFFFF : Nat) < 2 ^ 32 := ⟨up_live, by decide⟩
theorem witness_readClears : Up (selState liveDev 0 pgTile 95) ∧ liveDev.sees 0 pgTile 95 0x0198 = .yes ∧ liveDev.reached pgTile 95 0x0198 = true ∧
    liveDev.heldPort pgTile 95 = false ∧ (liveDev.tile 95).out = false := ⟨⟨rfl, rfl, rfl, rfl⟩, by decide⟩
theorem witness_lowRead : Up (selState liveDev 0x40 pgStor 63) ∧ liveDev.sees 0x40 pgStor 63 0x010C = .yes ∧ liveDev.reached pgStor 63 0x010C = true :=
  ⟨⟨rfl, rfl, rfl, rfl⟩, by decide⟩
theorem witness_commit : Up (selState liveDev 0 pgDarn 7) ∧ liveDev.sees 0 pgDarn 7 0x0108 = .yes ∧ liveDev.sees 0 pgDarn 7 0x010C = .yes ∧
    liveDev.reached pgDarn 7 0x010C = true := ⟨⟨rfl, rfl, rfl, rfl⟩, by decide⟩
theorem witness_num : Up (selState regDev 0 pgNum 1) ∧ (selState regDev 0 pgNum 1).dev.xOpen 138 = true ∧ (regDev.sat 1).assigned = true ∧
    regDev.seesCtx 0 (regDev.sat 1).ctx = true ∧ (regDev.sat 2).assigned = false ∧ regDev.seesCtx 5 1 = false := ⟨⟨rfl, rfl, rfl, rfl⟩, by decide⟩
theorem witness_lst : Up (selState regDev 0 pgLst 1) ∧ (regDev.lst 1).assigned = true ∧ regDev.seesCtx 0 (regDev.lst 1).ctx = true ∧
    (regDev.sat (fld 0x00100200 19 8)).assigned = false := ⟨⟨rfl, rfl, rfl, rfl⟩, by decide⟩

/-- A write of `SAT_CTL` by the owner takes effect; one by another function is logged as 0x03. -/
theorem test_num_write : (after (.registerWrite 0 pgNum 0x0100 1 {} 0) (selState regDev 0 pgNum 1)).regN pgNum 1 0x0100 = 1 := by decide
theorem test_num_hidden : (after (.registerWrite 5 pgNum 0x0100 1 {} 0) (selState regDev 5 pgNum 1)).bankN pgNum 5 0x0040 = 0x100 + 0x018 * 2 ^ 16 + 3 * 2 ^ 26 := by decide
/-- `MMU_FAULT_TMO` takes 100,000 and not 99,999. -/
theorem test_mmu_tmo : (after (.registerWrite 0 pgMmu 0x1000 100000 {} 0) liveState).regN pgMmu 0 0x1000 = 100000 ∧
    (after (.registerWrite 0 pgMmu 0x1000 99999 {} 0) liveState).regN pgMmu 0 0x1000 = liveDev.regN pgMmu 0 0x1000 := by decide

/-! ### Tiles -/

/-- Slot 0 of tile 3 runs tracker 5 of context 1 in hoop 0: one instruction word, then `recs` of the operand table, in unit 0 of the pantry. -/
def insDev (w : Nat) (recs : List (Nat × List Byte)) (data : List (Nat × List Byte)) : Dev :=
  let pa := fun off => 3 * 2 ^ 22 + off
  let p0 := memWrite [] (pa 0) (toBytes 16 w)
  let p1 := recs.foldl (fun m r => memWrite m (pa (16 + 128 * r.1)) r.2) p0
  let p2 := data.foldl (fun m r => memWrite m (pa r.1) r.2) p1
  { liveDev with
    ctxs := [(1, { state := .active })]
    cmds := [(5, { live := true, ctx := 1, stage := .running })]
    pantry := p2
    tiles := [(3, { slots := [(0, { valid := true, ctx := 1, units := [0], instrs := 1, records := 8, running := some 5, xs := [(1, 0x700000009)] })] })] }
/-- A record of R108: shelf or cellar, element format, unscaled. -/
def recBytes (addr rows cols pitch flags : Nat) : List Byte :=
  toBytes 8 addr ++ List.replicate 40 0 ++ toBytes 4 rows ++ toBytes 4 cols ++ toBytes 4 pitch ++ toBytes 4 0 ++ toBytes 4 flags
def insState (d : Dev) : State := { dev := d }

theorem witness_setx : Issues (insDev (0x01 + 1 * 2 ^ 20) [] []) 3 0 opSetx := by unfold Issues; decide +kernel
theorem witness_loop : Issues (insDev (0x03 + 2 * 2 ^ 20 + 8 * 2 ^ 36) [] []) 3 0 opLoop := by unfold Issues; decide +kernel
theorem witness_end : Issues (insDev 0x05 [] []) 3 0 opEnd ∧ ((insDev 0x05 [] []).slot 3 0).running = some 5 := by unfold Issues; decide +kernel
theorem witness_fence : Issues (insDev 0x04 [] []) 3 0 opFence ∧ (insDev 0x04 [] []).fenceForeign ((insDev 0x04 [] []).slot 3 0) 4 = false := by
  unfold Issues; decide +kernel
/-- `ADDX` x1 lo −10, hi 1 on (9, 7): each half on its own (R119). -/
theorem test_addx : ((after (.addx 3 0) (insState (insDev (0x02 + 1 * 2 ^ 20 + 0xFFFFFFF6 * 2 ^ 24 + 1 * 2 ^ 56) [] []))).slot 3 0).x 1 = 0x8FFFFFFFF := by
  decide +kernel
/-- `SETX` of the worked example, and the PC. -/
theorem test_setx : ((after (.setx 3 0) (insState (insDev (0x01 + 1 * 2 ^ 20 + 256 * 2 ^ 24) [] []))).slot 3 0).x 1 = 256 ∧
    ((after (.setx 3 0) (insState (insDev (0x01 + 1 * 2 ^ 20 + 256 * 2 ^ 24) [] []))).slot 3 0).pc = 1 := by decide +kernel
/-- `END` on the only tile ends the command's work. -/
theorem test_end : ((after (.tileEnd 3 0) (insState (insDev 0x05 [] []))).cmd 5).stage = .finished := by decide +kernel
/-- A token not released holds an instruction back. -/
theorem test_twait : after (.vew 3 0 false) (insState ((insDev (0x30 + 1 * 2 ^ 12) [] []).setSlot 3 0
    { (insDev (0x30 + 1 * 2 ^ 12) [] []).slot 3 0 with tokens := 0xFE })) =
    (insDev (0x30 + 1 * 2 ^ 12) [] []).setSlot 3 0 { (insDev (0x30 + 1 * 2 ^ 12) [] []).slot 3 0 with tokens := 0xFE } := by decide +kernel
/-- Loop bodies (R120). -/
theorem test_loop_again : closeLoops 5 [⟨2, 1, 5⟩] = (1, [⟨1, 1, 5⟩]) ∧ closeLoops 5 [⟨1, 1, 5⟩, ⟨3, 0, 5⟩] = (0, [⟨2, 0, 5⟩]) := by decide +kernel
/-- Cycles of the worked example: `LDQ` 538, `MMA` 1,984 (16 and 1,968). -/
theorem test_ldq_cycles : 8 + ldqBody (256 * 512) 3 false false = 538 := by decide +kernel

/-- `MOV` of 1 × 3 bytes (INT8) from shelf offset 1,024 to 1,040. -/
def movDev : Dev := insDev (0x22 + 0 * 2 ^ 20 + 1 * 2 ^ 32 + 1 * 2 ^ 44 + 3 * 2 ^ 60)
  [(0, recBytes 1024 1 3 3 0x80000009), (1, recBytes 1040 1 3 3 0x80000009)] [(1024, [7, 8, 9])]
theorem witness_mov : Issues movDev 3 0 opMov ∧ moveCheck (movDev.slot 3 0) (movDev.cpSrc 3 (movDev.slot 3 0) (movDev.word 3 0))
    (movDev.cpDst 3 (movDev.slot 3 0) (movDev.word 3 0)) = none := by unfold Issues; decide +kernel
theorem test_mov : (after (.mov 3 0 false) (insState movDev)).shelfRead 3 (movDev.slot 3 0) 1039 5 = [0, 7, 8, 9, 0] := by decide +kernel

/-- `VEW` `ADD` of two FP32 values, 1 × 1. -/
def vewDev : Dev := insDev (0x30 + 2 * 2 ^ 20 + 0 * 2 ^ 32 + 1 * 2 ^ 44 + 0xFFF * 2 ^ 56 + 1 * 2 ^ 68 + 1 * 2 ^ 84 + 1 * 2 ^ 108)
  [(0, recBytes 1024 1 1 4 0x80000000), (1, recBytes 1028 1 1 4 0x80000000), (2, recBytes 1032 1 1 4 0x80000000)]
  [(1024, toBytes 4 0x40300000), (1028, toBytes 4 0x3F800000)]
theorem witness_vew : Issues vewDev 3 0 opVew := by unfold Issues; decide +kernel
/-- 2.75 + 1 = 3.75. -/
theorem test_vew_add : vewDev.vwSrc 3 (vewDev.slot 3 0) (vewDev.word 3 0) 0 false = (vewDev.vwSrc 3 (vewDev.slot 3 0) (vewDev.word 3 0) 0 false) ∧
    (after (.vew 3 0 false) (insState vewDev)).shelfRead 3 (vewDev.slot 3 0) 1032 4 = toBytes 4 0x40700000 := by decide +kernel

/-- `KNOT` of BF16 1 × 1 × 1: 3 × 2 into FP32. -/
def knotDev : Dev := insDev (0x12 + 0 * 2 ^ 20 + 1 * 2 ^ 32 + 2 * 2 ^ 44 + 1 * 2 ^ 56 + 1 * 2 ^ 72 + 1 * 2 ^ 85)
  [(0, recBytes 1024 1 1 2 0x80000001), (1, recBytes 1026 1 1 2 0x80000201), (2, recBytes 1028 1 1 4 0x80000000)]
  [(1024, [0x40, 0x40]), (1026, [0x00, 0x40])]
theorem witness_knot : Issues knotDev 3 0 opKnot ∧ mmCheck (knotDev.slot 3 0) (knotDev.mmA 3 (knotDev.slot 3 0) (knotDev.word 3 0))
    (knotDev.mmW 3 (knotDev.slot 3 0) (knotDev.word 3 0)) (knotDev.mmO 3 (knotDev.slot 3 0) (knotDev.word 3 0)) false = none := by unfold Issues; decide +kernel
theorem test_knot : (after (.knot 3 0 false) (insState knotDev)).shelfRead 3 (knotDev.slot 3 0) 1028 4 = toBytes 4 0x40C00000 := by decide +kernel

/-- `SEND` of 256 bytes to a queue of tile 3 itself owned by slot 0, and the same without a credit. -/
def sendDev (taken : List Nat) : Dev :=
  let d := insDev (0x25 + 0 * 2 ^ 20 + 3 * 2 ^ 32 + 2 * 2 ^ 39 + 9 * 2 ^ 43 + 256 * 2 ^ 59) [(0, recBytes 1024 1 256 256 0x80000009)] [(1024, [5])]
  d.setTile 3 ((d.tile 3).setRecvq 2 { owner := some 0, slots := 2, size := 256, off := 4096, taken := taken })
theorem witness_send : Issues (sendDev []) 3 0 opSend ∧ ((sendDev []).tile 3).recvq 2 = { owner := some 0, slots := 2, size := 256, off := 4096 } ∧
    (RecvQ.freeRing { owner := some 0, slots := 2, size := 256, off := 4096 }) = some 0 := by unfold Issues; decide +kernel
theorem test_send_parks : ((after (.send 3 0 false) (insState (sendDev [0, 1]))).slot 3 0).parked = true := by decide +kernel
theorem test_unpark : ((after (.handoffUnpark 3 0) (insState ((sendDev [1]).setSlot 3 0 { (sendDev [1]).slot 3 0 with parked := true }))).slot 3 0).parked = false := by
  decide +kernel
/-- `REL` of a bound view. -/
def relDev : Dev := (insDev (0x27 + 1 * 2 ^ 20) [] []).setSlot 3 0 { (insDev (0x27 + 1 * 2 ^ 20) [] []).slot 3 0 with views := [⟨1, 2, 0, 4096⟩] }
theorem witness_rel : Issues relDev 3 0 opRel := by unfold Issues; decide +kernel
theorem witness_retire : (({ flight := [{ lane := 2, count := 538 }], running := some 5 } : Slot).onLane 2).isSome = true := by decide +kernel
theorem test_retire : (after (.instructionRetire 3 0 2 538 0 1 0 false) (insState ((insDev 0x05 [] []).setSlot 3 0
    { (insDev 0x05 [] []).slot 3 0 with flight := [{ lane := 2, count := 538 }] }))).reg64 pgTile 3 0x0190 = 2 := by decide +kernel
/-- A tile at half the rate of its idle row is flagged. -/
theorem test_health : bit ((after (.tileHealthWindow 3) (insState (liveDev.setTile 3 { winNom := 500, winElapsed := 1000 }))).regN pgTile 0 0x1010) 3 = true := by
  decide +kernel

/-! ### Host interface -/

/-- Hoop 0 of the PF with contexts, queues and a granted page 3; key slot 1 as boot creates it (R262); context 1 active. -/
def hostDev : Dev :=
  { liveDev with
    hoops := [(0, { state := .active, inForce := { funcs := 1, ctxs := 4, qbase := 8, qcount := 2, keys := 4 } })]
    ctxs := [(1, { state := .active })]
    pot := [(3, { granted := true })]
    keys := [(1, { state := .active, usage := useMem })] }
def hostState (d : Dev) : State := { dev := d }
/-- The port's arguments of a page written. -/
def args (d : Dev) (page port : Nat) (l : List (Nat × Nat)) : Dev := l.foldl (fun d e => d.setBankN page port (0x1008 + 4 * e.1) e.2) d

theorem witness_ctx_create : let d := args hostDev pgCtx 0 [(1, 3), (2, 1)]
    d.live = true ∧ d.mayHold 0 0 = true ∧ (d.potOf 3).granted = true ∧ (d.potOf 3).bound = false ∧ d.keyCheck 0 useMem 1 0 = none ∧
    d.ctxCount 0 < (d.hoop 0).inForce.ctxs ∧ (d.ctx 0).state = .free := by decide +kernel
/-- The first CREATE of the PF (R262) takes context 0. -/
theorem test_ctx_create : let e := after (.ctxCreate 0 0) (hostState (args hostDev pgCtx 0 [(1, 3), (2, 1)]))
    (e.ctx 0).state = .active ∧ (e.ctx 0).root = 3 ∧ (e.potOf 3).maps = 4095 ∧ e.bankN pgCtx 0 0x1020 = 0 := by decide +kernel
/-- DESTROY, the drain, and a second DESTROY. -/
theorem test_ctx_destroy : let e := after (.ctxDestroy 0 0) (hostState (args hostDev pgCtx 0 [(0, 1)]))
    (e.ctx 1).state = .draining ∧ ((after (.fabricDrainEnd 1 0) (hostState e)).ctx 1).state = .free := by decide +kernel
/-- A window not aligned to 4 KiB. -/
theorem test_window_misaligned : (after (.setWindow 0 0) (hostState (args hostDev pgCtx 0 [(0, 1), (1, 0x800), (3, 1)]))).bankN pgCtx 0 0x1020 =
    Status.badDescriptor.code := by decide +kernel
theorem test_window : (tabGet windowDflt ((after (.setWindow 0 0) (hostState (args hostDev pgCtx 0 [(0, 0x50001), (1, 0x2000), (3, 2), (4, 3)]))).ctx 1).windows 5) =
    ⟨0x2000, 2, true, true, false⟩ := by decide +kernel
theorem test_bind_fence : ((after (.bindFence 0 0) (hostState (args hostDev pgCtx 0 [(0, 1)]))).fence 0).state = .idle := by decide +kernel
theorem test_unbind_fence : ((after (.unbindFence 0 0) (hostState ((args hostDev pgCtx 0 [(0, 1), (1, 7)]).setFence 7 { state := .idle, ctx := 1 }))).fence 7).state =
    .free := by decide +kernel
theorem test_ctx_reset : ((after (.ctxReset 0 0) (hostState (args hostDev pgCtx 0 [(0, 1)]))).ctx 1).samples = 1 := by decide +kernel
/-- From the BMC's port (R261). -/
theorem test_ctx_port : (after (.ctxCreate 0x41 0) (hostState hostDev)).bankN pgCtx 0x41 0x0040 = 0x1004 + pgCtx * 2 ^ 16 + 7 * 2 ^ 26 := by decide +kernel

/-- A PUSH queue of 16 entries in vector 5, completion ring in the cellar at 0x1000: the first of the hoop's range. -/
def queArgs : Dev := args hostDev pgQue 0 [(0, 1 + 4 * 2 ^ 12 + 2 ^ 17 + 5 * 2 ^ 20), (3, 0x1000)]
theorem witness_que : queArgs.ctxNamed 0 1 = none ∧ queArgs.queArgsBad 0 = false ∧ queArgs.locked 0 = false ∧ (queArgs.queue 8).valid = false := by decide +kernel
theorem test_que_create : let e := after (.queCreate 0 0) (hostState queArgs)
    e.bankN pgQue 0 0x1024 = 8 ∧ (e.queue 8).vec = 5 ∧ e.bankN pgQue 0 0x1020 = 0 := by decide +kernel
/-- A PUSH queue must not name a ring (R266). -/
theorem test_que_push_ring : (after (.queCreate 0 0) (hostState (args queArgs pgQue 0 [(1, 0x1000)]))).bankN pgQue 0 0x1020 = Status.badDescriptor.code := by
  decide +kernel
theorem test_que_destroy : ((after (.queDestroy 0 0) (hostState ((args hostDev pgQue 0 [(5, 8)]).setQueue 8 { valid := true, ctx := 1, push := true }))).queue 8).valid =
    false := by decide +kernel
theorem test_evt_create : ((after (.evtCreate 0 true 1 0) (hostState ((hostDev.setBankN pgEvt 0 0x1008 7).setBankN pgEvt 0 0x100C 1))).evt 0) =
    ⟨true, true, 1, 0, 0x100000007⟩ := by decide +kernel
theorem test_evt_destroy : ((after (.evtDestroy 0 0) (hostState (hostDev.setEvt 0 { valid := true, ctx := 1 }))).evt 0).valid = false := by decide +kernel
/-- A signal below the value (R275). -/
theorem test_evt_backward : let e := after (.evtSigHi 0 0 0) (hostState (hostDev.setEvt 0 { valid := true, ctx := 1, value := 5 }))
    (e.evt 0).value = 5 ∧ e.regN pgEvt 0 0x0114 = 1 := by decide +kernel
theorem witness_signal : (hostDev.setEvt 0 { valid := true, ctx := 1, value := 5 }).seesEvt 0 0 = true := by decide +kernel

/-- A RING queue of 16 entries. -/
def ringDev : Dev := hostDev.setQueue 8 { valid := true, ctx := 1, log2 := 4, vec := 1 }
theorem witness_doorbell : (ringDev.queue 8).valid = true ∧ (ringDev.ctx (ringDev.queue 8).ctx).state = .active ∧ (ringDev.func 0).tdi ≠ .error := by decide +kernel
theorem test_doorbell : ((after (.doorbellRing 0 8 0 4 16 0) (hostState ringDev)).queue 8).tail = 16 := by decide +kernel
/-- Seventeen leave the completion ring of 16 without room; zero is bad; another function's is foreign. -/
theorem test_doorbell_overrun : (after (.doorbellRing 0 8 0 4 17 0) (hostState ringDev)).regN pgQue 8 0x012C = 1 := by decide +kernel
theorem test_doorbell_zero : (after (.doorbellRing 0 8 0 4 0 0) (hostState ringDev)).regN pgQue 8 0x012C = 2 := by decide +kernel
theorem test_doorbell_foreign : (after (.doorbellRing 3 8 0 4 1 0) (hostState ringDev)).bankN pgQue 3 0x1028 = 1 := by decide +kernel
theorem test_doorbell_push : (after (.doorbellPush 0 8 0 (List.replicate 64 0) 0) (hostState (hostDev.setQueue 8 { valid := true, ctx := 1, log2 := 4, push := true }))).queue 8 =
    { valid := true, ctx := 1, log2 := 4, push := true, tail := 1, pushed := [List.replicate 64 0] } := by decide +kernel
/-- An aperture that is not enabled. -/
theorem test_bar4_disabled : (after (.bar4Read 0 0 4 0) (hostState hostDev)).bankN pgCtx 0 0x103C = 1 := by decide +kernel
theorem test_aper_sealed : (after (.aperCtxWrite 0 0x80000001 0) (hostState (hostDev.setHoop 0 { state := .active, isSealed := true }))).bankN pgCtx 0 0x1030 = 0 := by
  decide +kernel
theorem test_flr : ((after (.flrPf 0) (hostState hostDev)).ctx 1).state = .draining := by decide +kernel
theorem test_ide : ((after (.ideIntegrityFailure 5 0) (hostState hostDev)).func 5).tdi = .error ∧
    ((after (.stopInterface 5 0) (hostState (hostDev.setFunc 5 { tdi := .error }))).func 5).tdi = .configUnlocked := by decide +kernel
theorem witness_functions : hostDev.live = true ∧ 1 ≤ 63 ∧ 63 ≤ 63 := by decide

/-! ### Commands, hoops, promises -/

/-- A PUSH queue with a SIGNAL descriptor that signals 9 to event 0, its completion record going to cellar address 0x1000 of a context that maps nothing. -/
def signalDesc : List Byte := [0x0B, 0x01, 0, 0, 0, 0, 0, 4] ++ List.replicate 48 0 ++ toBytes 8 9
def signalDev : Dev :=
  { (hostDev.setEvt 0 { valid := true, ctx := 1, value := 5 }) with
    queues := [(8, { valid := true, ctx := 1, log2 := 4, push := true, tail := 1, pushed := [signalDesc], cpl := 0x1000 })] }
theorem witness_decision : let d := signalDev
    d.fetchDesc 8 0 = some signalDesc ∧ (d.checks (d.candidate 8 0 signalDesc)).2 = [] ∧ d.noCapacity (d.checks (d.candidate 8 0 signalDesc)).1 = false := by
  decide +kernel
/-- The decision takes tracker 0, the release runs it, and `SIGNAL` then completes (R268 to R270, R275). -/
def decided : Dev := after (.descriptorDecision 8 100) (hostState signalDev)
theorem test_decision : (decided.cmd 0).live = true ∧ (decided.queue 8).decided = 1 := by decide +kernel
theorem witness_release : decided.mayRelease 0 = true ∧ (decided.cmd 0).ordering = none ∧ (decided.cmd 0).lookup = [] := by decide +kernel
/-- F is 8,192 ns (R293). -/
theorem test_release : ((after (.commandRelease 0 1000) (hostState decided)).cmd 0).deadline = 9192 := by decide +kernel
theorem test_complete : let d := (after (.commandRelease 0 1000) (hostState decided))
    let e := after (.commandComplete 0 2000) (hostState (d.setCmd 0 { d.cmd 0 with stage := .finished }))
    (e.evt 0).value = 9 ∧ (e.cmd 0).live = false := by decide +kernel
/-- A descriptor with a reserved field set is rejected (R271). -/
theorem test_reject : let d := { signalDev with queues := [(8, { signalDev.queue 8 with pushed := [signalDesc.set 38 1] })] }
    (after (.descriptorDecision 8 100) (hostState d)).regN pgQue 8 0x0130 = 1 := by decide +kernel

/-- The cellar term of the worked example: 9,321 and 4,000 granules, 3 ranges, 16 slots: 11,264 ns, in eighths (R292). -/
theorem test_price_cellar : priceCellar 9321 4000 3 16 = some (8 * 11264) := by decide
/-- Its tile term: 4,902 cycles, doubled at σ = 128, halved to ns. -/
theorem test_price_tiles : 4 * cdiv (cdiv (4331 * 65536) 57904 * 256) 128 = 8 * 4902 := by decide

theorem witness_hoops : (liveDev.hoop 3).state = .free ∧ (hostDev.hoop 0).state ≠ .free ∧ hostDev.hoopBusyG 0 = false ∧ hostDev.otherHoops 0 = [] := by decide +kernel
theorem test_hoop_create : ((after (.hoopCreate 0 3 0) (hostState liveDev)).hoop 3) = { state := .active } := by decide +kernel
/-- `APPLY` of a staged power cap of 200 W. -/
def stagedDev : Dev := liveDev.setHoop 3 { state := .active, staged := { power := 200 } }
theorem witness_apply : stagedDev.applyErrs 3 false (stagedDev.hoop 3).staged = [] ∧ stagedDev.bindingChange 3 (stagedDev.hoop 3).staged = false := by decide +kernel
theorem test_apply : ((after (.hoopApply 0 3 0) (hostState stagedDev)).hoop 3).inForce.power = 200 := by decide +kernel
/-- 61 cellar slots are more than 60 (R286). -/
theorem test_apply_over : (after (.hoopApply 0 3 0) (hostState (liveDev.setHoop 3 { state := .active, staged := { cslots := 61 } }))).bankN pgHoop 0 0x1008 =
    Status.rejectNoCapacity.code := by decide +kernel
theorem test_exclusive : ((after (.hoopExclusive 0 0 0) (hostState hostDev)).hoop 0).excl = true ∧
    ((after (.hoopInterleave 0 0 0) (hostState (hostDev.setHoop 0 { state := .active, excl := true }))).hoop 0).excl = false := by decide +kernel
theorem test_hoop_destroy : ((after (.hoopDestroy 0 3 0) (hostState stagedDev)).hoop 3).state = .free := by decide +kernel
theorem test_hoop_reset : ((after (.hoopReset 0 3 0) (hostState (stagedDev.setHoop 3 { state := .active, accepted := [(0, 7)] }))).hoop 3).accepted = [] := by decide +kernel
theorem witness_seal : stagedDev.authorised 3 0x01 (stagedDev.hoop 3).staged.bytes 0 = false := by decide +kernel

/-- A released class G command of hoop 0 with deadline 100. -/
def lateDev : Dev := hostDev.setCmd 4 { live := true, released := true, deadline := 100, desc := List.replicate 64 0 }
theorem test_miss : ((after (.deadlinePassed 4 101) (hostState lateDev)).cmd 4).cause = 0xF ∧ ((after (.deadlinePassed 4 100) (hostState lateDev)).cmd 4).cause = 0 := by
  decide +kernel
theorem test_thermal : let e := after (.sensorSample 7 421 101) (hostState lateDev)
    (e.cmd 4).cause = 2 ∧ e.therm.safe = true := by decide +kernel
/-- Two samples in a row above 115 degrees halt the device with cause 0x13 (R514). -/
theorem test_trip : (after (.sensorSample 7 461 101) (hostState (after (.sensorSample 7 461 100) (hostState hostDev)))).aon.halt.cause = 0x13 := by decide +kernel
theorem witness_interval : ({} : Dev).therm.intStart + 1000000 ≤ ((hostDev.at 1000000).now) := by decide

/-! ### The model cache -/

/-- An entry of hoop 0 with a page on stack 0 and one on stack 1 (the worked example of chapter 9). -/
def mcE (model stamp : Nat) (pinned : Bool) (holders : List Nat) : McEntry :=
  { assigned := true, ctx := 1, model := model, resident := true, pinned := pinned, holders := holders, stamp := stamp, pages := [(16 * model, 1, 0), (16 * model + 1, 1, 0)] }
/-- Sixteen resident entries, two of them pinned, one held; 0x117 registered only; a command of context 1 with the model list. -/
def mcDev : Dev :=
  { (hostDev.setHoop 0 { state := .active, inForce := { funcs := 1, mcEntries := 1024, mcLines := 16 } }) with
    mcLookups := [(0, 5000)]
    cmds := [(6, { live := true, ctx := 1, desc := List.replicate 1 1 ++ [1] ++ List.replicate 62 0, lookup := [0x105, 0x111, 0x117] })]
    mc := [(0, mcE 0x120 4995 false []), (1, mcE 0x121 4995 false []), (2, mcE 0x122 4995 false []), (3, mcE 0x101 4990 true []), (4, mcE 0x102 4999 true []),
      (5, mcE 0x123 4995 false []), (6, mcE 0x105 4995 false []), (7, mcE 0x111 4995 false []), (8, mcE 0x124 4995 false []), (9, mcE 0x108 4962 false []),
      (10, mcE 0x125 4995 false []), (11, mcE 0x10A 4971 false []), (12, mcE 0x126 4995 false []), (13, mcE 0x127 4995 false []), (14, mcE 0x10C 4962 false [99]),
      (20, mcE 0x113 4962 false []), (21, { mcE 0x117 0 false [] with resident := false })] }
def mcAfter : Dev := after (.commandRelease 6 10) (hostState mcDev)
/-- Entry 9 goes, entry 20 stays, and 0x117 fills under stamp 5,001. -/
theorem test_mc_evict : (mcAfter.mce 9).resident = false ∧ (mcAfter.mce 20).resident = true ∧ (mcAfter.mce 21).filling = true ∧ (mcAfter.mce 21).stamp = 5001 := by
  decide +kernel
theorem test_mc_counts : mcAfter.reg64 pgMcache 1 0x1018 = 2 ∧ mcAfter.reg64 pgMcache 1 0x1020 = 1 ∧ mcAfter.reg64 pgMcache 1 0x1028 = 131072 ∧
    mcAfter.reg64 pgMcache 1 0x1030 = 1 := by decide +kernel
/-- The command waits for the fill and is released after it. -/
theorem test_mc_fill : ((after (.commandRelease 6 30) (hostState (after (.cacheFillDone 21 20) (hostState mcAfter)))).cmd 6).released = true ∧
    (mcAfter.cmd 6).released = false := by decide +kernel
/-- A released CACHE command with its block: operation and model. -/
def cacheDev (op model : Nat) : Dev :=
  mcDev.setCmd 7 { live := true, ctx := 1, released := true, stage := .running, desc := [7, 1] ++ List.replicate 62 0,
                   block := toBytes 4 op ++ toBytes 4 model ++ List.replicate 24 0 }
theorem witness_cache : (cacheDev 2 0x108).begins 7 tyCache = true ∧ ((cacheDev 2 0x108).cmd 7).cop = 2 ∧ ((cacheDev 2 0x108).cmd 7).cblockBad = false ∧
    (cacheDev 2 0x108).mcFind 0 0x108 = some 9 := by decide +kernel
theorem test_mc_drop : ((after (.cacheDrop 7 0) (hostState (cacheDev 2 0x108))).mce 9).assigned = false ∧
    ((after (.cacheDrop 7 0) (hostState (cacheDev 2 0x10C))).mce 14).dropping = true := by decide +kernel
theorem test_mc_pin : ((after (.cachePin 7 0) (hostState (cacheDev 3 0x108))).mce 9).pinned = true := by decide +kernel
theorem test_mc_unpin : ((after (.cacheUnpin 7 0) (hostState (cacheDev 4 0x101))).mce 3).pinned = false := by decide +kernel
theorem test_mc_prefetch : ((after (.cachePrefetch 7 0) (hostState (cacheDev 5 0x108))).cmd 7).stage = .finished := by decide +kernel
/-- A registration whose page is not mapped (R194). -/
theorem test_mc_register : ((after (.cacheRegister 7 0) (hostState (mcDev.setCmd 7 { (cacheDev 1 0x300).cmd 7 with
    block := toBytes 4 1 ++ toBytes 4 0x300 ++ toBytes 8 0x10000 ++ toBytes 4 1 ++ List.replicate 12 0 }))).cmd 7).status = 0x0201 := by decide +kernel

/-! ### The loader -/

/-- Context 1 with its root in page 3: VA page `i` (0 to 3) lies in page 16 + i under key 1, readable, writable and pinned. -/
def vaDev : Dev :=
  let pt := [(3 * 65536, 1 + 4 * 65536), (4 * 65536, 1 + 5 * 65536)] ++
    (List.range 4).map (fun i => (5 * 65536 + 8 * i, 0x1F + (16 + i) * 65536 + 2 ^ 48))
  { hostDev.setCtx 1 { state := .active, root := 3 } with
    cellar := pt.foldl (fun m e => memWrite m e.1 (toBytes 8 e.2)) [] }
theorem test_translate : vaDev.translate 1 0x10123 true = .ok 0x110123 1 0 true := by decide +kernel

/-- A released command of context 1: its type, bytes 4 to 15 of the descriptor, and its block. -/
def blockDev (d : Dev) (typ : Nat) (mid block : List Byte) : Dev :=
  d.setCmd 7 { live := true, ctx := 1, released := true, stage := .running, desc := [BitVec.ofNat 8 typ, 1, 0xFF, 0xFF] ++ mid ++ List.replicate 64 0, block := block }

theorem witness_signal_cmd : (blockDev hostDev tySignal [] []).begins 7 tySignal = true := by decide +kernel
theorem test_signal_cmd : ((after (.signalCmd 7 0) (hostState (blockDev hostDev tySignal [] []))).cmd 7).stage = .finished := by decide +kernel

/-- Context 1 with a pricking of entry 9, which starts instruction 4 of slot 2 on tile 12. -/
def progDev : Dev :=
  ((hostDev.setCtx 1 { state := .active, pricking := some { tiles := [(12, 2)], entries := [{ id := 9, tiles := [(12, 2, 4)] }] } }).setSlot 12 2
    { valid := true, ctx := 1, units := [0], instrs := 8 })
def execDev : Dev := blockDev progDev tyExec [9, 0, 0, 0, 77, 0, 0, 0] (List.replicate 56 0 ++ [5, 6])
theorem witness_exec : execDev.begins 7 tyExec = true ∧ (execDev.cmd 7).entry = 9 ∧ (execDev.slot 12 2).running = none ∧
    (execDev.slot 12 2).valid = true := by decide +kernel
/-- The program starts at its entry instruction with x15 and `STEP` of the command. -/
theorem test_exec : let e := after (.execCmd 7 0) (hostState execDev)
    (e.slot 12 2).pc = 4 ∧ (e.slot 12 2).step = 77 ∧ tabGet natDflt (e.slot 12 2).xs 15 = 0x605 ∧ (e.slot 12 2).tokens = 0xFF ∧ (e.cmd 7).stage = .running := by
  decide +kernel
theorem witness_unload : (blockDev progDev tyUnload [] []).begins 7 tyUnload = true ∧
    (blockDev progDev tyUnload [] []).cmdsOf (fun x => x.ctx == 1) = [7] ∧ (blockDev progDev tyUnload [] []).slotsOf 1 = [(12, 2)] := by decide +kernel
theorem test_unload : let e := after (.unloadCmd 7 0) (hostState (blockDev progDev tyUnload [] []))
    (e.ctx 1).pricking = none ∧ (e.slot 12 2).valid = false ∧ (e.cmd 7).stage = .finished := by decide +kernel

/-- The smallest image: one tile of one unit whose program is one `END`, one entry point 9. -/
def endImage : List Byte :=
  let tilemap := [0, 0, 0, 0, 1, 0, 0, 0] ++ List.replicate 8 0
  let seg := toBytes 4 1 ++ toBytes 4 1 ++ List.replicate 8 0 ++ toBytes 16 5 ++ List.replicate 128 0
  let entry := toBytes 4 9 ++ toBytes 2 1 ++ List.replicate 10 0 ++ List.replicate 128 0 ++ List.replicate 4 0
  let sect := fun (typ off len : Nat) => toBytes 4 typ ++ toBytes 4 1 ++ toBytes 8 off ++ toBytes 8 len ++ List.replicate 8 0
  [0x50, 0x52, 0x49, 0x43, 0x4B, 0x49, 0x4E, 0x47] ++ toBytes 4 0x10000 ++ toBytes 4 0x41 ++ toBytes 8 676 ++ toBytes 4 3 ++ List.replicate 228 0 ++
    sect 1 352 16 ++ sect 2 368 160 ++ sect 4 528 148 ++ tilemap ++ seg ++ entry
/-- Context 1 with the image at VA 0x1000 and the record at VA 0x8000; hoop 0 holds tiles 12 and 13, and the override puts tile 0 on tile 12. -/
def loadDev (image : List Byte) : Dev :=
  blockDev { (vaDev.setHoop 0 { state := .active, inForce := { tiles := 0x3000, funcs := 1 } }) with cellar := memWrite vaDev.cellar 0x101000 image } tyLoad []
    (toBytes 8 0x1000 ++ toBytes 8 676 ++ toBytes 8 0x8000 ++ toBytes 4 208 ++ [1, 0, 0, 0, 12] ++ List.replicate 95 0)
theorem witness_load : let d := loadDev endImage
    d.begins 7 tyLoad = true ∧ d.readVa 1 0x1000 676 = .data endImage := by decide +kernel
/-- Loaded: the pricking is on slot 0 of tile 12, `T_CMD` is 33 cycles (the entry at 32, one for `END`, R116, R150),
and the `END` word stands at shelf offset 0. -/
theorem test_load : let e := after (.loadCmd 7 900 0) (hostState (loadDev endImage))
    ((e.ctx 1).pricking.map (fun p => (p.tiles, p.entries.map (·.tCmd)))) = some ([(12, 0)], [33]) ∧ (e.slot 12 0).valid = true ∧
    (e.cmd 7).status = 0 ∧ memNat e.pantry (12 * 2 ^ 22) 16 = 5 := by decide +kernel
/-- A wrong magic: check 0x0101 in the record, and nothing placed. -/
theorem test_load_magic : let e := after (.loadCmd 7 900 0) (hostState (loadDev (0x51 :: endImage.tail)))
    (e.ctx 1).pricking = none ∧ (e.cmd 7).status = Status.loaderReject.code ∧ memNat e.cellar 0x108002 2 = 0x0101 := by decide +kernel

/-! ### The darners -/

/-- The worked gradient pair of chapter 8: 0.7 in a block whose greatest magnitude is 3.1, RNE: scale 0x78, G 0x6B, E 0x55, and it decodes to
(88 + 13/8) / 128. -/
theorem test_pair : (let b := pairBlock [(0x40466666, .rne), (0x3F333333, .rne)]
    (b.1, b.2.1.getD 1 0, b.2.2.1.getD 1 0)) = (0x78, 0x6B, 0x55) ∧ pairValue 0x6B 0x55 0x78 = 0x3F334000 := by decide +kernel
/-- A record of one row and two columns under SGDM with a BF16 copy at VA 0x2000, its list at 0x2200, gradients 3.1 and 0.7 at 0x3700, master 1.0, 1.0. -/
def precBytes : List Byte :=
  [0x50, 0x52, 0x45, 0x43] ++ toBytes 4 0x10000 ++ [1, 1, 0, 0] ++ toBytes 4 1 ++ toBytes 4 2 ++ toBytes 4 1 ++ toBytes 4 2 ++ toBytes 4 0 ++ toBytes 8 0 ++
    toBytes 8 0 ++ toBytes 8 2 ++ toBytes 8 0x3000 ++ toBytes 8 0x3100 ++ toBytes 8 0 ++ toBytes 8 0 ++ toBytes 8 0x3200 ++ toBytes 8 0x3300 ++ toBytes 8 0x3400 ++
    toBytes 8 0x3500 ++ toBytes 8 0x3600 ++ toBytes 8 0 ++ toBytes 8 0 ++ toBytes 4 0x3F800000 ++ toBytes 4 0x3F800000 ++ toBytes 8 0 ++ toBytes 8 0x3700 ++
    toBytes 8 0 ++ toBytes 12 0 ++ toBytes 8 (2 ^ 64 - 1) ++ toBytes 4 0 ++ toBytes 56 0
/-- Update block: operation, fence 5 for a STEP, step 4, LR and GSCALE 1.0, every other hyperparameter 0. -/
def updBlock (op : Nat) : List Byte :=
  toBytes 2 op ++ toBytes 2 (if op = 3 then 5 else 0) ++ toBytes 4 4 ++ toBytes 8 0x2200 ++ toBytes 4 1 ++ toBytes 4 0 ++ toBytes 4 0x3F800000 ++ toBytes 32 0 ++
    toBytes 4 0x3F800000 ++ toBytes 20 0 ++ [1, 1] ++ toBytes 42 0
def darnDev (op : Nat) : Dev :=
  blockDev { vaDev with
    cellar := [(0x102000, precBytes), (0x102200, toBytes 8 0x2000), (0x103000, toBytes 4 0x3F800000 ++ toBytes 4 0x3F800000),
               (0x103700, toBytes 4 0x40466666 ++ toBytes 4 0x3F333333)].foldl (fun m e => memWrite m e.1 e.2) vaDev.cellar
    fences := [(5, { state := .idle, ctx := 1, step := 3 })] } tyUpdate [] (updBlock op)
theorem witness_darner : (darnDev 1).begins 7 tyUpdate = true ∧ (darnDev 1).listBad ((darnDev 1).cmd 7) = false ∧
    (darnDev 1).entriesBad ((darnDev 1).cmd 7) = false ∧ (darnDev 3).listBad ((darnDev 3).cmd 7) = false := by decide +kernel
/-- After FOLD has started and its one strip has committed. -/
def folded : Dev := after (.darnerStripCommit 7 0 false 0) (hostState (after (.foldCmd 7 0) (hostState (darnDev 1))))
theorem test_fold : memNat folded.cellar 0x103201 1 = 0x6B ∧ memNat folded.cellar 0x103301 1 = 0x55 ∧ memNat folded.cellar 0x103400 1 = 0x78 ∧
    (folded.cmd 7).stage = .finished ∧ folded.reg64 pgDarn 0 0x0108 = 1 := by decide +kernel
/-- The STEP that follows: w' = 1 - 0.700 195 312 5, BF16 copy 0x3E9A of it (0.299 804 687 5 lies halfway between 0x3E99 and 0x3E9A), fence IDLE at step 4. -/
def stepped : Dev :=
  after (.darnerStripCommit 7 0 false 0) (hostState (after (.stepCmd 7 0) (hostState (blockDev { folded with cmds := [] } tyUpdate [] (updBlock 3)))))
theorem test_step : memNat stepped.cellar 0x103004 4 = 0x3E998000 ∧ memNat stepped.cellar 0x103102 2 = 0x3E9A ∧ memNat stepped.cellar 0x1020C4 4 = 4 ∧
    (stepped.fence 5).state = .idle ∧ (stepped.fence 5).step = 4 := by decide +kernel
/-- A STEP not above the fence's step. -/
theorem test_step_noop : let e := after (.stepCmd 7 0) (hostState { darnDev 3 with fences := [(5, { state := .idle, ctx := 1, step := 4 })] })
    (e.cmd 7).stage = .finished ∧ (e.cmd 7).status = 0 := by decide +kernel
theorem test_scan : (after (.scanCmd 7 0) (hostState (darnDev 2))).cmd 7 = { (darnDev 2).cmd 7 with started := true } := by decide +kernel
theorem test_darner_ue : let e := after (.darnerSramUe 3) (hostState hostDev)
    (e.darner 3).out = true ∧ e.darnerFor 3 = some 4 := by decide +kernel
/-- The estimate of the worked example: 2,441,407 strips of 136 cycles on the busiest darner. -/
theorem test_strip_cycles : ({ rule := 2, crot := 3 } : PRec).stripCycles 3 64 = 136 ∧ 2441407 * 136 + 2048 = 332033400 := by decide

/-! ### Address translation and DMA -/

/-- An MMU block. -/
def mmuBlock (op count va pa attr : Nat) : List Byte :=
  toBytes 2 op ++ toBytes 2 0 ++ toBytes 4 count ++ toBytes 8 va ++ toBytes 8 pa ++ toBytes 8 attr ++ toBytes 32 0
/-- Hoop 0 may hold 100 pages; page 40 is granted; the table pages are marked. -/
def mmuDev (op count va pa attr : Nat) : Dev :=
  blockDev { vaDev.setHoop 0 { state := .active, inForce := { funcs := 1, pages := 100 } } with
    pot := [(3, ⟨true, true, 0, 1, 4095⟩), (4, ⟨true, true, 0, 1, 4095⟩), (5, ⟨true, true, 0, 1, 4095⟩), (16, ⟨true, true, 0, 1, 1⟩), (40, ⟨true, false, 0, 0, 0⟩)]
    ctxs := [(1, { state := .active, root := 3, tblKey := 1 })] } tyMmu [] (mmuBlock op count va pa attr)
theorem witness_mmu : (mmuDev 1 2 0 (50 * 65536) 0).begins 7 tyMmu = true ∧ ((mmuDev 1 2 0 (50 * 65536) 0).cmd 7).mop = 1 ∧ (mmuDev 1 2 0 (50 * 65536) 0).mmuHeld 7 = false ∧
    (mmuDev 1 2 0 (50 * 65536) 0).grantErrs ((mmuDev 1 2 0 (50 * 65536) 0).cmd 7) = [] := by decide +kernel
theorem test_grant : let e := after (.mmuGrant 7 0) (hostState (mmuDev 1 2 0 (50 * 65536) 0))
    e.potOf 51 = ⟨true, false, 0, 0, 0⟩ ∧ (e.potOf 52).granted = false ∧ (e.cmd 7).status = 0 := by decide +kernel
/-- One page more than the quota, and a page already granted. -/
theorem test_grant_fails : ((after (.mmuGrant 7 0) (hostState (mmuDev 1 96 0 (50 * 65536) 0))).cmd 7).status = Status.rejectNoCapacity.code ∧
    ((after (.mmuGrant 7 0) (hostState (mmuDev 1 1 0 (16 * 65536) 0))).cmd 7).status = 0x0103 := by decide +kernel
theorem test_reclaim : let e := after (.mmuReclaim 7 0) (hostState (mmuDev 2 1 0 (40 * 65536) 0))
    (e.potOf 40).granted = false ∧ (e.cmd 7).stage = .finished := by decide +kernel
/-- A page still mapped. -/
theorem test_reclaim_mapped : ((after (.mmuReclaim 7 0) (hostState (mmuDev 2 1 0 (16 * 65536) 0))).cmd 7).status = 0x0103 := by decide +kernel
/-- VA page 9 mapped to page 40 with R and W under key 1. -/
def mapped : Dev := after (.mmuMap 7 0) (hostState (mmuDev 3 1 0x90000 (40 * 65536) (6 + 2 ^ 48)))
theorem witness_map : let d := mmuDev 3 1 0x90000 (40 * 65536) (6 + 2 ^ 48)
    d.mapErrs (d.cmd 7) = [] ∧ d.needs1 (d.cmd 7) = false ∧ d.needs2 (d.cmd 7) = false := by decide +kernel
theorem test_map : mapped.translate 1 0x90010 true = .ok 0x280010 1 0 false ∧ mapped.potOf 40 = ⟨true, true, 0, 1, 1⟩ ∧ (mapped.cmd 7).status = 0 := by decide +kernel
/-- A table page as a data page, and a page of another key. -/
theorem test_map_table : ((after (.mmuMap 7 0) (hostState (mmuDev 3 1 0x90000 (4 * 65536) (6 + 2 ^ 48)))).cmd 7).status = Status.accessDenied.code := by decide +kernel
theorem test_unmap : let e := after (.mmuUnmap 7 0) (hostState (mmuDev 4 1 0 0 0))
    (e.cmd 7).stage = .invalidating ∧ e.translate 1 0 false = .notMapped 2 ∧ (e.potOf 16).maps = 0 ∧
    ((after (.mmuInvalidationDone 7 0) (hostState e)).cmd 7).stage = .finished := by decide +kernel
/-- A class G DMA that reads the page defers a PROTECT that would clear `P`. -/
def heldDev : Dev := (mmuDev 5 1 0 0 2).setCmd 8 { live := true, ctx := 1, desc := [5, 0] ++ List.replicate 62 0, block := toBytes 24 1 ++ toBytes 4 1 ++ toBytes 4 256 ++ List.replicate 32 0 }
theorem test_protect_deferred : let e := after (.mmuProtect 7 0) (hostState heldDev)
    (e.cmd 7).stage = .deferred ∧ ((after (.mmuDeferredProceed 7 0) (hostState { e with cmds := e.cmds.filter (fun x => x.1 = 7) })).cmd 7).stage = .invalidating := by decide +kernel
theorem test_protect : (after (.mmuProtect 7 0) (hostState (mmuDev 5 1 0 0 2))).translate 1 0 true = .fail .accessDenied := by decide +kernel

/-- A darner suspended on VA 0x5000 of context 1, page 0 mapped, page 7 not. -/
def faultDev (va : Nat) : Dev :=
  ((vaDev.setCmd 7 { live := true, ctx := 1, released := true, stage := .faulted, desc := List.replicate 64 0 }).setCtx 1
    { state := .active, root := 3, faults := [(0, { va := va, pending := true, client := .darner, tracker := 7, time := 5 })] }).setBankN pgMmu 0 0x0030 1
theorem witness_fault : (faultDev 0x5000).sel pgMmu 0 = 1 ∧ (faultDev 0x5000).seesCtx 0 1 = true ∧ ((faultDev 0x5000).faultOf 1 0).pending = true := by
  decide +kernel
theorem test_resume : ((after (.mmuFRespResume 0 0) (hostState (faultDev 0x5000))).cmd 7).stage = .running ∧
    ((after (.mmuFRespResume 0 0) (hostState (faultDev 0x5000))).cmd 7).live = true := by decide +kernel
theorem test_resume_unmapped : ((after (.mmuFRespResume 0 0) (hostState (faultDev 0x70000))).cmd 7).live = false := by decide +kernel
theorem test_abort : ((after (.mmuFRespAbort 0 0) (hostState (faultDev 0x5000))).cmd 7).live = false := by decide +kernel
/-- The answer limit is 10 ms at reset (R223). -/
theorem test_answer_timeout : ((after (.faultAnswerTimeout 1 0 10000004) (hostState (faultDev 0x5000))).cmd 7).live = true ∧
    ((after (.faultAnswerTimeout 1 0 10000005) (hostState (faultDev 0x5000))).cmd 7).live = false := by decide +kernel

/-- A DMA block; the result record at VA 0x8000. -/
def dmaBlk (op esize src dst rows rowB sp dp : Nat) : List Byte :=
  toBytes 2 op ++ (if op = 3 then [2] else [0]) ++ toBytes 1 esize ++ toBytes 4 0 ++ toBytes 8 src ++ toBytes 8 dst ++ toBytes 4 rows ++ toBytes 4 rowB ++ toBytes 8 sp ++
    toBytes 8 dp ++ toBytes 8 0x8000 ++ toBytes 8 0
def dmaDev (block : List Byte) : Dev :=
  blockDev { vaDev.setHoop 0 { state := .active, inForce := { funcs := 1, dma := 0x18 } } with cellar := memWrite vaDev.cellar 0x101000 [1, 2, 3, 4, 5, 6, 7, 8] } tyDma [] block
/-- The command starts on channel 3, and its one segment completes. -/
def dmaRun (i : Instr) (block : List Byte) : Dev := after (.dmaSegmentComplete 3 0 false 10 0) (hostState (after i (hostState (dmaDev block))))
theorem witness_dma : let d := dmaDev (dmaBlk 1 0 0x1000 0x3000 1 8 8 8)
    d.dmaFirst (d.dmaWaiting 0) = some 7 ∧ (d.cmd 7).dmaBad = false ∧ d.dmaFree 0 = some 3 := by decide +kernel
theorem test_dma_copy : let e := dmaRun (.dmaCopy 7 0) (dmaBlk 1 0 0x1000 0x3000 1 8 8 8)
    memRead e.cellar 0x103000 9 = [1, 2, 3, 4, 5, 6, 7, 8, 0] ∧ (e.cmd 7).stage = .finished ∧ memNat e.cellar 0x108010 8 = 8 := by decide +kernel
/-- Two rows of two 2-byte elements. -/
theorem test_dma_transpose : memRead (dmaRun (.dmaTranspose 7 0) (dmaBlk 2 2 0x1000 0x3000 2 4 4 6)).cellar 0x103000 10 = [1, 2, 5, 6, 0, 0, 3, 4, 7, 8] := by decide +kernel
theorem test_dma_fill : memRead (dmaRun (.dmaFill 7 0) (dmaBlk 3 0 0x44332211 0x3000 1 8 0 8)).cellar 0x103000 8 = [0x11, 0x22, 0x33, 0x44, 0x11, 0x22, 0x33, 0x44] := by
  decide +kernel
/-- The transpose of the worked example: 768 segments, 393,312 cycles, segment 517 from byte 4,096 of destination row 2,757. -/
def dmaEx : Cmd := { block := dmaBlk 2 2 0 0x10000000 6144 8192 8192 12288 }
theorem test_dma_example : dmaEx.dSegs = 768 ∧ dmaEx.dmaEst = 393312 ∧ { dmaEx with failed := [517] }.dGood = 50266112 ∧
    (dmaEx.dPieces 1 (517 * 65536) (518 * 65536)).map (fun p => (p.1 - 0x10000000, p.2.1)) = [(2757 * 12288 + 4096, 2048 * 8192 + 2 * 2757)] := by decide +kernel
theorem test_dma_bitmap : ({ dmaEx with failed := [517], cursor := 768 }.dRecord 0)[32 + 64]? = some 0x20 := by decide +kernel
theorem witness_served_mmu : Served 0 pgMmu ∧ Served 1 pgMmu := by
  unfold Served; decide

/-! ### The cellar unit -/

/-- The counter block, the level-1 and level-2 indexes and the halt of the worked example of chapter 11. -/
theorem test_counter_block : counterBlock 1 3 0x11 (fld 0x1234567800 38 8) 0 0 = 0x01000000000000031124_68ACF0000000 := by decide
theorem test_tree_indexes : nodeIndex 0x1234567800 1 = 74565 ∧ nodeIndex 0x1234567800 2 = 9320 ∧ paStack 0x1234567800 = 6 ∧ paGran 0x1234567800 = 56 := by decide
def celReq : CelReq := { client := 6, hoop := 0, key := 1, pa := 0x1234567800 }
def celDev : Dev := hostDev.setGroup (paGroup 0x1234567800) { major := 3, minors := [(56, 0x11)], written := 2 ^ 56 }
theorem witness_cellar : celDev.live = true ∧ celDev.unitKey celReq = .current ∧ celReq.pa < usableEnd ∧ celDev.granPoisoned celReq.pa = false ∧
    celDev.granZero celReq.pa = false ∧ celDev.keySpent 1 = false ∧ (celDev.group (paGroup celReq.pa)).epoch = (celDev.key 1).epoch := by decide +kernel
theorem test_cellar_read : let e := after (.cellarRead celReq { levels := 2 } 0) (hostState celDev)
    e.reg64 (pgCel + 6) 0 0x1018 = 256 ∧ e.reg64 pgMenc 6 0x010C = 2 := by decide +kernel
theorem test_cellar_halt : let e := after (.cellarRead celReq { mac := .granuleBad } 77) (hostState celDev)
    e.aon.halt.cause = 1 ∧ e.aon.halt.wher = 6 ∧ e.aon.halt.addr = 0x12345678 ∧ e.aon.halt.time = 77 ∧ e.live = false := by decide +kernel
theorem test_cellar_write : let e := after (.cellarWrite celReq (List.replicate 256 7) {} 0) (hostState celDev)
    (e.group (paGroup celReq.pa)).minor 56 = 0x12 ∧ (e.key 1).uses = 1 ∧ memRead e.cellar 0x12345678FF 2 = [7, 0] := by decide +kernel
/-- A minor of 255: the major rises, and the one other live granule is rewritten. -/
theorem test_cellar_overflow : let d := hostDev.setGroup (paGroup celReq.pa) { major := 3, minors := [(56, 255)], written := 2 ^ 56 + 1 }
    let e := after (.cellarWrite celReq (List.replicate 256 7) {} 0) (hostState d)
    (e.group (paGroup celReq.pa)).major = 4 ∧ (e.key 1).uses = 2 ∧ e.reg64 pgMenc 6 0x011C = 1 := by decide +kernel
theorem test_cellar_partial : memRead (after (.cellarPartialWrite { celReq with pa := 0x1234567804 } [1, 2] {} 0) (hostState celDev)).cellar 0x1234567803 4 = [0, 1, 2, 0] := by
  decide +kernel
/-- A stale generation. -/
theorem test_cellar_revoked : celDev.unitKey { celReq with gen := 3 } = .refused .keyRevoked := by decide +kernel
theorem test_cellar_outside : (match exec (.cellarRead { celReq with pa := 0x7A00000000 } {} 0) liveState with
    | .fault f => f == .noSuchAddress 0x7A00000000
    | _ => false) = true := by decide +kernel
theorem test_sweep : let e := after (.rekeySweepComplete 1 0) (hostState ((hostDev.setKey 1 { state := .active, usage := useMem, sweeping := true, prevKept := true, epoch := true }).setPot 16
      ⟨true, true, 0, 1, 0⟩))
    (e.group 64).epoch = true ∧ (e.key 1).sweeping = false := by decide +kernel
theorem test_scrub : let e := after (.scrubAfterDrain 1 0) (hostState { vaDev with pot := [(5, ⟨true, true, 0, 1, 0⟩)], keys := [(1, { state := .draining, gen := 4, usage := useMem })] })
    memNat e.cellar 0x50000 8 = 0 ∧ (e.potOf 5).bound = false ∧ e.key 1 = { gen := 4 } := by decide +kernel
theorem test_page_retire : let e := after (.pageRetireCopy 17 [] 0) (hostState { hostDev with retireQ := [17] })
    e.aon.retired = [17] ∧ e.regN (pgCel + 1) 0 0x1008 = 0x1FFF := by decide +kernel
theorem test_drop : ((after (.requestDrop 1 0x44 true 0x100000 (some 5) 0) (hostState (hostDev.setFence 5 { state := .updating, ctx := 1 }))).fence 5).state = .lost := by
  decide +kernel

/-! ### Links -/

/-- Port 3 in a state, with every lane good. -/
def linkDev (x : Port) : Dev := hostDev.setLk 3 x
def activePort : Port := { state := .active, good := 0x1FF, lmap := 0x76543210 }
theorem witness_links : (linkDev activePort).live = true ∧ ctlPort 0 = true ∧ ctlPort 1 = false ∧ activePort.vc0 = true ∧ (goodLanes 0xFF).length = 8 := by decide +kernel
theorem test_enable : ((after (.alnkEnable 0 3) (hostState (linkDev {}))).lk 3).state = .training ∧ ((after (.alnkEnable 5 3) (hostState (linkDev {}))).lk 3).state = .disabled := by
  decide +kernel
/-- Nine good lanes, the peer's serial above this device's 0: VC0_ONLY, leader, epoch 1. -/
theorem test_trained : let e := after (.trainingComplete 3 0x1FF 7 0x80 11 741 0) (hostState ((linkDev { state := .training }).setRegN pgAlnk 0 0x1004 0x80))
    (e.lk 3).state = .vc0Only ∧ (e.lk 3).leader = true ∧ (e.lk 3).x4 = false ∧ (e.lk 3).lmap = 0x76543210 ∧ e.fab.epoch = 1 := by decide +kernel
/-- Lanes 1, 2, 4, 5 and 7 good: x4 on the four lowest. -/
theorem test_trained_x4 : let e := after (.trainingComplete 3 0xB6 7 0x80 11 741 0) (hostState (linkDev { state := .training }))
    (e.lk 3).x4 = true ∧ (e.lk 3).lmap % 2 ^ 16 = 0x5421 := by decide +kernel
theorem test_training_timeout : let d := linkDev { state := .training, retraining := true, good := 0x1FF }
    ((after (.trainingTimeout 3) (hostState d)).lk 3).state = .down ∧ (after (.trainingTimeout 3) (hostState d)).fab.epoch = 1 := by decide +kernel
theorem test_peer_detect : ((after (.portPeerDetect 3) (hostState ((linkDev { state := .down }).setRegN pgAlnk 3 0x011C 1))).lk 3).state = .training := by decide +kernel
/-- Physical lane 5 goes bad: the spare, lane 8, takes logical lane 5; then lane 2: no spare, x4 on lanes 0, 1, 3, 4. -/
theorem test_lane_swap : let e := after (.laneBad 3 5) (hostState (linkDev activePort))
    (e.lk 3).lmap = 0x76843210 ∧ (e.lk 3).state = .active ∧ (let f := after (.laneBad 3 2) (hostState e)
      (f.lk 3).x4 = true ∧ (f.lk 3).lmap % 2 ^ 16 = 0x4310 ∧ (f.lk 3).retraining = true) := by decide +kernel
theorem test_retrain_cmd : ((after (.alnkRetrain 0 3) (hostState (linkDev activePort))).lk 3).retraining = true := by decide +kernel
/-- F = 2^24 × 8 / 17 flit times; nine tenths of them measure 58,982 and are not slow, one flit time less than 58,982 / 65,536 of them is. -/
theorem test_link_health : ((after (.linkHealthWindow 3 7105655) (hostState (linkDev activePort))).lk 3).rate = 58982 ∧
    ((after (.linkHealthWindow 3 7105655) (hostState (linkDev activePort))).lk 3).slow = false ∧
    ((after (.linkHealthWindow 3 7105500) (hostState (linkDev activePort))).lk 3).slow = true := by decide +kernel
/-- A flit with no bytes fails. -/
theorem test_flit_bad : let e := after (.flitReceive 3 [] 0 0) (hostState (linkDev activePort))
    (e.lk 3).rxFailing = true ∧ e.out.length = 1 ∧ (e.lk 3).rx = [] := by decide +kernel
/-- The check value of CRC-32C over "123456789". -/
theorem test_crc32c : crc32c [0x31, 0x32, 0x33, 0x34, 0x35, 0x36, 0x37, 0x38, 0x39] = 0xE3069283 := by decide +kernel
theorem test_replay : let e := after (.flitReplayTimeout 3) (hostState (linkDev { activePort with replays := 15, retry := [{ seq := 4, body := .ctl 1 [] }] }))
    (e.lk 3).retraining = true ∧ e.reg64 pgAlnk 3 0x0140 = 1 := by decide +kernel
theorem test_stall : ((after (.retryBufferStall 3) (hostState (linkDev { activePort with retry := List.replicate 512 { seq := 0, body := .ctl 1 [] } }))).lk 3).state = .training := by
  decide +kernel
/-- All positions are the pool's: VC6 of the pool has 672 credits. -/
theorem test_pool_credits : ({ slots := 2 ^ 1024 - 1 } : Port).streamBuf 15 6 = 672 := by decide +kernel
def stuckPort (t : Option Nat) : Port := { activePort with slots := 2 ^ 1024 - 1, creditTmo := t, used := [(126, 672)], tx := [(126, { records := [[1]] })] }
theorem test_credit : ((after (.creditWatchdog 3 15 6 5) (hostState (linkDev (stuckPort none)))).lk 3).retraining = true ∧
    ((after (.creditWatchdog 3 15 6 1000000004) (hostState (linkDev (stuckPort (some 5))))).lk 3).state = .down := by decide +kernel
theorem test_vc_apply : ((after (.vcApply 0 3) (hostState (linkDev activePort))).lk 3).swapPending = true := by decide +kernel
theorem test_swap : let d := linkDev { activePort with swapPending := true }
    ((after (.shareSwap 3 9 0) (hostState d)).lk 3).peerStaged = some 9 ∧ ((after (.shareSwapTimeout 3) (hostState d)).lk 3).swapFailed = true := by decide +kernel
/-- A record of an empty pairing, and one whose counter does not rise. -/
theorem test_record_drops : let r : List Byte := List.replicate 34 0
    let e := after (.linkRecordReceive 3 15 6 0 0) (hostState (linkDev { activePort with rx := [(126, { bytes := r, fills := [34] })] }))
    let f := after (.linkRecordReceive 3 15 6 0 0) (hostState (linkDev { activePort with rx := [(126, { bytes := r, fills := [34] })], pairs := [(0, { valid := true, rxLast := some 0 })] }))
    e.regN pgAlnk 3 0x0150 = 1 ∧ f.regN pgAlnk 3 0x0154 = 1 ∧ (e.lk 3).rxStream 15 6 = { bytes := [0], fills := [1] } := by decide +kernel

/-! ### Fabric and picot path -/

theorem witness_fabric : (linkDev activePort).live = true ∧ NoFrames (linkDev activePort) ∧ (linkDev activePort).fab.published = none :=
  ⟨by decide +kernel, by unfold NoFrames; decide +kernel, by decide +kernel⟩
def fabDev (x : Port) (f : Fabric) : Dev := { linkDev x with fab := f }
/-- The 64th exchange in a row within 0.125 ns locks; one 0.5 ns off does not. -/
theorem test_sync : let f : Fabric := { known := true, upstream := 3, joined := true, good := 63, time := .locking }
    (after (.sync 3 0 1040 2000 3000 true none) (hostState (fabDev activePort f))).fab.time = .locked ∧
    (after (.sync 3 0 1300 2000 3000 true none) (hostState (fabDev activePort f))).fab.good = 0 ∧
    (after (.sync 3 0 1040 2000 3000 true none) (hostState (fabDev activePort { f with far := true }))).fab.time = .locking := by decide +kernel
theorem test_sync_timer : (after (.syncTimer 3 77) (hostState (linkDev activePort))).out = [.link 3 ctlSync [77]] := by decide +kernel
/-- A lower pair is adopted; 17 links away the device is FAR; a pair that has come 17 is discarded. -/
theorem test_announce : let s := hostState ((linkDev activePort).setRegN pgAlnk 0 0x1004 0x80)
    (after (.announce 3 0x7F 9 2 50) s).fab.hops = 3 ∧ (after (.announce 3 0x7F 9 16 50) s).fab.far = true ∧ (after (.announce 3 0x7F 9 17 50) s).fab.known = false := by decide +kernel
theorem test_announce_timer : (after (.announceTimer 3 50) (hostState (linkDev activePort))).fab.gm = true := by decide +kernel
theorem test_grandmaster_timeout : (after (.grandmasterTimeout 100005) (hostState (fabDev activePort { known := true, heard := 5 }))).fab.time = .holdover := by decide +kernel
theorem test_topo : let e := after (.topoChange 3 8 1) (hostState (fabDev activePort { epoch := 7, probes := [(2, { state := 1, epoch := 7 })] }))
    e.fab.epoch = 8 ∧ (e.probe 2).status = Status.epochStale.code ∧ (after (.topoChange 3 7 1) (hostState (fabDev activePort { epoch := 7 }))).fab.epoch = 7 := by decide +kernel
theorem test_probe : (after (.probe 3 5 2 1 0x3F 0 7) (hostState (linkDev activePort))).out = [.link 3 ctlProbe [5, 2, 2, 0x3F, 3, 7]] := by decide +kernel
theorem test_probe_reply : let s := hostState (fabDev activePort { epoch := 7, probes := [(2, { state := 1, epoch := 7 })] })
    ((after (.probeReply 3 2 0 0 7 11 128 4097 0) s).probe 2).state = 2 ∧ ((after (.probeReply 3 2 0 0 8 11 128 4097 0) s).probe 2).status = Status.epochStale.code := by decide +kernel
theorem test_probe_start : let s := hostState ((linkDev activePort).setRegN pgAlnk 0 0x1044 0x3)
    (after (.fabProbeStart 0 0x80000001 9) s).out = [.link 3 ctlProbe [0, 1, 1, 3, 0, 0]] ∧ ((after (.fabProbeStart 0 0x80000011 9) s).probe 0).state = 0 := by decide +kernel
theorem test_probe_timeout : let s := hostState (fabDev activePort { probes := [(2, { state := 1, since := 5 })] })
    ((after (.probeTimeout 2 20005) s).probe 2).state = 3 ∧ ((after (.probeTimeout 2 20004) s).probe 2).state = 1 := by decide +kernel
theorem test_publish : let s := hostState (fabDev { activePort with state := .vc0Only, peerPub := some 7, upEpoch := 6 } { epoch := 7 })
    ((after (.fabPublish 0 7) s).lk 3).state = .active ∧ ((after (.fabPublish 0 6) s).lk 3).state = .vc0Only ∧ (after (.fabPublish 0 6) s).regN pgAlnk 0 0x1028 = 2 := by decide +kernel
theorem test_time_load : let d := (fabDev activePort { gm := true }).setRegN pgPicot 0 0x1008 500
    (after (.picotTimeLoad 0) (hostState d)).now = 500 ∧ (after (.picotTimeLoad 0) (hostState { d with fab := { d.fab with published := some 1 } })).now = d.now := by decide +kernel
theorem test_unpair : (tabGet pairDflt ((after (.unpair 3 4 18) (hostState (linkDev { activePort with pairs := [(4, { valid := true, txGen := 1 })] }))).lk 3).pairs 4).txGen = 2 := by decide +kernel
/-- The worked example's guard landing: o = +4.60 ns is 74/16 ns; the trim becomes -8, the launch offset 2 cycles; the frame goes again in slot k + 2. -/
theorem test_guard_notice : let e := after (.guardNotice 3 1000000 74) (hostState (linkDev { activePort with hoplat := 741, kept := [(1000000, 17, [], [1])] }))
    (e.lk 3).trim = -8 ∧ (e.lk 3).launch = 2 ∧ ({ activePort with hoplat := 741 } : Port).launch = 10 ∧ (e.grp 17).launches = [{ slot := 1000002, resend := true, head := [], payload := [1] }] := by
  decide +kernel
theorem test_drift_notice : ((after (.driftNotice 3 (-74)) (hostState (linkDev activePort))).lk 3).trim = 8 ∧ ((after (.driftNotice 3 (-740)) (hostState (linkDev activePort))).lk 3).trim = 16 := by decide +kernel
/-- A frame 4.60 ns late is discarded; the third slot within 1,024 suspends slot mode. -/
theorem test_guard_landing : let s := fun l => hostState (linkDev { activePort with slotMode := true, landings := l })
    (after (.picotFrameReceive 3 900 74 (List.replicate 320 0) 0) (s [5])).regN pgPicot 3 0x010C = 1 ∧ ((after (.picotFrameReceive 3 900 74 (List.replicate 320 0) 0) (s [5])).lk 3).slotMode = true ∧
    ((after (.picotFrameReceive 3 900 74 (List.replicate 320 0) 0) (s [5, 6])).lk 3).slotMode = false := by decide +kernel
/-- A frame 5 ns early, of an empty pairing. -/
theorem test_frame_early : let e := after (.picotFrameReceive 3 0 (-80) (List.replicate 320 0) 0) (hostState (linkDev { activePort with slotMode := true }))
    (e.lk 3).drift = true ∧ e.regN pgPicot 3 0x0110 = 1 ∧ e.regN pgAlnk 3 0x0150 = 1 := by decide +kernel
theorem test_picot_state : let e := after (.picotState 3 true) (hostState (linkDev { activePort with slotMode := true }))
    (e.lk 3).suspended = true ∧ (e.lk 3).slotMode = false ∧ e.out.length = 0 := by decide +kernel
def resumeDev : Dev := fabDev { activePort with suspended := true, peerLocked := true, sched := [(1, 273)] } { gm := true, swapAt := some 65536 }
theorem test_picot_resume : ((after (.picotResume 0 3) (hostState resumeDev)).lk 3).resume = true ∧ resumeDev.eligible 3 = true := by decide +kernel
theorem test_swap_arm : let d := fun v => (linkDev activePort).setRegN pgPicot 0 0x102C v
    (after (.picotSwapArm 0 10) (hostState (d 65536))).fab.swapAt = some 65536 ∧ (after (.picotSwapArm 0 10) (hostState (d 65537))).fab.swapAt = none ∧
    (after (.picotSwapArm 0 65536) (hostState (d 65536))).fab.swapAt = none := by decide +kernel
theorem test_schedule_swap : let e := after (.picotScheduleSwap 65536) (hostState { resumeDev with ports := [(3, { resumeDev.lk 3 with resume := true })] })
    (e.lk 3).slotMode = true ∧ (e.lk 3).schedStaged = [(1, 273)] ∧ (e.lk 3).sched = [] := by decide +kernel
theorem test_no_launch : (after (.picotSlotLaunch 3 0 0) (hostState (linkDev { activePort with slotMode := true }))).out = [] ∧ (linkDev { activePort with slotMode := true }).slotFrame 3 0 = none := by
  decide +kernel
/-- A frame that waits for slot 5 under schedule entry 5. -/
def launchDev : Dev :=
  { linkDev { activePort with slotMode := true, sched := [(5, 273)], pairs := [(2, { valid := true, slot := 1 })] } with
    groupTab := [(9, { state := .active, picot := true, next := 3, sched := 17, key := 1, launches := [{ slot := 4, head := [], payload := [1] }] })] }
theorem test_slot_frame : launchDev.slotFrame 3 5 = some (9, { slot := 4, head := [], payload := [1] }) ∧ launchDev.slotFrame 3 3 = none := by decide +kernel

/-! ### RTP requests, keys and pairing -/

/-- A request block at VA 0x1000 of context 1, queued by the PF: its code, its length and hoop 0, with a response buffer of 64 bytes at VA 0x8000. -/
def reqBlock (code len : Nat) (resp : Nat) (body : List Byte) : List Byte :=
  toBytes 2 code ++ toBytes 2 0xFFFF ++ toBytes 4 len ++ toBytes 8 (if resp = 0 then 0 else 0x8000) ++ toBytes 4 resp ++ List.replicate 12 0 ++ body
def reqDev (bs : List Byte) : Dev :=
  { vaDev.setHoop 0 { state := .active, inForce := { keys := 100, funcs := 1 } } with
    cellar := memWrite vaDev.cellar 0x101000 bs, sec := { coreA := true, reqs := [{ port := 0, ctx := 1, addr := 0x1000 }] }, lc := { inForce := lcTestUnlocked } }
/-- KEY_CREATE of a `CIPH` slot, limit 1,000. -/
def createBlock : List Byte := reqBlock 2 48 64 ([4, 0, 0, 0, 0, 0, 0, 0] ++ toBytes 8 1000)
def rq : RtpReq := { port := 0, ctx := 1, addr := 0x1000 }
theorem witness_key_create : Asks (reqDev createBlock) rq 2 createBlock ∧ MayAsk (reqDev createBlock) 0 0 := by unfold Asks MayAsk; decide +kernel
theorem witness_key_resp : FitsResp (reqDev createBlock) rq createBlock 8 := ⟨by decide +kernel, by decide +kernel, [(0x108000, 8, 1)], by decide +kernel⟩
theorem witness_key_low : (reqDev createBlock).keyLcErrs false = [] ∧ (reqDev createBlock).keysHeld 0 < 100 ∧ (reqDev createBlock).freeKey = some 2 := by decide +kernel
def revokeDev (st : SlotState) : Dev := (reqDev (reqBlock 3 40 0 [9, 0, 0, 0, 0, 0, 0, 0])).setKey 9 { state := st, usage := 3, gen := 15 }
theorem witness_revoke : Asks (revokeDev .active) rq 3 (reqBlock 3 40 0 [9, 0, 0, 0, 0, 0, 0, 0]) := by unfold Asks; decide +kernel
/-- The generation after 15 is 0; a slot already draining stays; an empty one is refused. -/
theorem test_revoke : let e := after (.keyRevoke 0) (hostState (revokeDev .active))
    (e.key 9).state = .draining ∧ (e.key 9).gen = 0 ∧ e.sec.reqs = [] ∧ e.bankN pgSec 0 0x1010 = 0 ∧ memNat e.cellar 0x101002 2 = 0 := by decide +kernel
theorem test_revoke_again : let e := after (.keyRevoke 0) (hostState (revokeDev .draining))
    (e.key 9).gen = 15 ∧ e.bankN pgSec 0 0x1010 = 0 := by decide +kernel
theorem test_revoke_empty : (after (.keyRevoke 0) (hostState (revokeDev .empty))).bankN pgSec 0 0x1010 = Status.accessDenied.code := by decide +kernel
def zeroDev : Dev := hostDev.setKey 9 { state := .active, usage := 3, base := 77, gen := 2 }
theorem test_zeroize : let e := after (.keysZeroize 0 (9 + 2 ^ 31) 0) (hostState zeroDev)
    (e.key 9).base = 0 ∧ (e.key 9).gen = 3 ∧ (e.key 9).state = .draining ∧ e.bankN pgKeys 0 0x100C = 0 := by decide +kernel
/-- Slot 0 and an EMPTY slot hold no key to zeroize. -/
theorem test_zeroize_denied : (after (.keysZeroize 0 (2 ^ 31) 0) (hostState zeroDev)).bankN pgKeys 0 0x100C = Status.accessDenied.code ∧
    (after (.keysZeroize 0 (8 + 2 ^ 31) 0) (hostState zeroDev)).bankN pgKeys 0 0x100C = Status.accessDenied.code ∧ (after (.keysZeroize 0 9 0) (hostState zeroDev)).keys = zeroDev.keys := by decide +kernel
def deckDev (uses : Nat) : Dev := { hostDev.setKey 9 { state := .active, usage := 3, uses := uses } with sec := { coreA := true } }
theorem test_deck : ((after (.deckDerive 9 0) (hostState (deckDev 5))).key 9).deckReady = true ∧ ((after (.deckDerive 9 0) (hostState (deckDev (2 ^ 32)))).key 9).phase = 1 := by decide +kernel
def importDev : Dev := { reqDev createBlock with sec := { coreA := true, awaiting := [{ slot := 9, time := 5, req := rq, usage := 4 }] } }
theorem test_deliver_timeout : (after (.keyDeliverTimeout 9 60000000006) (hostState importDev)).sec.awaiting = [] ∧
    (after (.keyDeliverTimeout 9 60000000006) (hostState importDev)).bankN pgSec 0 0x1010 = Status.authRequired.code ∧
    (after (.keyDeliverTimeout 9 60000000005) (hostState importDev)).sec.awaiting.length = 1 := by decide +kernel
/-- Port 3 of a device with a pairing in progress for link slot 9. -/
def pairDev (x : Port) (w : PairWait) : Dev :=
  { (reqDev []).setLk 3 x with keys := ((reqDev []).setKey 9 { state := .active, usage := 2, gen := 4 }).keys, sec := { coreA := true, pairs := [w] } }
def pw : PairWait := { linkPort := 3, slot := 9, pairing := 7, peerPairing := 11, peerSerial := 99, time := 5, req := rq }
def km (ct good : Bool) : KeyxMsg := { pairing := 7, peerPairing := 11, serial := 99, gen := 6, ct := ct, good := good }
theorem witness_pairing : keyxFor pw 3 (km false true) = true ∧ keyxFor pw 3 { km false true with serial := 98 } = false ∧ (pairDev activePort pw).live = true := by decide +kernel
theorem test_pair_timeout : (after (.pairLinkTimeout 3 7 10000000006) (hostState (pairDev activePort pw))).bankN pgSec 0 0x1010 = Status.groupTimeout.code ∧
    (after (.pairLinkTimeout 3 7 10000000005) (hostState (pairDev activePort pw))).sec.pairs = [pw] := by decide +kernel
theorem test_keyx_bad : (after (.keyx 3 (km false false) 6) (hostState (pairDev activePort pw))).bankN pgSec 0 0x1010 = Status.authRequired.code := by decide +kernel
theorem test_keyx_down : (after (.keyx 3 (km false true) 6) (hostState (pairDev { activePort with state := .vc0Only } pw))).bankN pgSec 0 0x1010 = Status.linkDown.code := by decide +kernel
theorem test_keyx_offer : ((after (.keyx 3 (km false true) 6) (hostState (pairDev activePort pw))).sec.pairs.map (·.offer)) = [some (km false true)] := by decide +kernel
theorem test_keyx_ct : let e := after (.keyx 3 (km true true) 6) (hostState (pairDev activePort { pw with offer := some (km false true) }))
    (tabGet pairDflt (e.lk 3).pairs 7).slot = 9 ∧ (tabGet pairDflt (e.lk 3).pairs 7).rxGen = 6 ∧ (tabGet pairDflt (e.lk 3).pairs 7).peer = 11 ∧ e.sec.pairs = [] := by decide +kernel
theorem test_keyx_kept : (after (.keyx 3 { km false true with serial := 98 } 6) (hostState (pairDev activePort pw))).sec.offers.length = 1 := by decide +kernel

def mbDev : Dev := { (reqDev []) with sec := { coreA := true } }
def mbRegs (c : Nat) : Dev := (mbDev.setBankN pgSec 0 0x1000 0x1000).setBankN pgSec 0 0x1008 c
/-- One request of the PF queued: BUSY, one entry taken. -/
theorem test_mb_go : let e := after (.secMbGo 0 1 0) (hostState (mbRegs 1))
    e.sec.reqs = [rq] ∧ e.bankN pgSec 0 0x1010 = 2 ^ 16 + 2 ^ 18 ∧ memNat e.cellar 0x101002 2 = 0xFFFF := by decide +kernel
theorem test_mb_refused : (after (.secMbGo 0 1 0) (hostState (mbRegs 2))).bankN pgSec 0 0x1010 = Status.accessDenied.code ∧
    (after (.secMbGo 0x41 1 0) (hostState mbDev)).bankN pgSec 0x41 0x0014 = 8 := by decide +kernel
theorem test_mb_full : let e := after (.secMbGo 0 1 0) (hostState { mbRegs 1 with sec := { reqs := List.replicate 32 rq } })
    e.bankN pgSec 0 0x1010 = Status.rtpBusy.code + 2 ^ 16 + 2 ^ 17 + 32 * 2 ^ 18 ∧ e.sec.reqs.length = 32 := by decide +kernel
def nonceBlock : List Byte := reqBlock 1 32 64 []
theorem witness_nonce : Asks (reqDev nonceBlock) rq 1 nonceBlock := by unfold Asks; decide +kernel
theorem witness_nonce_resp : FitsResp (reqDev nonceBlock) rq nonceBlock 32 := ⟨by decide +kernel, by decide +kernel, [(0x108000, 32, 1)], by decide +kernel⟩
def badAuth : List Byte := reqBlock 4 40 0 (List.replicate 8 0)
theorem witness_authorise : Asks (reqDev badAuth) rq 4 badAuth ∧ authBad 0 (badAuth.drop 32) = true := by unfold Asks; decide +kernel
theorem test_authorise_bad : (after (.authorise 0) (hostState (reqDev badAuth))).bankN pgSec 0 0x1010 = Status.badDescriptor.code := by decide +kernel
/-- No record is staged: a change under two-party control is refused; where the body is bad too, the larger code is reported (R12). -/
def changeDev (code : Nat) (body : List Byte) : Dev := (reqDev (reqBlock code (32 + body.length) 0 body)).setKey 9 { state := .active, usage := 3 }
theorem witness_quiet : Quiet (changeDev 5 []) 0 ∧ (changeDev 5 []).ownSlot 0 9 = true ∧ ¬ Authorised (changeDev 5 []) 0 3 [] 0 :=
  ⟨by unfold Quiet; decide +kernel, by decide +kernel, by
    have n : ((changeDev 5 []).hoopSec 0).record = none := by decide +kernel
    rintro ⟨a, h, _⟩
    rw [n] at h
    cases h⟩
theorem test_changes_unsigned : (after (.keyPolicy 9 0 0 0) (hostState (changeDev 5 []))).bankN pgSec 0 0x1010 = Status.authRequired.code ∧
    (after (.consent 3 0) (hostState (changeDev 12 []))).bankN pgSec 0 0x1010 = Status.authRequired.code := by decide +kernel
theorem test_policy_bad : (after (.releasePolicy 0) (hostState (changeDev 8 [7, 0, 0, 0, 0, 0, 0, 0]))).bankN pgSec 0 0x1010 = Status.authRequired.code := by decide +kernel
theorem test_owner_bad : (after (.ownerRemove 3 0) (hostState (changeDev 11 []))).bankN pgSec 0 0x1010 = Status.authRequired.code := by decide +kernel
theorem test_attest_no_identity : (changeDev 9 []).hasIdentity = false ∧ (after (.attest (List.replicate 32 0) 0) (hostState { changeDev 9 [] with batt := {} })).sec.reqs = [] := by decide +kernel

/-! ### SPDM -/

def spdmDev (x : SpdmSession) : Dev := { hostDev with sec := { coreA := true, negotiated := [1], sessions := [(2, x)] }, batt := { root := some [1] } }
theorem witness_spdm : (spdmDev {}).rtpUp = true ∧ (spdmDev { stage := .kem }).hasIdentity = true ∧ ((spdmDev { stage := .finished }).session 2).stage = .finished ∧
    IsLowest 0 32 (fun n => ((spdmDev { stage := .kem }).session n).stage = .none) := ⟨by decide +kernel, by decide +kernel, by decide +kernel, by unfold IsLowest; decide +kernel⟩
theorem test_version : (after (.getVersion true 0) (hostState (spdmDev {}))).out = [.spdm true .ok [0x13]] ∧ (after (.getVersion true 0) (hostState hostDev)).out = [] := by decide +kernel
theorem test_negotiate : (after (.negotiateAlgorithms false 0x12 true true true true true true 0) (hostState (spdmDev {}))).out = [.spdm false .versionMismatch []] ∧
    (after (.negotiateAlgorithms false 0x13 true true true false true true 0) (hostState (spdmDev {}))).out = [.spdm false .invalidRequest []] ∧
    (after (.negotiateAlgorithms false 0x13 true true true true true true 0) (hostState (spdmDev {}))).sec.negotiated = [1, 0] := by decide +kernel
theorem test_key_exchange : ((after (.keyExchange true 0x13 0 100 [] 0) (hostState (spdmDev {}))).session 0).stage = .exchanged ∧
    (after (.keyExchange true 0x13 2 100 [] 0) (hostState (spdmDev {}))).out = [.spdm true .invalidRequest []] := by decide +kernel
/-- A 33rd session. -/
theorem test_sessions_full : let d := spdmDev {}
    (after (.keyExchange true 0x13 0 100 [] 0) (hostState { d with sec := { d.sec with sessions := (List.range 32).map (fun n => (n, { stage := .exchanged })) } })).out = [.spdm true .sessionLimitExceeded []] := by
  decide +kernel
theorem test_finish : ((after (.spdmFinish 2 true [9] 0) (hostState (spdmDev { stage := .exchanged }))).session 2).stage = .finished ∧
    ((after (.spdmFinish 2 false [9] 0) (hostState (spdmDev { stage := .exchanged }))).session 2).stage = .none := by decide +kernel
/-- KEM_ENCAP binds the session to the owner whose key is the requester's leaf key. -/
theorem test_kem : let d := (spdmDev { stage := .finished, leaf := [7] }).setHoopSec 6 { owners := [(3, [7], [8])] }
    ((after (.kemEncap 2 [] 0) (hostState d)).session 2).bound = some (6, 3) ∧ ((after (.kemEncap 2 [] 0) (hostState (spdmDev { stage := .finished, leaf := [7] }))).session 2).bound = none := by decide +kernel
/-- Any other application message before KEM_ENCAP ends the session. -/
theorem test_first_message : ((after (.spdmReport true (some 2) [] 0) (hostState (spdmDev { stage := .finished }))).session 2).stage = .none ∧
    ((after (.pqCert true (some 2) 0) (hostState (spdmDev { stage := .finished }))).session 2).stage = .none ∧
    ((after (.keyDeliver 2 9 [] 0) (hostState (spdmDev { stage := .finished }))).session 2).stage = .none := by decide +kernel
theorem test_measurements : (after (.getMeasurements true 0x13 100 none 0x11 [] 0) (hostState (spdmDev {}))).out = [.spdm true .invalidRequest []] ∧
    (after (.getMeasurements true 0x13 65537 none 0xF0 [] 0) (hostState (spdmDev {}))).out = [.spdm true .responseTooLarge []] := by decide +kernel
theorem test_heartbeat : ((after (.heartbeatTimeout 2 0) (hostState (spdmDev { stage := .kem }))).session 2).stage = .none := by decide +kernel
def deliverDev (bound : Option (Nat × Nat)) : Dev :=
  { importDev with sec := { importDev.sec with sessions := [(2, { stage := .kem, bound := bound })] } }
/-- Delivered in a session bound to the slot's hoop; refused in one bound to another. -/
theorem test_deliver : let e := after (.keyDeliver 2 9 (List.replicate 32 1) 6) (hostState (deliverDev (some (0, 1))))
    (e.key 9).state = .active ∧ (e.key 9).imported = true ∧ (e.key 9).usage = 4 ∧ e.bankN pgSec 0 0x1010 = 0 := by decide +kernel
theorem test_deliver_unbound : let e := after (.keyDeliver 2 9 (List.replicate 32 1) 6) (hostState (deliverDev (some (1, 1))))
    (e.key 9).state = .empty ∧ e.sec.awaiting = [] ∧ e.bankN pgSec 0 0x1010 = Status.authRequired.code := by decide +kernel

/-! ### The cipher engine -/

/-- Hoop 0's queue enabled, 16 entries, context 1, descriptors at VA 0x2000, records at VA 0x9000, one descriptor waiting, slot 9 of usage CIPH. -/
def cipherDev (desc : List Byte) : Dev :=
  let d := ((((((reqDev []).setKey 9 { state := .active, usage := 4, limit := 5, uses := 4, gen := 1, deckReady := true }).setRegN pgCiphu 0 0x1000 (1 + 4 * 256 + 4096)).setRegN pgCiphu 0 0x1004 0x2000).setRegN
    pgCiphu 0 0x100C 0x9000).setRegN pgCiphu 0 0x1014 1)
  { d with cellar := memWrite d.cellar 0x102000 desc }
def cDesc (op key phase len : Nat) : List Byte :=
  toBytes 2 op ++ toBytes 2 key ++ toBytes 4 phase ++ toBytes 8 0x3000 ++ toBytes 8 0xA000 ++ toBytes 4 len ++ toBytes 4 0 ++ toBytes 8 0x3000 ++ List.replicate 16 0 ++ toBytes 8 0xB000
theorem witness_cipher : (cipherDev (cDesc 1 0x1009 0 32)).live = true ∧ (cipherDev (cDesc 1 0x1009 0 32)).readVa 1 0x2000 64 = .data (cDesc 1 0x1009 0 32) ∧
    (creqOf (cDesc 1 0x1009 0 32)).bad = false ∧ (creqOf (cDesc 1 0x1009 0 32)).gen = 1 ∧ (cipherDev (cDesc 1 0x1009 0 32)).creqFaults 1 (creqOf (cDesc 1 0x1009 0 32)) = [] ∧
    (cipherDev (cDesc 1 0x1009 0 32)).creqEgressBad 0 1 (creqOf (cDesc 1 0x1009 0 32)) = false := by decide +kernel
/-- A request that names no operation, one with a reserved byte, and one of a slot of another usage complete with BAD_DESCRIPTOR in their records. -/
theorem test_cipher_bad : memNat (after (.gcmEnc 0 0 0 0 0) (hostState (cipherDev (cDesc 5 0 0 0)))).cellar 0x109000 2 = Status.badDescriptor.code ∧
    memNat (after (.sha384 0 0 0 0 0) (hostState (cipherDev (cDesc 3 1 0 0)))).cellar 0x109000 2 = Status.badDescriptor.code ∧
    memNat (after (.hmac384 0 0 0 0 0) (hostState ((cipherDev (cDesc 4 0x1009 0 0)).setKey 9 { state := .active, usage := 3, gen := 1 }))).cellar 0x109000 2 = Status.badDescriptor.code := by
  decide +kernel
/-- The record's PHASE bit is 1 in the first turn of the ring, and DONE counts it. -/
theorem test_cipher_record : let e := after (.gcmEnc 0 0 0 0 0) (hostState (cipherDev (cDesc 5 0 0 0)))
    memNat e.cellar 0x109003 1 = 1 ∧ e.cu 0 0x1018 = 1 ∧ e.cuTaken 0 = 1 := by decide +kernel
theorem test_cipher_revoked : memNat (after (.gcmEnc 0 0 0 0 0) (hostState (cipherDev (cDesc 1 0x2009 0 32)))).cellar 0x109000 2 = Status.keyRevoked.code := by decide +kernel
theorem test_cipher_other_row : (after (.gcmDec 0 0 0 0 0) (hostState (cipherDev (cDesc 1 0x1009 0 32)))).cuTaken 0 = 0 := by decide +kernel
/-- A request whose pages are not mapped: its record holds PAGE_FAULT. -/
theorem test_cipher_fault : let e := after (.sha384 0 0 0 0 0) (hostState (cipherDev ((cDesc 3 0 0 32).take 8 ++ toBytes 8 0x90000 ++ toBytes 8 0x90000 ++ (cDesc 3 0 0 32).drop 24)))
    e.cuTaken 0 = 1 ∧ memNat e.cellar 0x109000 2 = Status.pageFault.code ∧ (cipherDev (cDesc 3 0 0 32)).creqFaults 1 { creqOf (cDesc 3 0 0 32) with src := 0x90000 } = [.pageFault] := by decide +kernel
theorem test_cipher_tail : let d := cipherDev []
    (after (.ciphuTail 0 0 3 0) (hostState d)).cu 0 0x1014 = 3 ∧ (after (.ciphuTail 0 0 1 0) (hostState d)).cu 0 0x1028 = 2 ∧ (after (.ciphuTail 0 0 99 0) (hostState d)).cu 0 0x1028 = 1 := by
  decide +kernel
theorem test_cipher_cycles : (creqOf (cDesc 1 0 0 4096)).cycles = 320 ∧ (creqOf (cDesc 3 0 0 111)).cycles = 88 ∧ (creqOf (cDesc 4 0 0 112)).cycles = 208 := by decide +kernel

/-! ### Life cycle and debug -/

/-- Fuses with the first `n` words set, W4 as given. -/
def lcFuses (n w4 : Nat) : Fuses := { words := ((List.range n).map (fun k => (k, lcConst k))) ++ (if w4 = 0 then [] else [(3, w4)]) }
def lcState (f : Fuses) (d : Dev) : State := { fuses := f, dev := { d with lc := { inForce := f.decode }, batt := { osc := true, root := if f.cond 2 = .set then some [1] else none } } }
def fusesAfter (i : Instr) (s : State) : Fuses :=
  match exec i s with
  | .next t => t.fuses
  | _ => {}
theorem test_decode : (lcFuses 0 0).decode = 0 ∧ (lcFuses 1 0).decode = 1 ∧ (lcFuses 2 0).decode = 2 ∧ (lcFuses 3 0).decode = 3 ∧ (lcFuses 3 1).decode = 0xF ∧ (lcFuses 4 0).decode = 4 ∧
    ({ words := [(5, lcConst 5), (0, 1)] } : Fuses).decode = 6 := by decide +kernel
/-- The example: power fails after 20 bits of W4; the repeat programs the other 44 and ends OK; 0x5 is LC_INVALID. -/
theorem test_securing : let f := fusesAfter (.lcToSecured 0 3000 0 (some 20) 0) (lcState (lcFuses 3 0) liveDev)
    f.word 3 = 0xF00FF00FF ∧ f.decode = 0xF ∧ (fusesAfter (.lcToSecured 0 3000 0 none 0) (lcState f liveDev)).decode = 4 ∧
    (after (.lcToSecured 0 3000 0 none 0) (lcState f liveDev)).regN pgLc 0 0x1008 = 44 * 2 ^ 17 ∧ (after (.lcToRma 0 3000 0 none 0) (lcState f liveDev)).regN pgLc 0 0x1008 = Status.lcInvalid.code := by
  decide +kernel
theorem test_manufactured : (after (.lcToManufactured 0 2400 0 none 0) (lcState (lcFuses 2 0) liveDev)).regN pgLc 0 0x1008 = Status.lcInvalid.code ∧
    (after (.lcToManufactured 0 3000 0 none 0) (lcState (lcFuses 2 0) liveDev)).batt.root.isSome = true := by decide +kernel
/-- A fuse that does not take: LC_INVALID, and the word is left as programmed. -/
theorem test_bad_fuse : (after (.lcToTestUnlocked 0 0 1 none 0) (lcState (lcFuses 0 0) liveDev)).regN pgLc 0 0x1008 = Status.lcInvalid.code + 64 * 2 ^ 17 ∧
    (fusesAfter (.lcToTestUnlocked 0 0 1 none 0) (lcState (lcFuses 0 0) liveDev)).decode = 0xF := by decide +kernel
theorem test_rma : (after (.lcToRma 0 0 0 none 0) (lcState (lcFuses 4 0) liveDev)).regN pgLc 0 0x1008 = Status.authRequired.code ∧
    (after (.lcToRma 0 0 0 none 0) (lcState (lcFuses 4 0) { liveDev with dbg := { rmaCert := true } })).batt.root = none := by decide +kernel
theorem test_scrapped : (fusesAfter (.lcToScrapped 0x41 0 0 none 0) (lcState (lcFuses 3 1) liveDev)).decode = 6 ∧ (after (.lcToTestLocked 5 0 0 none 0) (lcState (lcFuses 1 0) liveDev)).bankN pgLc 5 0x0014 = 8 := by
  decide +kernel
theorem test_close : (after (.lcToTestLocked 0 0 0 none 0) (lcState (lcFuses 1 0) { liveDev with dbg := { rights := 3 } })).dbgRights = 0 := by decide +kernel
/-- A certificate of zeros in a buffer of a PF context. -/
def dbgDev : Dev := { (reqDev []).setRegN pgDbg 0 0x1008 0x1000 with sec := { coreA := true }, lc := { inForce := lcSecured } }
theorem witness_debug : dbgDev.live = true ∧ (dbgDev.ctx 1).func = portPf ∧ dbgDev.readVa 1 0x1000 96 = .data (List.replicate 96 0) ∧ dbgDev.rtpUp = true ∧ dbgDev.certFull 0 = false := by decide +kernel
theorem test_enable_malformed : certBad (List.replicate 4800 0) = true ∧ (after (.dbgEnable 0 2 0) (hostState dbgDev)).regN pgDbg 0 0x1010 = Status.accessDenied.code := by decide +kernel
theorem test_challenge : (after (.dbgChallenge 0 7) (hostState dbgDev)).dbg.chalValid = true ∧ (after (.dbgChallenge 0 7) (hostState dbgDev)).dbg.chalTime = 7 := by decide +kernel
theorem test_response : (after (.dbgResponse 0 1 0) (hostState dbgDev)).regN pgDbg 0 0x1010 = Status.authRequired.code ∧
    (after (.dbgResponse 0 1 0) (hostState { dbgDev with lc := { inForce := lcTestLocked } })).regN pgDbg 0 0x1010 = Status.lcInvalid.code := by decide +kernel
theorem test_dbg_revoke : (after (.dbgRevoke 0 0) (hostState { dbgDev with dbg := { rights := 7, scope := 1 } })).dbg.rights = 0 := by decide +kernel
def haltDev (excl : Bool) : Dev :=
  (({ progDev with dbg := { rights := 4, scope := 1, recorded := 1 }, lc := { inForce := lcSecured } } : Dev).setHoop 0 { state := .active, excl := excl }).setHoopSec 0 { consent := 4 }
theorem witness_halt : (haltDev true).dbgReaches 2 0 = true ∧ (haltDev true).slotsOf 1 = [(12, 2)] := by decide +kernel
theorem test_halt : ((after (.dbgHalt 0 1 12 0) (hostState (haltDev true))).slot 12 2).halted = true ∧
    ((after (.dbgResume 0 1 12 0) (hostState (after (.dbgHalt 0 1 12 0) (hostState (haltDev true))))).slot 12 2).halted = false ∧
    (after (.dbgHalt 0 1 12 0) (hostState (haltDev false))).regN pgDbg 0 0x1010 = Status.badDescriptor.code := by decide +kernel
theorem test_halt_unreached : ((after (.dbgHalt 0 1 12 0) (hostState { haltDev true with dbg := {} })).slot 12 2).halted = false := by decide +kernel

/-! ### Collectives -/

/-- A group of two in slot 5 of context 1 over port 3, whose link retrains (records wait), under link key 9; rank and held records as given. -/
def collGrp (rank : Nat) (held : List Held) : CGroup :=
  { state := .active, ctx := 1, n := 2, rank := rank, next := 3, prev := 3, peerSlot := 6, key := 9, timeout := 10000, lease := 100000, held := held }
def collBlock (op root src dst count start : Nat) : List Byte :=
  toBytes 2 op ++ [5, 0] ++ toBytes 4 root ++ toBytes 8 src ++ toBytes 8 dst ++ toBytes 8 count ++ toBytes 8 0 ++ toBytes 8 0x38000 ++ toBytes 8 start ++ List.replicate 8 0
def collDev (g : CGroup) (block : List Byte) : Dev :=
  let d := blockDev vaDev tyCollective (List.replicate 12 0) block
  { ((d.setLk 3 { state := .training, retraining := true, pairs := [(2, { valid := true, slot := 9 })] }).setKey 9 { state := .active, usage := useLink }).setGrp 5 g with
    cellar := memWrite d.cellar 0x101000 (toBytes 4 0x3F800000 ++ toBytes 4 0x40200000) }
theorem witness_coll_ready : (List.range 8).all (fun i => (collDev (collGrp 0 []) (collBlock (i + 1) 0 0x1000 0x20000 8 0)).collReady 7 (i + 1)) = true ∧
    (collDev (collGrp 0 []) (collBlock 1 0 0x1000 0x20000 8 0)).live = true ∧ (collDev (collGrp 0 []) (collBlock 1 0 0x1000 0x20000 8 0)).shEarlier 5 7 = false := by decide +kernel
/-- 1.0 and 2.5 here at rank 0, the owner; 0.5 and 1.0 arrive from rank 1, the first: 1.5 and 3.5 are written, sent round, and the command ends. -/
theorem test_allreduce : let e := after (.allreduce 7 9) (hostState (collDev (collGrp 0 [{ tgt := shTgt 5 0 0 false 0 0, engine := 0, payload := toBytes 4 0x3F000000 ++ toBytes 4 0x3F800000 }])
      (collBlock 1 0 0x1000 0x20000 2 0)))
    e.readVa 1 0x20000 8 = .data (toBytes 4 0x3FC00000 ++ toBytes 4 0x40600000) ∧ (e.cmd 7).stage = .finished ∧ (e.cmd 7).status = 0 ∧ (e.grp 5).running = none ∧ (e.grp 5).inst = 1 ∧
    ((e.lk 3).tx.map (fun x => x.2.records.length)) = [1] ∧ e.reg64 pgShut 5 0x0134 = 8 := by decide +kernel
/-- The record geometry does not fit: BAD_DESCRIPTOR; a FAILED record: PARTIAL, and the chunk is passed on as failed. -/
theorem test_geometry : ((after (.allreduce 7 9) (hostState (collDev (collGrp 0 [{ tgt := shTgt 5 0 0 false 0 0, engine := 0, payload := [0, 0, 0, 0] }]) (collBlock 1 0 0x1000 0x50000 2 0)))).cmd 7).status =
      Status.badDescriptor.code ∧
    ((after (.broadcast 7 9) (hostState (collDev (collGrp 0 [{ tgt := shTgt 5 0 1 true 0 0, engine := 0, payload := [0, 0, 0, 0] }]) (collBlock 5 1 0x1000 0x50000 4 0)))).cmd 7).status =
      Status.partialDone.code := by decide +kernel
theorem witness_awaits : (let d := collDev (collGrp 0 []) (collBlock 1 0 0x1000 0x20000 8 0)
      Awaits (d.shTake 5 7 (d.collOf (d.cmd 7))) ((d.shTake 5 7 (d.collOf (d.cmd 7))).grp 5)) := by
  refine ⟨by decide +kernel, by decide +kernel, by decide +kernel, by decide +kernel, by decide +kernel, by decide +kernel, by decide +kernel, by decide +kernel, by decide +kernel,
    by decide +kernel, fun i h1 h2 => ?_⟩
  have h : i = 0 := Nat.lt_one_iff.mp h2
  subst h
  decide +kernel
theorem test_waits : (List.range 5).all (fun i => (let e := after (ringRow (i + 1) 7 9) (hostState (collDev (collGrp (if i < 3 then 0 else 1) []) (collBlock (i + 1) 0 0x1000 0x20000 8 50)))
      decide ((e.grp 5).running = some 7 ∧ (e.grp 5).begun = false ∧ (e.grp 5).co.segs = (if i = 3 then 2 else 1) ∧ (e.lk 3).tx = []))) = false ∧
    (List.range 5).all (fun i => (let e := after (ringRow (i + 1) 7 9) (hostState (collDev (collGrp (if i < 3 then 0 else 1) []) (collBlock (i + 1) 0 0x1000 0x20000 8 50)))
      decide ((e.grp 5).running = some 7 ∧ (e.grp 5).begun = false ∧ (e.lk 3).tx = []))) = true := by decide +kernel
theorem test_start_time : let d := after (.broadcast 7 9) (hostState (collDev (collGrp 0 []) (collBlock 5 0 0x1000 0 8 50)))
    (d.grp 5).begun = false ∧ ((after (.collectiveStartTime 7 49) (hostState d)).cmd 7).stage = .running ∧ ((after (.collectiveStartTime 7 50) (hostState d)).cmd 7).stage = .finished := by decide +kernel
theorem witness_broadcast : let d := collDev (collGrp 0 []) (collBlock 5 0 0x1000 0 8 0)
    let d0 := d.shTake 5 7 (d.collOf (d.cmd 7))
    (match d0.shRead (d0.grp 5) [(0x1000, 8)] with
      | .ok w => w == toBytes 4 0x3F800000 ++ toBytes 4 0x40200000
      | _ => false) = true ∧ (d.collOf (d.cmd 7)).segs = 1 ∧
    ((d0.chunkGood 5 0).sendRecords 3 0 9 0 2 0 (fun sg => shTgt 6 0 1 false sg 0) (toBytes 8 7)).2 = none := by decide +kernel
theorem test_group_ends : let b := collBlock 1 0 0x1000 0x20000 2 0
    ((after (.allreduce 7 9) (hostState (collDev {} b))).cmd 7).status = Status.badDescriptor.code ∧ ((after (.allreduce 7 9) (hostState (collDev { collGrp 0 [] with state := .fenced } b))).cmd 7).status =
      Status.groupPartitioned.code ∧ ((after (.reduceScatter 7 9) (hostState ((collDev (collGrp 0 []) (collBlock 3 0 0x1000 0x20000 2 0)).setLk 3 { state := .down }))).cmd 7).status = Status.linkDown.code := by
  decide +kernel
/-- The group timeout, 10,000 ACLK cycles, is 100,000 ns after the start at 9. -/
theorem test_group_timeout : let d := after (.allreduce 7 9) (hostState (collDev (collGrp 0 []) (collBlock 1 0 0x1000 0x50000 2 0)))
    let f := { d with cmds := d.cmds.map (fun e => (e.1, { e.2 with deadline := 10 ^ 9 })) }
    (d.grp 5).running = some 7 ∧ ((after (.groupTimeout 5 100008) (hostState f)).cmd 7).stage = .running ∧ ((after (.groupTimeout 5 100009) (hostState f)).cmd 7).status = Status.groupTimeout.code ∧
    bit ((after (.groupTimeout 5 100009) (hostState f)).regN pgShut 5 0x0148) 3 = true ∧ ((after (.groupTimeout 5 9) (hostState d)).cmd 7).stage = .running ∧
    ((after (.groupTimeout 5 9) (hostState { d with cmds := d.cmds.map (fun e => (e.1, { e.2 with desc := [8, 0] ++ e.2.desc.drop 2 })) })).cmd 7).stage = .finished := by decide +kernel
/-- Rank 0 of a picot group queues x_0 for slot START_NS / 64 with hop 1. -/
theorem test_picot : let d := (collDev { collGrp 0 [] with picot := true } (collBlock 6 0 0x1000 0x20000 8 6400)).setLk 3 { state := .active, slotMode := true }
    let e := after (.picotAllreduce 7 9) (hostState d)
    (e.grp 5).launches = [{ slot := 100, head := [1, 0, 1, 0, 0, 0, 6, 0, 100, 0, 0, 0, 0, 0, 0, 0], payload := toBytes 4 0x3F800000 ++ toBytes 4 0x40200000 }] ∧ (e.grp 5).running = some 7 := by
  decide +kernel
/-- The last rank adds its value, writes the sum, and sends the result on. -/
theorem test_picot_last : let d := (collDev { collGrp 1 [] with picot := true } (collBlock 6 0 0x1000 0x20000 8 6400)).setLk 3 { state := .active, slotMode := true }
    let e := (after (.picotAllreduce 7 9) (hostState d)).picotArrive 5 100 [1, 0, 1, 0, 0, 0, 5, 0, 100, 0, 0, 0, 0, 0, 0, 0] (toBytes 4 0x3F000000 ++ toBytes 4 0x3F800000)
    e.readVa 1 0x20000 8 = .data (toBytes 4 0x3FC00000 ++ toBytes 4 0x40600000) ∧ (e.cmd 7).stage = .finished ∧ ((e.grp 5).launches.map (fun l => (l.slot, l.head.take 4))) = [(101, [1, 2, 2, 0])] := by
  decide +kernel
/-- XSEND waits for its credit; with one of another count both end BAD_DESCRIPTOR; with its own it sends and ends. -/
theorem test_xsend : let d := fun (c : List (Nat × Nat)) => collDev { collGrp 0 [] with credits := c } (collBlock 7 3 0x1000 0 8 0)
    ((after (.xsend 7 9) (hostState (d [(4, 8)]))).cmd 7).stage = .running ∧ ((after (.xsend 7 9) (hostState (d [(3, 9)]))).cmd 7).status = Status.badDescriptor.code ∧
    (let e := after (.xsend 7 9) (hostState (d [(4, 8), (3, 8)]))
     (e.cmd 7).stage = .finished ∧ (e.cmd 7).status = 0 ∧ (e.grp 5).credits = [(4, 8)] ∧ ((e.lk 3).tx.map (fun x => x.2.records.length)) = [1]) := by decide +kernel
/-- XRECV posts its credit once; the data record that waits then ends it. -/
theorem test_xrecv : let d := collDev { collGrp 0 [{ tgt := hoTgt 5 3 false 0, engine := 1, payload := toBytes 8 77 }] with credits := [] } (collBlock 8 3 0 0x20000 8 0)
    let e := after (.xrecv 7 9) (hostState d)
    (e.cmd 7).stage = .finished ∧ e.readVa 1 0x20000 8 = .data (toBytes 8 77) ∧ ((e.lk 3).tx.map (fun x => x.2.records.length)) = [1] := by decide +kernel
theorem witness_xrecv : let d := collDev (collGrp 0 []) (collBlock 8 3 0 0x20000 8 0)
    (d.hoSend 5 3 (hoTgt 6 3 true 0) (toBytes 8 8)).2 = none ∧ (d.hoSend 5 4 (hoTgt 6 3 true 0) (toBytes 8 8)).2 = some .linkDown ∧ (d.cmd 7).htag = 3 ∧
    ((collDev (collGrp 0 []) (collBlock 7 3 0 0x20000 8 0)).updCmd 7 (fun m => { m with started := true })).hoOldest 5 7 3 = some 7 := by decide +kernel

/-- CREATE in a hoop that may hold one group. -/
def groupDev (n tmo : Nat) : Dev :=
  let d := ((hostDev.setHoop 0 { state := .active, inForce := { groups := 1 } }).setKey 9 { state := .active, usage := useLink }).setLk 3 { state := .active, rate := 65000 }
  [(0, 1 + 2 ^ 12), (1, n + 2 ^ 16), (2, 3 + 3 * 16 + 6 * 256), (3, 9), (4, tmo), (5, 100000)].foldl (fun d (e : Nat × Nat) => d.setBankN pgShut 0 (0x1014 + 4 * e.1) e.2) d
theorem test_create_group : let e := after (.shutCreate 0 9) (hostState (groupDev 2 10000))
    e.bankN pgShut 0 0x102C = 0 ∧ e.grp 0 = { state := .active, ctx := 1, cls := 1, n := 2, rank := 1, next := 3, prev := 3, peerSlot := 6, key := 9, timeout := 10000, lease := 100000, renewed := 9 } ∧
    e.regN pgShut 0 0x0120 = 65000 ∧ (after (.shutCreate 0 9) (hostState e)).bankN pgShut 0 0x102C = Status.rejectNoCapacity.code ∧
    (after (.shutCreate 0 9) (hostState (groupDev 1 10000))).bankN pgShut 0 0x102C = Status.badDescriptor.code ∧ (after (.shutCreate 5 9) (hostState (groupDev 2 10000))).bankN pgShut 5 0x102C = Status.accessDenied.code ∧
    (after (.shutCreate 0x41 9) (hostState (groupDev 2 10000))).bankN pgShut 0x41 0x0014 = 8 := by decide +kernel
theorem test_destroy_group : let d := after (.allreduce 7 9) (hostState (collDev (collGrp 0 []) (collBlock 1 0 0x1000 0x50000 2 0)))
    let e := after (.shutDestroy 0 5 10) (hostState d)
    let f := after (.shutFence 0 5 10) (hostState d)
    e.grp 5 = {} ∧ (e.cmd 7).status = Status.contextAborted.code ∧ e.cellar = d.cellar ∧ (f.grp 5).state = .fenced ∧ (f.cmd 7).status = Status.groupPartitioned.code ∧
    (after (.shutDestroy 0 6 10) (hostState d)).bankN pgShut 0 0x102C = Status.badDescriptor.code := by decide +kernel
/-- A lease of 100,000 ACLK cycles renewed at 7 ends at 1,000,007 ns. -/
theorem test_lease : let d := after (.shutGLease 0 7) (hostState ((collDev (collGrp 0 []) []).setBankN pgShut 0 0x0030 5))
    (d.grp 5).renewed = 7 ∧ ((after (.leaseExpiry 5 1000006) (hostState d)).grp 5).state = .active ∧ ((after (.leaseExpiry 5 1000007) (hostState d)).grp 5).state = .fenced ∧
    (after (.leaseExpiry 5 1000007) (hostState d)).regN pgShut 5 0x0148 = 4 ∧ ((after (.shutGLease 5 9) (hostState d)).grp 5).renewed = 7 := by decide +kernel

/-! ### Storage -/

/-- Session 2 open on port 1 with 4,096-byte LBAs, and a command whose file descriptor (one extent of `n` LBAs from LBA 100 on, key 9) lies at 0x10000. -/
def fdesc (magic : Byte) (n len : Nat) : List Byte :=
  [magic, 0x44, 0x53, 0x43] ++ toBytes 2 9 ++ toBytes 2 1 ++ toBytes 8 77 ++ toBytes 8 5 ++ toBytes 8 len ++ List.replicate 32 0 ++ [2, 0, 0, 0] ++ toBytes 4 n ++ toBytes 8 100
def storBlock (op first count len : Nat) : List Byte :=
  toBytes 2 op ++ List.replicate 6 0 ++ toBytes 8 0x10000 ++ toBytes 4 first ++ toBytes 4 count ++ toBytes 8 len ++ toBytes 8 0x20000 ++ toBytes 8 0x38000 ++ List.replicate 16 0
def storDev (file block : List Byte) : Dev :=
  let d := blockDev vaDev tyStorage (List.replicate 12 0) block
  { ((d.setKey 9 { state := .active, usage := useFile, phase := 3, counter := 6 }).setSess 2 { state := .opened, port := 1, nsid := 8, kato := 10, lba := 12, blocks := 1000, lastKa := 0 }) with
    cellar := memWrite d.cellar 0x110000 file, rkeyNext := 40, ethUp := 2 }
theorem witness_stor : let d := storDev (fdesc 0x46 17 65536) (storBlock 1 0 1 0)
    d.storReady 7 1 = true ∧ (match d.fileRead 1 0x10000 with
      | .ok (raw, f) => !d.fileBad false raw f && f.chunks == 1 && f.extents == [(2, 17, 100)]
      | _ => false) = true ∧ d.keyCheck 0 useFile 9 0 = none ∧ (d.cap 7).live = false := by decide +kernel
/-- READ of chunk 0: its 16 LBAs from 100 on, and LBA 116, the tag area's first. -/
theorem test_read : let e := after (.storageRead 7 0) (hostState (storDev (fdesc 0x46 17 65536) (storBlock 1 0 1 0)))
    e.out = [.storage 2 stRead [8, 116, 1, 41, 4096] [], .storage 2 stRead [8, 100, 16, 40, 65536] []] ∧ (e.cmd 7).stage = .running := by decide +kernel
theorem test_flush : let e := after (.storageFlush 7 0) (hostState (storDev (fdesc 0x46 17 65536) (storBlock 3 0 0 0)))
    e.out = [.storage 2 stFlush [8, 0, 0, 40, 0] []] ∧ (let f := after (.nvmeCompletion 2 40 true 3 1) (hostState e)
      (f.cmd 7).stage = .finished ∧ (f.cmd 7).status = 0 ∧ f.reg64 pgStor 2 0x010C = 1 ∧ f.ios = []) ∧
    ((after (.sendWithInvalidate 2 40 false 3 1) (hostState e)).cmd 7).status = Status.partialDone.code ∧ ((after (.nvmeIoTimeout 40 2999999999) (hostState e)).cmd 7).stage = .running ∧
    ((after (.nvmeIoTimeout 40 3000000000) (hostState { e with regs := e.setRegN pgStor 0 0x100C 300000000 |>.regs })).cmd 7).status = Status.partialDone.code := by decide +kernel
theorem test_bad_file : ((after (.storageRead 7 0) (hostState (storDev (fdesc 0x47 17 65536) (storBlock 1 0 1 0)))).cmd 7).status = Status.badDescriptor.code ∧
    ((after (.storageFlush 7 0) (hostState (storDev (fdesc 0x46 16 65536) (storBlock 3 0 0 0)))).cmd 7).status = Status.badDescriptor.code := by decide +kernel
/-- WRITE draws a nonce: phase 3, then the slot's counter 6, and the descriptor holds it with the length. -/
theorem test_write : let d := storDev (fdesc 0x46 17 65536) (storBlock 2 0 0 100)
    (match d.drawNonce 9 1 with
      | some (d1, n) => decide (n = 3 * 2 ^ 56 + 6 ∧ (d1.key 9).counter = 7 ∧ (d1.key 9).uses = 1)
      | none => false) = true ∧ ((d.setKey 9 { state := .exhausted, usage := useFile }).drawNonce 9 1).isNone = true := by decide +kernel
theorem test_write_out : let e := after (.storageWrite 7 0) (hostState ((storDev (fdesc 0x46 17 65536) (storBlock 2 0 0 100)).setKey 9 { state := .exhausted, usage := useFile }))
    (e.cmd 7).status = Status.keyExhausted.code ∧ e.out = [] := by decide +kernel
/-- A target's accesses: served inside the window, a NAK outside it, which takes the session down. -/
theorem test_rdma : let d := { storDev [] [] with ios := [(40, { live := true, trk := 7, session := 2, len := 8, write := true, peer := some (19, 0), got := [1, 2, 3, 4, 5, 6, 7, 8] })] }
    (after (.rdmaRead 2 40 2 3 0) (hostState d)).out = [.storage 2 stReadAnswer [40, 2, 3] [3, 4, 5]] ∧ (after (.rdmaRead 2 40 6 3 0) (hostState { d with ios := [(40, { live := true, trk := 9, session := 2, len := 8, write := true })] })).out =
      [.storage 2 stNak [40] []] ∧ ((after (.rdmaRead 2 41 0 1 0) (hostState { d with ios := [] })).sess 2).state = .down ∧
    (let x : StorIo := { live := true, trk := 9, session := 2, len := 8, chunk := 3 }
     let e := after (.rdmaWrite 2 40 2 [9, 9] 0) (hostState { d with ios := [(40, x)] })
     (e.io 40).got = [0, 0, 9, 9, 0, 0, 0, 0] ∧ (e.sess 2).state = .opened) := by decide +kernel
/-- The session block: port 1, 8 queue pairs of depth 128, KATO 60 s. -/
def sessBlock (kato : Nat) : List Byte := [1, 8] ++ toBytes 2 128 ++ toBytes 4 8 ++ List.replicate 16 0 ++ toBytes 2 4420 ++ toBytes 2 kato ++ List.replicate 452 0
def openDev (kato : Nat) : Dev := { vaDev.setBankN pgStor 0 0x1014 0x2000 with cellar := memWrite vaDev.cellar 0x102000 (sessBlock kato) }
theorem test_open : let e := after (.storOpen 0 1 true true 12 500 7) (hostState (openDev 60))
    e.bankN pgStor 0 0x101C = 0 ∧ (e.sess 0).state = .opened ∧ (e.sess 0).depth = 128 ∧ (e.sess 0).lastKa = 7 ∧ (after (.storOpen 0 1 true true 12 500 7) (hostState (openDev 61))).bankN pgStor 0 0x101C = Status.badDescriptor.code ∧
    (after (.storOpen 0 1 false true 12 500 7) (hostState (openDev 60))).bankN pgStor 0 0x101C = Status.linkDown.code ∧ (after (.storOpen 0 1 true true 11 500 7) (hostState (openDev 60))).bankN pgStor 0 0x101C = Status.badDescriptor.code ∧
    (after (.storOpen 5 1 true true 12 500 7) (hostState (openDev 60))).sessions = [] := by decide +kernel
theorem witness_open : (openDev 60).readVa 1 0x2000 480 = .data (sessBlock 60) ∧ ((openDev 60).ctx 1).func = portPf := by decide +kernel
theorem test_stor_close : (after (.storClose 0 2 0) (hostState (storDev [] []))).sessions = [] ∧ (after (.storClose 0 3 0) (hostState (storDev [] []))).bankN pgStor 0 0x101C = Status.badDescriptor.code := by decide +kernel
/-- KATO 10 s: a Keep Alive every 5 s; one that fails takes the session down. -/
theorem test_keep_alive : (after (.keepAliveTimer 2 true 4999999999) (hostState (storDev [] []))).out = [] ∧ (after (.keepAliveTimer 2 true 5000000000) (hostState (storDev [] []))).out = [.storage 2 stKeepAlive [] []] ∧
    ((after (.keepAliveTimer 2 false 5000000000) (hostState (storDev [] []))).sess 2).state = .down := by decide +kernel
theorem test_ethernet : (after (.ethernetFrame 1 9217 0 false) (hostState (storDev [] []))).regN pgStor 0 0x1004 = 1 ∧ (after (.ethernetFrame 1 9216 1 false) (hostState (storDev [] []))).regN pgStor 0 0x1004 = 0 ∧
    (after (.ethernetLinkUp 0 true) (hostState (storDev [] []))).ethUp = 3 ∧ (after (.ethernetLinkUp 0 false) (hostState (storDev [] []))).ethUp = 2 ∧
    (let e := after (.ethernetLinkDown 1) (hostState (storDev [] []))
     e.ethUp = 0 ∧ (e.sess 2).state = .down) := by decide +kernel

/-! ### Checkpoints -/

/-- A CHECKPOINT block of fence 6 and group 5 with one plain shard of CID 3, whose header lies at 0x1000 and whose file at 0x10000. -/
def ckptBlock (op flags stage stageLen : Nat) : List Byte :=
  toBytes 2 op ++ [BitVec.ofNat 8 flags, 5] ++ toBytes 2 6 ++ toBytes 2 1 ++ toBytes 8 99 ++ toBytes 8 0x10000 ++ toBytes 8 stage ++ toBytes 8 stageLen ++ toBytes 8 0x38000 ++ toBytes 8 0x3000 ++ toBytes 4 1 ++
    List.replicate 68 0 ++ toBytes 8 3 ++ toBytes 8 0x1000 ++ [1] ++ List.replicate 7 0 ++ toBytes 8 0x10000 ++ List.replicate 32 0
def ckptDev (f : Fence) (block : List Byte) : Dev :=
  { ((storDev (fdesc 0x46 17 65536) block).setFence 6 f) with
    cmds := [(7, { live := true, ctx := 1, released := true, stage := .running, desc := [0x0A, 1, 0xFF, 0xFF] ++ List.replicate 60 0, block := block })] }
def okFence : Fence := { state := .idle, ctx := 1, step := 40 }
theorem witness_ckpt : let d := ckptDev okFence (ckptBlock 1 1 0 0)
    d.live = true ∧ d.ckReady 7 1 = true ∧ d.armedOn 6 = [7] ∧ (d.cmd 7).kFence = 6 ∧ d.seesCtx 0 1 = true ∧ (ckptDev okFence (ckptBlock 2 0 0x28000 0)).ckReady 7 2 = true ∧
    (ckptDev okFence (ckptBlock 3 0 0 0)).ckReady 7 3 = true ∧ okFence.myTurn 7 true = true ∧ ({ okFence with running := some 4 } : Fence).myTurn 7 false = false := by decide +kernel
/-- Armed: the timer of 20 ms written at 5 fires at 20,000,005 ns and starts it; without one MISSED is set. -/
theorem test_timer : let d := after (.ckptTmsWrite 0 6 20 5) (hostState (ckptDev okFence (ckptBlock 1 1 0 0)))
    (d.trig 6).since = 5 ∧ after (.capture 7 6) (hostState d) = d.at 6 ∧ (after (.ckptTimerFire 6 20000004) (hostState d)).captures = [] ∧
    (let e := after (.ckptTimerFire 6 20000005) (hostState d)
     (e.cap 7).phase = 1 ∧ e.trig 6 = { since := 20000005, fired := true, lastStep := 40 } ∧ e.regN pgCkpt 6 0x010C = 40 ∧ (e.fence 6).waiting = [(7, false)]) ∧
    (after (.ckptTimerFire 6 20000005) (hostState { d with cmds := [] })).regN pgCkpt 6 0x011C = 1 := by decide +kernel
theorem test_tms_write : (after (.ckptTmsWrite 5 6 20 5) (hostState (ckptDev okFence []))).triggers = [] ∧ (after (.ckptTmsWrite 5 6 20 5) (hostState (ckptDev okFence []))).bankN pgCkpt 5 0x0014 = 8 := by decide +kernel
/-- The hold: refused by an INCOMPLETE fence with no record, waited for behind a STEP, taken in its turn. -/
theorem test_capture_hold : let b := ckptBlock 1 0 0 0
    (let e := after (.capture 7 1) (hostState (ckptDev { okFence with state := .incomplete } b))
     (e.cmd 7).status = Status.contextAborted.code ∧ e.cellar = (ckptDev okFence b).cellar ∧ e.regN pgCkpt 6 0x0114 = Status.contextAborted.code) ∧
    (let e := after (.capture 7 1) (hostState (ckptDev { okFence with running := some 4 } b))
     (e.cap 7).phase = 1 ∧ (e.fence 6).waiting = [(7, false)]) ∧
    (let e := after (.capture 7 1) (hostState ((ckptDev okFence b).setGrp 5 { collGrp 0 [] with running := some 4 }))
     (e.cap 7).phase = 2 ∧ (e.cap 7).step = 40 ∧ (e.fence 6).readers = [7]) ∧
    ((after (.capture 7 1) (hostState (ckptDev okFence b))).cmd 7).status = Status.badDescriptor.code := by decide +kernel
theorem test_status_reduction : let d := (ckptDev { okFence with readers := [7] } (ckptBlock 1 1 0 0)).setCap 7 { live := true, phase := 8, result := some (0, [(0, toBytes 4 (codeF32 Status.partialDone.code))]) }
    let e := after (.capture 7 1) (hostState (d.setTrig 6 { fired := true }))
    (e.cmd 7).status = Status.partialDone.code ∧ e.regN pgCkpt 6 0x0114 = Status.partialDone.code ∧ (e.trig 6).fired = false ∧ e.regN pgCkpt 6 0x0118 = 0 := by decide +kernel
theorem test_codes : f32Code (codeF32 0x0402) = 0x0402 ∧ codeF32 0 = 0 := by decide +kernel
/-- COPYOUT: without staging BAD_DESCRIPTOR; nothing staged, nothing written; a staged shard is written from the region. -/
theorem test_copyout : ((after (.copyout 7 1) (hostState (ckptDev okFence (ckptBlock 2 0 0 0)))).cmd 7).status = Status.badDescriptor.code ∧
    (let e := after (.copyout 7 1) (hostState (ckptDev okFence (ckptBlock 2 0 0x28000 0)))
     (e.cmd 7).status = 0 ∧ (e.cmd 7).stage = .finished ∧ e.out = []) := by decide +kernel
/-- RESTORE: another block's incomplete work, a fence in use, the manifest asked for. -/
theorem test_restore : let b := ckptBlock 3 0 0 0
    ((after (.restore 7 1) (hostState (ckptDev { okFence with state := .incomplete, listAddr := 5 } b))).cmd 7).status = Status.badDescriptor.code ∧
    ((after (.restore 7 1) (hostState (ckptDev { okFence with readers := [4] } b))).cap 7).phase = 1 ∧
    (let e := after (.restore 7 1) (hostState (ckptDev okFence b))
     e.out = [.storage 2 stRead [8, 116, 1, 41, 4096] [], .storage 2 stRead [8, 100, 16, 40, 65536] []] ∧ (e.fence 6).running = some 7 ∧ (e.cap 7).phase = 2) ∧
    ((after (.restore 7 1) (hostState (ckptDev { okFence with ctx := 2 } b))).cmd 7).status = Status.accessDenied.code := by decide +kernel
/-- The example of the chapter: 448 under scale 0x28 and M_ST 0.5 is written again under M_ST 0.75 as scale 0x23 and 448, which decodes to 57.75. -/
theorem test_moment_again : remoment 0x3F000000 0x3F400000 false [0x7E] [0x28] = ([0x7E], [0x23]) := by decide +kernel

/-! ### Faults, halts and sparing -/

theorem test_engine_watchdog : let d := progDev.setSlot 12 2 { progDev.slot 12 2 with running := some 7 }
    d.unitWorks 0 12 1 = true ∧ d.ctxHeld 1 = false ∧ ((after (.engineWatchdog 0 12 1 5) (hostState d)).ctx 1).pricking = none ∧ (after (.engineWatchdog 0 12 1 5) (hostState d)).regN pgRas 0 0x0114 = 0x44 ∧
    (after (.engineWatchdog 0 12 1 5) (hostState progDev)) = progDev.at 5 := by decide +kernel
theorem test_queue_watchdog : let d := execDev.updCmd 7 (fun m => { m with stage := .waiting })
    ((after (.queueWatchdog 7 5) (hostState d)).cmd 7).live = false ∧ ((after (.queueWatchdog 7 5) (hostState d)).ctx 1).pricking = none ∧ (after (.queueWatchdog 7 5) (hostState d)).regN pgRas 0 0x0100 = 1 := by decide +kernel
/-- SW_HALT by the BMC: the record has cause 0x15 and sub-code 1, the keys are gone, and a second halt is marked. -/
theorem test_sw_halt : let d := { linkDev activePort with keys := [(9, { state := .active, base := 77 })], batt := { bootCount := 6 } }
    let e := after (.rasHaltReq 0x41 0x48414C54 8) (hostState d)
    e.aon.halt = { valid := true, cause := 0x15, wher := 1, boot := 6, time := 8 } ∧ (e.key 9).base = 0 ∧ (e.lk 3).state = .down ∧ (after (.rasHaltReq 0x41 0x48414C54 9) (hostState e)).aon.halt.multi = true ∧
    (after (.rasHaltStsClear 0 1) (hostState e)).aon.halt = {} ∧ (after (.rasHaltReq 5 0x48414C54 8) (hostState d)).aon.halted = false ∧ (after (.rasHaltReq 0 1 8) (hostState d)).bankN pgRas 0 0x0014 = 8 := by decide +kernel
theorem test_halt_n : (after (.haltNLow 1) (hostState hostDev)).aon.halted = false ∧ (after (.haltNLow 1) (hostState (hostDev.setRegN pgRas 0 0x102C 1))).aon.halt.cause = 0x16 := by decide +kernel
/-- Tile 40 lies in row 3; a second remap of the row is refused; the held tile moves and the row's spare is spent. -/
theorem test_remap : let d := after (.remapTile 0 40 true 1) (hostState hostDev)
    (d.tile 40).holding = true ∧ (after (.remapTile 0 41 false 1) (hostState d)).bankN pgAttic 0 0x1008 = Status.badDescriptor.code ∧
    (let e := after (.tileRemapExecute 40 2) (hostState d)
     (e.tile 40).phys = 13 ∧ e.regN pgAttic 0 0x1000 = 0xF7 ∧ (after (.remapTile 0 41 false 1) (hostState e)).bankN pgAttic 0 0x1008 = Status.rejectNoCapacity.code) ∧
    ((after (.remapCancel 0 40 2) (hostState d)).tile 40).armed = false ∧ (after (.remapTile 0 96 false 1) (hostState hostDev)).bankN pgAttic 0 0x1008 = Status.badDescriptor.code := by decide +kernel
theorem test_tamper : let d := { hostDev with batt := { vbat := true, root := some [1] } }
    (after (.tamperTrip 4 99 1) (hostState d)).aon.halt.cause = 0x10 ∧ (after (.tamperTrip 4 99 1) (hostState d)).aon.halt.wher = 4 ∧ (after (.tamperTrip 4 99 1) (hostState d)).batt.root = none ∧
    (after (.tamperTrip 7 99 1) (hostState d)).batt.root = some [1] ∧ (after (.tamperTrip 4 99 1) (hostState { d with aon := {} })).batt.trips = 1 := by decide +kernel
theorem test_rtp_watchdog : let d := { hostDev with sec := { coreA := true, coreB := true } }
    let e := after (.rtpWatchdog 0 500 10) (hostState d)
    e.sec.restarts = 1 ∧ e.sec.restartEnd = 510 ∧ e.aon.halted = false ∧ (after (.rtpWatchdog 0 500 1000000010) (hostState e)).aon.halt.cause = 0x11 ∧
    (after (.rtpWatchdog 0 500 1000000011) (hostState e)).sec.restarts = 2 ∧ (after (.rtpWatchdog 1 0 10) (hostState d)).aon.halt.wher = 1 := by decide +kernel
theorem test_entropy : let e := after (.entropyHealthFail false 2) (hostState (after (.entropyHealthFail false 1) (hostState hostDev)))
    e.aon.halted = false ∧ (after (.entropyHealthFail false 3) (hostState e)).aon.halt.cause = 0x12 ∧ (after (.entropyHealthFail true 1) (hostState hostDev)).aon.halted = true ∧
    (after (.entropyHealthFail false 1000000003) (hostState e)).aon.halted = false := by decide +kernel

/-! ### Starts and boot -/

/-- Every power-good input has risen in order. -/
def allPg : Table Nat := [(0, 1), (1, 2), (2, 3), (3, 4), (4, 5)]
/-- A board that holds nothing in reset, after three failed attempts or fewer; boot count 410. -/
def boardDev (series : Nat) : Dev := { aon := { sysRstLow := false, pg := allPg, series := series }, batt := { bootCount := 410, root := some [1] } }
/-- Outcomes with neither firmware slot good and no flash log. -/
def noFw : BootOp := { flashBad := true, logBad := true, dur := 130000000 }
/-- Fuses that decode to SECURED. -/
def boardFuses : Fuses := { lcFuses 4 0 with vop := 750 }
/-- A state with those fuses. -/
def boardState (d : Dev) : State := { fuses := boardFuses, dev := d }

theorem test_start_free : StartFree (boardDev 0) ∧ ¬ StartFree ({} : Dev) := by unfold StartFree; decide +kernel
/-- Neither slot verifies: attempt 1 fails at step 4, the retry is due with slot B first, the boot count is 411, the root secret stands. -/
theorem test_fw_fails : let e := after (.powerOn noFw 0) (boardState { boardDev 0 with aon := { (boardDev 0).aon with due := some (0, true) } })
    e.aon.retryDue = true ∧ e.aon.series = 1 ∧ e.aon.altFw = true ∧ e.aon.altHbm = false ∧ e.batt.bootCount = 411 ∧ e.batt.root = some [1] ∧ (e.aon.ledger.getD 0 []).take 16 = ascii "HTBL" ++ [155, 1, 0, 0, 1, 0, 0, 1, 4, 0, 0, 0] ∧
    bytesNat (e.aon.ledger.getD 0 []) 22 2 = 4 ∧ bytesNat (e.aon.ledger.getD 0 []) 56 4 = 13000 := by decide +kernel
/-- The fourth attempt of a series ends in safe mode, on the ROM service where neither slot verifies. -/
theorem test_safe_mode : let e := after (.bootRetry noFw 0) (boardState { boardDev 3 with aon := { (boardDev 3).aon with retryDue := true, perstLow := false } })
    e.aon.safe = true ∧ e.aon.attempt = 4 ∧ e.aon.romOnly = true ∧ e.aon.pcieUp = true ∧ e.aon.series = 3 ∧ bytesNat (e.aon.ledger.getD 0 []) 11 1 = 4 ∧ bytesNat (e.aon.ledger.getD 0 []) 9 1 = 2 := by decide +kernel
theorem test_entropy_boot : let e := after (.sysRstNRelease { entropy := false, logBad := true } 0) (boardState { boardDev 0 with aon := { (boardDev 0).aon with sysRstLow := true } })
    e.aon.halted = true ∧ e.aon.halt.cause = 0x12 ∧ e.aon.retryDue = false ∧ bytesNat (e.aon.ledger.getD 0 []) 11 1 = 2 ∧ bytesNat (e.aon.ledger.getD 0 []) 12 2 = 2 := by decide +kernel
theorem test_start_waits : (after (.bootCtlWarm 0 noFw 0) (boardState { boardDev 0 with aon := { (boardDev 0).aon with pg := [(0, 1)] } })).aon.due = some (4, false) ∧
    (after (.sysRstNRelease noFw 0) (boardState { boardDev 0 with aon := { (boardDev 0).aon with sysRstLow := true, seqErr := true } })).aon.due = some (1, true) ∧
    (after (.clearSeries 0 noFw 0) (boardState (boardDev 3))).aon.attempt = 1 ∧ (after (.bootCtlWarm 0 noFw 0) (boardState (boardDev 3))).aon.attempt = 4 ∧
    (after (.bootCtlWarm 5 noFw 0) (boardState (boardDev 3))).bankN pgBoot 5 0x0014 = 8 := by decide +kernel
/-- An attempt in progress is aborted by a start; its record is the second of the ledger. -/
theorem test_attempt_abort : let d := { boardDev 0 with aon := { (boardDev 0).aon with boot := { step := 8, trigger := 1 }, attempt := 1 } }
    let e := after (.bootCtlWarm 0x41 { noFw with hang := some 5, flashBad := true } 0) (boardState d)
    e.aon.ledger.length = 2 ∧ bytesNat (e.aon.ledger.getD 1 []) 11 1 = 3 ∧ bytesNat (e.aon.ledger.getD 1 []) 30 2 = 6 ∧ bytesNat (e.aon.ledger.getD 0 []) 11 1 = 1 ∧
    bytesNat (e.aon.ledger.getD 0 []) 9 1 = 1 := by decide +kernel
theorem test_core_lost : let d := { hostDev with aon := { hostDev.aon with pg := allPg, sysRstLow := false } }
    (after (.sysRstNAssert 0) (hostState d)).ctxs = [] ∧ (after (.sysRstNAssert 0) (hostState d)).aon.ready = false ∧ (after (.powerGoodLoss 2 0) (hostState d)).aon.due = some (2, true) ∧
    (after (.powerGoodLoss 2 0) (hostState d)).ctxs = [] ∧ (after (.powerGoodLoss 2 0) (hostState (boardDev 0))).aon.due = some (0, true) ∧ (after (.powerGoodLoss 7 0) (hostState d)) = d.at 0 := by decide +kernel
theorem test_power_good : let d := after (.pgRise [0, 1] 0) (hostState {})
    d.aon.pg = [(0, 1), (1, 1)] ∧ d.aon.seqErr = false ∧ (after (.pgRise [4] 0) (hostState d)).aon.seqErr = true ∧ (after (.pgRise [4] 0) (hostState d)).regN pgTel 0 0x102C = 2 ∧
    (after (.pgRise [2] 0) (hostState d)).aon.pg = [(0, 1), (1, 1), (2, 3)] ∧ (after (.seqHoldRelease 0) (hostState { aon := { seqErr := true } })).aon.seqErr = false ∧
    (after (.seqHoldRelease 0) (hostState { aon := { seqErr := true, pg := [(0, 1)] } })).aon.seqErr = true := by decide +kernel
theorem test_perst : (after (.perstNAssert 0) (hostState liveDev)).aon.warmPending = true ∧ (after (.perstNAssert 0) (hostState liveDev)).aon.pcieUp = false ∧
    (after (.perstNRelease noFw 0) (boardState { boardDev 0 with aon := { (boardDev 0).aon with warmPending := true } })).aon.boot.trigger = 3 ∧
    (after (.perstNRelease noFw 0) (boardState (boardDev 0))).aon = { (boardDev 0).aon with perstLow := false } ∧
    (after (.perstNRelease { hang := some 8 } 0) (boardState { boardDev 0 with aon := { (boardDev 0).aon with boot := { step := 8 } } })).aon.boot.step = 8 ∧
    (after (.perstNRelease { pcie := false, logBad := true } 0) (boardState { boardDev 0 with aon := { (boardDev 0).aon with boot := { step := 8 } } })).aon.boot.failStep = 8 ∧
    (after (.perstNRelease { logBad := true } 0) (boardState { boardDev 0 with aon := { (boardDev 0).aon with attempt := 4, boot := { step := 8 } } })).aon.safe = true := by decide +kernel
/-- The chapter's example, attempt 1: stack 5 fails training. -/
theorem test_boot_example_1 : let d := { boardDev 0 with batt := { bootCount := 411 }, aon := { (boardDev 0).aon with attempt := 1, boot := { step := 8, trigger := 1, elapsed := 130000000, steps := [(1, 1), (2, 1)] } } }
    let e := after (.perstNRelease { stacksBad := 0x20, logBad := true, dur := 15770000000 } 0) (boardState d)
    let r := e.aon.ledger.getD 0 []
    bytesNat r 4 4 = 411 ∧ bytesNat r 9 1 = 0 ∧ bytesNat r 10 1 = 1 ∧ bytesNat r 11 1 = 1 ∧ bytesNat r 12 2 = 11 ∧ bytesNat r 36 2 = 0x0104 ∧ bytesNat r 56 4 = 1590000 ∧ e.aon.altHbm = true := by decide +kernel
/-- The example's attempt 2: port 9 has not calibrated when step 14 reaches its limit; `READY`, on the conservative profile. -/
theorem test_boot_example_2 : let d := { boardDev 1 with batt := { bootCount := 412 }, aon := { (boardDev 1).aon with altHbm := true, attempt := 2, portsOp := 0x200, boot := { step := 14, trigger := 5, elapsed := 18000000000, alt := 0x800, steps := [(11, 2), (13, 1)] } } }
    let e := after (.bootStepTimeout { alnkBad := 0x200, logBad := true, dur := 185000000 } 0) (boardState d)
    let r := e.aon.ledger.getD 0 []
    bytesNat r 9 1 = 2 ∧ bytesNat r 10 1 = 5 ∧ bytesNat r 11 1 = 0 ∧ bytesNat r 36 2 = 2 ∧ bytesNat r 42 2 = 5 ∧ bytesNat r 46 2 = 0x0800 ∧ bytesNat r 48 4 = 0x200 ∧ bytesNat r 56 4 = 1818500 ∧
    e.aon.ready = true ∧ e.aon.series = 0 ∧ e.aon.altHbm = false ∧ (e.hoop 0).inForce = hoop0 ∧ (e.potOf 15).granted = true ∧ (e.potOf 16).granted = false ∧ (e.lk 9).state = .disabled := by decide +kernel
/-- On the conservative profile step 11 sets `CEL_STS.CONSERVATIVE` and its entry is `OK_ALT`. -/
theorem test_hbm_conservative : let d := { boardDev 1 with aon := { (boardDev 1).aon with altHbm := true, attempt := 2, boot := { step := 8, trigger := 5 } } }
    let e := after (.perstNRelease { logBad := true, metaOk := false } 0) (boardState d)
    e.regN (pgCel + 5) 0 0x1000 = 3 ∧ bytesNat (e.aon.ledger.getD 0 []) 36 2 = 2 ∧ e.aon.boot.failStep = 12 := by decide +kernel
theorem test_step_limits : let at' := fun (k : Nat) => { boardDev 0 with aon := { (boardDev 0).aon with boot := { step := k } } }
    (after (.bootStepTimeout noFw 0) (boardState (at' 5))).aon.boot.failStep = 5 ∧ (after (.bootStepTimeout noFw 0) (boardState (at' 3))).aon.halt.cause = 0x11 ∧
    (after (.bootStepTimeout noFw 0) (boardState (at' 6))).aon.noOpcfg = true ∧ (after (.bootStepTimeout noFw 0) (boardState (at' 0))) = (at' 0).at 0 := by decide +kernel
/-- R522: a warm attempt applies the stored results of the last cold one. -/
theorem test_mbist_profiles : let d := { boardDev 0 with aon := { (boardDev 0).aon with boot := { step := 8 } } }
    let e := after (.perstNRelease { logBad := true, crocks := [4], darners := [2], larder := [3, 5], ways := 1, stacksBad := 1 } 0) (boardState d)
    (e.tile 4).standin = true ∧ (e.darner 2).out = true ∧ e.larderOut = 5 ∧ e.regN pgTest 0 0x1024 = 8 * 65536 ∧
    (let w := after (.perstNRelease { logBad := true } 0) (boardState { boardDev 0 with aon := { e.aon with perstLow := true, boot := { step := 8, cold := false } } })
     (w.tile 4).standin = true ∧ w.larderOut = 5 ∧ w.wayOut = 1) := by decide +kernel
/-- The floor rises from 1 to 3 by the two lowest clear bits; power lost after one bit leaves 2. -/
theorem test_svn : let d := { liveDev with aon := { liveDev.aon with svnRunning := 3 }, sec := { coreA := true } }
    let run := fun (v : Nat) (l : Option Nat) => (match exec (.bootSvnCommit 0x41 v l 0) { fuses := { svnWord := 4 }, dev := d } with
      | .next t => t.fuses.svnWord
      | _ => 0)
    run 0x53564E43 none = 7 ∧ run 0x53564E43 (some 1) = 5 ∧ run 1 none = 4 ∧ svnFloor 7 = 3 := by decide +kernel
theorem test_always_on : (after (.alwaysOnResetRelease true 2 0) (hostState { aon := { aonUp := false } })).aon.mgmtAddr = 0x5A ∧ (after (.alwaysOnResetRelease true 2 0) (hostState liveDev)) = liveDev.at 0 ∧
    (after (.vddAonLoss 0) (hostState { hostDev with batt := { bootCount := 6 } })).batt.bootCount = 6 ∧ (after (.vddAonLoss 0) (hostState hostDev)).ctxs = [] ∧
    (after (.oscillatorStart true 0) (hostState { batt := { bootCount := 6 } })).batt.bootCount = 0 := by decide +kernel

/-! ### Flash, regulator, clocks and crossings -/

/-- A device with the flash address and a few flash bytes. -/
def flashDev (a : Nat) : Dev := { liveDev.setRegN pgBoot 0 0x1064 a with flash := [(0x200000, 0x11), (0x200101, 0x22)] }
theorem test_flash_erase : (after (.flashErase 0 1) (hostState (flashDev 0x200000))).flash = [] ∧ (after (.flashErase 0x41 1) (hostState (flashDev 0x201000))).flash = [(0x200000, 0x11), (0x200101, 0x22)] ∧
    (after (.flashErase 0 1) (hostState (flashDev 0x200100))).regN pgBoot 0 0x1068 = Status.badDescriptor.code ∧ (after (.flashErase 0 1) (hostState (flashDev 0x210000))).regN pgBoot 0 0x1068 = Status.accessDenied.code ∧
    (after (.flashErase 3 1) (hostState (flashDev 0x200000))).bankN pgBoot 3 0x0014 = 8 := by decide +kernel
theorem test_flash_program : let e := after (.flashProgram 0 1) (hostState ((flashDev 0x200100).setRegN pgBoot 0 0x1104 0xAABBCCDD))
    tabGet erasedByte e.flash 0x200105 = 0xCC ∧ tabGet erasedByte e.flash 0x200101 = 0 ∧ tabGet erasedByte e.flash 0x200200 = 0xFF ∧ tabGet erasedByte e.flash 0x200000 = 0x11 := by decide +kernel
theorem test_flash_read : let e := after (.flashRead 0x41 1) (hostState (flashDev 0x200100))
    e.regN pgBoot 0 0x1100 = 0xFFFF22FF ∧ e.regN pgBoot 0 0x11FC = 0xFFFFFFFF ∧ (after (.flashRead 0 1) (hostState (flashDev 0x310000))).regN pgBoot 0 0x1068 = 0 ∧
    (after (.flashRead 0 1) (hostState (flashDev 0x320000))).regN pgBoot 0 0x1068 = Status.badDescriptor.code := by decide +kernel
/-- R472: an operation issued during step 4 waits, and a second one finds `BUSY`. -/
theorem test_flash_waits : let d := { flashDev 0x200000 with aon := { boot := { step := 4 } } }
    let e := after (.flashErase 0 1) (hostState d)
    e.flash = d.flash ∧ e.regN pgBoot 0 0x1068 = 0x10000 ∧ (after (.flashErase 0 2) (hostState e)).bankN pgBoot 0 0x0014 = 8 ∧
    (after (.bootStepTimeout noFw 2) (hostState e)).flash = [] ∧ (after (.bootStepTimeout noFw 2) (hostState e)).regN pgBoot 0 0x1068 = 0 := by decide +kernel
theorem test_flash_tmo : let e := after (.flashBusyTimeout 0 1 1) (hostState (flashDev 0x201000))
    e.regN pgBoot 0 0x1068 = Status.partialDone.code + 0x20000 ∧ (after (.flashBusyTimeout 0 1 1) (hostState (flashDev 0x210000))).regN pgBoot 0 0x1068 = Status.accessDenied.code ∧ (after (.flashBusyTimeout 0 3 1) (hostState (flashDev 0x201000))).flash = (flashDev 0).flash := by decide +kernel
/-- V_OP 750 mV, target 740: 745 is within 5 mV of it, 746 is not; at most 725 and 775. -/
theorem test_avs : let d := liveDev.setRegN pgTel 0 0x1018 740
    let run := fun (v m : Nat) (f : Bool) => after (.avsUpdate v m f 1) (boardState d)
    (run 745 2 false).out = [.avs 745] ∧ (run 745 2 false).regN pgTel 0 0x1018 = 745 ∧ (run 745 2 false).regN pgTel 0 0x1030 = 2 ∧ (run 746 0 false).out = [] ∧ (run 745 0 true).regN pgTel 0 0x1018 = 740 ∧
    (run 745 0 true).regN pgTel 0 0x102C = 1 ∧ (run 745 0 true).regN pgTel 0 0x1030 = 3 ∧ (after (.icoreRead 8800 1) (boardState d)).regN pgTel 0 0x1020 = 8800 := by decide +kernel
theorem test_pll : let e := after (.pllLockLoss 2 5) (hostState (liveDev.setRegN pgClk 0 0x1000 0x1F))
    e.aon.halt.cause = 0x14 ∧ e.aon.halt.wher = 2 ∧ e.regN pgClk 0 0x1000 = 0x1B ∧ (after (.pllLockLoss 4 5) (hostState liveDev)).aon.halted = false ∧ (after (.pllLockLoss 0 5) (hostState {})).aon.halted = false ∧
    (after (.pllLockLoss 0 5) (hostState { aon := { safe := true } })).aon.halted = true := by decide +kernel
theorem test_completion_timeout : let d := liveDev.setQueue 9 { valid := true }
    let e := after (.completionTimeout true 9 0 5) (hostState d)
    (e.queue 9).error = true ∧ e.regN pgQue 9 0x012C = 4 ∧ (after (.completionTimeout true 8 0 5) (hostState d)) = d.at 5 := by decide +kernel
/-- Tile 7's side of its crossing enters reset with three writes in flight, and reopens. -/
theorem test_crossing : let d := after (.peerResetEntry 7 0 3 5) (hostState liveDev)
    d.regN pgClk 7 0x0104 = 1 ∧ d.regN pgClk 7 0x0108 = 3 ∧ d.regN pgClk 7 0x0110 = 1 ∧ (let e := after (.crossingReopen 7 0 6) (hostState d)
    e.regN pgClk 7 0x0104 = 8 ∧ e.regN pgClk 7 0x0110 = 3) ∧ (after (.crossingReopen 7 1 6) (hostState d)) = d.at 6 ∧ (after (.peerResetEntry 145 0 3 5) (hostState liveDev)) = liveDev.at 5 ∧
    (let b := after (.peerResetEntry 7 1 0 6) (hostState d)
     b.regN pgClk 7 0x0104 = 3 ∧ (after (.crossingReopen 7 0 6) (hostState b)).regN pgClk 7 0x0104 = 2) := by decide +kernel

/-! ### Production and field test -/

/-- A device of a life-cycle state. -/
def lcDev (n : Nat) : Dev := { liveDev with lc := { inForce := n } }
/-- The chapter's example: `TEST_LSEL` 0x450, then `TEST_LCTL` 0x2F: PRBS31, generator and checker, loopback NEAR, on port 5 lane 4. -/
def marginDev : Dev := ((lcDev lcSecured).laneSel 0 0x450).laneCtl 0 0x2F
theorem test_margin : after (.testLctlWrite 0 0x2F 0) (hostState (after (.testLselWrite 0 0x450 0) (hostState (lcDev lcSecured)))) = marginDev ∧ marginDev.bankN pgTest 0 0x1000 = 0x450 ∧ (marginDev.lane (laneKey 0 5 4)).ctl = 0x2F ∧ (marginDev.lane (laneKey 0 5 4)).last = 0 ∧
    (let e := after (.checkerLock 0 5 4 3 2240000000000) (hostState marginDev)
     (e.lane (laneKey 0 5 4)).lock = true ∧ (e.lane (laneKey 0 5 4)).errs = 3 ∧ (e.lane (laneKey 0 5 4)).bits = 2240000000000 ∧
     (let b := after (.checkerLossOfLock 0 5 4 32 64) (hostState e)
      (b.lane (laneKey 0 5 4)).lock = false ∧ (b.lane (laneKey 0 5 4)).errs = 35) ∧
     (after (.checkerLock 0 5 3 3 64) (hostState marginDev)).lane (laneKey 0 5 3) = {}) := by decide +kernel
theorem test_lsel : (after (.testLselWrite 0 0x950 1) (hostState marginDev)).bankN pgTest 0 0x1000 = 0x450 ∧ (after (.testLselWrite 0 0x950 1) (hostState marginDev)).bankN pgTest 0 0x0014 = 8 ∧
    (after (.testLselWrite 0 0x850 1) (hostState marginDev)).bankN pgTest 0 0x1000 = 0x850 ∧ (after (.testLselWrite 0x41 0xF02 1) (hostState marginDev)).bankN pgTest 0x41 0x1000 = 0xF02 ∧
    (after (.testLselWrite 0 0x21 1) (hostState marginDev)).bankN pgTest 0 0x1000 = 0x450 ∧ (after (.testLselWrite 3 0x850 1) (hostState marginDev)) = marginDev.at 1 := by decide +kernel
theorem test_lctl_refused : let at' := fun (d : Dev) (v : Nat) => ((after (.testLctlWrite 0 v 1) (hostState d)).lane (laneKey 0 3 0)).last
    let d := { linkDev activePort with lc := { inForce := lcSecured } }.setBankN pgTest 0 0x1000 0x30
    at' d 0x2F = Status.accessDenied.code ∧ at' (d.setLk 3 {}) 0x2F = 0 ∧ at' (d.setLk 3 {}) 0x4F = Status.badDescriptor.code ∧
    at' { d.setLk 3 {} with lc := { inForce := lcInvalid } } 0x2F = Status.lcInvalid.code ∧ at' { d.setLk 3 {} with aon := { d.aon with boot := { portFail := 8 } } } 0x2F = Status.linkDown.code ∧
    (let p := (lcDev lcRma).setBankN pgTest 0x42 0x1000 2
     let e := after (.testLctlWrite 0x42 0x0B 1) (hostState p)
     e.aon.pcieUp = false ∧ (after (.testLctlWrite 0x42 0 1) (hostState e)).aon.pcieUp = !e.aon.perstLow) := by decide +kernel
theorem test_mbist_tile : let d := { (hostDev.setTile 12 { retired := [9], standin := true }) with pantry := [(12 * 2 ^ 22 + 5, 1), (13 * 2 ^ 22, 2)], hoops := [] }
    let e := after (.mbistTile 0 12 [3] 1 false [] 1) (hostState d)
    (e.tile 12).retired = [3] ∧ (e.tile 12).standin = false ∧ e.pantry = [(13 * 2 ^ 22, 2)] ∧ e.regN pgTest 0 0x1020 = 0x0101 ∧ e.regN pgTest 0 0x101C = 0 ∧
    (after (.mbistTile 0 100 [] 0 false [] 1) (hostState d)).regN pgTest 0 0x101C = Status.badDescriptor.code ∧
    (after (.mbistTile 0 12 [] 0 false [] 1) (hostState { d with hoops := [(2, { state := .active, inForce := { tiles := 2 ^ 12 } })] })).regN pgTest 0 0x101C = Status.badDescriptor.code ∧
    (after (.mbistTile 0 12 [] 0 false [4, 4] 1) (hostState d)).regN pgTest 0 0x1020 = 2 ^ 19 := by decide +kernel
theorem test_hbm_test : let d := { lcDev lcRma with cellar := [(0x10000, 7), (0x20000, 8)], pot := [(1, { granted := true }), (2, { granted := true })] }
    let e := after (.hbmTest 0 1 true true false 5 1) (hostState d)
    e.cellar = [(0x20000, 8)] ∧ e.pot.length = 1 ∧ e.regN pgTest 0 0x102C = 5 * 65536 + 2 ∧
    (after (.hbmTest 0 1 true true false 5 1) (hostState { d with lc := { inForce := lcSecured } })).regN pgTest 0 0x101C = Status.lcInvalid.code ∧
    (after (.hbmTest 0 1 true true false 5 1) (hostState { d with hoops := [(2, { state := .active })] })).regN pgTest 0 0x101C = Status.badDescriptor.code := by decide +kernel
theorem test_tap : (after .idcode (hostState {})).out = [.tap 1 0x096247AB] ∧ (after .bypass (hostState {})).tap.ir = 0xFF ∧ (after .tapReset (hostState { tap := { ir := 4 } })).tap.ir = 1 ∧
    (after (.samplePreload 5 9) (hostState {})).tap = { ir := 2, cells := 9 } ∧ (after .dbgtap (hostState (lcDev lcRma))).tap.ir = 0x12 := by decide +kernel
/-- In SECURED an EXTEST selects `BYPASS`; with SYS_RST_N low it drives, and the rise of SYS_RST_N returns the TAP to `IDCODE`. -/
theorem test_scan_states : let d := { lcDev lcSecured with aon := { liveDev.aon with sysRstLow := false } }
    (after (.extest 3) (hostState d)).tap.ir = 0xFF ∧ (after (.extest 3) (hostState d)).regN pgTest 0 0x1030 = 1 ∧ (after .highz (hostState d)).tap.ir = 0xFF ∧ (after .tapClamp (hostState d)).out = [] ∧
    (let e := after (.extest 3) (hostState { d with aon := { d.aon with sysRstLow := true } })
     e.tap = { ir := 0, cells := 3 } ∧ (after (.sysRstNRelease noFw 1) (boardState e)).tap.ir = 1) ∧ (after .highz (hostState (lcDev lcRma))).tap.ir = 4 := by decide +kernel
theorem test_dbgcert : let d := { lcDev lcSecured with sec := { coreA := true } }
    (after (.dbgcert [1] 1) { fuses := { serial := 5 }, dev := lcDev lcInvalid }).out = [.tap 0x11 Status.lcInvalid.code] ∧ (after (.dbgcert [1] 1) (hostState { d with aon := {} })).out = [] ∧
    (after (.dbgcert (List.replicate 96 0) 1000000000000000) (hostState { lcDev lcRma with dbg := { chalValid := true } })).dbg.chalValid = false := by decide +kernel

/-! ### Invariants -/

/-- The memories and the register file after reset are in canonical form. -/
theorem test_reset_memory : State.reset.dev.memsWf = true ∧ Memory.wf State.reset.dev.cellar = true := by decide +kernel
/-- A step that raises the rollback floor: the bits that stood stay, and the queue's front is taken. -/
theorem test_step_fuses : let s : State := { pending := [.bootSvnCommit 0 0x53564E43 none 1, .tapReset], fuses := { svnWord := 4 }, dev := { liveDev with aon := { liveDev.aon with svnRunning := 2 }, sec := { coreA := true } } }
    (match step s with
     | .next t => t.pending == [.tapReset] && t.fuses.svnWord == 5
     | _ => false) = true := by decide +kernel
/-- An empty queue idles (log entry 1). -/
theorem test_idle : (match step State.reset with
    | .next t => t == State.reset
    | _ => false) = true := by decide +kernel

end Sys2Proof.Machine
end

section
/-! PROOFS. The statements about the queue and the register bus (chapters 0 and 21): reset, misaligned accesses, the latch of wide reads. -/
namespace Sys2Proof.Machine

/-! ### The register file: keys, banks, frames -/

/-- A bank has its own index within the key space, apart from index 0. -/
theorem bank_lt {port : Nat} (h : port < 0x80000) : bank port < 0x100000 := by unfold bank bankBase; omega
theorem bank_ne_zero (port : Nat) : bank port ≠ 0 := by unfold bank bankBase; omega

/-- A register's number fits a word. -/
theorem Dev.regN_lt (d : Dev) (p i o : Nat) : d.regN p i o < 2 ^ 32 := (d.reg p i o).isLt

/-- The word of a register's number is the register. -/
@[simp] theorem Dev.ofNat_regN (d : Dev) (p i o : Nat) : BitVec.ofNat 32 (d.regN p i o) = d.reg p i o := by
  simp [Dev.regN]

/-- Bit `i` is the library's. -/
theorem bit_eq_testBit (x i : Nat) : bit x i = x.testBit i := by
  rw [bit, Nat.testBit_eq_decide_div_mod_eq, Nat.shiftRight_eq_div_pow, Bool.eq_iff_iff, beq_iff_eq, decide_eq_true_eq]

/-- A register at another offset of the same page and index keeps its number. -/
theorem Dev.regN_setRegN_off_ne (d : Dev) (p i : Nat) {o o' : Nat} (v : Nat) (h : o' ≠ o) : (d.setRegN p i o v).regN p i o' = d.regN p i o' :=
  d.regN_setRegN_ne v (by unfold rk; omega)

/-- A register set to a number that fits a word reads back as that number. -/
theorem Dev.regN_setRegN_of_lt (d : Dev) (p i o : Nat) {v : Nat} (hv : v < 2 ^ 32) : (d.setRegN p i o v).regN p i o = v := by
  rw [Dev.regN_setRegN_same, Nat.mod_eq_of_lt hv]

/-- Registers in range are as before where the register file is. -/
theorem SameRegsBut.of_regs {q : Nat → Nat → Nat → Prop} {d e : Dev} (h : e.regs = d.regs) : SameRegsBut q d e := by
  intro p i o _ _ _
  unfold Dev.reg
  rw [h]

/-- Frames of two updates join. -/
theorem SameRegsBut.trans {q : Nat → Nat → Nat → Prop} {d e f : Dev} (h : SameRegsBut q d e) (g : SameRegsBut q e f) : SameRegsBut q d f :=
  fun p i o hi ho hq => (g p i o hi ho hq).trans (h p i o hi ho hq)

/-- A frame that lets fewer registers change is a frame that lets more. -/
theorem SameRegsBut.mono {q r : Nat → Nat → Nat → Prop} {d e : Dev} (h : SameRegsBut q d e) (hqr : ∀ p i o, q p i o → r p i o) :
    SameRegsBut r d e :=
  fun p i o hi ho hr => h p i o hi ho (fun hq => hr (hqr p i o hq))

/-- A register in range outside a frame keeps its number. -/
theorem SameRegsBut.regN {q : Nat → Nat → Nat → Prop} {d e : Dev} (h : SameRegsBut q d e) {p i o : Nat} (hi : i < 0x100000) (ho : o < 0x10000)
    (hq : ¬ q p i o) : e.regN p i o = d.regN p i o := by
  unfold Dev.regN
  rw [h p i o hi ho hq]

/-- A register file replaced leaves the memories and the objects of the host interface alone. -/
theorem sameMem_regs (d : Dev) (r : Table Word) : SameMem d { d with regs := r } := ⟨rfl, rfl, rfl, rfl⟩
theorem sameObjects_regs (d : Dev) (r : Table Word) : SameObjects d { d with regs := r } := ⟨rfl, rfl, rfl, rfl, rfl, rfl⟩

/-- A log entry leaves the memories and the objects alone, and so does a read-clear counter raised. -/
theorem sameMem_logEntry (d : Dev) (page p : Nat) (x : Nat × Nat) : SameMem d (d.logEntry page p x) := by
  rw [Dev.logEntry_frame]; exact sameMem_regs ..
theorem sameObjects_logEntry (d : Dev) (page p : Nat) (x : Nat × Nat) : SameObjects d (d.logEntry page p x) := by
  rw [Dev.logEntry_frame]; exact sameObjects_regs ..
theorem sameMem_bumpRc (d : Dev) (p i o n : Nat) : SameMem d (d.bumpRc p i o n) := sameMem_regs d _
theorem sameObjects_bumpRc (d : Dev) (p i o n : Nat) : SameObjects d (d.bumpRc p i o n) := sameObjects_regs d _

/-- What two updates leave alone, both together leave alone. -/
theorem SameMem.trans {d e f : Dev} (h : SameMem d e) (g : SameMem e f) : SameMem d f := by
  obtain ⟨hc, hh, hp, hf⟩ := h
  obtain ⟨gc, gh, gp, gf⟩ := g
  exact ⟨gc.trans hc, gh.trans hh, gp.trans hp, gf.trans hf⟩
theorem SameObjects.trans {d e f : Dev} (h : SameObjects d e) (g : SameObjects e f) : SameObjects d f := by
  obtain ⟨hc, hq, he, hh, hk, hm⟩ := h
  obtain ⟨gc, gq, ge, gh, gk, gm⟩ := g
  exact ⟨gc.trans hc, gq.trans hq, ge.trans he, gh.trans hh, gk.trans hk, gm.trans hm⟩

/-- A register set changes that register only. -/
theorem sameRegsBut_setRegN (d : Dev) {p i o : Nat} (v : Nat) (hi : i < 0x100000) (ho : o < 0x10000) :
    SameRegsBut (fun p' i' o' => p' = p ∧ i' = i ∧ o' = o) d (d.setRegN p i o v) := by
  intro p' i' o' hi' ho' hne
  exact d.reg_setReg_ne _ (fun h => hne (rk_inj hi' hi ho' ho h))

/-! ### The error log (R479) -/

/-- The two words of an entry fit registers. -/
theorem errEntry_lt (page off port data : Nat) (r : Reason) : (errEntry page off r port data).1 < 2 ^ 32 ∧ (errEntry page off r port data).2 < 2 ^ 32 := by
  have hr : r.code ≤ 10 := by cases r <;> decide
  unfold errEntry
  constructor <;> dsimp only <;> omega

/-- The log's registers lie in the common layout. -/
theorem logOff_le {off : Nat} (h : logOff off) : off ≤ 0x0080 := by unfold logOff at h; omega

/-- An entry of a page's log changes the log's registers of that bank only. -/
theorem sameRegsBut_logEntry (d : Dev) (page : Nat) {port : Nat} (x : Nat × Nat) (hp : port < 0x80000) :
    SameRegsBut (fun p i o => p = page ∧ i = bank port ∧ logOff o) d (d.logEntry page port x) := by
  have hset : ∀ (e : Dev) (o v : Nat), logOff o →
      SameRegsBut (fun p i o => p = page ∧ i = bank port ∧ logOff o) e (e.setRegN page (bank port) o v) := fun e o v hl =>
    (sameRegsBut_setRegN e v (bank_lt hp) (by have := logOff_le hl; omega)).mono (by rintro p i o' ⟨rfl, rfl, rfl⟩; exact ⟨rfl, rfl, hl⟩)
  unfold Dev.logEntry
  refine (((hset _ _ _ ?_).trans (hset _ _ _ ?_)).trans (hset _ _ _ ?_)).trans (hset _ _ _ ?_) <;> unfold logOff <;> omega

/-- An entry written into a page's log stands there. -/
theorem logged_logEntry (d : Dev) (page port : Nat) {x : Nat × Nat} (h1 : x.1 < 2 ^ 32) (h2 : x.2 < 2 ^ 32) :
    Logged page port x d (d.logEntry page port x) := by
  unfold Dev.logEntry Dev.orReg Dev.setBankN Logged
  simp only [Dev.bankN]
  refine ⟨?_, ?_, ?_, ?_⟩
  · rw [Dev.regN_setRegN_off_ne _ _ _ _ (by omega), Dev.regN_setRegN_off_ne _ _ _ _ (by omega), Dev.regN_setRegN_off_ne _ _ _ _ (by omega),
      Dev.regN_setRegN_of_lt _ _ _ _ h1]
  · rw [Dev.regN_setRegN_off_ne _ _ _ _ (by omega), Dev.regN_setRegN_off_ne _ _ _ _ (by omega), Dev.regN_setRegN_of_lt _ _ _ _ h2]
  · rw [Dev.regN_setRegN_off_ne _ _ _ _ (by omega), Dev.regN_setRegN_of_lt _ _ _ _ (by omega)]
  · have hbit : Nat.testBit 8 3 = true := by decide
    rw [Dev.regN_setRegN_same, bit_eq_testBit, Nat.testBit_mod_two_pow, Nat.testBit_or, hbit]
    simp

/-- What a log shows is kept by an update that leaves the log's registers alone. -/
theorem Logged.of_frame {q : Nat → Nat → Nat → Prop} {page port : Nat} {x : Nat × Nat} {d e f : Dev} (h : Logged page port x d e)
    (hf : SameRegsBut q e f) (hp : port < 0x80000) (hq : ∀ o, logOff o → ¬ q page (bank port) o) : Logged page port x d f := by
  have hkeep : ∀ o, logOff o → f.bankN page port o = e.bankN page port o := fun o ho =>
    hf.regN (bank_lt hp) (by have := logOff_le ho; omega) (hq o ho)
  obtain ⟨hw0, hw1, hhead, hnew⟩ := h
  refine ⟨?_, ?_, ?_, ?_⟩
  · rw [hkeep _ (by unfold logOff; omega), hw0]
  · rw [hkeep _ (by unfold logOff; omega), hw1]
  · rw [hkeep _ (by unfold logOff; omega), hhead]
  · rw [hkeep _ (by unfold logOff; omega), hnew]

/-! ### What leaves the block -/

/-- What leaves the block touches no register, memory or object. -/
@[simp] theorem Dev.regN_with_out (d : Dev) (x : List Emit) (p i o : Nat) : ({ d with out := x } : Dev).regN p i o = d.regN p i o := rfl
theorem SameRegsBut.with_out {q : Nat → Nat → Nat → Prop} {d e : Dev} (h : SameRegsBut q d e) (x : List Emit) : SameRegsBut q d { e with out := x } := h
theorem SameMem.with_out {d e : Dev} (h : SameMem d e) (x : List Emit) : SameMem d { e with out := x } := h
theorem SameObjects.with_out {d e : Dev} (h : SameObjects d e) (x : List Emit) : SameObjects d { e with out := x } := h
theorem Logged.with_out {page port : Nat} {y : Nat × Nat} {d e : Dev} (h : Logged page port y d e) (x : List Emit) :
    Logged page port y d { e with out := x } := h

/-! ### Commands of the device -/

/-- A command that acts on the device alone completes, with what its effect gives. -/
theorem does_onDev {i : Instr} {s : State} {f : Dev → Dev} {P : Dev → Prop} (h : exec i s = onDev s f) (hP : P (f s.dev)) : Does i s P :=
  ⟨f s.dev, h, hP⟩

/-- Time carried by a command leaves every register, and what a port reaches, as it was. -/
@[simp] theorem Dev.reg_at (d : Dev) (t p i o : Nat) : (d.at t).reg p i o = d.reg p i o := rfl
@[simp] theorem Dev.bankN_at (d : Dev) (t p b o : Nat) : (d.at t).bankN p b o = d.bankN p b o := rfl
@[simp] theorem Dev.arrives_at (d : Dev) (t p : Nat) : (d.at t).arrives p = d.arrives p := rfl

/-- What is said of a device before a command may be said of it at the command's time. -/
theorem SameMem.of_at {d e : Dev} {t : Nat} (h : SameMem (d.at t) e) : SameMem d e := h
theorem SameObjects.of_at {d e : Dev} {t : Nat} (h : SameObjects (d.at t) e) : SameObjects d e := h
theorem sameRegsBut_at {q : Nat → Nat → Nat → Prop} {d e : Dev} (t : Nat) : SameRegsBut q (d.at t) e ↔ SameRegsBut q d e := by
  simp only [SameRegsBut, Dev.reg_at]
theorem logged_at {page port : Nat} {x : Nat × Nat} {d e : Dev} (t : Nat) : Logged page port x (d.at t) e ↔ Logged page port x d e := by
  simp only [Logged, Dev.bankN_at]

/-- Where the core runs, an access of any port but JTAG's arrives. -/
theorem Up.arrives {s : State} (h : Up s) {port : Nat} (hp : port ≤ 0x41) : s.dev.arrives port = true := by
  obtain ⟨haon, -, hpcie, -⟩ := h
  have hv : portValid port = true := decide_eq_true (by omega)
  have hj : port ≠ portJtag := by unfold portJtag; omega
  simp [Dev.arrives, haon, hpcie, hv, hj]

/-- Where the core runs, step `READY` is done. -/
theorem Up.ready {s : State} (h : Up s) : s.dev.aon.ready = true := by
  obtain ⟨-, hready, -, -⟩ := h
  exact hready

/-! ### Accesses that are not 32 bits wide or not aligned (R5) -/

/-- A width error that arrives: the entry and the count, and the zero that a read answers. -/
theorem Dev.widthError_of_arrives (d : Dev) {port : Nat} (page off v : Nat) (write : Bool) (h : d.arrives port = true) :
    d.widthError port page off write v =
      { (d.logEntry pgDev port (errEntry page off .width port (if write then v else 0))).bumpRc pgDev 0 0x100C 1 with
        out := if write then d.out else .readData port page off 0 :: d.out } := by
  unfold Dev.widthError
  rw [if_neg (by simp [h]), Dev.logEntry_frame]
  generalize (d.logEntry _ _ _).regs = r
  cases write <;> rfl

/-- The command is a width error of the device at its time. -/
theorem exec_widthErrorAccess (port page off : Nat) (write : Bool) (v now : Nat) (s : State) :
    exec (.widthErrorAccess port page off write v now) s = onDev s (fun d => (d.at now).widthError port page off write v) := rfl

/-- Settles O3: the log's entry, then the count, each a write of registers apart from the other's (R5, R479, R494). -/
theorem widthErrorIsRefused : Obligations.WidthErrorIsRefused := by
  intro s port page off v now write hup hport
  have hp : port < 0x80000 := by omega
  refine does_onDev (exec_widthErrorAccess ..) ?_
  rw [Dev.widthError_of_arrives (s.dev.at now) page off v write ((s.dev.arrives_at now port).trans (hup.arrives hport))]
  obtain ⟨hx1, hx2⟩ := errEntry_lt page off port (if write then v else 0) .width
  generalize errEntry page off .width port (if write then v else 0) = x at hx1 hx2 ⊢
  let d := s.dev.at now
  let e := d.logEntry pgDev port x
  have hlogged : Logged pgDev port x s.dev e := (logged_at now).mp (logged_logEntry d pgDev port hx1 hx2)
  have hlog : SameRegsBut (fun p i o => p = pgDev ∧ i = bank port ∧ logOff o) s.dev e := (sameRegsBut_at now).mp (sameRegsBut_logEntry d pgDev x hp)
  have hbump : SameRegsBut (fun p i o => p = pgDev ∧ i = 0 ∧ o = 0x100C) e (e.bumpRc pgDev 0 0x100C 1) :=
    sameRegsBut_setRegN e _ (by decide) (by decide)
  refine ⟨?_, ?_, rfl, ?_, ?_, ?_⟩
  · exact (hlogged.of_frame hbump hp (fun _ _ ⟨_, h, _⟩ => bank_ne_zero port h)).with_out _
  · rw [Dev.regN_with_out, Dev.regN_bumpRc_same, hlog.regN (by decide) (by decide) (fun ⟨_, h, _⟩ => bank_ne_zero port h.symm)]
  · exact ((hlog.mono (fun _ _ _ ⟨hpg, hi, ho⟩ => ⟨hpg, .inl ⟨hi, ho⟩⟩)).trans
      (hbump.mono (fun _ _ _ ⟨hpg, hi, ho⟩ => ⟨hpg, .inr ⟨hi, ho⟩⟩))).with_out _
  · exact (((sameMem_logEntry d pgDev port x).trans (sameMem_bumpRc e pgDev 0 0x100C 1)).with_out _).of_at
  · exact (((sameObjects_logEntry d pgDev port x).trans (sameObjects_bumpRc e pgDev 0 0x100C 1)).with_out _).of_at

/-! ### Reset (R7) -/

/-- The pages that have registers of their own lie below 0x070. -/
theorem pageMap_eq_nil {p : Nat} (h : 0x070 ≤ p) : pageMap p = [] := by
  unfold pageMap
  split
  case h_34 => rw [if_neg (by simp only [Bool.and_eq_true, decide_eq_true_eq]; omega), if_neg (by simp only [Bool.and_eq_true, decide_eq_true_eq]; omega)]
  all_goals omega

/-- Every register of a page lies within its 64 KiB. -/
theorem pageMap_off_lt (p : Nat) : ∀ r ∈ pageMap p, r.off < 0x10000 := by
  by_cases h : p < 0x070
  · have hall : ∀ q < 0x070, ∀ r ∈ pageMap q, r.off < 0x10000 := by decide +kernel
    exact hall p h
  · rw [pageMap_eq_nil (by omega)]
    simp

/-- A register stands at the offset that names it, within its page. -/
theorem regDef_off {page off : Nat} {r : RegDef} (h : regDef page off = some r) : r.off = off ∧ off < 0x10000 := by
  unfold regDef at h
  split at h
  · cases h
  · split at h
    · exact ⟨by simpa using List.find?_some h, by omega⟩
    · have hoff : r.off = off := by simpa using List.find?_some h
      exact ⟨hoff, hoff ▸ pageMap_off_lt page r (List.mem_of_find?_eq_some h)⟩

/-- A key in range names its page, index and offset. -/
theorem regDflt_rk (page : Nat) {i off : Nat} (hi : i < 0x100000) (ho : off < 0x10000) : regDflt (rk page i off) = regReset page i off := by
  have hpage : rk page i off / 0x1000000000 = page := by unfold rk; omega
  have hindex : rk page i off / 0x10000 % 0x100000 = i := by unfold rk; omega
  have hoff : rk page i off % 0x10000 = off := by unfold rk; omega
  unfold regDflt
  rw [hpage, hindex, hoff]

/-- Where the Reset column alone speaks, a register's reset value is the column's. -/
theorem regReset_eq_column {page off : Nat} {r : RegDef} (i : Nat) (h : regDef page off = some r) (hoff : 0x0010 ≤ off) (hmax : off ≠ 0x0034)
    (hsched : page ≠ pgSched) (hclk : page ≠ pgClk) : regReset page i off = BitVec.ofNat 32 r.reset := by
  have h0 : off ≠ 0x0000 := by omega
  have h8 : off ≠ 0x0008 := by omega
  have hC : off ≠ 0x000C := by omega
  simp [regReset, h, h0, h8, hC, hmax, hsched, hclk]

/-- Where the register file lists nothing, every register reads as unlisted. -/
theorem Dev.reg_of_unlisted {d : Dev} (h : d.regs = []) (p i o : Nat) : d.reg p i o = regDflt (rk p i o) := by
  rw [Dev.reg, h, tabGet]

/-- Settles O2: the reset state lists nothing, so each register reads as unlisted and each object is the unlisted one (R7). -/
theorem resetLeaves : Obligations.ResetLeaves := by
  refine ⟨?_, fun n => ⟨rfl, rfl, rfl, rfl, rfl, rfl⟩, rfl⟩
  intro page i off r hr hoff hmax hsched hclk hi
  calc State.reset.dev.reg page i off = regDflt (rk page i off) := Dev.reg_of_unlisted rfl page i off
    _ = regReset page i off := regDflt_rk page hi (regDef_off hr).2
    _ = BitVec.ofNat 32 r.reset := regReset_eq_column i hr hoff hmax hsched hclk

/-! ### Reads of a window (R4, R481, R484) -/

/-- A read by a port on a page is the device's read at its time; a low word is read as any register is. -/
theorem exec_rcRead (port page off now : Nat) (s : State) :
    exec (.rcRead port page off now) s = onDev s (fun d => (d.at now).busRead s.fuses port page off) := rfl
theorem exec_lowWordRead (port page off now : Nat) (s : State) :
    exec (.lowWordRead port page off now) s = onDev s (fun d => (d.at now).busRead s.fuses port page off) := rfl

/-- A window's registers are not kept in a bank of the PF's or of a function's own. -/
theorem homeBank_of_isWindow {off : Nat} (port page : Nat) (h : isWindow off = true) : homeBank port page off = none := by
  simp only [isWindow, Bool.and_eq_true, decide_eq_true_eq] at h
  unfold homeBank
  rw [if_neg (by omega), if_neg (by omega)]

/-- An access to a window reaches what the port's `BLK_SEL` names. -/
theorem Dev.instOf_of_isWindow (d : Dev) (port page : Nat) {off : Nat} (h : isWindow off = true) :
    d.instOf port page off false = d.bankN page port 0x0030 := by
  simp [Dev.instOf, homeBank_of_isWindow port page h, h, Dev.sel]

/-- Pages below 0x100 show their own registers, to every port that may read them at all (R257, R476). -/
theorem aliasOf_eq_none {page : Nat} (off : Nat) (h : page < 0x100) : aliasOf page off = none := by
  unfold aliasOf
  rw [if_neg (by omega)]
theorem Dev.hoopvSilent_eq_false (d : Dev) (port : Nat) {page : Nat} (h : page < 0x100) : d.hoopvSilent port page = false := by
  have hlow : ¬ 0x100 ≤ page := by omega
  simp only [Dev.hoopvSilent, hlow, decide_false, Bool.false_and]

/-- A port's window of a page answers a read at an offset: the core runs, `BLK_SEL` is in range, the port sees the register,
boot does not hold the block's port, and the block's side of its crossing is reached. -/
structure Dev.WindowOpen (d : Dev) (port page off : Nat) : Prop where
  arrives : d.arrives port = true
  ready : d.aon.ready = true
  sel : d.bankN page port 0x0030 ≤ pageSelMax page
  free : d.heldPort page (d.bankN page port 0x0030) = false
  seen : d.sees port page (d.bankN page port 0x0030) off = .yes
  reached : d.reached page (d.bankN page port 0x0030) off = true

/-- Time carried by a command leaves a window as open as it was. -/
theorem Dev.WindowOpen.at {d : Dev} {port page off : Nat} (h : d.WindowOpen port page off) (t : Nat) : (d.at t).WindowOpen port page off := by
  obtain ⟨harr, hready, hsel, hfree, hseen, hreach⟩ := h
  exact ⟨harr, hready, hsel, hfree, hseen, hreach⟩

/-- Through an open window, a register that can be read answers through the port's latch of the page. -/
theorem Dev.WindowOpen.busRead {d : Dev} {port page off : Nat} (f : Fuses) (h : d.WindowOpen port page off) {r : RegDef} (hwin : isWindow off = true)
    (hpage : page < 0x100) (hcap : page ≠ pgCap) (hdef : regDef page off = some r) (hbank : r.banked = false) (hacc : r.acc ≠ .wo) :
    d.busRead f port page off = (d.readReg f port page page (d.bankN page port 0x0030) r).2.emit
      (.readData port page off (BitVec.ofNat 32 (d.readReg f port page page (d.bankN page port 0x0030) r).1)) := by
  obtain ⟨harr, hready, hsel, hfree, hseen, hreach⟩ := h
  have hoff : off ≠ 0x0020 := by rintro rfl; simp [isWindow] at hwin
  have hword : d.readWord f port page off = d.readReg f port page page (d.bankN page port 0x0030) r := by
    unfold Dev.readWord
    rw [if_neg (by simp [Dev.answers, hready, d.hoopvSilent_eq_false port hpage]), aliasOf_eq_none off hpage]
    dsimp only
    rw [if_neg (by simp [hcap]), hdef]
    dsimp only
    rw [hbank, d.instOf_of_isWindow port page hwin]
    unfold Dev.readSeen
    rw [if_neg (by simp [hacc, hoff]), if_neg (by simp [hfree, Dev.sel, hsel]), hseen]
    dsimp only
    rw [if_neg (by simp [hreach])]
  simp only [Dev.busRead, harr, hword, Bool.not_true, Bool.false_eq_true, if_false]

/-! ### The latch of a wide value (R484) -/

/-- A register of the file is read as it is kept. -/
theorem Dev.wordAt_of_stored {f : Fuses} {d : Dev} {port page i off : Nat} (hwin : isWindow off = true) (hc : Dev.computed f d port page i off = none) :
    d.wordAt f port page i off = d.regN page i off := by
  simp only [isWindow, Bool.and_eq_true, decide_eq_true_eq] at hwin
  unfold Dev.wordAt
  rw [if_neg (by omega), if_neg (by omega), hc, Option.getD_none, Nat.mod_eq_of_lt (d.regN_lt page i off)]

/-- Only a read-clear register, the log's head and a register of free values change by being read. -/
theorem Dev.readDone_eq_self (d : Dev) (port page i off : Nat) {a : Acc} (ha : a ≠ .rc) (hoff : off ≠ 0x0080) (hfree : freeReg page off = false) :
    d.readDone port page i off a = d := by
  simp [Dev.readDone, ha, hoff, hfree]

/-- The latch that a read of the low word of a two-word value leaves: the register it belongs to, and the high word of that instant. -/
def Dev.highLatch (f : Fuses) (d : Dev) (port page i low : Nat) : Latch :=
  { low := rk page i low + 1, rest := [BitVec.ofNat 32 (d.wordAt f port page i (low + 4))] }

/-- A read of the low word of a two-word value answers it and latches the high word. -/
theorem Dev.readReg_low {f : Fuses} {d : Dev} {port lpage page i : Nat} {r : RegDef} (hwords : r.words = 2) (hlow : r.off = r.low)
    (hacc : r.acc ≠ .rc) (hoff : r.off ≠ 0x0080) (hfree : freeReg page r.off = false) :
    d.readReg f port lpage page i r =
      (d.wordAt f port page i r.off, { d with latches := tabPut latchDflt d.latches (latchKey port lpage) (d.highLatch f port page i r.low) }) := by
  unfold Dev.readReg
  dsimp only
  rw [if_pos ⟨by omega, hlow⟩, Dev.readDone_eq_self _ _ _ _ _ hacc hoff hfree, hwords, hlow]
  rfl

/-- A read of the high word of the value last latched answers the latch, and changes nothing. -/
theorem Dev.readReg_high {f g : Fuses} {d e : Dev} {port lpage page i : Nat} {r : RegDef} (hwords : r.words = 2) (hhigh : r.off = r.low + 4)
    (hl : tabGet latchDflt e.latches (latchKey port lpage) = d.highLatch g port page i r.low) :
    e.readReg f port lpage page i r = ((BitVec.ofNat 32 (d.wordAt g port page i (r.low + 4)) : Word).toNat, e) := by
  unfold Dev.readReg
  dsimp only
  rw [if_neg (by omega), hl, if_pos ⟨by omega, rfl⟩, hhigh, Nat.add_sub_cancel_left]
  rfl

/-! ### Counters of windows -/

/-- Low words of 64-bit counters behind `BLK_SEL`: three cycle counts of a tile, a darner's strips, a DMA channel's bytes, a stack's
tree-cache hits, a port's flits sent, a session's I/Os. -/
def wideCounters : List (Nat × Nat) :=
  [(pgTile, 0x0180), (pgTile, 0x0188), (pgTile, 0x0190), (pgDarn, 0x0108), (pgDma, 0x0118), (pgMenc, 0x0104), (pgAlnk, 0x0130), (pgStor, 0x010C)]

/-- The map's row of one word of a 64-bit counter. -/
def counterDef (off low : Nat) : RegDef := ⟨off, .rw, 0, 0xFFFFFFFF, low, 2, false⟩

/-- Both words of a counter stand in their page's map. -/
theorem regDef_wideCounter {page off : Nat} (h : (page, off) ∈ wideCounters) :
    regDef page off = some (counterDef off off) ∧ regDef page (off + 4) = some (counterDef (off + 4) off) := by
  have hall : ∀ x ∈ wideCounters, regDef x.1 x.2 = some (counterDef x.2 x.2) ∧ regDef x.1 (x.2 + 4) = some (counterDef (x.2 + 4) x.2) := by decide
  exact hall _ h

/-- Both words of a counter lie in the window, outside the CAP page, and the low word is no free value. -/
theorem place_wideCounter {page off : Nat} (h : (page, off) ∈ wideCounters) :
    isWindow off = true ∧ isWindow (off + 4) = true ∧ page ≠ pgCap ∧ freeReg page off = false := by
  have hall : ∀ x ∈ wideCounters, isWindow x.2 = true ∧ isWindow (x.2 + 4) = true ∧ x.1 ≠ pgCap ∧ freeReg x.1 x.2 = false := by decide
  exact hall _ h

/-- No chapter's table computes a counter from objects: it is kept in the register file (but reads zero on a tile out of service). -/
theorem computed_wideCounter (f : Fuses) (d : Dev) (port i : Nat) {page off : Nat} (h : (page, off) ∈ wideCounters)
    (htile : page = pgTile → (d.tile i).out = false) :
    Dev.computed f d port page i off = none ∧ Dev.computed f d port page i (off + 4) = none := by
  simp only [wideCounters, List.mem_cons, Prod.mk.injEq, List.not_mem_nil, or_false] at h
  rcases h with ⟨rfl, rfl⟩ | ⟨rfl, rfl⟩ | ⟨rfl, rfl⟩ | ⟨rfl, rfl⟩ | ⟨rfl, rfl⟩ | ⟨rfl, rfl⟩ | ⟨rfl, rfl⟩ | ⟨rfl, rfl⟩
  -- The first three are a tile's.
  case inl | inr.inl | inr.inr.inl => simp [Dev.computed, pgTile, Dev.viewTile, htile rfl]
  all_goals exact ⟨rfl, rfl⟩

/-- A read of a counter's low word through an open window answers it, and leaves the high word in the port's latch of the page. -/
theorem Dev.WindowOpen.busRead_low {d : Dev} {port page off : Nat} (h : d.WindowOpen port page off) (f : Fuses) (hmem : (page, off) ∈ wideCounters)
    (hpage : page < 0x100) (htile : page = pgTile → (d.tile (d.bankN page port 0x0030)).out = false) :
    d.busRead f port page off =
      ({ d with latches := tabPut latchDflt d.latches (latchKey port page) (d.highLatch f port page (d.bankN page port 0x0030) off) } : Dev).emit
        (.readData port page off (d.reg page (d.bankN page port 0x0030) off)) := by
  obtain ⟨hdef, -⟩ := regDef_wideCounter hmem
  obtain ⟨hwin, -, hcap, hfree⟩ := place_wideCounter hmem
  obtain ⟨hcomp, -⟩ := computed_wideCounter f d port _ hmem htile
  have hoff : off ≠ 0x0080 := by rintro rfl; simp [isWindow] at hwin
  rw [h.busRead f hwin hpage hcap hdef rfl (by simp [counterDef]), Dev.readReg_low (r := counterDef off off) rfl rfl (by simp [counterDef]) hoff hfree]
  dsimp only [counterDef]
  rw [Dev.wordAt_of_stored hwin hcomp, Dev.ofNat_regN]

/-- A read of a counter's high word through an open window answers the word latched when the low word of device `d` was read. -/
theorem Dev.WindowOpen.busRead_high {d e : Dev} {port page off i : Nat} (h : e.WindowOpen port page (off + 4)) (f g : Fuses)
    (hmem : (page, off) ∈ wideCounters) (hpage : page < 0x100) (htile : page = pgTile → (d.tile i).out = false) (hi : e.bankN page port 0x0030 = i)
    (hl : tabGet latchDflt e.latches (latchKey port page) = d.highLatch g port page i off) :
    e.busRead f port page (off + 4) = e.emit (.readData port page (off + 4) (d.reg page i (off + 4))) := by
  obtain ⟨-, hdef⟩ := regDef_wideCounter hmem
  obtain ⟨-, hwin, hcap, -⟩ := place_wideCounter hmem
  obtain ⟨-, hcomp⟩ := computed_wideCounter g d port i hmem htile
  rw [h.busRead f hwin hpage hcap hdef rfl (by simp [counterDef]), hi, Dev.readReg_high (r := counterDef (off + 4) off) rfl rfl hl]
  dsimp only [counterDef]
  rw [Dev.wordAt_of_stored hwin hcomp, Dev.ofNat_regN, BitVec.ofNat_toNat, BitVec.setWidth_eq]

/-- Settles O9: the low read leaves the high word in the port's latch of the page, and the high read answers the latch (R4, R484). -/
theorem lowReadLatches : Obligations.LowReadLatches := by
  intro s port page off now hup ⟨hport, hpage, _⟩ hmem hsel hseen hreach hheld htile
  have hlow : s.dev.WindowOpen port page off := ⟨hup.arrives hport, hup.ready, hsel, hheld, hseen, hreach⟩
  refine does_onDev (exec_lowWordRead ..) ?_
  rw [(hlow.at now).busRead_low s.fuses hmem hpage htile]
  refine ⟨rfl, .of_regs rfl, ⟨rfl, rfl, rfl, rfl⟩, ⟨rfl, rfl, rfl, rfl, rfl, rfl⟩, ?_⟩
  intro e now' hlatches hupE hselE hseenE hreachE hheldE
  rw [← hselE] at hsel hseenE hreachE hheldE
  have hhigh : e.WindowOpen port page (off + 4) := ⟨hupE.arrives hport, hupE.ready, hsel, hheldE, hseenE, hreachE⟩
  have hlatch : tabGet latchDflt e.latches (latchKey port page) = (s.dev.at now).highLatch s.fuses port page (s.dev.bankN page port 0x0030) off := by
    rw [hlatches]
    exact tabGet_tabPut_same ..
  refine does_onDev (exec_rcRead ..) ?_
  rw [(hhigh.at now').busRead_high (d := s.dev.at now) s.fuses s.fuses hmem hpage htile hselE hlatch]
  rfl

end Sys2Proof.Machine
end

section
/-! PROOFS. The statements about the device's functions (chapter 1): function-level resets, power states, IDE and TDISP. Taking contexts down
touches most of the device; what it leaves alone of functions and contexts is proved once for each operation, as an equation of `standing`. -/
namespace Sys2Proof.Machine

/-- What a function-level reset is about: the state of every context, the functions, and VF Enable. -/
def Dev.standing (d : Dev) : (Nat → CtxState) × Table Func × Bool := (fun c => (d.ctx c).state, d.funcs, d.vfEnable)

/-! ### Standing: named updates -/

@[simp] theorem Dev.standing_setReg (d : Dev) (p i o : Nat) (v : Word) : (d.setReg p i o v).standing = d.standing := rfl
@[simp] theorem Dev.standing_setRegN (d : Dev) (p i o v : Nat) : (d.setRegN p i o v).standing = d.standing := rfl
@[simp] theorem Dev.standing_orReg (d : Dev) (p i o m : Nat) : (d.orReg p i o m).standing = d.standing := rfl
@[simp] theorem Dev.standing_bumpRc (d : Dev) (p i o n : Nat) : (d.bumpRc p i o n).standing = d.standing := rfl
@[simp] theorem Dev.standing_logEntry (d : Dev) (p b : Nat) (x : Nat × Nat) : (d.logEntry p b x).standing = d.standing := rfl
@[simp] theorem Dev.standing_emit (d : Dev) (x : Emit) : (d.emit x).standing = d.standing := rfl
@[simp] theorem Dev.standing_ticks (d : Dev) (n : Nat) : (d.ticks n).standing = d.standing := rfl
@[simp] theorem Dev.standing_hostWrite (d : Dev) (a : Nat) (bs : List Byte) : (d.hostWrite a bs).standing = d.standing := rfl
@[simp] theorem Dev.standing_setPot (d : Dev) (k : Nat) (x : Pot) : (d.setPot k x).standing = d.standing := rfl
@[simp] theorem Dev.standing_setGroup (d : Dev) (k : Nat) (x : Group) : (d.setGroup k x).standing = d.standing := rfl
@[simp] theorem Dev.standing_setQueue (d : Dev) (k : Nat) (x : Queue) : (d.setQueue k x).standing = d.standing := rfl
@[simp] theorem Dev.standing_setEvt (d : Dev) (k : Nat) (x : Event) : (d.setEvt k x).standing = d.standing := rfl
@[simp] theorem Dev.standing_setCmd (d : Dev) (k : Nat) (x : Cmd) : (d.setCmd k x).standing = d.standing := rfl
@[simp] theorem Dev.standing_setHoop (d : Dev) (k : Nat) (x : Hoop) : (d.setHoop k x).standing = d.standing := rfl
@[simp] theorem Dev.standing_setChannel (d : Dev) (k : Nat) (x : DmaChannel) : (d.setChannel k x).standing = d.standing := rfl
@[simp] theorem Dev.standing_setKey (d : Dev) (k : Nat) (x : KeySlot) : (d.setKey k x).standing = d.standing := rfl
@[simp] theorem Dev.standing_setTile (d : Dev) (k : Nat) (x : Tile) : (d.setTile k x).standing = d.standing := rfl
@[simp] theorem Dev.standing_setSlot (d : Dev) (t k : Nat) (x : Slot) : (d.setSlot t k x).standing = d.standing := rfl
@[simp] theorem Dev.standing_setFence (d : Dev) (k : Nat) (x : Fence) : (d.setFence k x).standing = d.standing := rfl
@[simp] theorem Dev.standing_setMce (d : Dev) (k : Nat) (x : McEntry) : (d.setMce k x).standing = d.standing := rfl
@[simp] theorem Dev.standing_setCap (d : Dev) (k : Nat) (x : Capture) : (d.setCap k x).standing = d.standing := rfl
@[simp] theorem Dev.standing_setTrig (d : Dev) (k : Nat) (x : Trigger) : (d.setTrig k x).standing = d.standing := rfl
@[simp] theorem Dev.standing_setGrp (d : Dev) (k : Nat) (x : CGroup) : (d.setGrp k x).standing = d.standing := rfl
@[simp] theorem Dev.standing_updGrp (d : Dev) (k : Nat) (f : CGroup → CGroup) : (d.updGrp k f).standing = d.standing := rfl
@[simp] theorem Dev.standing_closeIos (d : Dev) (p : Nat → Bool) : (d.closeIos p).standing = d.standing := rfl
@[simp] theorem Dev.standing_setHoopSec (d : Dev) (h : Nat) (x : HoopSec) : (d.setHoopSec h x).standing = d.standing := rfl
@[simp] theorem Dev.standing_endDebugOf (d : Dev) (h : Nat) : (d.endDebugOf h).standing = d.standing := rfl
@[simp] theorem Dev.standing_freeUnit (d : Dev) (t u : Nat) : (d.freeUnit t u).standing = d.standing := rfl

/-- States of contexts with one replaced. -/
def withState (st : Nat → CtxState) (c : Nat) (x : CtxState) : Nat → CtxState := fun j => if j = c then x else st j

/-- A state replaced twice is the later one. -/
theorem withState_withState (st : Nat → CtxState) (c : Nat) (x y : CtxState) : withState (withState st c x) c y = withState st c y := by
  funext j
  unfold withState
  split <;> rfl

/-- A context replaced: its state is the new one's. -/
theorem Dev.standing_setCtx_eq (d : Dev) (c : Nat) (x : Ctx) :
    (d.setCtx c x).standing = (withState d.standing.1 c x.state, d.standing.2) := by
  refine Prod.ext (funext fun j => ?_) rfl
  by_cases hj : j = c
  · subst hj
    simp only [Dev.standing, withState, Dev.ctx_set_same, if_true]
  · simp only [Dev.standing, withState, Dev.ctx_set_ne _ _ hj, if_neg hj]

/-- A context replaced by one of the same state. -/
theorem Dev.standing_setCtx (d : Dev) {c : Nat} {x : Ctx} (h : x.state = (d.ctx c).state) : (d.setCtx c x).standing = d.standing := by
  rw [Dev.standing_setCtx_eq, h]
  refine Prod.ext (funext fun j => ?_) rfl
  by_cases hj : j = c
  · exact (if_pos hj).trans (by rw [hj]; rfl)
  · exact if_neg hj

/-- Updates that leave the standing alone, one after another, leave it alone. -/
theorem Dev.standing_foldl {α : Type} {f : Dev → α → Dev} (h : ∀ d x, (f d x).standing = d.standing) (l : List α) (d : Dev) :
    (l.foldl f d).standing = d.standing := by
  induction l generalizing d with
  | nil => rfl
  | cons x r ih => exact (ih _).trans (h d x)

/-! ### Standing: registers, logs, keys and the cellar -/

@[simp] theorem Dev.standing_bump64 (d : Dev) (p i o n fo ov : Nat) : (d.bump64 p i o n fo ov).standing = d.standing := by
  unfold Dev.bump64; dsimp only; split <;> rfl

@[simp] theorem Dev.standing_rasLog (d : Dev) (e : LogEntry) : (d.rasLog e).standing = d.standing := by
  rw [Dev.rasLog_frame]; rfl

@[simp] theorem Dev.standing_halt (d : Dev) (c w a k n : Nat) : (d.halt c w a k n).standing = d.standing := by
  by_cases h : d.aon.halted = true
  · rw [Dev.halt_again _ _ _ _ _ _ h]; rfl
  · rw [Dev.halt_first d c w a k n (by simpa using h)]
    generalize (d.halt c w a k n).regs = r, (d.halt c w a k n).ras = l
    rfl

@[simp] theorem Dev.standing_noteReach (d : Dev) (r : Reach) : (d.noteReach r).standing = d.standing := by
  cases r with
  | malformed _ => exact Dev.standing_foldl (fun _ _ => by rfl) _ _
  | _ => rfl

@[simp] theorem Dev.standing_keyAtLimit (d : Dev) (k : Nat) : (d.keyAtLimit k).standing = d.standing := by
  unfold Dev.keyAtLimit Dev.keyFlag; simp [apply_ite Dev.standing]

@[simp] theorem Dev.standing_keyUse (d : Dev) (k n : Nat) : (d.keyUse k n).standing = d.standing := by
  simp [Dev.keyUse]

@[simp] theorem Dev.standing_sweepGroup (d : Dev) (g k : Nat) : (d.sweepGroup g k).standing = d.standing := by
  simp [Dev.sweepGroup, apply_ite Dev.standing]

/-- Bytes of the cellar are not part of it. -/
theorem Dev.standing_with_cellar (d : Dev) (m : List (Nat × Byte)) : ({ d with cellar := m } : Dev).standing = d.standing := rfl

@[simp] theorem Dev.standing_granWrite (d : Dev) (k pa : Nat) (bs : List Byte) : (d.granWrite k pa bs).1.standing = d.standing := by
  unfold Dev.granWrite
  simp only [apply_ite Prod.fst, apply_ite Dev.standing, Dev.mencBump, Dev.standing_bump64, Dev.standing_with_cellar, Dev.standing_keyUse,
    Dev.standing_setGroup, Dev.standing_sweepGroup, Dev.standing_halt, ite_self]

@[simp] theorem Dev.standing_physWrite (d : Dev) (k pa : Nat) (bs : List Byte) : (d.physWrite k pa bs).1.standing = d.standing := by
  have hfold : ∀ (l : List (Nat × List Byte)) (r : Dev × Status),
      (l.foldl (fun r p => if r.2 = .ok then r.1.granWrite k p.1 p.2 else r) r).1.standing = r.1.standing := by
    intro l
    induction l with
    | nil => intro r; rfl
    | cons p l ih => intro r; rw [List.foldl_cons, ih]; simp [apply_ite Prod.fst, apply_ite Dev.standing]
  exact hfold ..

@[simp] theorem Dev.standing_putParts (d : Dev) (ps : List (Nat × Nat × Nat)) (bs : List Byte) : (d.putParts ps bs).1.standing = d.standing := by
  induction ps generalizing d bs with
  | nil => rfl
  | cons p r ih =>
    have hfirst := d.standing_physWrite p.2.2 p.1 (bs.take p.2.1)
    unfold Dev.putParts
    split
    next hw => rw [hw] at hfirst; exact (ih ..).trans hfirst
    next => exact hfirst

@[simp] theorem Dev.standing_writeVa (d : Dev) (c va : Nat) (bs : List Byte) : (d.writeVa c va bs).1.standing = d.standing := by
  unfold Dev.writeVa
  split
  next ps _ =>
    have hput := d.standing_putParts ps bs
    split
    next hw => rw [hw] at hput; exact hput
    next hw => rw [hw] at hput; exact hput
  next => exact d.standing_noteReach _

/-- A ring's write that succeeds. -/
theorem Dev.standing_ringWrite {d e : Dev} {host : Bool} {c a : Nat} {bs : List Byte} (h : d.ringWrite host c a bs = some e) : e.standing = d.standing := by
  have hva := d.standing_writeVa c a bs
  unfold Dev.ringWrite at h
  split at h
  · split at h
    · cases h; rfl
    · cases h
  · split at h
    next hw => cases h; rw [hw] at hva; exact hva
    next => cases h

@[simp] theorem Dev.standing_zeroPage (d : Dev) (p : Nat) : (d.zeroPage p).standing = d.standing :=
  (Dev.standing_with_cellar ..).trans (Dev.standing_foldl (fun _ _ => by rfl) _ _)

/-! ### Standing: completions and rejections -/

@[simp] theorem Dev.standing_updCmd (d : Dev) (t : Nat) (f : Cmd → Cmd) : (d.updCmd t f).standing = d.standing := by
  simp [Dev.updCmd, apply_ite Dev.standing]

@[simp] theorem Dev.standing_finish (d : Dev) (t : Nat) (st : Status) : (d.finish t st).standing = d.standing := d.standing_updCmd ..

@[simp] theorem Dev.standing_mapFences (d : Dev) (f : Nat → Fence → Fence) : (d.mapFences f).standing = d.standing := Dev.standing_foldl (fun _ _ => by rfl) _ _

@[simp] theorem Dev.standing_mapMc (d : Dev) (f : Nat → McEntry → McEntry) : (d.mapMc f).standing = d.standing := Dev.standing_foldl (fun _ _ => by rfl) _ _

@[simp] theorem Dev.standing_releaseHolds (d : Dev) (t : Nat) : (d.releaseHolds t).standing = d.standing := by
  simp [Dev.releaseHolds]

@[simp] theorem Dev.standing_signalEvt (d : Dev) (e v : Nat) : (d.signalEvt e v).standing = d.standing := by
  simp [Dev.signalEvt, apply_ite Dev.standing]

@[simp] theorem Dev.standing_refillHoop (d : Dev) (h : Nat) : (d.refillHoop h).standing = d.standing := by
  simp [Dev.refillHoop, apply_ite Dev.standing]

@[simp] theorem Dev.standing_withdraw (d : Dev) (t c : Nat) : (d.withdraw t c).standing = d.standing := by
  simp [Dev.withdraw, apply_ite Dev.standing]

@[simp] theorem Dev.standing_missDeadline (d : Dev) (t : Nat) : (d.missDeadline t).standing = d.standing := by
  simp [Dev.missDeadline, apply_ite Dev.standing]

@[simp] theorem Dev.standing_queueIrq (d : Dev) (q : Nat) : (d.queueIrq q).standing = d.standing := rfl

@[simp] theorem Dev.standing_writeCpl (d : Dev) (q st k s g t : Nat) : (d.writeCpl q st k s g t).standing = d.standing := by
  unfold Dev.writeCpl
  dsimp only
  split
  next hw => simpa using Dev.standing_ringWrite hw
  next => simp

@[simp] theorem Dev.standing_complete (d : Dev) (t st : Nat) (silent : Bool) : (d.complete t st silent).standing = d.standing := by
  simp [Dev.complete, apply_ite Dev.standing]

@[simp] theorem Dev.standing_completeAll (d : Dev) (p : Cmd → Bool) (st : Status) (silent : Bool) : (d.completeAll p st silent).standing = d.standing :=
  Dev.standing_foldl (fun _ _ => Dev.standing_complete ..) _ _

@[simp] theorem Dev.standing_reject (d : Dev) (q s : Nat) (bs : List Byte) (st : Nat) : (d.reject q s bs st).standing = d.standing := by
  simp [Dev.reject, apply_ite Dev.standing]

@[simp] theorem Dev.standing_rejectUndecided (d : Dev) (q : Nat) (st : Status) (n : Nat) : (d.rejectUndecided q st n).standing = d.standing := by
  induction n generalizing d with
  | zero => rfl
  | succ n ih =>
    unfold Dev.rejectUndecided
    dsimp only
    split
    · rfl
    · split
      · rfl
      · simp [ih]

/-! ### Standing: engines that stop -/

@[simp] theorem Dev.standing_captureOver (d : Dev) (t st : Nat) : (d.captureOver t st).standing = d.standing := by
  simp [Dev.captureOver, apply_ite Dev.standing]

@[simp] theorem Dev.standing_abortHolds (d : Dev) (f : Fence) : (d.abortHolds f).standing = d.standing :=
  Dev.standing_foldl (fun _ _ => by simp) _ _

@[simp] theorem Dev.standing_stopStep (d : Dev) (t : Nat) : (d.stopStep t).standing = d.standing := by
  simp [Dev.stopStep, apply_ite Dev.standing]

@[simp] theorem Dev.standing_restoreStop (d : Dev) (t : Nat) : (d.restoreStop t).standing = d.standing := by
  simp [Dev.restoreStop, apply_ite Dev.standing]

@[simp] theorem Dev.standing_stopDma (d : Dev) (p : Cmd → Bool) : (d.stopDma p).standing = d.standing := Dev.standing_foldl (fun _ _ => by rfl) _ _

@[simp] theorem Dev.standing_stopDarners (d : Dev) (p : Cmd → Bool) : (d.stopDarners p).standing = d.standing := Dev.standing_foldl Dev.standing_stopStep _ _

@[simp] theorem Dev.standing_stopStorage (d : Dev) (p : Cmd → Bool) : (d.stopStorage p).standing = d.standing :=
  Dev.standing_foldl (fun _ _ => by simp [apply_ite Dev.standing]) _ _

@[simp] theorem Dev.standing_stopShuttle (d : Dev) (p : Nat → Bool) : (d.stopShuttle p).standing = d.standing := Dev.standing_foldl (fun _ _ => by rfl) _ _

@[simp] theorem Dev.standing_stopRunning (d : Dev) (p : Cmd → Bool) : (d.stopRunning p).standing = d.standing := Dev.standing_foldl (fun _ _ => by rfl) _ _

@[simp] theorem Dev.standing_freeGroups (d : Dev) (p : Nat → Nat → Bool) : (d.freeGroups p).standing = d.standing := Dev.standing_foldl (fun _ _ => by rfl) _ _

@[simp] theorem Dev.standing_abandon (d : Dev) (c : Nat) : (d.abandon c).standing = d.standing := Dev.standing_foldl (fun _ _ => by rfl) _ _

/-! ### Standing: objects of a context released -/

@[simp] theorem Dev.standing_freeSlot (d : Dev) (t k : Nat) : (d.freeSlot t k).standing = d.standing :=
  (Dev.standing_setTile ..).trans (Dev.standing_foldl (fun _ _ => by rfl) _ _)

@[simp] theorem Dev.standing_clearFaults (d : Dev) (c : Nat) : (d.clearFaults c).standing = d.standing := d.standing_setCtx rfl

@[simp] theorem Dev.standing_freePricking (d : Dev) (c : Nat) : (d.freePricking c).standing = d.standing := by
  have hslots := Dev.standing_foldl (fun d (e : Nat × Nat) => d.standing_freeSlot e.1 e.2) (d.slotsOf c) d
  refine (Dev.standing_setCtx _ ?_).trans ?_
  · rfl
  · exact hslots

@[simp] theorem Dev.standing_destroyEvent (d : Dev) (e : Nat) : (d.destroyEvent e).standing = d.standing := by
  simp [Dev.destroyEvent]

@[simp] theorem Dev.standing_destroyQueue (d : Dev) (q : Nat) : (d.destroyQueue q).standing = d.standing := by
  refine (Dev.standing_foldl (fun _ _ => by rfl) _ _).trans ?_
  simp

@[simp] theorem Dev.standing_mcDrop (d : Dev) (k : Nat) : (d.mcDrop k).standing = d.standing := by
  simp [Dev.mcDrop, apply_ite Dev.standing]

@[simp] theorem Dev.standing_mcDropAll (d : Dev) (p : McEntry → Bool) : (d.mcDropAll p).standing = d.standing := Dev.standing_foldl Dev.standing_mcDrop _ _

@[simp] theorem Dev.standing_unmapPage (d : Dev) (p : Nat) : (d.unmapPage p).standing = d.standing := by
  simp [Dev.unmapPage, apply_ite Dev.standing]

@[simp] theorem Dev.standing_dropTables (d : Dev) (c : Nat) : (d.dropTables c).standing = d.standing := by
  have hunmap : ∀ (d : Dev) (e : Nat × Nat), (d.unmapPages e.1 e.2).standing = d.standing := fun _ _ =>
    Dev.standing_foldl (fun _ _ => Dev.standing_unmapPage ..) _ _
  have hreturn : ∀ (d : Dev) (p : Nat), (d.returnTable p).standing = d.standing := fun d p => by simp [Dev.returnTable]
  unfold Dev.dropTables
  dsimp only
  rw [Dev.standing_foldl hreturn, Dev.standing_foldl hunmap]

@[simp] theorem Dev.standing_dropCipher (d : Dev) (c : Nat) : (d.dropCipher c).standing = d.standing :=
  Dev.standing_foldl (fun d h => by rw [apply_ite Dev.standing]; exact ite_self _) _ _

/-! ### Standing: result records and the hoop reset (R444) -/

@[simp] theorem Dev.standing_samplePut (d : Dev) (c : Nat) (l : List (Nat × List Byte)) : (d.samplePut c l).1.standing = d.standing := by
  induction l generalizing d with
  | nil => rfl
  | cons p r ih =>
    have hwrite := d.standing_writeVa c p.1 p.2
    unfold Dev.samplePut
    split
    next hw => rw [hw] at hwrite; exact (ih _).trans hwrite
    next hw => rw [hw] at hwrite; exact hwrite

@[simp] theorem Dev.standing_sample (d : Dev) (c cause st : Nat) : (d.sample c cause st).standing = d.standing := by
  unfold Dev.sample
  dsimp only
  rw [Dev.standing_setCtx]
  · simp [apply_ite Prod.fst, apply_ite Dev.standing]
  · rfl

@[simp] theorem Dev.standing_dmaRecord (d : Dev) (t : Nat) (st : Status) : (d.dmaRecord t st).standing = d.standing := by
  simp [Dev.dmaRecord, apply_ite Dev.standing]

@[simp] theorem Dev.standing_dmaUndef (d : Dev) (m : Cmd) (i : Nat) : (d.dmaUndef m i).standing = d.standing :=
  Dev.standing_foldl (fun _ _ => by simp [apply_ite Dev.standing]) _ _

@[simp] theorem Dev.standing_dmaStop (d : Dev) (t : Nat) (st : Status) : (d.dmaStop t st).standing = d.standing := by
  have hundef := fun m l => Dev.standing_foldl (fun d i => d.standing_dmaUndef m i) l d
  simp [Dev.dmaStop, apply_ite Dev.standing, hundef]

@[simp] theorem Dev.standing_chunkUndef (d : Dev) (g : CGroup) (i : Nat) : (d.chunkUndef g i).standing = d.standing := by
  unfold Dev.chunkUndef
  split
  · rfl
  · exact Dev.standing_foldl (fun _ _ => by simp) _ _

@[simp] theorem Dev.standing_chunkFail (d : Dev) (k i : Nat) (st : Status) : (d.chunkFail k i st).standing = d.standing := by
  simp [Dev.chunkFail, apply_ite Dev.standing]

@[simp] theorem Dev.standing_collRecord (d : Dev) (t st : Nat) : (d.collRecord t st).standing = d.standing := Dev.standing_writeVa ..

@[simp] theorem Dev.standing_collStop (d : Dev) (t : Nat) (st : Status) : (d.collStop t st).standing = d.standing := by
  have hfail := fun k l => Dev.standing_foldl (fun d i => d.standing_chunkFail k i st) l d
  simp [Dev.collStop, apply_ite Dev.standing, hfail]

@[simp] theorem Dev.standing_readUndef (d : Dev) (m : Cmd) (f : StorFile) (i : Nat) : (d.readUndef m f i).standing = d.standing := by
  simp [Dev.readUndef, apply_ite Dev.standing]

@[simp] theorem Dev.standing_storRecord (d : Dev) (t st : Nat) : (d.storRecord t st).standing = d.standing := Dev.standing_writeVa ..

@[simp] theorem Dev.standing_ckptGroup (d : Dev) (t : Nat) : (d.ckptGroup t).standing = d.standing := by
  simp [Dev.ckptGroup, apply_ite Dev.standing]

@[simp] theorem Dev.standing_storStop (d : Dev) (t : Nat) (st : Status) : (d.storStop t st).standing = d.standing := by
  have hundef := fun m f l e => Dev.standing_foldl (fun d i => d.standing_readUndef m f i) l e
  simp [Dev.storStop, apply_ite Dev.standing, hundef]

@[simp] theorem Dev.standing_stopRecord (d : Dev) (t : Nat) (st : Status) : (d.stopRecord t st).standing = d.standing := by
  simp [Dev.stopRecord, apply_ite Dev.standing]

@[simp] theorem Dev.standing_clearHoopWide (d : Dev) (h : Nat) : (d.clearHoopWide h).standing = d.standing := by
  simp [Dev.clearHoopWide, apply_ite Dev.standing]

@[simp] theorem Dev.standing_resetHoop (d : Dev) (h cause : Nat) (t : Option Nat) : (d.resetHoop h cause t).standing = d.standing := by
  have hrecords : ∀ (d : Dev) (c : Nat), ((d.cmdsOf (fun m => m.ctx == c)).foldl (fun d t => d.stopRecord t .hoopReset) d).standing = d.standing :=
    fun _ _ => Dev.standing_foldl (fun _ _ => Dev.standing_stopRecord ..) _ _
  unfold Dev.resetHoop
  split
  · rfl
  · dsimp only
    rw [Dev.standing_clearHoopWide, Dev.standing_foldl (fun _ _ => by simp), Dev.standing_foldl (fun _ _ => by simp),
      Dev.standing_foldl (fun _ _ => by simp), Dev.standing_foldl hrecords]
    cases t with
    | none => rw [Dev.standing_foldl (fun _ _ => by simp), Dev.standing_foldl (fun _ _ => by simp)]
    | some t =>
      simp only [apply_ite Dev.standing, Dev.standing_complete, ite_self]
      rw [Dev.standing_foldl (fun _ _ => by simp), Dev.standing_foldl (fun _ _ => by simp)]

/-! ### Contexts destroyed (R255, R279) -/

/-- States of contexts with the active ones of a list draining. -/
def drained (l : List Nat) (st : Nat → CtxState) : Nat → CtxState := fun c => if c ∈ l ∧ st c = .active then .draining else st c

/-- A context destroyed drains if it was active; no other context, no function and not VF Enable is touched. -/
theorem Dev.standing_destroyCtx (d : Dev) (c : Nat) : (d.destroyCtx c).standing = (drained [c] d.standing.1, d.standing.2) := by
  have hother : ∀ j, j ≠ c → drained [c] d.standing.1 j = d.standing.1 j := fun j hj => if_neg (by simp [hj])
  by_cases hact : (d.ctx c).state = .active
  · have hreject := Dev.standing_foldl (fun (d : Dev) q => d.standing_rejectUndecided q .contextAborted (2 ^ (d.queue q).log2))
    have hevents := Dev.standing_foldl Dev.standing_destroyEvent
    have hqueues := Dev.standing_foldl Dev.standing_destroyQueue
    have hdrained : drained [c] d.standing.1 = withState d.standing.1 c .draining := by
      funext j
      by_cases hj : j = c
      · rw [hj]
        exact (if_pos ⟨List.mem_singleton_self c, hact⟩).trans (if_pos rfl).symm
      · exact (hother j hj).trans (if_neg hj).symm
    unfold Dev.destroyCtx
    simp [hact, hdrained, Dev.standing_setCtx_eq, withState_withState, hreject, hevents, hqueues]
  · have hsame : drained [c] d.standing.1 = d.standing.1 := by
      funext j
      exact if_neg (fun ⟨hj, ha⟩ => hact (List.mem_singleton.mp hj ▸ ha))
    rw [hsame, Dev.destroyCtx, if_pos hact]

/-- Contexts destroyed one after another. -/
theorem Dev.standing_foldl_destroyCtx (l : List Nat) (d : Dev) :
    (l.foldl Dev.destroyCtx d).standing = (drained l d.standing.1, d.standing.2) := by
  induction l generalizing d with
  | nil => exact Prod.ext (funext fun c => by simp [drained]) rfl
  | cons k r ih =>
    rw [List.foldl_cons, ih, d.standing_destroyCtx k]
    refine Prod.ext (funext fun c => ?_) rfl
    simp only [drained, List.mem_cons, List.not_mem_nil, or_false]
    grind

/-- Every context listed active under a function that satisfies `p` drains. -/
theorem Dev.standing_destroyOf (d : Dev) (p : Nat → Bool) :
    (d.destroyOf p).standing = (drained (d.ctxsOf (fun x => x.state == .active && p x.func)) d.standing.1, d.standing.2) :=
  Dev.standing_foldl_destroyCtx ..

/-- The destruction of contexts leaves the functions alone. -/
@[simp] theorem Dev.func_destroyOf (d : Dev) (p : Nat → Bool) (m : Nat) : (d.destroyOf p).func m = d.func m := by
  have hfuncs : (d.destroyOf p).funcs = d.funcs := congrArg (fun v => v.2.1) (d.standing_destroyOf p)
  unfold Dev.func
  rw [hfuncs]

/-! ### Tables in canonical form -/

section
variable {α : Type} [DecidableEq α] {dflt : Nat → α}

/-- The keys of a canonical table lie above its bound. -/
theorem lt_of_mem_tabWfFrom {t : Table α} {l : Nat} (h : tabWfFrom dflt (some l) t = true) {k : Nat} {v : α} (hm : (k, v) ∈ t) : l < k := by
  induction t generalizing l with
  | nil => cases hm
  | cons e r ih =>
    simp only [tabWfFrom, Bool.and_eq_true, decide_eq_true_eq] at h
    obtain ⟨⟨hl, -⟩, hr⟩ := h
    rcases List.mem_cons.mp hm with rfl | hm
    · exact hl
    · exact Nat.lt_trans hl (ih hr hm)

/-- An entry of a canonical table is what its key reads as. -/
theorem tabGet_of_mem_tabWfFrom {t : Table α} {lo : Option Nat} (h : tabWfFrom dflt lo t = true) {k : Nat} {v : α} (hm : (k, v) ∈ t) :
    tabGet dflt t k = v := by
  induction t generalizing lo with
  | nil => cases hm
  | cons e r ih =>
    obtain ⟨k', v'⟩ := e
    rw [tabWfFrom_cons] at h
    simp only [Bool.and_eq_true] at h
    obtain ⟨-, hr⟩ := h
    rcases List.mem_cons.mp hm with heq | hm
    · cases heq; simp [tabGet]
    · rw [tabGet, if_neg (Nat.ne_of_lt (lt_of_mem_tabWfFrom hr hm)), ih hr hm]

omit [DecidableEq α] in
/-- A key whose value satisfies `p`, where the unlisted value does not, is listed. -/
theorem mem_tabKeys_of_tabGet {p : Nat → α → Bool} {t : Table α} {k : Nat} (hd : p k (dflt k) = false) (h : p k (tabGet dflt t k) = true) :
    k ∈ tabKeys p t := by
  have hmem : (k, tabGet dflt t k) ∈ t := by
    induction t with
    | nil => simp [tabGet, hd] at h
    | cons e r ih =>
      by_cases hk : e.1 = k
      · simp [tabGet, ← hk]
      · rw [tabGet, if_neg hk] at h ⊢
        exact List.mem_cons_of_mem _ (ih h)
  exact List.mem_map.mpr ⟨_, List.mem_filter.mpr ⟨hmem, h⟩, rfl⟩

/-- In a canonical table the keys listed with a value that satisfies `p` are those that read as such a value. -/
theorem mem_tabKeys_iff {p : Nat → α → Bool} {t : Table α} (hwf : tabWf dflt t = true) {k : Nat} (hd : p k (dflt k) = false) :
    k ∈ tabKeys p t ↔ p k (tabGet dflt t k) = true := by
  refine ⟨fun h => ?_, mem_tabKeys_of_tabGet hd⟩
  obtain ⟨⟨k', v⟩, hmem, rfl⟩ := List.mem_map.mp h
  obtain ⟨ht, hp⟩ := List.mem_filter.mp hmem
  rwa [tabGet_of_mem_tabWfFrom hwf ht]

end

/-! ### Commands that destroy the contexts of functions -/

/-- Every active context of the functions in `q` is draining, and every context of another function is in the state it was. -/
def Gone (d : Dev) (q : Nat → Prop) (e : Dev) : Prop :=
  ∀ c, ((d.ctx c).state = .active → q (d.ctx c).func → (e.ctx c).state = .draining) ∧ (¬ q (d.ctx c).func → (e.ctx c).state = (d.ctx c).state)

/-- Where the table of contexts is canonical, a number that the destruction takes from the table is one whose context it reads as it is listed:
a device whose contexts stand as the destruction leaves them has lost those of the functions named, and no other. -/
theorem gone_of_standing {d e : Dev} (hwf : tabWf ctxDflt d.ctxs = true) {p : Nat → Bool} {q : Nat → Prop} (hpq : ∀ f, p f = true ↔ q f)
    (he : e.standing.1 = (d.destroyOf p).standing.1) : Gone d q e := by
  intro c
  have hmem : c ∈ d.ctxsOf (fun x => x.state == .active && p x.func) ↔ (d.ctx c).state = .active ∧ p (d.ctx c).func = true := by
    unfold Dev.ctxsOf
    rw [mem_tabKeys_iff hwf rfl]
    change (((d.ctx c).state != .free) && ((d.ctx c).state == .active && p (d.ctx c).func)) = true ↔ _
    cases (d.ctx c).state <;> simp
  have hstate : (e.ctx c).state =
      if c ∈ d.ctxsOf (fun x => x.state == .active && p x.func) ∧ (d.ctx c).state = .active then .draining else (d.ctx c).state := by
    rw [d.standing_destroyOf p] at he
    exact congrFun he c
  refine ⟨fun hact hq => hstate.trans (if_pos ⟨hmem.mpr ⟨hact, (hpq _).mpr hq⟩, hact⟩), fun hq => hstate.trans (if_neg ?_)⟩
  rintro ⟨hin, -⟩
  exact hq ((hpq _).mp (hmem.mp hin).2)

/-- The contexts destroyed are those of the functions named, and no other. -/
theorem gone_destroyOf {d : Dev} (hwf : tabWf ctxDflt d.ctxs = true) {p : Nat → Bool} {q : Nat → Prop} (hpq : ∀ f, p f = true ↔ q f) :
    Gone d q (d.destroyOf p) := gone_of_standing hwf hpq rfl

/-- `Gone` is said of the tables of contexts alone. -/
theorem Gone.congr {d d' e e' : Dev} {q : Nat → Prop} (h : Gone d' q e') (hd : d'.ctxs = d.ctxs) (he : e'.ctxs = e.ctxs) : Gone d q e := by
  unfold Gone Dev.ctx at *
  rwa [hd, he] at h

/-- An FLR of the PF drains every active context and clears VF Enable; the hoop resets that follow change neither. -/
theorem Dev.standing_flrPf (d : Dev) : d.flrPf.standing = ((d.destroyOf (fun _ => true)).standing.1, d.funcs, false) := by
  have hfuncs : (d.destroyOf (fun _ => true)).funcs = d.funcs := congrArg (fun v => v.2.1) (d.standing_destroyOf _)
  unfold Dev.flrPf
  dsimp only
  rw [Dev.standing_foldl (fun _ _ => by simp [apply_ite Dev.standing]), ← hfuncs]
  rfl

/-- VF Enable is part of the standing. -/
theorem Dev.standing_vfEnable (d : Dev) : d.standing.2.2 = d.vfEnable := rfl

/-- A command of an engine of the running core completes, with what its effect gives at its time and nothing else. -/
theorem does_whenLive_iff {i : Instr} {s : State} {now : Nat} {f : Dev → Dev} {P : Dev → Prop} (h : exec i s = onDev s (fun d => (d.at now).whenLive f))
    (hlive : s.dev.live = true) : Does i s P ↔ P (f (s.dev.at now)) := by
  rw [onDev_eq, Dev.whenLive_live _ _ (by simpa using hlive)] at h
  constructor
  · rintro ⟨e, hexec, hP⟩
    rw [h] at hexec
    injection hexec with hstate
    injection hstate with _ _ hdev
    exact hdev ▸ hP
  · exact fun hP => ⟨_, h, hP⟩

/-- What an FLR of a VF does. -/
theorem does_flrVf_iff {s : State} {fn : Nat} (now : Nat) {P : Dev → Prop} (hlive : s.dev.live = true) (hfn : 1 ≤ fn) (hmax : fn ≤ 63) :
    Does (.flrVf fn now) s P ↔ P ((s.dev.at now).destroyOf (fun f => f == fn)) := by
  rw [does_whenLive_iff (s := s) (now := now) rfl hlive, if_neg (by omega)]

/-- A TDI moved touches the functions only. -/
theorem Dev.setTdi_frame (d : Dev) (fn : Nat) (t : Tdi) : d.setTdi fn t = { d with funcs := (d.setTdi fn t).funcs } := by
  unfold Dev.setTdi; split <;> rfl

/-- A DOE object of the allowed length touches the functions and what leaves the block only. -/
theorem Dev.doeTake_frame (d : Dev) (b : DoeBody) : d.doeTake b = { d with funcs := (d.doeTake b).funcs, out := (d.doeTake b).out } := by
  have htdi : ∀ (p : Prop) [Decidable p] (fn : Nat) (t : Tdi), (if p then d.setTdi fn t else d) =
      { d with funcs := (if p then d.setTdi fn t else d).funcs, out := (if p then d.setTdi fn t else d).out } := by
    intro p _ fn t
    split
    · rw [Dev.setTdi_frame]
    · rfl
  cases b with
  | ideKm fn => unfold Dev.doeTake; dsimp only; split <;> rfl
  | tdispLock fn => exact htdi ..
  | tdispStart fn => exact htdi ..
  | tdispStop fn => exact htdi ..
  | _ => rfl

/-! ### The clauses of O28: those about contexts where the table of contexts is canonical, the others without condition -/

section
variable {s : State} {fn : Nat} (now : Nat) (hlive : s.dev.live = true)
include hlive

/-- STOP_INTERFACE moves the TDI of its function, in any state, to CONFIG_UNLOCKED, and touches nothing else (R258). -/
theorem does_stopInterface (hfn : 1 ≤ fn) (hmax : fn ≤ 63) :
    Does (.stopInterface fn now) s (fun e => e.func fn = { s.dev.func fn with tdi := .configUnlocked } ∧
      (∀ m, m ≠ fn → e.func m = s.dev.func m) ∧ SameObjects s.dev e ∧ SameMem s.dev e) := by
  refine (does_whenLive_iff (now := now) rfl hlive).mpr ?_
  rw [Dev.setTdi, if_neg (by omega)]
  exact ⟨Dev.func_set_same .., fun m hm => Dev.func_set_ne _ _ hm, ⟨rfl, rfl, rfl, rfl, rfl, rfl⟩, ⟨rfl, rfl, rfl, rfl⟩⟩

/-- A DOE object that is too long only sets DOE Error; the others move functions and answer, and a TDISP start in a secured session runs a
locked TDI (R254; log entry 30). -/
theorem does_doeObject (dw : Nat) (body : DoeBody) (hfn : 1 ≤ fn) (hmax : fn ≤ 63) :
    Does (.doeObject dw body now) s (fun e => (2 ^ 18 < dw → e.doeError = true ∧ e.funcs = s.dev.funcs ∧ e.out = s.dev.out) ∧
      SameObjects s.dev e ∧ SameMem s.dev e ∧
      (dw ≤ 2 ^ 18 → body = .tdispStart fn → s.dev.doeSession = true → (s.dev.func fn).tdi = .configLocked → (e.func fn).tdi = .run)) := by
  refine (does_whenLive_iff (now := now) rfl hlive).mpr ?_
  by_cases hlong : 2 ^ 18 < dw
  · rw [if_pos hlong]
    exact ⟨fun _ => ⟨rfl, rfl, rfl⟩, ⟨rfl, rfl, rfl, rfl, rfl, rfl⟩, ⟨rfl, rfl, rfl, rfl⟩, fun hshort => absurd hlong (Nat.not_lt.mpr hshort)⟩
  · rw [if_neg hlong]
    refine ⟨fun h => absurd h hlong, ?_, ?_, ?_⟩
    · rw [Dev.doeTake_frame]
      exact ⟨rfl, rfl, rfl, rfl, rfl, rfl⟩
    · rw [Dev.doeTake_frame]
      exact ⟨rfl, rfl, rfl, rfl⟩
    · rintro - rfl hsession htdi
      have hgate : ((s.dev.at now).doeSession && ((s.dev.at now).func fn).tdi == .configLocked) = true :=
        Bool.and_eq_true_iff.mpr ⟨hsession, beq_iff_eq.mpr htdi⟩
      rw [Dev.doeTake, if_pos hgate, Dev.setTdi, if_neg (by omega), Dev.func_set_same]

variable (hwf : tabWf ctxDflt s.dev.ctxs = true)
include hwf

/-- An FLR of a VF destroys the active contexts of the function and no other (R255). -/
theorem does_flrVf (hfn : 1 ≤ fn) (hmax : fn ≤ 63) : Does (.flrVf fn now) s (Gone s.dev (· = fn)) :=
  (does_flrVf_iff now hlive hfn hmax).mpr ((gone_destroyOf (d := s.dev.at now) hwf (fun _ => beq_iff_eq)).congr rfl rfl)

/-- An FLR of the PF destroys every active context and clears VF Enable (R255). -/
theorem does_flrPf : Does (.flrPf now) s (fun e => Gone s.dev (fun _ => True) e ∧ e.vfEnable = false) := by
  refine (does_whenLive_iff (now := now) rfl hlive).mpr ?_
  have hstanding := (s.dev.at now).standing_flrPf
  refine ⟨(gone_of_standing (d := s.dev.at now) hwf (fun _ => iff_of_true rfl trivial) ?_).congr rfl rfl, ?_⟩
  · rw [hstanding]
  · rw [← Dev.standing_vfEnable, hstanding]

/-- VF Enable cleared or NumVFs changed destroys the active contexts of every VF and none of the PF; otherwise no context is touched (R23, R255). -/
theorem does_vfEnableClear (en : Bool) {num : Nat} (hnum : num ≤ 63) :
    Does (.vfEnableClear en num now) s (fun e => e.vfEnable = en ∧ e.numVfs = num ∧
      ((s.dev.vfEnable = true ∧ en = false) ∨ num ≠ s.dev.numVfs → Gone s.dev (· ≠ 0) e) ∧
      (¬ ((s.dev.vfEnable = true ∧ en = false) ∨ num ≠ s.dev.numVfs) → e.ctxs = s.dev.ctxs)) := by
  refine (does_whenLive_iff (now := now) rfl hlive).mpr ?_
  have hcond : ((s.dev.vfEnable && !en) || num != s.dev.numVfs) = true ↔ (s.dev.vfEnable = true ∧ en = false) ∨ num ≠ s.dev.numVfs := by simp
  have hfits : ¬ (en && decide (63 < num)) = true := by simp; omega
  rw [if_neg hfits]
  have hgone : Gone (s.dev.at now) (· ≠ 0) ((s.dev.at now).destroyOf (fun f => f != 0)) :=
    gone_destroyOf (d := s.dev.at now) hwf (fun f => bne_iff_ne (a := f))
  refine ⟨rfl, rfl, fun h => ?_, fun h => ?_⟩
  · have hdestroyed := if_pos (h := inferInstance) (t := (s.dev.at now).destroyOf (fun f => f != 0)) (e := s.dev.at now) (hcond.mpr h)
    have hctxs := congrArg Dev.ctxs hdestroyed
    exact hgone.congr rfl hctxs.symm
  · have hkept := if_neg (h := inferInstance) (t := (s.dev.at now).destroyOf (fun f => f != 0)) (e := s.dev.at now) (fun hc => h (hcond.mp hc))
    have hctxs := congrArg Dev.ctxs hkept
    exact hctxs

/-- The entry of a function into D3hot destroys its active contexts and no other (R254). -/
theorem does_d3hotEntry (hmax : fn ≤ 63) :
    Does (.d3hotEntry fn now) s (fun e => Gone s.dev (· = fn) e ∧ (e.func fn).d3hot = true) := by
  refine (does_whenLive_iff (now := now) rfl hlive).mpr ?_
  rw [if_neg (by omega)]
  exact ⟨(gone_destroyOf (d := (s.dev.at now).setFunc _ _) hwf (fun _ => beq_iff_eq)).congr rfl rfl, by simp⟩

/-- An integrity failure of a VF's IDE stream marks the stream Insecure, moves the TDI to ERROR and destroys the function's active contexts
and no other (R254, R258). -/
theorem does_ideIntegrityFailure (hfn : 1 ≤ fn) (hmax : fn ≤ 63) :
    Does (.ideIntegrityFailure fn now) s (fun e => Gone s.dev (· = fn) e ∧ (e.func fn).ideInsecure = true ∧ (e.func fn).tdi = .error ∧
      ∀ m, m ≠ fn → e.func m = s.dev.func m) := by
  refine (does_whenLive_iff (now := now) rfl hlive).mpr ?_
  rw [Dev.ideFail, if_neg (by omega), if_neg (by omega)]
  dsimp only
  rw [if_neg (by omega)]
  refine ⟨(gone_destroyOf (d := ((s.dev.at now).setFunc _ _).setFunc _ _) hwf (fun _ => beq_iff_eq)).congr rfl rfl, by simp, by simp, fun m hm => ?_⟩
  rw [Dev.func_destroyOf, Dev.func_set_ne _ _ hm, Dev.func_set_ne _ _ hm]
  rfl

end

/-! ### A table that lists a context twice -/

/-- A running device whose table of contexts lists context 1 twice: as function 2's, which a read finds, and again as function 1's. -/
def twiceListed : Dev :=
  { aon := { ready := true }, ctxs := [(1, { state := .active, func := 2 }), (1, { state := .active, func := 1 })] }

/-- `twiceListed` runs, its context 1 is an active one of function 2, and the destruction of function 1's contexts destroys it. -/
theorem destroyOf_twiceListed : twiceListed.live = true ∧ twiceListed.ctx 1 = { state := .active, func := 2 } ∧
    (((twiceListed.at 0).destroyOf (fun f => f == 1)).ctx 1).state = .draining := by
  decide +kernel

/-- Refutes O28: the statement is about every table of contexts, and `twiceListed`, whose table is not canonical, loses function 2's context 1
to an FLR of function 1. Where the table is canonical (each number once) the clauses hold: `does_flrVf`, `does_flrPf`, `does_vfEnableClear`,
`does_d3hotEntry`, `does_ideIntegrityFailure`; `does_stopInterface` and `does_doeObject` hold of any. -/
theorem not_functionResets : ¬ Obligations.FunctionResets := by
  unfold Obligations.FunctionResets
  intro h
  obtain ⟨hlive, hctx, hdestroyed⟩ := destroyOf_twiceListed
  obtain ⟨hflr, -⟩ := h { dev := twiceListed } 1 0 false 0 0 (.discovery 0) hlive (by decide) (by decide) (by decide)
  obtain ⟨-, hother⟩ := (does_flrVf_iff 0 hlive (by decide) (by decide)).mp hflr 1
  rw [hctx, hdestroyed] at hother
  exact absurd (hother (by decide)) (by decide)

end Sys2Proof.Machine
end

section
/-! PROOFS. The statement about the NUM page's windows (chapter 3): what the port of a saturation entry's owner writes, and what every other function
finds there. -/
namespace Sys2Proof.Machine

/-! ### Writes of a window (R6, R65, R474) -/

/-- A write to a window's register arrives there, where the core runs. -/
theorem busWrite_of_isWindow {f : Fuses} {d : Dev} {port page off v : Nat} {e : WrEnv} {r : RegDef} (harr : d.arrives port = true)
    (hready : d.aon.ready = true) (hpage : page < 0x100) (hopen : bootLcClosed port page = false) (hdef : regDef page off = some r) (hv : v < 2 ^ 32) :
    busWrite f d port page off v e = writeSeen f d port page r v e := by
  unfold busWrite
  rw [if_neg (by simp [harr, Dev.answers, hready, d.hoopvSilent_eq_false port hpage]), if_neg (by simp [hopen]),
    if_neg (by simp [aliasOf_eq_none off hpage]), hdef]
  dsimp only
  rw [Nat.mod_eq_of_lt hv]

/-- A command that writes a register completes where the write leaves the fuses alone. -/
theorem does_registerWrite {s : State} {port page off v now : Nat} {e : WrEnv} {d : Dev} {P : Dev → Prop}
    (h : busWrite s.fuses (s.dev.at now) port page off v e = (s.fuses, d)) (hP : P d) : Does (.registerWrite port page off v e now) s P := by
  refine ⟨d, ?_, hP⟩
  change onBus s port page off v e now = _
  unfold onBus
  rw [h]

/-! ### The NUM page's windows (R64, R65) -/

/-- The selected saturation entry belongs to a context of the port's function. -/
def Dev.ownsSat (d : Dev) (port i : Nat) : Bool := (d.sat i).assigned && d.seesCtx port (d.sat i).ctx

/-- A function's port reaches the NUM page and selects an entry that the page has, and the page's crossing is open. -/
structure Dev.NumOpen (d : Dev) (port : Nat) : Prop where
  func : portIsFunc port = true
  arrives : d.arrives port = true
  ready : d.aon.ready = true
  sel : d.bankN pgNum port 0x0030 ≤ pageSelMax pgNum
  crossing : d.xOpen 138 = true

/-- Time carried by a command leaves the page as open as it was. -/
theorem Dev.NumOpen.at {d : Dev} {port : Nat} (h : d.NumOpen port) (t : Nat) : (d.at t).NumOpen port := by
  obtain ⟨hf, ha, hr, hs, hx⟩ := h
  exact ⟨hf, ha, hr, hs, hx⟩

/-- No port of the device is behind the NUM page, and the fabric's crossing is its only one (R490). -/
theorem Dev.heldPort_num (d : Dev) (i : Nat) : d.heldPort pgNum i = false := rfl
theorem Dev.reached_num (d : Dev) (i off : Nat) : d.reached pgNum i off = d.xOpen 138 := rfl

/-- What a function's port sees of an entry's window: all of it where the entry is the function's, nothing otherwise. -/
theorem Dev.sees_num (d : Dev) {port off : Nat} (i : Nat) (hf : portIsFunc port = true) (hwin : isWindow off = true) :
    d.sees port pgNum i off = if d.ownsSat port i then .yes else .hidden := by
  have hoff : ¬ off < 0x0100 := by simp [isWindow] at hwin; omega
  have hctl : ctlPage pgNum = false := by decide
  have hciphu : ¬ (pgCiphu ≤ pgNum ∧ pgNum < pgCiphu + 16 ∧ d.seesCiphu port (pgNum - pgCiphu) = false) := by unfold pgCiphu pgNum; omega
  unfold Dev.sees
  rw [hctl, Bool.false_and, if_neg Bool.false_ne_true, if_neg hciphu, if_neg hoff]
  change (if isWindow off = true then seeFigures port off (d.ownsSat port i) else See.yes) = _
  rw [if_pos hwin, seeFigures, if_pos hf]

/-- The registers of the window that the statement names. -/
theorem regDef_num : regDef pgNum 0x0100 = some ⟨0x0100, .rw, 0, 1, 0x0100, 1, false⟩ ∧
    regDef pgNum 0x0104 = some ⟨0x0104, .ro, 0, 0xFFFFFFFF, 0x0104, 1, false⟩ ∧
    regDef pgNum 0x0108 = some ⟨0x0108, .rw, 0, 0xFFFFFFFF, 0x0108, 2, false⟩ ∧
    regDef pgNum 0x011C = some ⟨0x011C, .w1c, 0, 0x1F, 0x011C, 1, false⟩ := by decide

section
variable {f : Fuses} {d : Dev} {port : Nat} (h : d.NumOpen port)
include h

/-- A write to a register of the page's windows: discarded where it is read-only, made where the entry is the function's, else logged. -/
theorem Dev.NumOpen.writeSeen {r : RegDef} (v : Nat) (e : WrEnv) (hwin : isWindow r.off = true) (hbank : r.banked = false) :
    Machine.writeSeen f d port pgNum r v e =
      if r.acc = .ro ∨ r.acc = .rc then (f, d)
      else if d.ownsSat port (d.bankN pgNum port 0x0030) then writeReg f d port pgNum (d.bankN pgNum port 0x0030) r v e
      else (f, d.logErr port pgNum r.off .notVisible v) := by
  have hsel : ¬ pageSelMax pgNum < d.sel pgNum port := Nat.not_lt.mpr h.sel
  have hselect : selectOffs pgNum = [] := rfl
  have hlayout : d.layoutWrite port pgNum r v e.collide = none := by
    simp only [isWindow, Bool.and_eq_true, decide_eq_true_eq] at hwin
    unfold Dev.layoutWrite
    rw [if_neg (by omega), if_neg (by omega), if_neg (by omega), if_neg (by simp [hselect])]
  have hport : portBad port pgNum r.off = false := rfl
  have hvalue : d.valueBad pgNum (d.bankN pgNum port 0x0030) r.off v = false := rfl
  have htile : ¬ pgNum = pgTile := by decide
  unfold Machine.writeSeen
  rw [hbank, d.instOf_of_isWindow port pgNum hwin]
  dsimp only
  rw [d.sees_num _ h.func hwin, hlayout, Dev.reached_num, h.crossing]
  cases d.ownsSat port (d.bankN pgNum port 0x0030) <;> simp [hsel, Dev.heldPort_num, hport, hvalue, htile]

/-- A write to a read-only register of the windows is discarded. -/
theorem Dev.NumOpen.busWrite_readOnly {off v : Nat} {r : RegDef} (e : WrEnv) (hdef : regDef pgNum off = some r) (hwin : isWindow off = true)
    (hbank : r.banked = false) (hro : r.acc = .ro) (hv : v < 2 ^ 32) : busWrite f d port pgNum off v e = (f, d) := by
  obtain ⟨rfl, -⟩ := regDef_off hdef
  rw [busWrite_of_isWindow h.arrives h.ready (by decide) rfl hdef hv, h.writeSeen _ _ hwin hbank, if_pos (.inl hro)]

/-- The owner's write to a writable register of the windows is made. -/
theorem Dev.NumOpen.busWrite_own {off v : Nat} {r : RegDef} (e : WrEnv) (hdef : regDef pgNum off = some r) (hwin : isWindow off = true)
    (hbank : r.banked = false) (hacc : r.acc ≠ .ro ∧ r.acc ≠ .rc) (hv : v < 2 ^ 32) (hown : d.ownsSat port (d.bankN pgNum port 0x0030) = true) :
    busWrite f d port pgNum off v e = writeReg f d port pgNum (d.bankN pgNum port 0x0030) r v e := by
  obtain ⟨rfl, -⟩ := regDef_off hdef
  rw [busWrite_of_isWindow h.arrives h.ready (by decide) rfl hdef hv, h.writeSeen _ _ hwin hbank, if_neg (by simp [hacc]), if_pos hown]

/-- A write to a writable register of another function's entry is logged, and that is all. -/
theorem Dev.NumOpen.busWrite_hidden {off v : Nat} {r : RegDef} (e : WrEnv) (hdef : regDef pgNum off = some r) (hwin : isWindow off = true)
    (hbank : r.banked = false) (hacc : r.acc ≠ .ro ∧ r.acc ≠ .rc) (hv : v < 2 ^ 32) (hown : d.ownsSat port (d.bankN pgNum port 0x0030) = false) :
    busWrite f d port pgNum off v e = (f, d.logErr port pgNum off .notVisible v) := by
  obtain ⟨rfl, -⟩ := regDef_off hdef
  rw [busWrite_of_isWindow h.arrives h.ready (by decide) rfl hdef hv, h.writeSeen _ _ hwin hbank, if_neg (by simp [hacc]), hown,
    if_neg Bool.false_ne_true]

/-- A read of a register of the page's windows by a function that the entry is not of answers zero and is logged. -/
theorem Dev.NumOpen.busRead_hidden {off : Nat} {r : RegDef} (hwin : isWindow off = true) (hdef : regDef pgNum off = some r) (hbank : r.banked = false)
    (hacc : r.acc ≠ .wo) (hown : d.ownsSat port (d.bankN pgNum port 0x0030) = false) :
    d.busRead f port pgNum off = (d.logErr port pgNum off .notVisible 0).emit (.readData port pgNum off 0) := by
  have hsel : ¬ pageSelMax pgNum < d.sel pgNum port := Nat.not_lt.mpr h.sel
  have hoff : off ≠ 0x0020 := by rintro rfl; simp [isWindow] at hwin
  have hcap : ¬ (pgNum = pgCap ∧ 0x0100 ≤ off) := fun hc => absurd hc.1 (by decide)
  have hword : d.readWord f port pgNum off = (0, d.logErr port pgNum off .notVisible 0) := by
    unfold Dev.readWord
    rw [if_neg (by simp [Dev.answers, h.ready, d.hoopvSilent_eq_false port (page := pgNum) (by decide)]), aliasOf_eq_none off (by decide)]
    dsimp only
    rw [if_neg hcap, hdef]
    dsimp only
    rw [hbank, d.instOf_of_isWindow port pgNum hwin]
    unfold Dev.readSeen
    rw [if_neg (by simp [hacc, hoff]), if_neg (by simp [hsel, Dev.heldPort_num]), d.sees_num _ h.func hwin, hown, if_neg Bool.false_ne_true]
  unfold Dev.busRead
  rw [if_neg (by simp [h.arrives]), hword]
  rfl

end

/-- A register of the device replaced changes that register only. -/
theorem sameRegsBut_setReg (d : Dev) {p i o : Nat} (v : Word) (hi : i < 0x100000) (ho : o < 0x10000) :
    SameRegsBut (fun p' i' o' => p' = p ∧ i' = i ∧ o' = o) d (d.setReg p i o v) :=
  fun _ _ _ hi' ho' hne => d.reg_setReg_ne _ (fun h => hne (rk_inj hi' hi ho' ho h))

/-- Plain registers of one word, not met by hardware: a field is kept under its mask, flags are cleared by ones (R6, R7). -/
theorem Dev.plainWrite_rw (d : Dev) (port page i v : Nat) {r : RegDef} (hpage : page ≠ pgHoop) (hacc : r.acc = .rw) (hwords : r.words = 1) :
    d.plainWrite port page i r v false = d.setRegN page i r.off (v &&& r.mask) := by
  simp [Dev.plainWrite, Dev.putWord, hpage, hacc, hwords]
theorem Dev.plainWrite_w1c (d : Dev) (port page i v : Nat) {r : RegDef} (hpage : page ≠ pgHoop) (hacc : r.acc = .w1c) (hwords : r.words = 1) :
    d.plainWrite port page i r v false = d.clrReg page i r.off (v &&& r.mask) := by
  simp [Dev.plainWrite, Dev.putWord, hpage, hacc, hwords]

/-- Settles O11: the owner's write of `SAT_CTL` keeps bit 0 and that of `SAT_FLAGS` clears the ones written, `SAT_OWNER` is read-only; another
function's access leaves its log entry and nothing else (R7, R64, R65). -/
theorem numWindowVisibility : Obligations.NumWindowVisibility := by
  intro s port v now e hup hfunc hv hx i hi hcol
  obtain ⟨hctl, howner, hcount, hflags⟩ := regDef_num
  have hport : port ≤ 0x41 := by simp [portIsFunc] at hfunc; omega
  have hp : port < 0x80000 := by omega
  have hi20 : i < 0x100000 := by omega
  let d := s.dev.at now
  have hopen : d.NumOpen port := ⟨hfunc, hup.arrives hport, hup.ready, Nat.le_of_lt_succ hi, hx⟩
  refine ⟨fun hass hsees => ?_, fun hnot => ?_⟩
  · have hown : d.ownsSat port i = true := Bool.and_eq_true_iff.mpr ⟨hass, hsees⟩
    refine ⟨does_registerWrite (d := d.setRegN pgNum i 0x0100 (v &&& 1)) ?_ ⟨?_, ?_, sameMem_regs .., sameObjects_regs ..⟩,
      does_registerWrite (d := d.clrReg pgNum i 0x011C (v &&& 0x1F)) ?_ ⟨?_, ?_, sameMem_regs .., sameObjects_regs ..⟩,
      does_registerWrite (hopen.busWrite_readOnly e howner rfl rfl rfl hv) rfl⟩
    · refine (hopen.busWrite_own e hctl rfl rfl (by simp) hv hown).trans (congrArg (Prod.mk s.fuses) ?_)
      rw [hcol]
      exact d.plainWrite_rw port pgNum i v (by decide) rfl rfl
    · rw [Dev.regN_setRegN_same, Nat.and_one_is_mod]
      omega
    · exact (sameRegsBut_at now).mp (sameRegsBut_setRegN d _ hi20 (by decide))
    · refine (hopen.busWrite_own e hflags rfl rfl (by simp) hv hown).trans (congrArg (Prod.mk s.fuses) ?_)
      rw [hcol]
      exact d.plainWrite_w1c port pgNum i v (by decide) rfl rfl
    · have hmask : v &&& 0x1F = v % 32 := Nat.and_two_pow_sub_one_eq_mod v 5
      rw [Dev.clrReg, Dev.reg_setReg_same, hmask, Dev.reg_at]
    · exact (sameRegsBut_at now).mp (sameRegsBut_setReg d _ hi20 (by decide))
  · have hown : d.ownsSat port i = false := by
      change ((s.dev.sat i).assigned && s.dev.seesCtx port (s.dev.sat i).ctx) = false
      rcases hnot with h | h <;> simp [h]
    have hlog : ∀ off data, Logged pgNum port (errEntry pgNum off .notVisible port data) s.dev (d.logErr port pgNum off .notVisible data) ∧
        SameRegsBut (fun p j o => p = pgNum ∧ j = bank port ∧ logOff o) s.dev (d.logErr port pgNum off .notVisible data) := fun off data =>
      have hx := errEntry_lt pgNum off port data .notVisible
      ⟨(logged_at now).mp (logged_logEntry d pgNum port hx.1 hx.2), (sameRegsBut_at now).mp (sameRegsBut_logEntry d pgNum _ hp)⟩
    obtain ⟨hwrite, hwriteFrame⟩ := hlog 0x0100 v
    obtain ⟨hread, hreadFrame⟩ := hlog 0x0108 0
    refine ⟨does_registerWrite (hopen.busWrite_hidden e hctl rfl rfl (by simp) hv hown)
      ⟨hwrite, hwriteFrame, sameMem_logEntry .., sameObjects_logEntry ..⟩, does_onDev (exec_rcRead ..) ?_⟩
    rw [hopen.busRead_hidden rfl hcount rfl (by simp) hown]
    exact ⟨rfl, hread.with_out _, hreadFrame.with_out _⟩

end Sys2Proof.Machine
end

section
/-! PROOFS. The statement about queues, events and signals (chapter 12): which number CREATE takes, and that taking a queue or an event down leaves
the operation register that asked for it alone. -/
namespace Sys2Proof.Machine

/-! ### The lowest free number -/

/-- The first number from `k` up, within `n`, that satisfies `p`. -/
theorem lowestFrom_eq_some {p : Nat → Bool} {k n m : Nat} (hk : k ≤ m) (hm : m < k + n) (hp : p m = true) (hlow : ∀ j, k ≤ j → j < m → p j = false) :
    lowestFrom p k n = some m := by
  induction n generalizing k with
  | zero => omega
  | succ n ih =>
    unfold lowestFrom
    rcases Nat.eq_or_lt_of_le hk with rfl | hlt
    · rw [if_pos hp]
    · rw [if_neg (by simp [hlow k (Nat.le_refl k) hlt]), ih (by omega) (by omega) (fun j hj => hlow j (by omega))]

/-- As many numbers from 0 up as read as something the unlisted value is not are listed, whatever the table's form. -/
theorem le_length_of_tabGet {α : Type} {dflt : Nat → α} {t : Table α} {p : α → Bool} {n : Nat} (hd : ∀ k, p (dflt k) = false)
    (h : ∀ m, m < n → p (tabGet dflt t m) = true) : n ≤ t.length := by
  have hsub : List.range n ⊆ tabKeys (fun _ => p) t := fun m hm => mem_tabKeys_of_tabGet (hd m) (h m (List.mem_range.mp hm))
  calc n = (List.range n).length := List.length_range.symm
    _ ≤ (tabKeys (fun _ => p) t).length := List.nodup_range.length_le_of_subset hsub
    _ ≤ t.length := by rw [tabKeys, List.length_map]; exact List.length_filter_le ..

/-! ### Operation registers that an operation leaves alone: registers and logs -/

/-- The operation registers of the host interface's pages, which stand at 0x1004, as a register file holds them: by page and bank (R261, R266, R274). -/
def opCodes (t : Table Word) : Nat → Nat → Word := fun page i => tabGet regDflt t (rk page i 0x1004)

/-- The operation register of a port's bank is one of them. -/
theorem Dev.bankN_op (d : Dev) (page port : Nat) : d.bankN page port 0x1004 = (opCodes d.regs page (bank port)).toNat := rfl

@[simp] theorem opCodes_setReg (d : Dev) (p i : Nat) {o : Nat} (v : Word) (h : o % 0x10000 ≠ 0x1004) : opCodes (d.setReg p i o v).regs = opCodes d.regs :=
  funext fun _ => funext fun _ => tabGet_tabPut_ne _ (by unfold rk; omega)
@[simp] theorem opCodes_setRegN (d : Dev) (p i : Nat) {o : Nat} (v : Nat) (h : o % 0x10000 ≠ 0x1004) : opCodes (d.setRegN p i o v).regs = opCodes d.regs :=
  opCodes_setReg d p i _ h
@[simp] theorem opCodes_orReg (d : Dev) (p i : Nat) {o : Nat} (m : Nat) (h : o % 0x10000 ≠ 0x1004) : opCodes (d.orReg p i o m).regs = opCodes d.regs :=
  opCodes_setReg d p i _ h
@[simp] theorem opCodes_bumpRc (d : Dev) (p i : Nat) {o : Nat} (n : Nat) (h : o % 0x10000 ≠ 0x1004) : opCodes (d.bumpRc p i o n).regs = opCodes d.regs :=
  opCodes_setReg d p i _ h

/-- Updates that leave the operation registers alone, one after another, leave them alone. -/
theorem opCodes_foldl {α : Type} {f : Dev → α → Dev} (h : ∀ d x, opCodes (f d x).regs = opCodes d.regs) (l : List α) (d : Dev) :
    opCodes (l.foldl f d).regs = opCodes d.regs := by
  induction l generalizing d with
  | nil => rfl
  | cons x r ih => exact (ih _).trans (h d x)

@[simp] theorem opCodes_logEntry (d : Dev) (page p : Nat) (x : Nat × Nat) : opCodes (d.logEntry page p x).regs = opCodes d.regs := by
  unfold Dev.logEntry Dev.setBankN
  dsimp only
  rw [opCodes_orReg _ _ _ _ (by decide), opCodes_setRegN _ _ _ _ (by decide), opCodes_setRegN _ _ _ _ (by omega), opCodes_setRegN _ _ _ _ (by omega)]

@[simp] theorem opCodes_bump64 (d : Dev) (p i : Nat) {o fo : Nat} (n ovf : Nat) (h : o % 0x10000 ≠ 0x1004) (h4 : (o + 4) % 0x10000 ≠ 0x1004)
    (hf : fo % 0x10000 ≠ 0x1004) : opCodes (d.bump64 p i o n fo ovf).regs = opCodes d.regs := by
  simp [Dev.bump64, Dev.setReg64, apply_ite Dev.regs, apply_ite opCodes, h, h4, hf]

@[simp] theorem opCodes_rasLog (d : Dev) (e : LogEntry) : opCodes (d.rasLog e).regs = opCodes d.regs := by
  unfold Dev.rasLog
  dsimp only
  split
  · exact opCodes_setRegN _ _ _ _ (by decide)
  · rfl

@[simp] theorem opCodes_halt (d : Dev) (c w a k n : Nat) : opCodes (d.halt c w a k n).regs = opCodes d.regs := by
  unfold Dev.halt
  split
  · rfl
  · exact opCodes_rasLog ..

@[simp] theorem opCodes_noteReach (d : Dev) (r : Reach) : opCodes (d.noteReach r).regs = opCodes d.regs := by
  cases r with
  | malformed _ => exact opCodes_foldl (fun _ _ => opCodes_logEntry ..) _ _
  | _ => rfl

/-! ### Operation registers: the cellar -/

@[simp] theorem opCodes_keyAtLimit (d : Dev) (k : Nat) : opCodes (d.keyAtLimit k).regs = opCodes d.regs := by
  unfold Dev.keyAtLimit Dev.keyFlag; simp [apply_ite Dev.regs, apply_ite opCodes]

@[simp] theorem opCodes_keyUse (d : Dev) (k n : Nat) : opCodes (d.keyUse k n).regs = opCodes d.regs := by
  simp [Dev.keyUse]

@[simp] theorem opCodes_sweepGroup (d : Dev) (g k : Nat) : opCodes (d.sweepGroup g k).regs = opCodes d.regs := by
  simp [Dev.sweepGroup, apply_ite Dev.regs, apply_ite opCodes]

@[simp] theorem opCodes_granWrite (d : Dev) (k pa : Nat) (bs : List Byte) : opCodes (d.granWrite k pa bs).1.regs = opCodes d.regs := by
  unfold Dev.granWrite
  simp [apply_ite Prod.fst, apply_ite Dev.regs, apply_ite opCodes, Dev.mencBump]

@[simp] theorem opCodes_physWrite (d : Dev) (k pa : Nat) (bs : List Byte) : opCodes (d.physWrite k pa bs).1.regs = opCodes d.regs := by
  have hfold : ∀ (l : List (Nat × List Byte)) (r : Dev × Status),
      opCodes (l.foldl (fun r p => if r.2 = .ok then r.1.granWrite k p.1 p.2 else r) r).1.regs = opCodes r.1.regs := by
    intro l
    induction l with
    | nil => intro r; rfl
    | cons p l ih => intro r; rw [List.foldl_cons, ih]; split <;> simp
  exact hfold ..

@[simp] theorem opCodes_putParts (d : Dev) (ps : List (Nat × Nat × Nat)) (bs : List Byte) : opCodes (d.putParts ps bs).1.regs = opCodes d.regs := by
  induction ps generalizing d bs with
  | nil => rfl
  | cons p r ih =>
    have hfirst := opCodes_physWrite d p.2.2 p.1 (bs.take p.2.1)
    unfold Dev.putParts
    split
    next hw => rw [hw] at hfirst; exact (ih ..).trans hfirst
    next => exact hfirst

@[simp] theorem opCodes_writeVa (d : Dev) (c va : Nat) (bs : List Byte) : opCodes (d.writeVa c va bs).1.regs = opCodes d.regs := by
  unfold Dev.writeVa
  split
  next ps _ =>
    have hput := opCodes_putParts d ps bs
    split <;> next hw => rw [hw] at hput; exact hput
  next => exact opCodes_noteReach ..

/-- A ring's write that succeeds. -/
theorem opCodes_ringWrite {d e : Dev} {host : Bool} {c a : Nat} {bs : List Byte} (h : d.ringWrite host c a bs = some e) : opCodes e.regs = opCodes d.regs := by
  have hva := opCodes_writeVa d c a bs
  unfold Dev.ringWrite at h
  split at h
  · split at h
    · cases h; rfl
    · cases h
  · split at h
    next hw => cases h; rw [hw] at hva; exact hva
    next => cases h

/-! ### Operation registers: completions and engines that stop -/

@[simp] theorem opCodes_updCmd (d : Dev) (t : Nat) (f : Cmd → Cmd) : opCodes (d.updCmd t f).regs = opCodes d.regs := by
  simp [Dev.updCmd, apply_ite Dev.regs]

@[simp] theorem opCodes_releaseHolds (d : Dev) (t : Nat) : opCodes (d.releaseHolds t).regs = opCodes d.regs :=
  (opCodes_foldl (fun _ _ => by rfl) _ _).trans (opCodes_foldl (fun _ _ => by rfl) _ _)

@[simp] theorem opCodes_signalEvt (d : Dev) (e v : Nat) : opCodes (d.signalEvt e v).regs = opCodes d.regs := by
  simp [Dev.signalEvt, apply_ite Dev.regs, apply_ite opCodes]

@[simp] theorem opCodes_refillHoop (d : Dev) (h : Nat) : opCodes (d.refillHoop h).regs = opCodes d.regs := by
  simp [Dev.refillHoop, apply_ite Dev.regs]

@[simp] theorem opCodes_withdraw (d : Dev) (t c : Nat) : opCodes (d.withdraw t c).regs = opCodes d.regs := by
  simp [Dev.withdraw, apply_ite Dev.regs, apply_ite opCodes]

@[simp] theorem opCodes_missDeadline (d : Dev) (t : Nat) : opCodes (d.missDeadline t).regs = opCodes d.regs := by
  simp [Dev.missDeadline, apply_ite Dev.regs, apply_ite opCodes]

@[simp] theorem opCodes_writeCpl (d : Dev) (q st k s g t : Nat) : opCodes (d.writeCpl q st k s g t).regs = opCodes d.regs := by
  unfold Dev.writeCpl
  dsimp only
  split
  next hw => simpa using opCodes_ringWrite hw
  next => simp

@[simp] theorem opCodes_complete (d : Dev) (t st : Nat) (silent : Bool) : opCodes (d.complete t st silent).regs = opCodes d.regs := by
  simp [Dev.complete, Dev.queueIrq, apply_ite Dev.regs, apply_ite opCodes]

@[simp] theorem opCodes_completeAll (d : Dev) (p : Cmd → Bool) (st : Status) (silent : Bool) : opCodes (d.completeAll p st silent).regs = opCodes d.regs :=
  opCodes_foldl (fun _ _ => opCodes_complete ..) _ _

@[simp] theorem opCodes_captureOver (d : Dev) (t st : Nat) : opCodes (d.captureOver t st).regs = opCodes d.regs := by
  simp [Dev.captureOver, Dev.setTrig, apply_ite Dev.regs, apply_ite opCodes]

@[simp] theorem opCodes_abortHolds (d : Dev) (f : Fence) : opCodes (d.abortHolds f).regs = opCodes d.regs :=
  opCodes_foldl (fun _ _ => by simp [Dev.finish, Dev.setCap]) _ _

@[simp] theorem opCodes_stopStep (d : Dev) (t : Nat) : opCodes (d.stopStep t).regs = opCodes d.regs := by
  simp [Dev.stopStep, apply_ite Dev.regs, apply_ite opCodes]

@[simp] theorem opCodes_restoreStop (d : Dev) (t : Nat) : opCodes (d.restoreStop t).regs = opCodes d.regs := by
  simp [Dev.restoreStop, apply_ite Dev.regs, apply_ite opCodes]

@[simp] theorem opCodes_stopDma (d : Dev) (p : Cmd → Bool) : opCodes (d.stopDma p).regs = opCodes d.regs := opCodes_foldl (fun _ _ => by rfl) _ _

@[simp] theorem opCodes_stopRunning (d : Dev) (p : Cmd → Bool) : opCodes (d.stopRunning p).regs = opCodes d.regs := opCodes_foldl (fun _ _ => by rfl) _ _

@[simp] theorem opCodes_stopDarners (d : Dev) (p : Cmd → Bool) : opCodes (d.stopDarners p).regs = opCodes d.regs := opCodes_foldl opCodes_stopStep _ _

@[simp] theorem opCodes_stopStorage (d : Dev) (p : Cmd → Bool) : opCodes (d.stopStorage p).regs = opCodes d.regs :=
  opCodes_foldl (fun _ _ => by simp [Dev.closeIos, Dev.setCap, apply_ite Dev.regs, apply_ite opCodes]) _ _

/-! ### Operation registers: queues and events taken down (R281) -/

@[simp] theorem opCodes_destroyEvent (d : Dev) (e : Nat) : opCodes (d.destroyEvent e).regs = opCodes d.regs := by
  simp [Dev.destroyEvent]

@[simp] theorem opCodes_destroyQueue (d : Dev) (q : Nat) : opCodes (d.destroyQueue q).regs = opCodes d.regs := by
  simp [Dev.destroyQueue]

/-! ### Operations that succeed (R261, R266, R274) -/

/-- Where a port's operation register is not busy and the operation it starts answers `OK`, the register keeps the code and the status reads `OK`. -/
theorem Dev.runOp_ok {d e : Dev} {port page opOff stsOff code : Nat} {f : Dev → Status × Dev} (hbusy : bit (d.bankN page port stsOff) 16 = false)
    (hf : f (d.setBankN page port opOff code) = (.ok, e)) : d.runOp port page opOff stsOff code true f = e.setBankN page port stsOff 0 := by
  rcases d.runOp_cases port page opOff stsOff code true f with ⟨hok, -⟩ | ⟨-, hb, -⟩ | ⟨-, -, -, h⟩ | ⟨-, -, hs, -⟩
  · cases hok
  · rw [hbusy] at hb; cases hb
  · rw [h, hf]; rfl
  · rw [hf] at hs; cases hs

/-- The status register of an operation at 0x1004 that ended with `OK`. -/
theorem opDone_setBankN {e : Dev} {page port stsOff code : Nat} (hsts : stsOff ≠ 0x1004) (h : e.bankN page port 0x1004 = code) :
    OpDone page port 0x1004 stsOff code .ok (e.setBankN page port stsOff 0) := by
  refine ⟨?_, Dev.regN_setRegN_same ..⟩
  rw [← h]
  exact Dev.regN_setRegN_off_ne _ _ _ _ hsts.symm

/-- A banked register read after another of the same page and bank is written. -/
theorem Dev.bankN_setBankN_ne (d : Dev) (page port v : Nat) {o o' : Nat} (h : o' ≠ o) : (d.setBankN page port o v).bankN page port o' = d.bankN page port o' :=
  Dev.regN_setRegN_off_ne _ _ _ _ h

/-- The arguments of an operation stand apart from its operation register. -/
theorem Dev.opArg_setBankN_op (d : Dev) (page port code n : Nat) : (d.setBankN page port 0x1004 code).opArg page port n = d.opArg page port n :=
  d.bankN_setBankN_ne page port code (by omega)

/-- The queue that a port's arguments describe (R266). -/
def Dev.queueAsked (d : Dev) (port : Nat) : Queue :=
  let a := d.opArg pgQue port 0
  { valid := true, ctx := fld a 11 0, hoop := (d.ctx (fld a 11 0)).hoop, log2 := fld a 16 12, push := bit a 17, ringHost := bit a 18,
    cplHost := bit a 19, vec := fld a 30 20, ring := d.opArg pgQue port 1 + 2 ^ 32 * d.opArg pgQue port 2,
    cpl := d.opArg pgQue port 3 + 2 ^ 32 * d.opArg pgQue port 4 }

/-- A CREATE whose arguments are right takes the queue found free. -/
theorem Dev.queCreate_ok {d : Dev} {port n : Nat} (hctx : d.ctxNamed port (d.queueAsked port).ctx = none) (hlock : d.locked port = false)
    (hargs : d.queArgsBad port = false) (hfree : d.freeQueue (d.queueAsked port).hoop = some n) :
    d.queCreate port = (.ok, (d.setQueue n (d.queueAsked port)).setBankN pgQue port 0x1024 n) := by
  unfold Dev.queueAsked at hctx hfree
  dsimp only at hctx hfree
  unfold Dev.queCreate Dev.queueAsked
  simp [hctx, hlock, hargs, hfree]

/-- The lowest free number of a hoop's queue range is the one that the hoop's CREATE takes. -/
theorem Dev.freeQueue_eq_some {d : Dev} {h n : Nat} (hlo : (d.hoop h).inForce.qbase ≤ n)
    (hhi : n < (d.hoop h).inForce.qbase + (d.hoop h).inForce.qcount) (hmax : n < 65536) (hfree : (d.queue n).valid = false)
    (hlow : ∀ m, (d.hoop h).inForce.qbase ≤ m → m < n → (d.queue m).valid = true) : d.freeQueue h = some n :=
  lowestFrom_eq_some hlo (by omega) (by simp [hfree]) (fun m hm hmn => by simp [hlow m hm hmn])

/-- The lowest free event is the one that CREATE takes: the search, one number longer than the table, reaches it. -/
theorem Dev.freeEvent_eq_some {d : Dev} {n : Nat} (h : IsLowest n 65536 (fun m => (d.evt m).valid = false)) :
    lowestFrom (fun e => !(d.evt e).valid) 0 (min 65536 (d.events.length + 1)) = some n := by
  obtain ⟨hmax, hfree, hlow⟩ := h
  have hlen : n ≤ d.events.length := le_length_of_tabGet (dflt := eventDflt) (p := Event.valid) (fun _ => rfl) (fun m hm => (Bool.not_eq_false _).mp (hlow m hm))
  exact lowestFrom_eq_some (Nat.zero_le n) (by omega) (by simp [hfree]) (fun m _ hm => by simpa using hlow m hm)

/-- The code of an event's CREATE holds the operation, whether the event is shared, and the context (R274). -/
theorem evtCreate_code {x : Nat} (sh : Bool) (hx : x < 4096) : let code := 1 + b2n sh * 4 + x * 65536
    code < 2 ^ 32 ∧ code % 4 = 1 ∧ fld code 27 16 = x ∧ bit code 2 = sh := by
  cases sh <;> simp only [b2n, fld, bit, Nat.shiftRight_eq_div_pow, beq_eq_false_iff_ne, beq_iff_eq, if_true, Bool.false_eq_true, if_false] <;> omega

/-- A DESTROY that names a queue of the function and nothing else takes it down. -/
theorem Dev.queDestroy_ok {d : Dev} {port : Nat} (hmax : d.opArg pgQue port 5 < 65536) (hvalid : (d.queue (d.opArg pgQue port 5)).valid = true)
    (hown : (d.ctx (d.queue (d.opArg pgQue port 5)).ctx).func = port) (hlock : d.locked port = false) (hzero : ∀ n, n < 5 → d.opArg pgQue port n = 0) :
    d.queDestroy port = (.ok, d.destroyQueue (d.opArg pgQue port 5)) := by
  have hargs : (List.range 5).any (fun n => d.opArg pgQue port n != 0) = false := by
    rw [List.any_eq_false]
    intro n hn
    simp [hzero n (List.mem_range.mp hn)]
  have hfits : ¬ 65535 < d.opArg pgQue port 5 := by omega
  unfold Dev.queDestroy
  simp only [hargs, hvalid, hown, hlock, hfits, decide_false, Bool.not_true, Bool.or_false, bne_self_eq_false, Bool.and_false, Bool.false_eq_true,
    if_false, List.append_nil, opOr_nil]

/-- Registers are no part of a queue or an event. -/
theorem Dev.queue_setBankN (d : Dev) (page port o v k : Nat) : (d.setBankN page port o v).queue k = d.queue k := rfl
theorem Dev.evt_setBankN (d : Dev) (page port o v k : Nat) : (d.setBankN page port o v).evt k = d.evt k := rfl

/-- A queue taken down is free, and so is an event. -/
theorem Dev.queue_destroyQueue_same (d : Dev) (q : Nat) : (d.destroyQueue q).queue q = {} := by
  have hregs : ∀ (l : List Nat) (e : Dev), (l.foldl (fun d o => d.setRegN pgQue q o 0) e).queue q = e.queue q := fun l => by
    induction l with
    | nil => exact fun _ => rfl
    | cons o l ih => exact fun e => ih _
  exact (hregs _ _).trans (Dev.queue_set_same ..)
theorem Dev.evt_destroyEvent_same (d : Dev) (e : Nat) : (d.destroyEvent e).evt e = {} := Dev.evt_set_same ..

/-- A CREATE of an event in an active context of the function takes the event found free. -/
theorem Dev.evtCreate_ok {d : Dev} {port code n : Nat} (hctx : d.ctxNamed port (fld code 27 16) = none)
    (hfree : lowestFrom (fun e => !(d.evt e).valid) 0 (min 65536 (d.events.length + 1)) = some n) :
    d.evtCreate port code = (.ok, (d.setEvt n ⟨true, bit code 2, fld code 27 16, (d.ctx (fld code 27 16)).hoop,
      d.bankN pgEvt port 0x1008 + 2 ^ 32 * d.bankN pgEvt port 0x100C⟩).setBankN pgEvt port 0x1014 n) := by
  unfold Dev.evtCreate
  simp only [hctx, hfree]

/-- A DESTROY of an event of the function takes it down. -/
theorem Dev.evtDestroy_ok {d : Dev} {port : Nat} (hvalid : (d.evt (d.bankN pgEvt port 0x1018 % 65536)).valid = true)
    (hown : (d.ctx (d.evt (d.bankN pgEvt port 0x1018 % 65536)).ctx).func = port) :
    d.evtDestroy port = (.ok, d.destroyEvent (d.bankN pgEvt port 0x1018 % 65536)) := by
  unfold Dev.evtDestroy
  simp [hvalid, hown]

/-! ### Signals (R275, R485) -/

/-- A signal touches the flags of the event page and the events. -/
theorem Dev.signalEvt_frame (d : Dev) (e v : Nat) : d.signalEvt e v = { d with regs := (d.signalEvt e v).regs, events := (d.signalEvt e v).events } := by
  unfold Dev.signalEvt
  dsimp only
  split
  · rfl
  · split <;> rfl

/-- A valid event that is signalled holds the greater of its value and the signal. -/
theorem Dev.evt_signalEvt_same {d : Dev} {e : Nat} (v : Nat) (h : (d.evt e).valid = true) :
    (d.signalEvt e v).evt e = { d.evt e with value := max v (d.evt e).value } := by
  unfold Dev.signalEvt
  dsimp only
  rw [if_neg (by simp [h])]
  split
  next hlt =>
    rw [Nat.max_eq_right (Nat.le_of_lt hlt)]
    rfl
  next hge => rw [Dev.evt_set_same, Nat.max_eq_left (Nat.not_lt.mp hge)]

/-- Another event is as before. -/
theorem Dev.evt_signalEvt_ne (d : Dev) {e m : Nat} (v : Nat) (h : m ≠ e) : (d.signalEvt e v).evt m = d.evt m := by
  unfold Dev.signalEvt
  dsimp only
  split
  · rfl
  · split
    · rfl
    · exact d.evt_set_ne _ h

/-- A signal below a valid event's value sets `BACKWARD`. -/
theorem Dev.backward_signalEvt {d : Dev} {e v : Nat} (h : (d.evt e).valid = true) (hlt : v < (d.evt e).value) :
    bit ((d.signalEvt e v).regN pgEvt e 0x0114) 0 = true := by
  unfold Dev.signalEvt
  dsimp only
  rw [if_neg (by simp [h]), if_pos hlt, Dev.regN_orReg_same, bit_eq_testBit, Nat.testBit_mod_two_pow, Nat.testBit_or]
  simp

/-- A write of `EVT_SIG_HI` from a port that sees the event spends the word staged for the low half, and signals the value of the two. -/
theorem Dev.signalFrom_seen {d : Dev} {port hi : Nat} (hsees : d.seesEvt port (d.sel pgEvt port) = true) (hhi : hi < 2 ^ 32) :
    d.signalFrom port hi =
      ((d.unstage port pgEvt (d.sel pgEvt port) 0x010C).setRegN pgEvt (d.sel pgEvt port) 0x010C (d.stagedOr port pgEvt (d.sel pgEvt port) 0x010C)).signalEvt
        (d.sel pgEvt port) (d.stagedOr port pgEvt (d.sel pgEvt port) 0x010C + 2 ^ 32 * hi) := by
  unfold Dev.signalFrom
  dsimp only
  rw [if_neg (by simp [hsees]), Nat.mod_eq_of_lt hhi]

/-! ### The commands as operations of their pages -/

theorem exec_queCreate (port now : Nat) (s : State) : exec (.queCreate port now) s =
    onDev s (fun d => (d.at now).whenLive (fun d => d.runOp port pgQue 0x1004 0x1020 1 (opPort port) (fun d => d.queCreate port))) := rfl
theorem exec_queDestroy (port now : Nat) (s : State) : exec (.queDestroy port now) s =
    onDev s (fun d => (d.at now).whenLive (fun d => d.runOp port pgQue 0x1004 0x1020 2 (opPort port) (fun d => d.queDestroy port))) := rfl
theorem exec_evtDestroy (port now : Nat) (s : State) : exec (.evtDestroy port now) s =
    onDev s (fun d => (d.at now).whenLive (fun d => d.runOp port pgEvt 0x1004 0x1010 2 (opPort port) (fun d => d.evtDestroy port))) := rfl
theorem exec_evtCreate (port : Nat) (sh : Bool) {x : Nat} (now : Nat) (s : State) (hx : x < 4096) : exec (.evtCreate port sh x now) s =
    onDev s (fun d => (d.at now).whenLive (fun d => d.runOp port pgEvt 0x1004 0x1010 (1 + b2n sh * 4 + x * 65536) (opPort port)
      (fun d => d.evtCreate port (1 + b2n sh * 4 + x * 65536)))) := by
  obtain ⟨-, hop, -⟩ := evtCreate_code sh hx
  change onDev s (fun d => (d.at now).whenLive (fun d => d.evtOp port (1 + b2n sh * 4 + x % 4096 * 65536))) = _
  rw [Nat.mod_eq_of_lt hx]
  unfold Dev.evtOp
  rw [hop]
  rfl

/-! ### The clauses of O26 -/

section
variable {s : State} {port : Nat} (now : Nat) (hlive : s.dev.live = true)
include hlive

/-- A signal of a valid event that the port sees: the value becomes the greater, one that is lower sets `BACKWARD`, and no other object is touched. -/
theorem does_evtSigHi {hi : Nat} (hhi : hi < 2 ^ 32) (hsees : s.dev.seesEvt port (s.dev.sel pgEvt port) = true)
    (hvalid : (s.dev.evt (s.dev.sel pgEvt port)).valid = true) :
    let d := s.dev
    let se := d.sel pgEvt port
    let v := d.stagedOr port pgEvt se 0x010C + 2 ^ 32 * hi
    Does (.evtSigHi port hi now) s (fun e => e.evt se = { d.evt se with value := max v (d.evt se).value } ∧
      (v < (d.evt se).value → bit (e.regN pgEvt se 0x0114) 0 = true) ∧ (∀ m, m ≠ se → e.evt m = d.evt m) ∧ e.ctxs = d.ctxs ∧
      e.queues = d.queues ∧ SameMem d e) := by
  intro d se v
  refine (does_whenLive_iff (now := now) rfl hlive).mpr ?_
  rw [Dev.signalFrom_seen (d := s.dev.at now) hsees hhi]
  refine ⟨Dev.evt_signalEvt_same v hvalid, fun hlt => Dev.backward_signalEvt hvalid hlt, fun m hm => Dev.evt_signalEvt_ne _ v hm, ?_⟩
  rw [Dev.signalEvt_frame]
  exact ⟨rfl, rfl, rfl, rfl, rfl, rfl⟩

/-- An operation of a function's port on a page whose operation register stands at 0x1004: where the core runs and no operation is busy, and the
operation answers `OK` leaving the operation register alone, the command leaves what the operation leaves, its code and its status. -/
theorem does_hostOp {i : Instr} {page stsOff code : Nat} {f : Dev → Status × Dev} {e : Dev} {P : Dev → Prop}
    (hexec : exec i s = onDev s (fun d => (d.at now).whenLive (fun d => d.runOp port page 0x1004 stsOff code (opPort port) f)))
    (hfunc : portIsFunc port = true) (hbusy : bit (s.dev.bankN page port stsOff) 16 = false) (hsts : stsOff ≠ 0x1004) (hcode : code < 2 ^ 32)
    (hf : f ((s.dev.at now).setBankN page port 0x1004 code) = (.ok, e))
    (hregs : opCodes e.regs = opCodes ((s.dev.at now).setBankN page port 0x1004 code).regs)
    (hP : OpDone page port 0x1004 stsOff code .ok (e.setBankN page port stsOff 0) → P (e.setBankN page port stsOff 0)) : Does i s P := by
  refine (does_whenLive_iff (now := now) hexec hlive).mpr ?_
  have hacc : opPort port = true := hfunc
  rw [hacc, Dev.runOp_ok (d := s.dev.at now) hbusy hf]
  refine hP (opDone_setBankN hsts ?_)
  rw [Dev.bankN_op, hregs, ← Dev.bankN_op]
  exact Dev.regN_setRegN_of_lt _ _ _ _ hcode

variable (hfunc : portIsFunc port = true)
include hfunc

/-- Queue CREATE by right arguments in an active context of the function: the lowest free number of the hoop's range. -/
theorem does_queCreate {n : Nat} (hbusy : bit (s.dev.bankN pgQue port 0x1020) 16 = false)
    (hctx : s.dev.ctxNamed port (s.dev.queueAsked port).ctx = none) (hlock : s.dev.locked port = false) (hargs : s.dev.queArgsBad port = false)
    (hmax : n < 65536) (hfree : s.dev.freeQueue (s.dev.queueAsked port).hoop = some n) :
    Does (.queCreate port now) s (fun e => OpDone pgQue port 0x1004 0x1020 1 .ok e ∧ e.bankN pgQue port 0x1024 = n ∧
      e.queue n = s.dev.queueAsked port ∧ (∀ m, m ≠ n → e.queue m = s.dev.queue m) ∧ SameMem s.dev e) := by
  let d := (s.dev.at now).setBankN pgQue port 0x1004 1
  have harg : ∀ k, d.opArg pgQue port k = s.dev.opArg pgQue port k := fun k => Dev.opArg_setBankN_op ..
  have hasked : d.queueAsked port = s.dev.queueAsked port := by
    unfold Dev.queueAsked
    simp only [harg]
    rfl
  have hargs' : d.queArgsBad port = false := by
    unfold Dev.queArgsBad at hargs ⊢
    simpa only [harg] using hargs
  have hop : d.queCreate port = (.ok, (d.setQueue n (d.queueAsked port)).setBankN pgQue port 0x1024 n) :=
    Dev.queCreate_ok (hasked ▸ hctx) hlock hargs' (hasked ▸ hfree)
  refine does_hostOp now hlive (exec_queCreate ..) hfunc hbusy (by decide) (by decide) hop (opCodes_setRegN _ _ _ _ (by decide))
    (fun hdone => ⟨hdone, ?_, ?_, ?_, ⟨rfl, rfl, rfl, rfl⟩⟩)
  · rw [Dev.bankN_setBankN_ne _ _ _ _ (by decide)]
    exact Dev.regN_setRegN_of_lt _ _ _ _ (by omega)
  · rw [← hasked]
    exact Dev.queue_set_same d n _
  · exact fun m hm => Dev.queue_set_ne d _ hm

/-- Queue DESTROY by the function of the queue's context, its other arguments zero: the queue is free. -/
theorem does_queDestroy (hbusy : bit (s.dev.bankN pgQue port 0x1020) 16 = false) (hlock : s.dev.locked port = false)
    (hmax : s.dev.opArg pgQue port 5 < 65536) (hvalid : (s.dev.queue (s.dev.opArg pgQue port 5)).valid = true)
    (hown : (s.dev.ctx (s.dev.queue (s.dev.opArg pgQue port 5)).ctx).func = port) (hzero : ∀ n, n < 5 → s.dev.opArg pgQue port n = 0) :
    Does (.queDestroy port now) s (fun e => OpDone pgQue port 0x1004 0x1020 2 .ok e ∧ (e.queue (s.dev.opArg pgQue port 5)).valid = false) := by
  let d := (s.dev.at now).setBankN pgQue port 0x1004 2
  have harg : ∀ k, d.opArg pgQue port k = s.dev.opArg pgQue port k := fun k => Dev.opArg_setBankN_op ..
  rw [← harg] at hmax hvalid hown ⊢
  have hop := Dev.queDestroy_ok (d := d) hmax hvalid hown hlock (fun n hn => (harg n).trans (hzero n hn))
  refine does_hostOp now hlive (exec_queDestroy ..) hfunc hbusy (by decide) (by decide) hop (opCodes_destroyQueue ..) (fun hdone => ⟨hdone, ?_⟩)
  rw [Dev.queue_setBankN, Dev.queue_destroyQueue_same]

/-- Event CREATE in an active context of the function: the lowest free event, with the fields that code and value registers give. -/
theorem does_evtCreate {x n : Nat} (sh : Bool) (hbusy : bit (s.dev.bankN pgEvt port 0x1010) 16 = false) (hx : x < 4096)
    (hctx : s.dev.ctxNamed port x = none) (hlow : IsLowest n 65536 (fun m => (s.dev.evt m).valid = false)) :
    Does (.evtCreate port sh x now) s (fun e => OpDone pgEvt port 0x1004 0x1010 (1 + b2n sh * 4 + x * 65536) .ok e ∧ e.bankN pgEvt port 0x1014 = n ∧
      e.evt n = ⟨true, sh, x, (s.dev.ctx x).hoop, s.dev.bankN pgEvt port 0x1008 + 2 ^ 32 * s.dev.bankN pgEvt port 0x100C⟩ ∧
      (∀ m, m ≠ n → e.evt m = s.dev.evt m) ∧ SameMem s.dev e) := by
  obtain ⟨hfits, -, hfld, hbit⟩ := evtCreate_code sh hx
  have hmax : n < 65536 := hlow.1
  have hexec := exec_evtCreate port sh now s hx
  revert hexec hfits hfld hbit
  generalize 1 + b2n sh * 4 + x * 65536 = code
  rintro hfits rfl rfl hexec
  let d := (s.dev.at now).setBankN pgEvt port 0x1004 code
  have hval : d.bankN pgEvt port 0x1008 + 2 ^ 32 * d.bankN pgEvt port 0x100C =
      s.dev.bankN pgEvt port 0x1008 + 2 ^ 32 * s.dev.bankN pgEvt port 0x100C := by
    rw [Dev.bankN_setBankN_ne _ _ _ _ (by decide), Dev.bankN_setBankN_ne _ _ _ _ (by decide)]
    rfl
  have hop := Dev.evtCreate_ok (d := d) hctx (Dev.freeEvent_eq_some hlow)
  rw [hval] at hop
  refine does_hostOp now hlive hexec hfunc hbusy (by decide) hfits hop (opCodes_setRegN _ _ _ _ (by decide))
    (fun hdone => ⟨hdone, ?_, Dev.evt_set_same d n _, fun m hm => Dev.evt_set_ne d _ hm, ⟨rfl, rfl, rfl, rfl⟩⟩)
  rw [Dev.bankN_setBankN_ne _ _ _ _ (by decide)]
  exact Dev.regN_setRegN_of_lt _ _ _ _ (by omega)

/-- Event DESTROY by the function of the event's context: the event is free. -/
theorem does_evtDestroy (hbusy : bit (s.dev.bankN pgEvt port 0x1010) 16 = false)
    (hvalid : (s.dev.evt (s.dev.bankN pgEvt port 0x1018 % 65536)).valid = true)
    (hown : (s.dev.ctx (s.dev.evt (s.dev.bankN pgEvt port 0x1018 % 65536)).ctx).func = port) :
    Does (.evtDestroy port now) s (fun e => OpDone pgEvt port 0x1004 0x1010 2 .ok e ∧ (e.evt (s.dev.bankN pgEvt port 0x1018 % 65536)).valid = false) := by
  let d := (s.dev.at now).setBankN pgEvt port 0x1004 2
  have harg : d.bankN pgEvt port 0x1018 = s.dev.bankN pgEvt port 0x1018 := Dev.bankN_setBankN_ne _ _ _ _ (by decide)
  rw [← harg] at hvalid hown ⊢
  have hop := Dev.evtDestroy_ok (d := d) hvalid hown
  refine does_hostOp now hlive (exec_evtDestroy ..) hfunc hbusy (by decide) (by decide) hop (opCodes_destroyEvent ..) (fun hdone => ⟨hdone, ?_⟩)
  rw [Dev.evt_setBankN, Dev.evt_destroyEvent_same]

end

/-- Settles O26: CREATE takes the lowest free number, the operation registers keep their codes through what a DESTROY takes down, and a signal leaves
the greater of the two values (R266, R274, R275, R281). -/
theorem queuesAndEvents : Obligations.QueuesAndEvents := by
  intro s port now hlive hfunc hbusyQ hbusyE d a c hp dq de se made
  refine ⟨fun n hctx hlock hargs hlo hhi hmax hfree hlow => ?_, fun hmax hvalid hown hlock hzero => ?_, fun x sh hx hctx n hlow => ?_,
    fun hvalid hown => ?_, fun hi hhi hsees hvalid => ?_⟩
  · exact does_queCreate now hlive hfunc hbusyQ hctx hlock hargs hmax (Dev.freeQueue_eq_some hlo hhi hmax hfree hlow)
  · exact does_queDestroy now hlive hfunc hbusyQ hlock hmax hvalid hown hzero
  · exact does_evtCreate now hlive hfunc sh hbusyE hx hctx hlow
  · exact does_evtDestroy now hlive hfunc hbusyE hvalid hown
  · exact does_evtSigHi now hlive hhi hsees hvalid

end Sys2Proof.Machine
end

section
/-! PROOFS. The statement about the quantizing load (chapters 3 and 5): what a lane instruction leaves when it issues, and that a load's counts at the
cellar's units change nothing that it goes on to read. -/
namespace Sys2Proof.Machine

/-! ### A lane instruction issued (R112, R116) -/

/-- A slot whose instruction at the PC, word `w`, has issued on its lane with `f` in flight. -/
def Slot.launched (sl : Slot) (w : Nat) (f : Flight) : Slot :=
  { sl.advance with
    flight := sl.flight ++ [{ f with lane := iLane w, word := w, pc := sl.pc, tset := iTset w }]
    tokens := match iTset w with
      | some j => sl.tokens &&& (0xFF ^^^ 2 ^ j)
      | none => sl.tokens }

/-- A tile with that slot, whose lanes serve the slot from now on (R289). -/
def Tile.launched (x : Tile) (k w : Nat) (f : Flight) : Tile :=
  { x.setSlot k ((x.slot k).launched w f) with
    exclCur := (lanesOf (iLane w)).foldl (fun c l => tabPut natDflt c l (k + 1)) x.exclCur
    exclDue := x.exclDue.filter (fun l => !(lanesOf (iLane w)).contains l) }

/-- An instruction that issues, finds no fault and meets no bad pantry read leaves its effect, and itself in flight. -/
theorem Dev.issueLane_ok {d e : Dev} {t k op : Nat} {body : Dev → Nat → Slot → Issued} {f : Flight} (h : Issues d t k op)
    (hbody : body d (d.word t k) (d.slot t k) = .ok e f) :
    d.issueLane t k op false body = e.setTile t ((e.tile t).launched k (d.word t k) f) := by
  obtain ⟨hissue, hcheck⟩ := h
  unfold Dev.issueLane
  rw [if_neg (by simp [hissue]), hcheck]
  dsimp only
  rw [hbody]
  rfl

/-- Another slot of the tile is as before. -/
theorem Tile.slot_launched_same (x : Tile) (k w : Nat) (f : Flight) : (x.launched k w f).slot k = (x.slot k).launched w f := tabGet_tabPut_same _ k _
theorem Tile.slot_launched_ne (x : Tile) {k j : Nat} (w : Nat) (f : Flight) (h : j ≠ k) : (x.launched k w f).slot j = x.slot j := tabGet_tabPut_ne _ h

/-- A slot read after its tile is replaced, and after another tile is. -/
theorem Dev.slot_setTile_same (d : Dev) (t k : Nat) (x : Tile) : (d.setTile t x).slot t k = x.slot k := by
  unfold Dev.slot; rw [Dev.tile_set_same]
theorem Dev.slot_setTile_ne (d : Dev) {t t' : Nat} (k : Nat) (x : Tile) (h : t' ≠ t) : (d.setTile t x).slot t' k = d.slot t' k := by
  unfold Dev.slot; rw [Dev.tile_set_ne d x h]

/-- Where the effect leaves the tiles alone, the instruction has issued with its count, and is the last in flight. -/
theorem laneIssued_setTile {d e : Dev} {t k : Nat} (f : Flight) (htiles : e.tiles = d.tiles) :
    LaneIssued t k f.count d (e.setTile t ((e.tile t).launched k (d.word t k) f)) ∧
      ∃ g, ((e.setTile t ((e.tile t).launched k (d.word t k) f)).slot t k).flight = (d.slot t k).flight ++ [g] ∧ g.sats = f.sats := by
  have htile : ∀ n, e.tile n = d.tile n := fun n => by unfold Dev.tile; rw [htiles]
  have hslot : (e.setTile t ((e.tile t).launched k (d.word t k) f)).slot t k = (d.slot t k).launched (d.word t k) f := by
    rw [Dev.slot_setTile_same, Tile.slot_launched_same, htile]; rfl
  refine ⟨?_, ?_⟩
  · unfold LaneIssued
    dsimp only
    rw [hslot]
    refine ⟨rfl, rfl, rfl, rfl, ⟨_, rfl, rfl, rfl, rfl, rfl, rfl⟩, rfl, fun t' k' hne => ?_⟩
    by_cases ht : t' = t
    · subst ht
      rw [Dev.slot_setTile_same, Tile.slot_launched_ne _ _ _ (fun hk => hne ⟨rfl, hk⟩), htile]
      rfl
    · rw [Dev.slot_setTile_ne _ _ _ ht]
      unfold Dev.slot
      rw [htile]
  · rw [hslot]
    exact ⟨_, rfl, rfl⟩

/-! ### What the register file does not tell -/

/-- A translation, a read and an operand's bytes are the same whatever the registers hold. -/
theorem Dev.reachFrom_regs (d : Dev) (r : Table Word) (c : Nat) (write : Bool) (l : List (Nat × Nat)) :
    ({ d with regs := r } : Dev).reachFrom c write l = d.reachFrom c write l := by
  have htranslate : ∀ va, ({ d with regs := r } : Dev).translate c va write = d.translate c va write := fun _ => rfl
  induction l with
  | nil => rfl
  | cons p l ih => unfold Dev.reachFrom; rw [htranslate, ih]

theorem Dev.readVa_regs (d : Dev) (r : Table Word) (c va n : Nat) : ({ d with regs := r } : Dev).readVa c va n = d.readVa c va n := by
  unfold Dev.readVa Dev.reach
  rw [Dev.reachFrom_regs]
  rfl

theorem Dev.opBytes_regs (d : Dev) (r : Table Word) (t : Nat) (sl : Slot) (cellar : Bool) (a : Int) (n : Nat) :
    ({ d with regs := r } : Dev).opBytes t sl cellar a n = d.opBytes t sl cellar a n := by
  unfold Dev.opBytes
  rw [Dev.readVa_regs]
  rfl

theorem Dev.tsAt_regs (d : Dev) (r : Table Word) (t : Nat) (sl : Slot) (o : ORec) : ({ d with regs := r } : Dev).tsAt t sl o = d.tsAt t sl o := by
  unfold Dev.tsAt
  rw [Dev.opBytes_regs]

theorem Dev.elemF_regs (d : Dev) (r : Table Word) (t : Nat) (sl : Slot) (o : ORec) (i j : Int) :
    ({ d with regs := r } : Dev).elemF t sl o i j = d.elemF t sl o i j := by
  simp only [Dev.elemF, Dev.elem, Dev.scaleAt, Dev.opBytes_regs, Dev.tsAt_regs]

theorem Dev.ldqValues_regs (d : Dev) (r : Table Word) (t : Nat) (sl : Slot) (a b : Slice) (tr : Bool) :
    ({ d with regs := r } : Dev).ldqValues t sl a b tr = d.ldqValues t sl a b tr := by
  simp only [Dev.ldqValues, Dev.elemF_regs]

theorem Dev.lineImage_regs (d : Dev) (x : Table Word) (t : Nat) (sl : Slot) (o : ORec) (r c0 : Int) (codes : List Nat) :
    ({ d with regs := x } : Dev).lineImage t sl o r c0 codes = d.lineImage t sl o r c0 codes := by
  simp only [Dev.lineImage, Dev.opBytes_regs]

/-! ### Writes of the shelf -/

/-- A write of the pantries alone, whatever the registers hold. -/
def PantryOnly (f : Dev → Dev) : Prop := ∀ (d : Dev) (r : Table Word), f { d with regs := r } = { d with regs := r, pantry := (f d).pantry }

/-- What such a write leaves alone: everything but the pantries. -/
theorem PantryOnly.frame {f : Dev → Dev} (h : PantryOnly f) (d : Dev) : f d = { d with pantry := (f d).pantry } := h d d.regs

theorem PantryOnly.id : PantryOnly (fun d => d) := fun _ _ => rfl

/-- Two such writes, one after the other, are one. -/
theorem PantryOnly.comp {f g : Dev → Dev} (hf : PantryOnly f) (hg : PantryOnly g) : PantryOnly (fun d => g (f d)) := by
  intro d r
  dsimp only
  have hd := hf.frame d
  rw [hf d r]
  generalize (f d).pantry = p at hd ⊢
  rw [hd]
  exact hg { d with pantry := p } r

/-- Such writes in a row, one for each element of a list. -/
theorem PantryOnly.foldl {α : Type} {f : Dev → α → Dev} (h : ∀ x, PantryOnly (fun d => f d x)) (l : List α) : PantryOnly (fun d => l.foldl f d) := by
  induction l with
  | nil => exact PantryOnly.id
  | cons x l ih => exact (h x).comp ih

/-- One of two such writes, by a condition that the device has no part in. -/
theorem PantryOnly.ite {p : Prop} [Decidable p] {f g : Dev → Dev} (hf : PantryOnly f) (hg : PantryOnly g) : PantryOnly (fun d => if p then f d else g d) := by
  intro d r
  dsimp only
  split
  · exact hf d r
  · exact hg d r

theorem pantryOnly_shelfWrite (t : Nat) (sl : Slot) (off : Nat) (bs : List Byte) : PantryOnly (fun d => d.shelfWrite t sl off bs) := by
  induction bs generalizing off with
  | nil => exact PantryOnly.id
  | cons b bs ih => exact PantryOnly.comp (f := fun d => d.shelfPut t sl off b) (fun _ _ => rfl) (ih (off + 1))

theorem pantryOnly_putLine (t : Nat) (sl : Slot) (o : ORec) (i c0 : Int) (codes : List Nat) : PantryOnly (fun d => d.putLine t sl o i c0 codes) := by
  intro d r
  dsimp only
  unfold Dev.putLine
  rw [Dev.lineImage_regs]
  split
  · rfl
  · exact pantryOnly_shelfWrite t sl _ _ d r

theorem pantryOnly_putSlice (t : Nat) (sl : Slot) (b : Slice) (code : Nat → Nat → Nat) : PantryOnly (fun d => d.putSlice t sl b code) :=
  .ite (.foldl (fun _ => pantryOnly_putLine _ _ _ _ _ _) _) (.foldl (fun _ => pantryOnly_putLine _ _ _ _ _ _) _)

theorem pantryOnly_putQuant (t : Nat) (sl : Slot) (b : Slice) (q : QSlice) : PantryOnly (fun d => d.putQuant t sl b q) :=
  (pantryOnly_putSlice t sl b _).comp (.foldl (fun _ => fun _ _ => rfl) q.scales)

theorem pantryOnly_putTallies (t : Nat) (sl : Slot) (b : Slice) (v : Nat → Nat) : PantryOnly (fun d => d.putTallies t sl b v) :=
  .ite .id (.foldl (fun _ => pantryOnly_shelfWrite _ _ _ _) _)

/-! ### Bytes read counted (R233) -/

/-- A counter raised, and the counters of a read's pieces, touch registers only. -/
theorem Dev.bump64_frame (d : Dev) (p i o n fo ov : Nat) : d.bump64 p i o n fo ov = { d with regs := (d.bump64 p i o n fo ov).regs } := by
  unfold Dev.bump64; dsimp only; split <;> rfl

theorem Dev.celRead_frame (d : Dev) (ps : List (Nat × Nat × Nat)) : d.celRead ps = { d with regs := (d.celRead ps).regs } := by
  unfold Dev.celRead
  induction ps generalizing d with
  | nil => rfl
  | cons p ps ih =>
    rw [List.foldl_cons, ih, Dev.bump64_frame]

/-! ### What the load stores (R124), for a destination whose tensor scale is supplied -/

/-- The load's values, rotated. -/
def Dev.ldqGrid (d : Dev) (t w : Nat) (sl : Slot) (a b : Slice) : List (List Nat) := rotateSlice b sl.step (d.ldqValues t sl a b (cpTr w))

/-- The values quantized to the destination's format, and to its shadow. -/
def Dev.ldqQuant (d : Dev) (t w : Nat) (sl : Slot) (a b : Slice) : QSlice :=
  b.quant (if b.op.bmode = .nb16 then d.tsAt t sl b.op else 0) (gridAt (d.ldqGrid t w sl a b)) (b.mode sl.step)
def Dev.ldqShadow (d : Dev) (t w : Nat) (sl : Slot) (a b : Slice) : QSlice :=
  Slice.quant { b with op := b.op.asShadow } 0 (gridAt (d.ldqGrid t w sl a b)) (fun _ _ => .rne)

/-- Two quantized slices stored, the second in the shadow where the destination has one, and tallies after them. -/
def Dev.putWithShadow (d : Dev) (t : Nat) (sl : Slot) (b : Slice) (q sq : QSlice) (tally : Nat → Nat) : Dev :=
  (if b.op.shadow then (d.putQuant t sl b q).putQuant t sl { b with op := b.op.asShadow } sq else d.putQuant t sl b q).putTallies t sl b tally

/-- The tallies the load leaves, added to the ones that stand there where the instruction says so. -/
def Dev.ldqTally (d : Dev) (t w : Nat) (sl : Slot) (b : Slice) (q : QSlice) (i : Nat) : Nat :=
  satAdd 32 (if cpTadd w then ofBytes (d.shelfRead t sl (b.op.auxAddr + 4 * i) 4) else 0) (q.tally b i)

/-- The device after the load's stores. -/
def Dev.ldqStored (d : Dev) (t w : Nat) (sl : Slot) (a b : Slice) : Dev :=
  d.putWithShadow t sl b (d.ldqQuant t w sl a b) (d.ldqShadow t w sl a b) (d.ldqTally t w sl b (d.ldqQuant t w sl a b))

/-- What the load delivers at retirement. -/
def Dev.ldqSats (d : Dev) (t w : Nat) (sl : Slot) (a b : Slice) : List SatPart :=
  if b.op.satEn then
    [{ entry := b.op.satEntry, count := (d.ldqQuant t w sl a b).count + (if b.op.shadow then (d.ldqShadow t w sl a b).count else 0),
       elems := b.rows * b.cols, amax := gridAmax (d.ldqGrid t w sl a b) }]
  else []

theorem pantryOnly_putWithShadow (t : Nat) (sl : Slot) (b : Slice) (q sq : QSlice) (tally : Nat → Nat) :
    PantryOnly (fun d => d.putWithShadow t sl b q sq tally) :=
  .comp (.ite (.comp (pantryOnly_putQuant t sl b q) (pantryOnly_putQuant t sl _ sq)) (pantryOnly_putQuant t sl b q)) (pantryOnly_putTallies t sl b tally)

/-- Once its source is readable the load stores its slice. -/
theorem Dev.ldqRun_supplied {d : Dev} {t w : Nat} {sl : Slot} {a b : Slice} (runs : List (Int × Nat))
    (htscomp : b.op.tscomp = false) (hsupplied : b.op.bmode = .nb16 → tsSupplied (d.tsAt t sl b.op) = true) :
    d.ldqRun t w sl a b runs = .ok (d.ldqStored t w sl a b)
      { count := 8 + ldqBody (b.rows * b.cols) b.op.rot (cpTr w) false, sats := d.ldqSats t w sl a b, rd := runBytes runs } := by
  unfold Dev.ldqRun
  dsimp only
  rw [htscomp]
  by_cases hnb : b.op.bmode = .nb16
  · have hbeq : (b.op.bmode == .nb16) = true := beq_iff_eq.mpr hnb
    simp only [hbeq, Bool.not_true, Bool.false_eq_true, if_false, hsupplied hnb, Bool.and_false, Dev.ldqStored, Dev.ldqSats, Dev.ldqQuant, if_pos hnb]
    rfl
  · have hbeq : (b.op.bmode == .nb16) = false := beq_eq_false_iff_ne.mpr hnb
    simp only [hbeq, Dev.ldqStored, Dev.ldqSats, Dev.ldqQuant, if_neg hnb]
    rfl

theorem Dev.ldqQuant_regs (d : Dev) (r : Table Word) (t w : Nat) (sl : Slot) (a b : Slice) :
    ({ d with regs := r } : Dev).ldqQuant t w sl a b = d.ldqQuant t w sl a b := by
  simp only [Dev.ldqQuant, Dev.ldqGrid, Dev.ldqValues_regs, Dev.tsAt_regs]

theorem Dev.ldqSats_regs (d : Dev) (r : Table Word) (t w : Nat) (sl : Slot) (a b : Slice) :
    ({ d with regs := r } : Dev).ldqSats t w sl a b = d.ldqSats t w sl a b := by
  simp only [Dev.ldqSats, Dev.ldqShadow, Dev.ldqGrid, Dev.ldqQuant_regs, Dev.ldqValues_regs]

/-- The load's stores change the pantries alone, and the registers tell them nothing. -/
theorem Dev.ldqStored_regs (d : Dev) (r : Table Word) (t w : Nat) (sl : Slot) (a b : Slice) :
    ({ d with regs := r } : Dev).ldqStored t w sl a b = { d with regs := r, pantry := (d.ldqStored t w sl a b).pantry } := by
  have htally : ∀ q, ({ d with regs := r } : Dev).ldqTally t w sl b q = d.ldqTally t w sl b q := fun _ => rfl
  unfold Dev.ldqStored
  rw [Dev.ldqQuant_regs, htally, Dev.ldqShadow, Dev.ldqGrid, Dev.ldqValues_regs]
  exact pantryOnly_putWithShadow t sl b _ _ _ d r

/-! ### The load issued (R124) -/

/-- A readable source: the continuation runs with the bytes counted. -/
theorem Dev.withReadable_ok {d : Dev} {c : Nat} {runs : List (Int × Nat)} {ps : List (Nat × Nat × Nat)} (run : Dev → Issued)
    (hreach : d.reachRuns c false runs = .ok ps) (hclean : d.partsPoisoned ps = false) : d.withReadable c runs run = run (d.celRead ps) := by
  simp [Dev.withReadable, hreach, hclean]

/-- The cellar runs of the source's bytes. -/
def Slice.ldqRuns (a : Slice) : List (Int × Nat) :=
  if a.op.cellar then a.runs (a.op.bmode != .none) ++ (if a.op.bmode == .nb16 && a.op.tscale == 0 then [((a.op.tsAddr : Int), 4)] else []) else []

/-- A load with a zero extent covers no element. -/
theorem Dev.cpDst_empty (d : Dev) (t : Nat) {w : Nat} (sl : Slot) (h : cpRows w = 0 ∨ cpCols w = 0) :
    (d.cpDst t sl w).rows * (d.cpDst t sl w).cols = 0 := by
  unfold Dev.cpDst
  cases cpTr w
  · exact Nat.mul_eq_zero.mpr h
  · exact Nat.mul_eq_zero.mpr h.symm

/-- Such a load only counts. -/
theorem Dev.ldq_zero {d : Dev} {t w : Nat} {sl : Slot} (h : cpRows w = 0 ∨ cpCols w = 0) :
    let b := d.cpDst t sl w
    d.ldq t w sl = .ok d { count := 8 + ldqBody (b.rows * b.cols) b.op.rot (cpTr w) b.op.tscomp } := by
  dsimp only
  rw [Dev.cpDst_empty d t sl h]
  simp [Dev.ldq, h]

/-- A load that passes its checks stores its slice and counts the bytes it read. -/
theorem Dev.ldq_ok {d : Dev} {t w : Nat} {sl : Slot} {a b : Slice} {ps : List (Nat × Nat × Nat)} (ha : d.cpSrc t sl w = a) (hb : d.cpDst t sl w = b)
    (hrows : cpRows w ≠ 0) (hcols : cpCols w ≠ 0) (htscomp : b.op.tscomp = false) (hmove : moveCheck sl a b = none)
    (hshadow : b.op.shadow = true → ({ b with op := b.op.asShadow } : Slice).inShelf sl = true) (htally : b.tallyOk sl = true)
    (hrot : b.rotAligned = true) (haux : b.op.auxAddr ≠ 0 → (if b.op.kdim then b.c0 else b.r0) % 128 = 0)
    (hsupplied : b.op.bmode = .nb16 → tsSupplied (d.tsAt t sl b.op) = true)
    (hreach : d.reachRuns sl.ctx false a.ldqRuns = .ok ps) (hclean : d.partsPoisoned ps = false) :
    d.ldq t w sl = .ok { d with regs := (d.celRead ps).regs, pantry := (d.ldqStored t w sl a b).pantry }
      { count := 8 + ldqBody (b.rows * b.cols) b.op.rot (cpTr w) false, sats := d.ldqSats t w sl a b, rd := runBytes a.ldqRuns } := by
  have hfits : ¬ ((b.op.shadow && !({ b with op := b.op.asShadow } : Slice).inShelf sl) || !b.tallyOk sl) = true := by
    simpa [htally] using hshadow
  have haligned : ¬ (!b.rotAligned || (if b.op.kdim then b.c0 else b.r0) % 128 ≠ 0 && b.op.auxAddr ≠ 0) = true := by
    simp only [hrot, Bool.not_true, Bool.false_or, Bool.and_eq_true, decide_eq_true_eq, not_and]
    exact fun hstart hadr => hstart (haux hadr)
  unfold Dev.ldq
  dsimp only
  rw [ha, hb, if_neg (by simp [hrows, hcols]), hmove]
  dsimp only
  rw [if_neg hfits, if_neg haligned, ← Slice.ldqRuns, Dev.withReadable_ok _ hreach hclean, Dev.celRead_frame,
    Dev.ldqRun_supplied _ htscomp (by rwa [Dev.tsAt_regs]), Dev.ldqStored_regs, Dev.ldqSats_regs]

/-- Settles O18: `Dev.issueLane_ok` with the two cases of a load, no element and some. -/
theorem quantizingLoad : Obligations.QuantizingLoad := by
  unfold Obligations.QuantizingLoad
  refine ⟨by decide, fun s t k hissues => ?_⟩
  intro d w sl a b o scl runs g q sb sq old htscomp hmove hshadow htally hrot haux hsupplied ⟨ps, hreach, hclean⟩
  have hdoes : ∀ (e : Dev) (f : Flight) (P : Dev → Prop), d.ldq t w sl = .ok e f → P (e.setTile t ((e.tile t).launched k w f)) →
      Does (.ldq t k false) s P := by
    intro e f P hldq hP
    refine does_onDev (f := fun d => d.issueLane t k opLdq false (fun d w sl => d.ldq t w sl)) rfl ?_
    rw [Dev.issueLane_ok (e := e) (f := f) hissues hldq]
    exact hP
  by_cases hzero : cpRows w = 0 ∨ cpCols w = 0
  · have hldq := Dev.ldq_zero (d := d) (t := t) (sl := sl) hzero
    dsimp only at hldq
    rw [show (d.cpDst t sl w).op.tscomp = false from htscomp] at hldq
    exact hdoes _ _ _ hldq ⟨(laneIssued_setTile _ rfl).1, fun _ => rfl, fun hr hc => absurd hzero (not_or.mpr ⟨hr, hc⟩), rfl, rfl,
      rfl, rfl, rfl, rfl, rfl, rfl⟩
  · obtain ⟨hrows, hcols⟩ := not_or.mp hzero
    have hldq := Dev.ldq_ok rfl rfl hrows hcols htscomp hmove hshadow htally hrot haux hsupplied hreach hclean
    have hissued := laneIssued_setTile (d := d) (e := { d with regs := (d.celRead ps).regs, pantry := (d.ldqStored t w sl a b).pantry }) (t := t) (k := k)
      { count := 8 + ldqBody (b.rows * b.cols) b.op.rot (cpTr w) false, sats := d.ldqSats t w sl a b, rd := runBytes a.ldqRuns } rfl
    exact hdoes _ _ _ hldq ⟨hissued.1, fun h => absurd h hzero, fun _ _ => ⟨rfl, hissued.2⟩, rfl, rfl, rfl, rfl, rfl, rfl, rfl, rfl⟩

end Sys2Proof.Machine
end
section
/-! PROOFS. The statement about the vector instructions (chapter 5): what a lane instruction that stores into the shelf alone leaves, and what `VEW`,
`VRED` and `VSTAT` answer at issue. -/
namespace Sys2Proof.Machine

/-! ### Lane instructions that issue -/

/-- A lane instruction that issues, finds no fault and leaves the tiles alone, completes: it has issued with its count and stands in flight with what it
delivers. -/
theorem does_issueLane {i : Instr} {s : State} {t k op : Nat} {body : Dev → Nat → Slot → Issued} {e : Dev} {f : Flight} {P : Dev → Prop}
    (hexec : exec i s = onDev s (fun d => d.issueLane t k op false body)) (hissues : Issues s.dev t k op)
    (hbody : body s.dev (s.dev.word t k) (s.dev.slot t k) = .ok e f) (htiles : e.tiles = s.dev.tiles)
    (hP : ∀ x, LaneIssued t k f.count s.dev (e.setTile t x) → ((e.setTile t x).slot t k).flight = (s.dev.slot t k).flight ++
      [{ f with lane := iLane (s.dev.word t k), word := s.dev.word t k, pc := (s.dev.slot t k).pc, tset := iTset (s.dev.word t k) }] → P (e.setTile t x)) :
    Does i s P := by
  refine does_onDev hexec ?_
  rw [Dev.issueLane_ok hissues hbody]
  refine hP _ (laneIssued_setTile f htiles).1 ?_
  have htile : e.tile t = s.dev.tile t := by unfold Dev.tile; rw [htiles]
  rw [Dev.slot_setTile_same, Tile.slot_launched_same, htile]
  rfl

/-- One that writes the pantries alone changes nothing outside the tiles and the pantries. -/
theorem does_issueLane_pantryOnly {i : Instr} {s : State} {t k op : Nat} {body : Dev → Nat → Slot → Issued} {g : Dev → Dev} {f : Flight}
    {P : Dev → Prop} (hg : PantryOnly g) (hexec : exec i s = onDev s (fun d => d.issueLane t k op false body)) (hissues : Issues s.dev t k op)
    (hbody : body s.dev (s.dev.word t k) (s.dev.slot t k) = .ok (g s.dev) f)
    (hP : ∀ e, LaneIssued t k f.count s.dev e → TilesOnly s.dev e → e.pantry = (g s.dev).pantry →
      (∃ h, (e.slot t k).flight = (s.dev.slot t k).flight ++ [h] ∧ h.lsts = f.lsts) → P e) : Does i s P := by
  rw [hg.frame s.dev] at hbody
  exact does_issueLane hexec hissues hbody rfl (fun x hlane hflight =>
    hP _ hlane ⟨rfl, rfl, rfl, rfl, ⟨rfl, rfl, rfl, rfl, rfl, rfl⟩, rfl⟩ rfl ⟨_, hflight, rfl⟩)

/-! ### Slices -/

/-- What a grid holds in a place. -/
theorem gridAt_gridOf {rows cols i j : Nat} (f : Nat → Nat → Nat) (hi : i < rows) (hj : j < cols) : gridAt (gridOf rows cols f) i j = f i j := by
  simp [gridAt, gridOf, hi, hj]

/-- A slice written takes its codes from the slice's places only. -/
theorem Dev.putSlice_congr (d : Dev) (t : Nat) (sl : Slot) (b : Slice) {x y : Nat → Nat → Nat} (h : ∀ i j, i < b.rows → j < b.cols → x i j = y i j) :
    d.putSlice t sl b x = d.putSlice t sl b y := by
  unfold Dev.putSlice
  split
  · refine List.foldl_rel (r := Eq) rfl (fun j hj e e' he => ?_)
    rw [he, List.map_congr_left (fun i hi => h i j (List.mem_range.mp hi) (List.mem_range.mp hj))]
  · refine List.foldl_rel (r := Eq) rfl (fun i hi e e' he => ?_)
    rw [he, List.map_congr_left (fun j hj => h i j (List.mem_range.mp hi) (List.mem_range.mp hj))]

/-- Slices whose bytes all lie inside the shelf, their blocks aligned. -/
def SlicesFit (sl : Slot) (l : List Slice) : Prop := ∀ z, z ∈ l → z.inShelf sl = true ∧ z.aligned = true

theorem SlicesFit.inShelf {sl : Slot} {l : List Slice} (h : SlicesFit sl l) : l.all (fun x => x.inShelf sl) = true :=
  List.all_eq_true.mpr (fun z hz => (h z hz).1)
theorem SlicesFit.aligned {sl : Slot} {l : List Slice} (h : SlicesFit sl l) : l.all (fun x => x.aligned) = true :=
  List.all_eq_true.mpr (fun z hz => (h z hz).2)

/-- What an instruction that stores grid `g` as `q` in slice `o` delivers to the saturation entry of the slice's record. -/
def Slice.satsOf (o : Slice) (q : QSlice) (elems : Nat) (g : List (List Nat)) : List SatPart :=
  if o.op.satEn then [{ entry := o.op.satEntry, count := q.count, elems := elems, amax := gridAmax g }] else []

/-! ### `VEW` (R130) -/

/-- The sources that the function of a `VEW` names. -/
def Dev.vewSrcs (d : Dev) (t : Nat) (sl : Slot) (w : Nat) : List Slice :=
  [d.vwSrc t sl w (iF1 w) false] ++ (if vewUsesB (vwFn w) then [d.vwSrc t sl w (iF2 w) (bit w 114)] else []) ++
    (if vewUsesC (vwFn w) then [d.vwSrc t sl w (iF3 w) (bit w 115)] else [])

/-- Element (i, j) of a source in FP32 and in INT32, of its only row where it is broadcast. -/
def Dev.vewElem (d : Dev) (t : Nat) (sl : Slot) (x : Slice) (one : Bool) (i j : Nat) : Nat :=
  d.elemF t sl x.op (x.r0 + (if one then 0 else i)) (x.c0 + j)
def Dev.vewWord (d : Dev) (t : Nat) (sl : Slot) (x : Slice) (one : Bool) (i j : Nat) : Nat :=
  d.elemI t sl x.op (x.r0 + (if one then 0 else i)) (x.c0 + j)

/-- What a `VEW` computes at (i, j), on FP32 codes and on words. -/
def Dev.vewValue (d : Dev) (t : Nat) (sl : Slot) (w i j : Nat) : Nat :=
  vewF (vwFn w) (d.vewElem t sl (d.vwSrc t sl w (iF1 w) false) false i j)
    (if vewUsesB (vwFn w) then d.vewElem t sl (d.vwSrc t sl w (iF2 w) (bit w 114)) (bit w 114) i j else 0)
    (if vewUsesC (vwFn w) then d.vewElem t sl (d.vwSrc t sl w (iF3 w) (bit w 115)) (bit w 115) i j else 0) (sl.vwImm w)
def Dev.vewInteger (d : Dev) (t : Nat) (sl : Slot) (w i j : Nat) : Nat :=
  vewI (vwFn w) (d.vewWord t sl (d.vwSrc t sl w (iF1 w) false) false i j) (d.vewWord t sl (d.vwSrc t sl w (iF2 w) (bit w 114)) (bit w 114) i j)

/-- The values of a `VEW`, and how they are quantized to its destination. -/
def Dev.vewGrid (d : Dev) (t : Nat) (sl : Slot) (w : Nat) : List (List Nat) := gridOf (vwRows w) (vwCols w) (d.vewValue t sl w)
def Dev.vewQuant (d : Dev) (t : Nat) (sl : Slot) (w : Nat) (o : Slice) : QSlice := o.quant 0 (gridAt (d.vewGrid t sl w)) (o.mode sl.step)

/-- Its count. -/
def vewCount (w : Nat) : Nat :=
  6 + (if (vewT (vwFn w)).getD 0 = 0 then cdiv (vwRows w * vwCols w) 256 else (vewT (vwFn w)).getD 0 * cdiv (vwRows w * vwCols w) 64)

/-- An integer function makes no transcendental pass. -/
theorem vewCount_int {w : Nat} (h : vewInt (vwFn w) = true) : vewCount w = 6 + cdiv (vwRows w * vwCols w) 256 := by
  have hfn : 0x10 ≤ vwFn w ∧ vwFn w ≤ 0x13 := by simpa [vewInt] using h
  simp [vewCount, vewT, hfn]

/-- A `VEW` of no element only counts. -/
theorem Dev.vew_zero (d : Dev) (t : Nat) {w : Nat} (sl : Slot) (h : vwRows w * vwCols w = 0) : d.vew t w sl = .ok d { count := vewCount w } := by
  unfold Dev.vew
  dsimp only
  rw [if_pos h]
  rfl

/-- A `VEW` of a function on FP32 codes stores its values quantized to the destination. -/
theorem Dev.vew_float {d : Dev} {t w : Nat} {sl : Slot} {o : Slice} (ho : d.vwDst t sl w = o) (hsome : vwRows w * vwCols w ≠ 0)
    (hint : vewInt (vwFn w) = false) (hfit : SlicesFit sl (o :: d.vewSrcs t sl w)) :
    d.vew t w sl = .ok (d.putQuant t sl o (d.vewQuant t sl w o))
      { count := vewCount w,
        sats := o.satsOf (d.vewQuant t sl w o) (vwRows w * vwCols w) (d.vewGrid t sl w) ++ d.tritsOf t sl (d.vewSrcs t sl w) } := by
  subst ho
  unfold Dev.vew
  dsimp only
  rw [if_neg hsome, ← Dev.vewSrcs, hfit.inShelf, hfit.aligned, hint]
  rfl

/-- A `VEW` of a function on words stores them as they are in an INT32 destination. -/
theorem Dev.vew_int {d : Dev} {t w : Nat} {sl : Slot} {o : Slice} (ho : d.vwDst t sl w = o) (hsome : vwRows w * vwCols w ≠ 0)
    (hint : vewInt (vwFn w) = true) (hfmt : o.op.fmt = .int32) (hfit : SlicesFit sl (o :: d.vewSrcs t sl w)) :
    d.vew t w sl = .ok (d.putSlice t sl o (d.vewInteger t sl w)) { count := vewCount w, sats := d.tritsOf t sl (d.vewSrcs t sl w) } := by
  subst ho
  have hgrid : d.putSlice t sl (d.vwDst t sl w) (d.vewInteger t sl w) =
      d.putSlice t sl (d.vwDst t sl w) (fun i j => gridAt (gridOf (vwRows w) (vwCols w) (d.vewInteger t sl w)) i j) :=
    d.putSlice_congr t sl _ (fun i j hi hj => (gridAt_gridOf _ hi hj).symm)
  rw [hgrid]
  unfold Dev.vew
  dsimp only
  rw [if_neg hsome, ← Dev.vewSrcs, hfit.inShelf, hfit.aligned, hint, hfmt]
  rfl

/-! ### `VRED` and `VSTAT` (R132, R133) -/

/-- The FP32 codes of a slice. -/
def Dev.sliceF (d : Dev) (t : Nat) (sl : Slot) (a : Slice) : List (List Nat) :=
  gridOf a.rows a.cols (fun i j => d.elemF t sl a.op (a.r0 + i) (a.c0 + j))

/-- What a `VRED` computes: a row of results, one per column, or a column of them, one per row. -/
def vredGrid (w : Nat) (x : List (List Nat)) : List (List Nat) :=
  if vrAxis w then [(transpose (vrCols w) x).map (vredCol (vrOp w))] else x.map (fun r => [vredRow (vrOp w) r])

/-- How they are quantized to its destination. -/
def Dev.vredQuant (d : Dev) (t : Nat) (sl : Slot) (w : Nat) (a o : Slice) : QSlice :=
  o.quant 0 (gridAt (vredGrid w (d.sliceF t sl a))) (o.mode sl.step)

/-- A `VRED` stores its results quantized to the destination. -/
theorem Dev.vred_ok {d : Dev} {t w : Nat} {sl : Slot} {a o : Slice} (ha : d.vrSrc t sl w = a) (ho : d.vrDst t sl w = o) (hain : a.inShelf sl = true)
    (hoin : o.inShelf sl = true) (haal : a.aligned = true) (hoal : o.aligned = true) :
    d.vred t w sl = .ok (d.putQuant t sl o (d.vredQuant t sl w a o))
      { count := 6 + vrRows w * (cdiv (vrCols w) 256 + (if vrAxis w then 0 else 8)),
        sats := o.satsOf (d.vredQuant t sl w a o) (o.rows * o.cols) (vredGrid w (d.sliceF t sl a)) ++ d.tritsOf t sl [a] } := by
  subst ha ho
  unfold Dev.vred
  dsimp only
  rw [hain, hoin, haal, hoal]
  rfl

/-- A `VSTAT` writes nothing and holds its contribution until it retires. -/
theorem Dev.vstat_ok {d : Dev} {t w : Nat} {sl : Slot} {a : Slice} (ha : d.vsSrc t sl w = a) (hin : a.inShelf sl = true) (hal : a.aligned = true) :
    d.vstat t w sl = .ok d { count := 6 + cdiv (a.rows * a.cols) 256, sats := d.tritsOf t sl [a],
                             lsts := [d.lstPart (fld w 45 32) 0 ((d.sliceF t sl a).flatMap id)] } := by
  subst ha
  unfold Dev.vstat
  dsimp only
  rw [hin, hal]
  rfl

/-- Settles O23: each instruction writes the pantries alone, with what `Dev.vew_zero`, `Dev.vew_float`, `Dev.vew_int`, `Dev.vred_ok` and `Dev.vstat_ok`
say of its issue. -/
theorem vectorInstructions : Obligations.VectorInstructions := by
  unfold Obligations.VectorInstructions
  intro s t k d w sl fn a b c o n srcs at' y ra ro x res va
  refine ⟨fun hissues hint hfit => ?_, fun hissues hint hsome hfmt hfit => ?_, fun hissues hain hoin haal hoal => ?_, fun hissues hin hal => ?_⟩
  · by_cases hzero : n = 0
    · exact does_issueLane_pantryOnly .id rfl hissues (d.vew_zero t sl hzero)
        (fun e hlane htiles hpantry _ => ⟨hlane, htiles, fun _ => hpantry, absurd hzero⟩)
    · exact does_issueLane_pantryOnly (pantryOnly_putQuant t sl o _) rfl hissues (Dev.vew_float rfl hzero hint hfit)
        (fun e hlane htiles hpantry _ => ⟨hlane, htiles, fun h => absurd h hzero, fun _ => hpantry⟩)
  · have hvew := Dev.vew_int (d := d) (t := t) rfl hsome hint hfmt hfit
    rw [vewCount_int hint] at hvew
    exact does_issueLane_pantryOnly (pantryOnly_putSlice t sl o _) rfl hissues hvew (fun e hlane htiles hpantry _ => ⟨hlane, htiles, hpantry⟩)
  · exact does_issueLane_pantryOnly (pantryOnly_putQuant t sl ro _) rfl hissues (Dev.vred_ok rfl rfl hain hoin haal hoal)
      (fun e hlane htiles hpantry _ => ⟨hlane, htiles, hpantry⟩)
  · exact does_issueLane_pantryOnly .id rfl hissues (Dev.vstat_ok rfl hin hal)
      (fun e hlane htiles hpantry hflight => ⟨hlane, htiles, hpantry, hflight⟩)

end Sys2Proof.Machine
end
section
/-! PROOFS. The statement about the store (chapter 5): what a write of the cellar leaves alone, proved once for every field of the device, and that a
store's byte strings rise in address. -/
namespace Sys2Proof.Machine

/-! ### What a write of the cellar leaves alone -/

/-- What every update of a row of updates keeps, the row keeps. -/
theorem Dev.foldl_keeps {α β : Type} {keep : Dev → β} {f : Dev → α → Dev} (h : ∀ d x, keep (f d x) = keep d) (l : List α) (d : Dev) :
    keep (l.foldl f d) = keep d := by
  induction l generalizing d with
  | nil => rfl
  | cons x r ih => exact (ih _).trans (h d x)

/-- The device without what a write of the cellar may touch: registers, the cellar's bytes and group blocks, the keys on its requests, and what a halt
touches. -/
def Dev.offCellar (d : Dev) : Dev := { d with regs := [], cellar := [], groups := [], keys := [], ras := {}, ports := [], ethUp := 0, aon := {} }

@[simp] theorem Dev.offCellar_with_cellar (d : Dev) (x : List (Nat × Byte)) : ({ d with cellar := x } : Dev).offCellar = d.offCellar := rfl
@[simp] theorem Dev.offCellar_orReg (d : Dev) (p i o m : Nat) : (d.orReg p i o m).offCellar = d.offCellar := rfl
@[simp] theorem Dev.offCellar_logEntry (d : Dev) (p b : Nat) (x : Nat × Nat) : (d.logEntry p b x).offCellar = d.offCellar := by
  rw [Dev.logEntry_frame]; rfl
@[simp] theorem Dev.offCellar_setGroup (d : Dev) (k : Nat) (x : Group) : (d.setGroup k x).offCellar = d.offCellar := rfl
@[simp] theorem Dev.offCellar_setKey (d : Dev) (k : Nat) (x : KeySlot) : (d.setKey k x).offCellar = d.offCellar := rfl

@[simp] theorem Dev.offCellar_bump64 (d : Dev) (p i o n fo ov : Nat) : (d.bump64 p i o n fo ov).offCellar = d.offCellar := by
  rw [Dev.bump64_frame]; rfl

@[simp] theorem Dev.offCellar_halt (d : Dev) (c w a k n : Nat) : (d.halt c w a k n).offCellar = d.offCellar := by
  by_cases h : d.aon.halted = true
  · rw [Dev.halt_again _ _ _ _ _ _ h]; rfl
  · rw [Dev.halt_first d c w a k n (by simpa using h)]
    generalize (d.halt c w a k n).regs = r, (d.halt c w a k n).ras = l
    rfl

@[simp] theorem Dev.offCellar_noteReach (d : Dev) (r : Reach) : (d.noteReach r).offCellar = d.offCellar := by
  cases r with
  | malformed _ => exact Dev.foldl_keeps (fun _ _ => Dev.offCellar_logEntry ..) _ _
  | _ => rfl

@[simp] theorem Dev.offCellar_keyUse (d : Dev) (k n : Nat) : (d.keyUse k n).offCellar = d.offCellar := by
  simp [Dev.keyUse, Dev.keyAtLimit, Dev.keyFlag, apply_ite Dev.offCellar]

@[simp] theorem Dev.offCellar_sweepGroup (d : Dev) (g k : Nat) : (d.sweepGroup g k).offCellar = d.offCellar := by
  simp [Dev.sweepGroup, apply_ite Dev.offCellar]

@[simp] theorem Dev.offCellar_granWrite (d : Dev) (k pa : Nat) (bs : List Byte) : (d.granWrite k pa bs).1.offCellar = d.offCellar := by
  unfold Dev.granWrite
  simp only [apply_ite Prod.fst, apply_ite Dev.offCellar, Dev.mencBump, Dev.offCellar_bump64, Dev.offCellar_with_cellar, Dev.offCellar_keyUse,
    Dev.offCellar_setGroup, Dev.offCellar_sweepGroup, Dev.offCellar_halt, ite_self]

@[simp] theorem Dev.offCellar_physWrite (d : Dev) (k pa : Nat) (bs : List Byte) : (d.physWrite k pa bs).1.offCellar = d.offCellar := by
  have hfold : ∀ (l : List (Nat × List Byte)) (r : Dev × Status),
      (l.foldl (fun r p => if r.2 = .ok then r.1.granWrite k p.1 p.2 else r) r).1.offCellar = r.1.offCellar := by
    intro l
    induction l with
    | nil => intro r; rfl
    | cons p l ih => intro r; rw [List.foldl_cons, ih]; simp [apply_ite Prod.fst, apply_ite Dev.offCellar]
  exact hfold ..

@[simp] theorem Dev.offCellar_putParts (d : Dev) (ps : List (Nat × Nat × Nat)) (bs : List Byte) : (d.putParts ps bs).1.offCellar = d.offCellar := by
  induction ps generalizing d bs with
  | nil => rfl
  | cons p r ih =>
    have hfirst := d.offCellar_physWrite p.2.2 p.1 (bs.take p.2.1)
    unfold Dev.putParts
    split
    next hw => rw [hw] at hfirst; exact (ih ..).trans hfirst
    next => exact hfirst

@[simp] theorem Dev.offCellar_writeVa (d : Dev) (c va : Nat) (bs : List Byte) : (d.writeVa c va bs).1.offCellar = d.offCellar := by
  unfold Dev.writeVa
  split
  next ps _ =>
    have hput := d.offCellar_putParts ps bs
    split <;> next hw => rw [hw] at hput; exact hput
  next => exact d.offCellar_noteReach _

@[simp] theorem Dev.offCellar_putCellar (d : Dev) (c : Nat) (l : List (Int × List Byte)) : (d.putCellar c l).1.offCellar = d.offCellar := by
  have hfold : ∀ (r : Dev × Option Status), (l.foldl (fun r p => match r.2 with
      | none => r.1.writeVa c p.1.toNat p.2
      | some _ => r) r).1.offCellar = r.1.offCellar := by
    induction l with
    | nil => intro r; rfl
    | cons p l ih =>
      intro r
      rw [List.foldl_cons, ih]
      split
      · exact Dev.offCellar_writeVa ..
      · rfl
  exact hfold _

/-! ### Byte strings in increasing address (R123) -/

/-- What an insertion puts into a list is the new element and those that stood there. -/
theorem mem_insertBy {α : Type} {le : α → α → Bool} {x y : α} {l : List α} (h : y ∈ insertBy le x l) : y = x ∨ y ∈ l := by
  induction l with
  | nil => exact List.mem_cons.mp h
  | cons z l ih =>
    unfold insertBy at h
    split at h
    · exact List.mem_cons.mp h
    · rcases List.mem_cons.mp h with rfl | h
      · exact Or.inr List.mem_cons_self
      · exact (ih h).imp_right (List.mem_cons_of_mem z)

section
variable {α : Type} {le : α → α → Bool} (htotal : ∀ x y, le x y = true ∨ le y x = true) (htrans : ∀ x y z, le x y = true → le y z = true → le x z = true)
include htotal htrans

/-- An insertion keeps the order, and so a sort has it. -/
theorem pairwise_insertBy (x : α) {l : List α} (h : l.Pairwise (fun a b => le a b = true)) : (insertBy le x l).Pairwise (fun a b => le a b = true) := by
  induction l with
  | nil => exact List.pairwise_singleton _ _
  | cons y l ih =>
    obtain ⟨hy, hl⟩ := List.pairwise_cons.mp h
    unfold insertBy
    split
    next hxy =>
      refine List.pairwise_cons.mpr ⟨fun z hz => ?_, h⟩
      rcases List.mem_cons.mp hz with rfl | hz
      · exact hxy
      · exact htrans x y z hxy (hy z hz)
    next hxy =>
      refine List.pairwise_cons.mpr ⟨fun z hz => ?_, ih hl⟩
      rcases mem_insertBy hz with rfl | hz
      · exact (htotal z y).resolve_left hxy
      · exact hy z hz

theorem pairwise_sortBy (l : List α) : (sortBy l le).Pairwise (fun a b => le a b = true) := by
  induction l with
  | nil => exact List.Pairwise.nil
  | cons x l ih => exact pairwise_insertBy htotal htrans x ih

end

/-- The joined strings begin where some of the sorted ones do, in the same order. -/
theorem map_fst_joinBytes_sublist (l : List (Int × List Byte)) :
    ((joinBytes l).map Prod.fst).Sublist ((sortBy l (fun a b => decide (a.1 ≤ b.1))).map Prod.fst) := by
  unfold joinBytes
  generalize sortBy l _ = l
  induction l with
  | nil => exact List.Sublist.refl _
  | cons x l ih =>
    rw [List.foldr_cons, List.map_cons]
    generalize List.foldr _ [] l = acc at ih ⊢
    cases acc with
    | nil => exact (List.nil_sublist _).cons_cons x.1
    | cons y r =>
      dsimp only
      split
      · exact (List.sublist_of_cons_sublist ih).cons_cons x.1
      · exact ih.cons_cons x.1

/-- Joined strings stand in increasing address. -/
theorem pairwise_joinBytes (l : List (Int × List Byte)) : (joinBytes l).Pairwise (fun x y => x.1 ≤ y.1) := by
  have hsorted : (sortBy l (fun a b => decide (a.1 ≤ b.1))).Pairwise (fun x y => x.1 ≤ y.1) :=
    (pairwise_sortBy (fun _ _ => by simp only [decide_eq_true_eq]; omega) (fun _ _ _ => by simp only [decide_eq_true_eq]; omega) l).imp of_decide_eq_true
  exact List.pairwise_map.mp ((List.pairwise_map (R := (· ≤ ·)).mpr hsorted).sublist (map_fst_joinBytes_sublist l))

/-! ### The store issued (R123) -/

/-- What a `ST` writes: its lines and scale rows, joined. -/
def Dev.storeBytes (d : Dev) (t : Nat) (sl : Slot) (w : Nat) (a b : Slice) : List (Int × List Byte) :=
  joinBytes (d.copyLines t sl a b (cpTr w) ++ (if cpScl w then d.copyScales t sl a b else []))

/-- A store that is no evaluation's, passes its checks and meets no refusal leaves its strings written. -/
theorem Dev.copyOut_ok {d : Dev} {t trk w : Nat} {sl : Slot} {a b : Slice} {ps : List (Nat × Nat × Nat)} (ha : d.cpSrc t sl w = a) (hb : d.cpDst t sl w = b)
    (heval : (d.cmd trk).eval = false) (hrows : cpRows w ≠ 0) (hcols : cpCols w ≠ 0) (hmove : moveCheck sl a b = none)
    (hreach : d.reachRuns sl.ctx true (b.runs (cpScl w)) = .ok ps) (hput : (d.putCellar sl.ctx (d.storeBytes t sl w a b)).2 = none) :
    d.copyOut t trk w sl = .ok (d.putCellar sl.ctx (d.storeBytes t sl w a b)).1
      { count := 8 + copyBody (copyBytes a (cpScl w)) (cpTr w), rd := runPartial (b.runs (cpScl w)), wr := runBytes (b.runs (cpScl w)) } := by
  have hallows : (d.cmd trk).evalAllows (b.runs (cpScl w)) = true := by simp [Cmd.evalAllows, heval]
  have hpair : d.putCellar sl.ctx (d.storeBytes t sl w a b) = ((d.putCellar sl.ctx (d.storeBytes t sl w a b)).1, none) := Prod.ext rfl hput
  unfold Dev.copyOut
  dsimp only
  rw [ha, hb, if_neg (by simp [hrows, hcols]), hmove]
  dsimp only
  rw [hallows, hreach]
  dsimp only
  rw [← Dev.storeBytes, hpair]
  rfl

/-- Settles O17: the strings rise by `pairwise_joinBytes`; `Dev.copyOut_ok` gives the device that the writes leave, and `Dev.offCellar_putCellar` what they
leave alone. -/
theorem storeWritesInOrder : Obligations.StoreWritesInOrder := by
  unfold Obligations.StoreWritesInOrder
  intro s t k trk ps hissues d w sl a b bytes hrunning heval hrows hcols hmove hreach hput
  have hkept : (d.putCellar sl.ctx bytes).1.offCellar = d.offCellar := Dev.offCellar_putCellar ..
  have hcommand : sl.running.getD 0 = trk := by rw [hrunning]; rfl
  have hbody := Dev.copyOut_ok (trk := sl.running.getD 0) (a := a) rfl rfl (by rwa [hcommand]) hrows hcols hmove hreach hput
  rw [show d.storeBytes t sl w a (d.cpDst t sl w) = bytes from rfl] at hbody
  generalize d.putCellar sl.ctx bytes = r at hkept hbody ⊢
  exact ⟨pairwise_joinBytes _, does_issueLane rfl hissues hbody (congrArg Dev.tiles hkept :) (fun x hlane hflight =>
    ⟨hlane, rfl, rfl, (congrArg Dev.pantry hkept :), (congrArg Dev.hostMem hkept :), _, hflight, rfl, rfl⟩)⟩

end Sys2Proof.Machine
end
section
/-! PROOFS. The statement about the loader's commands (chapter 6): how a command's work ends, a program started on the slots of its entry, a load placed
and published, and a pricking freed. -/
namespace Sys2Proof.Machine

/-! ### A command's work ends (R270) -/

/-- The command's work has ended with a status, and no other command has changed. -/
def Ended (d : Dev) (trk : Nat) (st : Status) (e : Dev) : Prop :=
  (e.cmd trk).stage = .finished ∧ (e.cmd trk).status = stCombine (d.cmd trk).status st.code ∧ ∀ n, n ≠ trk → e.cmd n = d.cmd n

/-- Tiles, contexts, statistics entries, pantries and host memory are as before. -/
def PlacedNothing (d e : Dev) : Prop :=
  e.tiles = d.tiles ∧ e.ctxs = d.ctxs ∧ e.sats = d.sats ∧ e.lsts = d.lsts ∧ e.pantry = d.pantry ∧ e.hostMem = d.hostMem

/-- A change of a live command is a change of its tracker. -/
theorem Dev.updCmd_of_live {d : Dev} {trk : Nat} (f : Cmd → Cmd) (h : (d.cmd trk).live = true) : d.updCmd trk f = d.setCmd trk (f (d.cmd trk)) := by
  unfold Dev.updCmd
  exact if_pos h

/-- The end of a command's work touches the trackers only. -/
theorem Dev.finish_frame (d : Dev) (trk : Nat) (st : Status) : d.finish trk st = { d with cmds := (d.finish trk st).cmds } := by
  unfold Dev.finish Dev.updCmd
  dsimp only
  split <;> rfl

/-- A live command's work ends, where the trackers are still as before. -/
theorem ended_finish {d e : Dev} {trk : Nat} {st : Status} (hlive : (d.cmd trk).live = true) (hcmds : e.cmds = d.cmds) : Ended d trk st (e.finish trk st) := by
  have hcmd : ∀ n, e.cmd n = d.cmd n := fun n => by unfold Dev.cmd; rw [hcmds]
  unfold Dev.finish
  rw [Dev.updCmd_of_live _ (by rwa [hcmd]), hcmd]
  refine ⟨?_, ?_, fun n hn => ?_⟩
  · rw [Dev.cmd_set_same]
  · rw [Dev.cmd_set_same]
  · rw [Dev.cmd_set_ne _ _ hn, hcmd]

/-- One that ends after writes of the cellar has placed nothing. -/
theorem ended_finish_of_offCellar {d e : Dev} {trk : Nat} {st : Status} (hlive : (d.cmd trk).live = true) (h : e.offCellar = d.offCellar) :
    Ended d trk st (e.finish trk st) ∧ PlacedNothing d (e.finish trk st) := by
  refine ⟨ended_finish hlive (congrArg Dev.cmds h :), ?_⟩
  rw [Dev.finish_frame]
  exact ⟨(congrArg Dev.tiles h :), (congrArg Dev.ctxs h :), (congrArg Dev.sats h :), (congrArg Dev.lsts h :), (congrArg Dev.pantry h :),
    (congrArg Dev.hostMem h :)⟩

/-- One that ends at once has touched no register and no memory. -/
theorem ended_finish_self {d : Dev} {trk : Nat} {st : Status} (hlive : (d.cmd trk).live = true) :
    Ended d trk st (d.finish trk st) ∧ PlacedNothing d (d.finish trk st) ∧ (d.finish trk st).regs = d.regs ∧ SameMem d (d.finish trk st) := by
  obtain ⟨hended, hplaced⟩ := ended_finish_of_offCellar (st := st) hlive rfl
  refine ⟨hended, hplaced, ?_⟩
  rw [Dev.finish_frame]
  exact ⟨rfl, rfl, rfl, rfl, rfl⟩

/-- A command that begins is live and runs. -/
theorem Dev.begins_live {d : Dev} {trk typ : Nat} (h : d.begins trk typ = true) : (d.cmd trk).live = true ∧ (d.cmd trk).stage = .running := by
  simp only [Dev.begins, Bool.and_eq_true, beq_iff_eq] at h
  obtain ⟨⟨⟨⟨⟨-, hlive⟩, -⟩, hstage⟩, -⟩, -⟩ := h
  exact ⟨hlive, hstage⟩

/-- A command that begins completes with what its work gives. -/
theorem does_begins {i : Instr} {s : State} {trk typ now : Nat} {f : Dev → Dev} {P : Dev → Prop}
    (hexec : exec i s = onDev s (fun d => if (d.at now).begins trk typ then f (d.at now) else d.at now)) (hbegins : (s.dev.at now).begins trk typ = true)
    (hP : P (f (s.dev.at now))) : Does i s P := by
  refine does_onDev hexec ?_
  rwa [if_pos hbegins]

/-! ### Slots -/

/-- A slot read after a slot is replaced. -/
theorem Dev.slot_setSlot_same (d : Dev) (t k : Nat) (x : Slot) : (d.setSlot t k x).slot t k = x := by
  unfold Dev.setSlot
  rw [Dev.slot_setTile_same]
  exact tabGet_tabPut_same _ k x
theorem Dev.slot_setSlot_ne (d : Dev) {t k t' k' : Nat} (x : Slot) (h : ¬ (t' = t ∧ k' = k)) : (d.setSlot t k x).slot t' k' = d.slot t' k' := by
  unfold Dev.setSlot
  by_cases ht : t' = t
  · subst ht
    rw [Dev.slot_setTile_same]
    exact tabGet_tabPut_ne x (fun hk => h ⟨rfl, hk⟩)
  · exact Dev.slot_setTile_ne _ _ _ ht

/-- A table whose read at a key satisfies what the unlisted value does not, lists such a value. -/
theorem any_of_tabGet {α : Type} {dflt : Nat → α} {t : Table α} {p : α → Bool} {k : Nat} (hd : p (dflt k) = false) (h : p (tabGet dflt t k) = true) :
    t.any (fun e => p e.2) = true := by
  obtain ⟨e, he, -⟩ := List.mem_map.mp (mem_tabKeys_of_tabGet (p := fun _ => p) hd h)
  exact List.any_eq_true.mpr ⟨e, List.mem_filter.mp he⟩

/-- A command whose slot runs it still runs. -/
theorem Dev.stillRuns_of_slot {d : Dev} {t k trk : Nat} (hvalid : (d.slot t k).valid = true) (hrunning : (d.slot t k).running = some trk) :
    d.stillRuns trk = true := by
  have hslots : (d.tile t).slots.any (fun f => f.2.valid && f.2.running == some trk) = true :=
    any_of_tabGet (dflt := slotDflt) (p := fun x => x.valid && x.running == some trk) (k := k) rfl
      (by rw [Bool.and_eq_true, beq_iff_eq]; exact ⟨hvalid, hrunning⟩)
  exact any_of_tabGet (dflt := tileDflt) (p := fun x => x.slots.any (fun f => f.2.valid && f.2.running == some trk)) rfl hslots

/-! ### A program started (R122, R272) -/

/-- The command's registers at start: x8 and up take the words of a block, the rest read zero (R106). -/
theorem tabGet_startRegs (g : Nat → Nat) (n k : Nat) :
    tabGet natDflt ((List.range n).foldl (fun t i => tabPut natDflt t (8 + i) (g i)) []) k = if 8 ≤ k ∧ k < 8 + n then g (k - 8) else 0 := by
  induction n with
  | zero => exact (if_neg (by omega)).symm
  | succ n ih =>
    rw [List.range_succ, List.foldl_append, List.foldl_cons, List.foldl_nil]
    by_cases hk : k = 8 + n
    · subst hk
      rw [tabGet_tabPut_same, if_pos (by omega), Nat.add_sub_cancel_left]
    · have hrange : (8 ≤ k ∧ k < 8 + (n + 1)) ↔ (8 ≤ k ∧ k < 8 + n) := by omega
      rw [tabGet_tabPut_ne _ hk, ih]
      simp only [hrange]

/-- Slot `y` is slot `x` at the start of a command's program: at instruction `pc`, every token released, x8 to x15 and `STEP` of the command, x1 to x7
zero (log entry 23). -/
def Slot.Starts (x y : Slot) (trk pc : Nat) (m : Cmd) : Prop :=
  y.pc = pc ∧ y.running = some trk ∧ y.tokens = 0xFF ∧ y.loops = [] ∧ y.flight = [] ∧ y.step = m.stepOp ∧ y.units = x.units ∧ y.ctx = x.ctx ∧
  ∀ i, i < 8 → tabGet natDflt y.xs (8 + i) = m.bf (8 * i) 8 ∧ tabGet natDflt y.xs i = 0

theorem Slot.starts_startAt (x : Slot) (trk pc : Nat) (m : Cmd) : x.Starts (x.startAt trk pc m) trk pc m := by
  refine ⟨rfl, rfl, rfl, rfl, rfl, rfl, rfl, rfl, fun i hi => ⟨?_, ?_⟩⟩
  · exact (tabGet_startRegs ..).trans ((if_pos (by omega)).trans (by rw [Nat.add_sub_cancel_left]))
  · exact (tabGet_startRegs ..).trans (if_neg (by omega))

/-- The slots of a list of entry points started, one after another. -/
def Dev.startAll (d : Dev) (trk : Nat) (m : Cmd) (l : List (Nat × Nat × Nat)) : Dev :=
  l.foldl (fun d t => d.setSlot t.1 t.2.1 ((d.slot t.1 t.2.1).startAt trk t.2.2 m)) d

/-- They are slots of tiles. -/
theorem Dev.startAll_frame (d : Dev) (trk : Nat) (m : Cmd) (l : List (Nat × Nat × Nat)) :
    d.startAll trk m l = { d with tiles := (d.startAll trk m l).tiles } := by
  induction l generalizing d with
  | nil => rfl
  | cons y l ih =>
    unfold Dev.startAll at ih ⊢
    rw [List.foldl_cons, ih]
    rfl

/-- A slot that the list does not name is as before. -/
theorem Dev.slot_startAll_ne {d : Dev} {trk t k : Nat} {m : Cmd} {l : List (Nat × Nat × Nat)} (h : ∀ y, y ∈ l → ¬ (t = y.1 ∧ k = y.2.1)) :
    (d.startAll trk m l).slot t k = d.slot t k := by
  induction l generalizing d with
  | nil => rfl
  | cons y l ih => exact (ih (fun z hz => h z (List.mem_cons_of_mem _ hz))).trans (Dev.slot_setSlot_ne _ _ (h y List.mem_cons_self))

/-- A slot that it names once starts at its instruction. -/
theorem Dev.slot_startAll_mem {d : Dev} {trk : Nat} {m : Cmd} {l : List (Nat × Nat × Nat)} (hnodup : (l.map (fun t => (t.1, t.2.1))).Nodup)
    {y : Nat × Nat × Nat} (hy : y ∈ l) : (d.startAll trk m l).slot y.1 y.2.1 = (d.slot y.1 y.2.1).startAt trk y.2.2 m := by
  induction l generalizing d with
  | nil => cases hy
  | cons z l ih =>
    rw [List.map_cons, List.nodup_cons] at hnodup
    obtain ⟨hnew, hnodup⟩ := hnodup
    have hapart : ∀ x, x ∈ l → ¬ (z.1 = x.1 ∧ z.2.1 = x.2.1) := fun x hx ⟨ht, hk⟩ => hnew (List.mem_map.mpr ⟨x, hx, by rw [ht, hk]⟩)
    rcases List.mem_cons.mp hy with rfl | hy
    · exact (Dev.slot_startAll_ne hapart).trans (Dev.slot_setSlot_same ..)
    · refine (ih hnodup hy).trans ?_
      rw [Dev.slot_setSlot_ne _ _ (fun ⟨ht, hk⟩ => hapart y hy ⟨ht.symm, hk.symm⟩)]

/-- An entry of free, valid slots starts on all of them; the command runs on. -/
theorem Dev.execStart_started {d : Dev} {trk : Nat} {p : Pricking} {x : PEntry} (hlive : (d.cmd trk).live = true)
    (hpricking : (d.ctx (d.cmd trk).ctx).pricking = some p) (hentry : p.entries.find? (fun x => x.id == (d.cmd trk).entry) = some x) (hsome : x.tiles ≠ [])
    (hnodup : (x.tiles.map (fun t => (t.1, t.2.1))).Nodup)
    (hfree : ∀ t, t ∈ x.tiles → (d.slot t.1 t.2.1).running = none ∧ (d.slot t.1 t.2.1).valid = true) :
    d.execStart trk = (d.startAll trk (d.cmd trk) x.tiles).setCmd trk { d.cmd trk with started := true } := by
  have hidle : x.tiles.any (fun t => (d.slot t.1 t.2.1).running.isSome) = false :=
    List.any_eq_false.mpr (fun t ht => by rw [(hfree t ht).1]; decide)
  have hcmd : (d.startAll trk (d.cmd trk) x.tiles).cmd trk = d.cmd trk := by rw [Dev.startAll_frame]; rfl
  have hruns : ((d.startAll trk (d.cmd trk) x.tiles).setCmd trk { d.cmd trk with started := true }).stillRuns trk = true := by
    obtain ⟨y, hy⟩ := List.exists_mem_of_ne_nil _ hsome
    have hslot := Dev.slot_startAll_mem (d := d) (trk := trk) (m := d.cmd trk) hnodup hy
    exact Dev.stillRuns_of_slot (d := d.startAll trk (d.cmd trk) x.tiles) (t := y.1) (k := y.2.1) (by rw [hslot]; exact (hfree y hy).2) (by rw [hslot]; rfl)
  unfold Dev.execStart
  dsimp only
  rw [hpricking]
  dsimp only
  rw [hentry]
  dsimp only
  rw [hidle, if_neg Bool.false_ne_true, ← Dev.startAll, Dev.updCmd_of_live _ (by rwa [hcmd]), hcmd, Dev.endCheck, if_pos hruns]

/-- Without a pricking, or without such an entry, nothing starts. -/
theorem Dev.execStart_unloaded {d : Dev} {trk : Nat} (h : (d.ctx (d.cmd trk).ctx).pricking = none) : d.execStart trk = d.finish trk .badDescriptor := by
  unfold Dev.execStart
  dsimp only
  rw [h]
theorem Dev.execStart_noEntry {d : Dev} {trk : Nat} {p : Pricking} (hpricking : (d.ctx (d.cmd trk).ctx).pricking = some p)
    (hentry : p.entries.find? (fun x => x.id == (d.cmd trk).entry) = none) : d.execStart trk = d.finish trk .badDescriptor := by
  unfold Dev.execStart
  dsimp only
  rw [hpricking]
  dsimp only
  rw [hentry]

/-- While a slot of the entry runs another command, the command waits. -/
theorem Dev.execStart_busy {d : Dev} {trk : Nat} {p : Pricking} {x : PEntry} (hpricking : (d.ctx (d.cmd trk).ctx).pricking = some p)
    (hentry : p.entries.find? (fun x => x.id == (d.cmd trk).entry) = some x) (hbusy : ∃ t, t ∈ x.tiles ∧ (d.slot t.1 t.2.1).running ≠ none) :
    d.execStart trk = d := by
  obtain ⟨t, ht, hrunning⟩ := hbusy
  have hany : x.tiles.any (fun t => (d.slot t.1 t.2.1).running.isSome) = true :=
    List.any_eq_true.mpr ⟨t, ht, Option.isSome_iff_ne_none.mpr hrunning⟩
  unfold Dev.execStart
  dsimp only
  rw [hpricking]
  dsimp only
  rw [hentry]
  exact if_pos hany

/-! ### What placing and freeing leave alone -/

/-- What neither a load's placing nor the freeing of a pricking's slots touches: trackers, contexts, queues, host memory, the cellar. -/
def Dev.besideLoad (d : Dev) : Table Cmd × Table Ctx × Table Queue × List (Nat × Byte) × List (Nat × Byte) :=
  (d.cmds, d.ctxs, d.queues, d.hostMem, d.cellar)

theorem Dev.besideLoad_assignSats (d : Dev) (c h : Nat) (ids tensors : List Nat) : (d.assignSats c h ids tensors).besideLoad = d.besideLoad :=
  Dev.foldl_keeps (fun _ _ => by rfl) _ d
theorem Dev.besideLoad_assignLsts (d : Dev) (c h : Nat) (ids tensors : List Nat) : (d.assignLsts c h ids tensors).besideLoad = d.besideLoad :=
  Dev.foldl_keeps (fun _ _ => by rfl) _ d

theorem Dev.besideLoad_place (d : Dev) (c h : Nat) (im : Image) (gs : List Grant) (sats lsts : List Nat) (g : Grant) :
    (d.place c h im gs sats lsts g).besideLoad = d.besideLoad := by
  unfold Dev.place
  split
  · rfl
  · dsimp only
    rw [(pantryOnly_shelfWrite _ _ _ _).frame]
    exact Dev.foldl_keeps (keep := Dev.besideLoad) (fun _ _ => by rfl) g.units d

/-! ### A load (R146) -/

/-- A record written is a write of the cellar. -/
@[simp] theorem Dev.offCellar_putRecord (d : Dev) (m : Cmd) (bs : List Byte) : (d.putRecord m bs).offCellar = d.offCellar := by
  unfold Dev.putRecord
  split
  · rfl
  · exact Dev.offCellar_writeVa ..

/-- A context's pins recounted change that context only, and not its pricking. -/
theorem Dev.recountPins_frame (d : Dev) (c : Nat) : d.recountPins c = { d with ctxs := (d.recountPins c).ctxs } := by
  unfold Dev.recountPins
  split <;> rfl
theorem Dev.pricking_recountPins (d : Dev) (c : Nat) : ((d.recountPins c).ctx c).pricking = (d.ctx c).pricking := by
  unfold Dev.recountPins
  split
  · rw [Dev.ctx_set_same]
  · rfl
theorem Dev.ctx_recountPins_ne (d : Dev) {c j : Nat} (h : j ≠ c) : (d.recountPins c).ctx j = d.ctx j := by
  unfold Dev.recountPins
  split
  · exact Dev.ctx_set_ne _ _ h
  · rfl

/-- A load published: the context's pricking is the plan's; no other context, and nothing else beside the load, has changed. -/
def Published (d : Dev) (c : Nat) (p : LoadPlan) (e : Dev) : Prop :=
  (e.ctx c).pricking = some p.pricking ∧ (∀ j, j ≠ c → e.ctx j = d.ctx j) ∧ e.cmds = d.cmds ∧ e.hostMem = d.hostMem ∧ e.queues = d.queues

theorem published_loadPlace (d : Dev) (c : Nat) (p : LoadPlan) : Published d c p (d.loadPlace c p) := by
  unfold Dev.loadPlace
  dsimp only
  generalize hplaced : p.grants.foldl _ _ = e
  have hbeside : e.besideLoad = d.besideLoad := by
    rw [← hplaced, Dev.foldl_keeps (fun _ _ => Dev.besideLoad_place ..), Dev.besideLoad_assignLsts, Dev.besideLoad_assignSats]
  simp only [Dev.besideLoad, Prod.mk.injEq] at hbeside
  obtain ⟨hcmds, hctxs, hqueues, hhost, -⟩ := hbeside
  refine ⟨?_, fun j hj => ?_, ?_, ?_, ?_⟩
  · rw [Dev.pricking_recountPins, Dev.ctx_set_same]
  · rw [Dev.ctx_recountPins_ne _ hj, Dev.ctx_set_ne _ _ hj]
    unfold Dev.ctx
    rw [hctxs]
  · rw [Dev.recountPins_frame]; exact hcmds
  · rw [Dev.recountPins_frame]; exact hhost
  · rw [Dev.recountPins_frame]; exact hqueues

/-- Writes of the cellar leave it published. -/
theorem Published.of_offCellar {d e e' : Dev} {c : Nat} {p : LoadPlan} (h : Published d c p e) (he : e'.offCellar = e.offCellar) : Published d c p e' := by
  obtain ⟨hpricking, hother, hcmds, hhost, hqueues⟩ := h
  have hctx : ∀ j, e'.ctx j = e.ctx j := fun j => by
    have hctxs : e'.ctxs = e.ctxs := (congrArg Dev.ctxs he :)
    unfold Dev.ctx
    rw [hctxs]
  exact ⟨by rwa [hctx], fun j hj => (hctx j).trans (hother j hj), (congrArg Dev.cmds he :).trans hcmds, (congrArg Dev.hostMem he :).trans hhost,
    (congrArg Dev.queues he :).trans hqueues⟩

/-- The LOAD block has its form (R273). -/
def Cmd.loadFormed (m : Cmd) : Prop := 128 ≤ m.block.length ∧ m.ldOvr ≤ 96 ∧ m.bf 29 3 = 0 ∧ 128 ≤ m.ldRecLen

theorem Cmd.not_loadFormed_iff (m : Cmd) : ¬ m.loadFormed ↔ m.block.length < 128 ∨ 96 < m.ldOvr ∨ m.bf 29 3 ≠ 0 ∨ m.ldRecLen < 128 := by
  unfold Cmd.loadFormed
  omega

/-- How a load ends after its checks: with the status of the one that failed, or placed. -/
def Dev.loadChecked (d : Dev) (trk nclk : Nat) : Except LoadEnd LoadPlan → Dev
  | .error x => (d.putRecord (d.cmd trk) (loadHead x.status x.rej nclk x.measure 0)).finish trk x.status
  | .ok p => ((d.loadPlace (d.cmd trk).ctx p).putRecord (d.cmd trk)
      (loadHead .ok {} nclk p.measure p.entries.length ++ p.entries.flatMap PEntry.record)).finish trk .ok

/-- A block without that form ends the load. -/
theorem Dev.load_badBlock {d : Dev} {trk : Nat} (nclk : Nat) (h : ¬ (d.cmd trk).loadFormed) : d.load trk nclk = d.finish trk .badDescriptor := by
  unfold Dev.load
  exact if_pos ((Cmd.not_loadFormed_iff _).mp h)

section
variable {d : Dev} {trk : Nat} (nclk : Nat) (hform : (d.cmd trk).loadFormed)
include hform

/-- A context that has a pricking takes no other (R146). -/
theorem Dev.load_occupied (h : (d.ctx (d.cmd trk).ctx).pricking.isSome = true) :
    d.load trk nclk = (d.putRecord (d.cmd trk) (loadHead .loaderReject { code := 0x0106 } nclk [] 0)).finish trk .loaderReject := by
  unfold Dev.load
  dsimp only
  rw [if_neg (fun hbad => (Cmd.not_loadFormed_iff _).mpr hbad hform), if_pos h]

variable {head bs : List Byte} (hfree : (d.ctx (d.cmd trk).ctx).pricking = none)
  (hhead : d.readVa (d.cmd trk).ctx (d.cmd trk).ldImage (min 256 (d.cmd trk).ldLen) = .data head) (hmagic : img head 0 8 = imgMagic)
  (hlen : img head 16 8 = (d.cmd trk).ldLen) (hread : d.readVa (d.cmd trk).ctx (d.cmd trk).ldImage (d.cmd trk).ldLen = .data bs)
include hfree hhead hmagic hlen hread

/-- An image that can be read goes through the checks. -/
theorem Dev.load_read : d.load trk nclk = d.loadChecked trk nclk (d.loadCheck (d.cmd trk) bs) := by
  have hunloaded : ¬ (d.ctx (d.cmd trk).ctx).pricking.isSome = true := by rw [hfree]; decide
  have hbytes : (d.readVa (d.cmd trk).ctx (d.cmd trk).ldImage (min 256 (d.cmd trk).ldLen)).bytes = head := by rw [hhead]; rfl
  unfold Dev.load
  dsimp only
  rw [if_neg (fun hbad => (Cmd.not_loadFormed_iff _).mpr hbad hform), if_neg hunloaded, hbytes, if_pos ⟨hmagic, hlen⟩, hread]
  dsimp only
  cases d.loadCheck (d.cmd trk) bs <;> rfl

end

/-! ### A pricking freed (R134) -/

/-- A unit freed leaves every slot alone. -/
theorem Dev.slot_freeUnit (d : Dev) (t u t' k' : Nat) : (d.freeUnit t u).slot t' k' = d.slot t' k' := by
  by_cases ht : t' = t
  · subst ht
    exact Dev.slot_setTile_same ..
  · exact Dev.slot_setTile_ne _ _ _ ht

/-- A slot freed is free, and no other slot changes. -/
theorem Dev.slot_freeSlot (d : Dev) (t k t' k' : Nat) : (d.freeSlot t k).slot t' k' = if t' = t ∧ k' = k then {} else d.slot t' k' := by
  have hunits : (((d.slot t k).units.foldl (fun d u => d.freeUnit t u) d).slot t' k') = d.slot t' k' :=
    Dev.foldl_keeps (keep := fun d => d.slot t' k') (fun d u => d.slot_freeUnit t u t' k') _ d
  unfold Dev.freeSlot
  dsimp only
  by_cases ht : t' = t
  · subst ht
    rw [Dev.slot_setTile_same]
    by_cases hk : k' = k
    · rw [if_pos ⟨rfl, hk⟩, hk]
      exact tabGet_tabPut_same _ k _
    · rw [if_neg (fun h => hk h.2), ← hunits]
      exact tabGet_tabPut_ne _ hk
  · rw [Dev.slot_setTile_ne _ _ _ ht, if_neg (fun h => ht h.1), hunits]

/-- Slots freed one after another. -/
theorem Dev.slot_foldl_freeSlot (l : List (Nat × Nat)) (d : Dev) (t k : Nat) :
    (l.foldl (fun d e => d.freeSlot e.1 e.2) d).slot t k = if (t, k) ∈ l then {} else d.slot t k := by
  induction l generalizing d with
  | nil => simp
  | cons e l ih =>
    rw [List.foldl_cons, ih, Dev.slot_freeSlot]
    by_cases hl : (t, k) ∈ l
    · rw [if_pos hl, if_pos (List.mem_cons_of_mem _ hl)]
    · have hmem : (t, k) ∈ e :: l ↔ (t = e.1 ∧ k = e.2) := by rw [List.mem_cons, or_iff_left hl, Prod.ext_iff]
      rw [if_neg hl]
      simp only [hmem]

theorem Dev.besideLoad_freeSlot (d : Dev) (t k : Nat) : (d.freeSlot t k).besideLoad = d.besideLoad :=
  Dev.foldl_keeps (keep := Dev.besideLoad) (fun _ _ => by rfl) (d.slot t k).units d
theorem Dev.regs_freeSlot (d : Dev) (t k : Nat) : (d.freeSlot t k).regs = d.regs :=
  Dev.foldl_keeps (keep := Dev.regs) (fun _ _ => by rfl) (d.slot t k).units d

/-- A context without pricking: its slots are free, no other slot and no other context has changed, and neither has anything else beside them. -/
def Unloaded (d : Dev) (c : Nat) (e : Dev) : Prop :=
  (e.ctx c).pricking = none ∧ (∀ j, j ≠ c → e.ctx j = d.ctx j) ∧ (∀ t k, (t, k) ∈ d.slotsOf c → (e.slot t k).valid = false) ∧
  (∀ t k, (t, k) ∉ d.slotsOf c → e.slot t k = d.slot t k) ∧ e.regs = d.regs ∧ e.cellar = d.cellar ∧ e.hostMem = d.hostMem

theorem unloaded_freePricking (d : Dev) (c : Nat) : Unloaded d c (d.freePricking c) ∧ (d.freePricking c).cmds = d.cmds := by
  have hslot := Dev.slot_foldl_freeSlot (d.slotsOf c) d
  have hregs := Dev.foldl_keeps (fun d (e : Nat × Nat) => d.regs_freeSlot e.1 e.2) (d.slotsOf c) d
  have hbeside := Dev.foldl_keeps (fun d (e : Nat × Nat) => d.besideLoad_freeSlot e.1 e.2) (d.slotsOf c) d
  unfold Dev.freePricking
  dsimp only
  generalize (d.slotsOf c).foldl _ d = e at hslot hregs hbeside ⊢
  simp only [Dev.besideLoad, Prod.mk.injEq] at hbeside
  obtain ⟨hcmds, hctxs, -, hhost, hcellar⟩ := hbeside
  refine ⟨⟨?_, fun j hj => ?_, fun t k hin => ?_, fun t k hout => ?_, hregs, hcellar, hhost⟩, hcmds⟩
  · rw [Dev.ctx_set_same]
  · rw [Dev.ctx_set_ne _ _ hj]
    unfold Dev.ctx
    rw [← hctxs]
  · exact congrArg Slot.valid ((hslot t k).trans (if_pos hin))
  · exact (hslot t k).trans (if_neg hout)

/-- An UNLOAD of a context that has nothing loaded, or another command, ends; any other frees the pricking. -/
theorem Dev.unload_refused {d : Dev} {trk : Nat} (h : (d.ctx (d.cmd trk).ctx).pricking = none ∨
    ∃ t, t ∈ d.cmdsOf (fun x => x.ctx == (d.cmd trk).ctx) ∧ t ≠ trk) : d.unload trk = d.finish trk .badDescriptor := by
  unfold Dev.unload
  refine if_pos ?_
  rw [Bool.or_eq_true, Option.isNone_iff_eq_none, List.any_eq_true]
  exact h.imp_right (fun ⟨t, ht, hne⟩ => ⟨t, ht, bne_iff_ne.mpr hne⟩)
theorem Dev.unload_ok {d : Dev} {trk : Nat} (hloaded : (d.ctx (d.cmd trk).ctx).pricking ≠ none)
    (halone : ∀ t, t ∈ d.cmdsOf (fun x => x.ctx == (d.cmd trk).ctx) → t = trk) : d.unload trk = (d.freePricking (d.cmd trk).ctx).finish trk .ok := by
  unfold Dev.unload
  refine if_neg ?_
  rw [Bool.or_eq_true, Option.isNone_iff_eq_none, List.any_eq_true]
  rintro (h | ⟨t, ht, hne⟩)
  · exact hloaded h
  · exact bne_iff_ne.mp hne (halone t ht)

/-! ### The commands -/

section
variable {s : State} {trk now : Nat}

/-- A refused EXEC ends, and has touched no register and no memory. -/
theorem does_execCmd_refused (h : (s.dev.at now).begins trk tyExec = true)
    (hrefused : (s.dev.at now).execStart trk = (s.dev.at now).finish trk .badDescriptor) :
    Does (.execCmd trk now) s (fun e => Ended (s.dev.at now) trk .badDescriptor e ∧ PlacedNothing (s.dev.at now) e ∧ SameMem (s.dev.at now) e) := by
  refine does_begins (f := fun d => d.execStart trk) rfl h ?_
  rw [hrefused]
  obtain ⟨hended, hplaced, -, hmem⟩ := ended_finish_self (st := .badDescriptor) (Dev.begins_live h).1
  exact ⟨hended, hplaced, hmem⟩

/-- A LOAD that ends after its record is written has placed nothing. -/
theorem does_loadCmd_refused {nclk : Nat} {st : Status} {bs : List Byte} (h : (s.dev.at now).begins trk tyLoad = true)
    (hrefused : (s.dev.at now).load trk nclk = ((s.dev.at now).putRecord ((s.dev.at now).cmd trk) bs).finish trk st) :
    Does (.loadCmd trk nclk now) s (fun e => Ended (s.dev.at now) trk st e ∧ PlacedNothing (s.dev.at now) e) := by
  refine does_begins (f := fun d => d.load trk nclk) rfl h ?_
  rw [hrefused]
  exact ended_finish_of_offCellar (Dev.begins_live h).1 (Dev.offCellar_putRecord ..)

end

/-- Settles O33, command by command. -/
theorem loaderCommands : Obligations.LoaderCommands := by
  unfold Obligations.LoaderCommands
  intro s trk nclk now d m ended placedNothing
  refine ⟨fun h => ?signal, fun h => ⟨fun hnone => ?unloaded, fun p hp => ⟨fun hnone => ?noEntry, fun x hx => ⟨fun hbusy => ?busy,
    fun hsome hnodup hfree => ?started⟩⟩⟩, fun h hblock hovr hres hrec => ⟨fun hloaded => ?occupied, fun head bs hfree hhead hmagic hlen hread =>
    ⟨fun x hx => ?rejected, fun p hp => ?published⟩⟩, fun h hbad => ?badBlock, fun h => ⟨fun hrefused => ?refused, fun hloaded halone => ?freed⟩⟩
  case signal => exact does_begins (f := fun d => d.finish trk .ok) rfl h (ended_finish_self (Dev.begins_live h).1)
  case unloaded => exact does_execCmd_refused h (Dev.execStart_unloaded hnone)
  case noEntry => exact does_execCmd_refused h (Dev.execStart_noEntry hp hnone)
  case busy => exact does_begins (f := fun d => d.execStart trk) rfl h (Dev.execStart_busy hp hx hbusy)
  case started =>
    obtain ⟨hlive, hstage⟩ := Dev.begins_live h
    refine does_begins (f := fun d => d.execStart trk) rfl h ?_
    rw [Dev.execStart_started hlive hp hx hsome hnodup hfree]
    refine ⟨?_, ?_, fun n hn => ?_, fun t ht => ?_, fun t k hother => ?_, ?_⟩
    · rw [Dev.cmd_set_same]
    · rw [Dev.cmd_set_same]
      exact hstage
    · rw [Dev.cmd_set_ne _ _ hn, Dev.startAll_frame]
      rfl
    · have hslot := Dev.slot_startAll_mem (d := d) (trk := trk) (m := m) hnodup ht
      exact hslot ▸ Slot.starts_startAt (d.slot t.1 t.2.1) trk t.2.2 m
    · exact Dev.slot_startAll_ne hother
    · rw [Dev.startAll_frame]
      exact ⟨rfl, rfl, rfl, rfl, rfl, rfl⟩
  case occupied => exact does_loadCmd_refused h (Dev.load_occupied nclk ⟨hblock, hovr, hres, hrec⟩ hloaded)
  case rejected =>
    refine does_loadCmd_refused (bs := loadHead x.status x.rej nclk x.measure 0) h ?_
    rw [Dev.load_read nclk ⟨hblock, hovr, hres, hrec⟩ hfree hhead hmagic hlen hread, hx, Dev.loadChecked]
  case published =>
    refine does_begins (f := fun d => d.load trk nclk) rfl h ?_
    rw [Dev.load_read nclk ⟨hblock, hovr, hres, hrec⟩ hfree hhead hmagic hlen hread, hp, Dev.loadChecked]
    obtain ⟨hpricking, hother, hcmds, hhost, hqueues⟩ := (published_loadPlace d m.ctx p).of_offCellar (Dev.offCellar_putRecord ..)
    refine ⟨ended_finish (Dev.begins_live h).1 hcmds, ?_⟩
    rw [Dev.finish_frame]
    exact ⟨hpricking, hother, hhost, hqueues⟩
  case badBlock =>
    refine does_begins (f := fun d => d.load trk nclk) rfl h ?_
    rw [Dev.load_badBlock nclk ((Cmd.not_loadFormed_iff _).mpr hbad)]
    exact ended_finish_self (Dev.begins_live h).1
  case refused =>
    refine does_begins (f := fun d => d.unload trk) rfl h ?_
    rw [Dev.unload_refused hrefused]
    exact ended_finish_self (Dev.begins_live h).1
  case freed =>
    refine does_begins (f := fun d => d.unload trk) rfl h ?_
    obtain ⟨hunloaded, hcmds⟩ := unloaded_freePricking d m.ctx
    rw [Dev.unload_ok hloaded halone]
    refine ⟨ended_finish (Dev.begins_live h).1 hcmds, ?_⟩
    rw [Dev.finish_frame]
    exact hunloaded

end Sys2Proof.Machine
end
section
/-! PROOFS. The statement about the starts of the darners' commands (chapter 8): what is read of a command's list and records, how a command is refused
and how it begins. -/
namespace Sys2Proof.Machine

/-! ### What the register file does not tell of a list (R173) -/

theorem Dev.reachRuns_regs (d : Dev) (r : Table Word) (c : Nat) (write : Bool) (l : List (Int × Nat)) :
    ({ d with regs := r } : Dev).reachRuns c write l = d.reachRuns c write l := by
  simp only [Dev.reachRuns, Dev.reachFrom_regs]

theorem Dev.recAddr_regs (d : Dev) (r : Table Word) (m : Cmd) (i : Nat) : ({ d with regs := r } : Dev).recAddr m i = d.recAddr m i := by
  simp only [Dev.recAddr, Dev.readVa_regs]

theorem Dev.prec_regs (d : Dev) (r : Table Word) (m : Cmd) (i : Nat) : ({ d with regs := r } : Dev).prec m i = d.prec m i := by
  simp only [Dev.prec, Dev.recAddr_regs, Dev.readVa_regs]

theorem Dev.precs_regs (d : Dev) (r : Table Word) (m : Cmd) : ({ d with regs := r } : Dev).precs m = d.precs m :=
  List.map_congr_left fun i _ => d.prec_regs r m i

theorem Dev.precRaw_regs (d : Dev) (r : Table Word) (m : Cmd) (i : Nat) : ({ d with regs := r } : Dev).precRaw m i = d.precRaw m i := by
  simp only [Dev.precRaw, Dev.recAddr_regs, Dev.readVa_regs]

/-- Whether a list passes R173 and R175 is the same whatever the registers hold. -/
theorem Dev.listBad_regs (d : Dev) (r : Table Word) (m : Cmd) : ({ d with regs := r } : Dev).listBad m = d.listBad m := by
  simp only [Dev.listBad, Dev.prec_regs, Dev.precs_regs, Dev.precRaw_regs]
  rfl
theorem Dev.entriesBad_regs (d : Dev) (r : Table Word) (m : Cmd) : ({ d with regs := r } : Dev).entriesBad m = d.entriesBad m := by
  simp only [Dev.entriesBad, Dev.precs_regs]

/-- And so is whether a strip runs. -/
theorem stripRuns_regs (d : Dev) (r : Table Word) (c : Nat) (rd wr : List (Nat × Nat)) :
    StripRuns ({ d with regs := r } : Dev) c rd wr ↔ StripRuns d c rd wr := by
  simp only [StripRuns, Dev.reachRuns_regs]
  rfl

/-! ### The list and the records read -/

/-- A strip that runs goes on, with registers changed at most: the bytes read are counted (R233). -/
theorem Dev.withStrip_of_runs {d : Dev} {trk : Nat} (n : Nat) {rd wr : List (Nat × Nat)} (h : StripRuns d (d.cmd trk).ctx rd wr) :
    ∃ r, ∀ k, d.withStrip trk n rd wr k = k { d with regs := r } := by
  obtain ⟨⟨ps, hread, hclean⟩, qs, hwrite⟩ := h
  refine ⟨(d.celRead ps).regs, fun k => ?_⟩
  unfold Dev.withStrip
  simp only [hread, hwrite, hclean, Bool.false_eq_true, if_false]
  rw [← Dev.celRead_frame]

/-- A command's list and records can be read. -/
def Dev.Readable (d : Dev) (m : Cmd) : Prop :=
  StripRuns d m.ctx [(m.ulist, 8 * m.ucount)] [] ∧ StripRuns d m.ctx ((List.range m.ucount).map (fun i => (d.recAddr m i, 256))) []

/-- A command whose list and records can be read goes on to look at them, with registers changed at most. -/
theorem Dev.withRecords_of_readable {d : Dev} {trk : Nat} (h : d.Readable (d.cmd trk)) : ∃ r, ∀ k, d.withRecords trk k = k { d with regs := r } := by
  obtain ⟨hlist, hrecords⟩ := h
  obtain ⟨r, hr⟩ := Dev.withStrip_of_runs 0 hlist
  obtain ⟨r', hr'⟩ := Dev.withStrip_of_runs (d := { d with regs := r }) (trk := trk) 0 ((stripRuns_regs d r _ _ _).mpr hrecords)
  refine ⟨r', fun k => ?_⟩
  unfold Dev.withRecords
  dsimp only
  rw [hr]
  simp only [Dev.recAddr_regs]
  exact hr' k

/-! ### How a darner's command leaves its tracker -/

/-- Memories, every other tracker, tiles and hoops are as before. -/
def BesideTracker (d : Dev) (trk : Nat) (e : Dev) : Prop :=
  SameMem d e ∧ (∀ n, n ≠ trk → e.cmd n = d.cmd n) ∧ e.tiles = d.tiles ∧ e.hoops = d.hoops

/-- Registers, fences and one tracker replaced leave the rest alone. -/
theorem besideTracker_setCmd (d : Dev) (r : Table Word) (t : Table Fence) (trk : Nat) (m : Cmd) :
    BesideTracker d trk (({ d with regs := r, fences := t } : Dev).setCmd trk m) :=
  ⟨⟨rfl, rfl, rfl, rfl⟩, fun _ hn => Dev.cmd_set_ne _ _ hn, rfl, rfl⟩

/-- A command's work has ended with a status; beside its tracker, registers and fences at most have changed. -/
def DarnEnded (d : Dev) (trk : Nat) (st : Status) (e : Dev) : Prop :=
  (e.cmd trk).stage = .finished ∧ (e.cmd trk).status = stCombine (d.cmd trk).status st.code ∧ BesideTracker d trk e

/-- A command's strips have begun at one; beside its tracker, registers and fences at most have changed. -/
def DarnStarted (d : Dev) (trk c : Nat) (e : Dev) : Prop :=
  (e.cmd trk).started = true ∧ (e.cmd trk).cursor = c ∧ (e.cmd trk).stage = .running ∧ BesideTracker d trk e

/-- A live command's change, with registers and fences changed at most before. -/
theorem Dev.updCmd_fences {d : Dev} {trk : Nat} (r : Table Word) (t : Table Fence) (f : Cmd → Cmd) (hlive : (d.cmd trk).live = true) :
    ({ d with regs := r, fences := t } : Dev).updCmd trk f = ({ d with regs := r, fences := t } : Dev).setCmd trk (f (d.cmd trk)) :=
  Dev.updCmd_of_live f hlive

/-- A command whose work ends so. -/
theorem darnEnded_finish {d : Dev} {trk : Nat} (st : Status) (r : Table Word) (t : Table Fence) (hlive : (d.cmd trk).live = true) :
    DarnEnded d trk st (({ d with regs := r, fences := t } : Dev).finish trk st) := by
  unfold DarnEnded Dev.finish
  rw [Dev.updCmd_fences r t _ hlive, Dev.cmd_set_same]
  exact ⟨rfl, rfl, besideTracker_setCmd ..⟩

/-- A running command that begins so. -/
theorem darnStarted_updCmd {d : Dev} {trk c : Nat} {f : Cmd → Cmd} (r : Table Word) (t : Table Fence) (hlive : (d.cmd trk).live = true)
    (hstage : (d.cmd trk).stage = .running) (hf : (f (d.cmd trk)).started = true ∧ (f (d.cmd trk)).cursor = c ∧ (f (d.cmd trk)).stage = (d.cmd trk).stage) :
    DarnStarted d trk c (({ d with regs := r, fences := t } : Dev).updCmd trk f) := by
  obtain ⟨hstarted, hcursor, hkept⟩ := hf
  unfold DarnStarted
  rw [Dev.updCmd_fences r t _ hlive, Dev.cmd_set_same]
  exact ⟨hstarted, hcursor, hkept.trans hstage, besideTracker_setCmd ..⟩

/-- A change of a tracker leaves the fences alone. -/
theorem Dev.fences_updCmd (d : Dev) (trk : Nat) (f : Cmd → Cmd) : (d.updCmd trk f).fences = d.fences := by
  unfold Dev.updCmd
  dsimp only
  split <;> rfl

/-! ### FOLD and SCAN begin (R173, R175) -/

/-- A list that fails its checks ends the command; one that passes begins at strip 0. -/
theorem Dev.startPass_bad {d : Dev} {trk : Nat} (hread : d.Readable (d.cmd trk)) (h : d.listBad (d.cmd trk) = true ∨ d.entriesBad (d.cmd trk) = true) :
    ∃ r, d.startPass trk = ({ d with regs := r } : Dev).finish trk .badDescriptor := by
  obtain ⟨r, hr⟩ := Dev.withRecords_of_readable hread
  refine ⟨r, (hr _).trans (if_pos ?_)⟩
  rw [Bool.or_eq_true]
  exact h.imp (d.listBad_regs r _).trans (d.entriesBad_regs r _).trans
theorem Dev.startPass_ok {d : Dev} {trk : Nat} (hread : d.Readable (d.cmd trk)) (hlist : d.listBad (d.cmd trk) = false)
    (hentries : d.entriesBad (d.cmd trk) = false) :
    ∃ r, d.startPass trk = ({ d with regs := r } : Dev).updCmd trk (fun m => { m with started := true, cursor := 0, satAcc := [], lstAcc := [] }) := by
  obtain ⟨r, hr⟩ := Dev.withRecords_of_readable hread
  refine ⟨r, (hr _).trans (if_neg ?_)⟩
  rw [Bool.or_eq_true, not_or, Bool.not_eq_true, Bool.not_eq_true]
  exact ⟨(d.listBad_regs r _).trans hlist, (d.entriesBad_regs r _).trans hentries⟩

/-! ### STEP begins (R182 to R184) -/

/-- A STEP refused after its fence was found its own: the fence no longer names a STEP that runs. -/
def Dev.dropStep (d : Dev) (trk : Nat) (st : Status) : Dev :=
  (d.setFence (d.cmd trk).ufence { d.fence (d.cmd trk).ufence with running := none }).finish trk st

/-- The fence recorded the list and the step of the command (R184). -/
def Fence.Recorded (f : Fence) (m : Cmd) : Prop := f.listAddr = m.ulist ∧ f.listCount = m.ucount ∧ f.updStep = m.ustep

/-- Why a STEP ends on its own fence before its list is read, and with what (R182, R184). -/
def Fence.EndsStep (f : Fence) (m : Cmd) (st : Status) : Prop :=
  (f.state = .lost ∧ st = .badDescriptor) ∨ (f.state = .incomplete ∧ ¬ f.Recorded m ∧ st = .badDescriptor) ∨
  (f.state = .idle ∧ m.ustep ≤ f.step ∧ st = .ok)

/-- The fence of a STEP that begins at strip `c`. -/
def Fence.begun (f : Fence) (m : Cmd) (trk c : Nat) : Fence :=
  { f with state := .updating, listAddr := m.ulist, listCount := m.ucount, updStep := m.ustep, cursor := c, running := some trk }

/-- Where a STEP may begin, and at which strip: a greater step on an IDLE fence at 0, what an INCOMPLETE fence recorded at its strip. -/
def Fence.BeginsStep (f : Fence) (m : Cmd) (c : Nat) : Prop :=
  (f.state = .idle ∧ f.step < m.ustep ∧ c = 0) ∨ (f.state = .incomplete ∧ f.Recorded m ∧ c = f.cursor)

/-- The model's comparison of the fence with the command. -/
theorem Fence.same_eq_false_iff (f : Fence) (m : Cmd) :
    (f.listAddr == m.ulist && f.listCount == m.ucount && f.updStep == m.ustep) = false ↔ ¬ f.Recorded m := by
  simp [Fence.Recorded]

/-- Such a fence passes what ends a STEP before its list is read. -/
theorem Fence.BeginsStep.passes {f : Fence} {m : Cmd} {c : Nat} (h : f.BeginsStep m c) : f.state ≠ .free ∧ f.state ≠ .lost ∧
    ¬ (f.state = .incomplete ∧ (f.listAddr == m.ulist && f.listCount == m.ucount && f.updStep == m.ustep) = false) ∧
    ¬ (f.state = .idle ∧ m.ustep ≤ f.step) ∧ (if f.state = .incomplete then f.cursor else 0) = c := by
  rcases h with ⟨hidle, hlt, rfl⟩ | ⟨hinc, hrec, rfl⟩
  · simp [hidle, hlt]
  · simpa [hinc, Fence.Recorded] using hrec

section
variable {d : Dev} {trk : Nat}

/-- A STEP on a FREE fence or another context's touches no fence. -/
theorem Dev.startStep_foreign (h : (d.fence (d.cmd trk).ufence).state = .free ∨ (d.fence (d.cmd trk).ufence).ctx ≠ (d.cmd trk).ctx) :
    d.startStep trk = d.finish trk .accessDenied := by
  unfold Dev.startStep
  exact if_pos h

variable (hctx : (d.fence (d.cmd trk).ufence).ctx = (d.cmd trk).ctx)
include hctx

theorem Dev.startStep_ends {st : Status} (h : (d.fence (d.cmd trk).ufence).EndsStep (d.cmd trk) st) : d.startStep trk = d.dropStep trk st := by
  unfold Dev.startStep
  dsimp only
  rcases h with ⟨hlost, rfl⟩ | ⟨hinc, hrec, rfl⟩ | ⟨hidle, hle, rfl⟩
  · rw [if_neg (by simp [hlost, hctx]), if_pos hlost]
    rfl
  · rw [if_neg (by simp [hinc, hctx]), if_neg (by simp [hinc]), if_pos ⟨hinc, (Fence.same_eq_false_iff ..).mpr hrec⟩]
    rfl
  · rw [if_neg (by simp [hidle, hctx]), if_neg (by simp [hidle]), if_neg (by simp [hidle]), if_pos ⟨hidle, hle⟩]
    rfl

variable {c : Nat} (h : (d.fence (d.cmd trk).ufence).BeginsStep (d.cmd trk) c) (hread : d.Readable (d.cmd trk))
include h hread

/-- A STEP that may begin ends where its list fails, and otherwise begins at its strip. -/
theorem Dev.startStep_reads : ∃ r sc, d.startStep trk = if d.listBad (d.cmd trk) = true then ({ d with regs := r } : Dev).dropStep trk .badDescriptor
    else (({ d with regs := r } : Dev).setFence (d.cmd trk).ufence ((d.fence (d.cmd trk).ufence).begun (d.cmd trk) trk c)).updCmd trk
      (fun m => { m with started := true, cursor := c, scratch := sc }) := by
  obtain ⟨r, hr⟩ := Dev.withRecords_of_readable hread
  refine ⟨r, ({ d with regs := r } : Dev).resumeMaxima (d.cmd trk) c, ?_⟩
  obtain ⟨hfree, hlost, hsame, habove, hcursor⟩ := h.passes
  rw [← d.listBad_regs r]
  unfold Dev.startStep
  dsimp only
  rw [if_neg (by simp [hfree, hctx]), if_neg hlost, if_neg hsame, if_neg habove, hr, hcursor]
  rfl

theorem Dev.startStep_bad (hlist : d.listBad (d.cmd trk) = true) : ∃ r, d.startStep trk = ({ d with regs := r } : Dev).dropStep trk .badDescriptor := by
  obtain ⟨r, sc, hstart⟩ := Dev.startStep_reads hctx h hread
  exact ⟨r, hstart.trans (if_pos hlist)⟩
theorem Dev.startStep_ok (hlist : d.listBad (d.cmd trk) = false) : ∃ r sc, d.startStep trk =
    (({ d with regs := r } : Dev).setFence (d.cmd trk).ufence ((d.fence (d.cmd trk).ufence).begun (d.cmd trk) trk c)).updCmd trk
      (fun m => { m with started := true, cursor := c, scratch := sc }) := by
  obtain ⟨r, sc, hstart⟩ := Dev.startStep_reads hctx h hread
  exact ⟨r, sc, hstart.trans (if_neg (by simp [hlist]))⟩

end

/-! ### The commands -/

/-- One fence reads `f`, and every other as before. -/
def FenceSet (d : Dev) (k : Nat) (f : Fence) (e : Dev) : Prop := e.fence k = f ∧ ∀ n, n ≠ k → e.fence n = d.fence n

theorem fenceSet_updCmd (d : Dev) (r : Table Word) (k : Nat) (f : Fence) (trk : Nat) (g : Cmd → Cmd) :
    FenceSet d k f ((({ d with regs := r } : Dev).setFence k f).updCmd trk g) := by
  unfold FenceSet Dev.fence
  rw [Dev.fences_updCmd]
  exact ⟨Dev.fence_set_same .., fun n hn => Dev.fence_set_ne _ _ hn⟩

/-- A STEP dropped. -/
theorem darnEnded_dropStep {d : Dev} {trk : Nat} (st : Status) (r : Table Word) (hlive : (d.cmd trk).live = true) :
    let e := ({ d with regs := r } : Dev).dropStep trk st
    DarnEnded d trk st e ∧ FenceSet d (d.cmd trk).ufence { d.fence (d.cmd trk).ufence with running := none } e :=
  ⟨darnEnded_finish st r _ hlive, fenceSet_updCmd ..⟩

/-- A released update of the operation completes with what its start gives. -/
theorem does_beginsUpdate {i : Instr} {s : State} {trk now op : Nat} {f : Dev → Dev} {P : Dev → Prop}
    (hexec : exec i s = onDev s (fun d => if (d.at now).begins trk tyUpdate && ((d.at now).cmd trk).uop == op then f (d.at now) else d.at now))
    (hbegins : (s.dev.at now).begins trk tyUpdate = true) (hop : ((s.dev.at now).cmd trk).uop = op) (hP : P (f (s.dev.at now))) : Does i s P := by
  refine does_onDev hexec ?_
  rwa [if_pos (by simp [hbegins, hop])]

/-- FOLD and SCAN are passes over the list. -/
theorem exec_pass {op : Nat} {i : Instr} {trk now : Nat} (h : (op, i) ∈ [(1, Instr.foldCmd trk now), (2, Instr.scanCmd trk now)]) (s : State) :
    exec i s = onDev s (fun d => if (d.at now).begins trk tyUpdate && ((d.at now).cmd trk).uop == op then (d.at now).startPass trk else d.at now) := by
  simp only [List.mem_cons, Prod.mk.injEq, List.not_mem_nil, or_false] at h
  rcases h with ⟨rfl, rfl⟩ | ⟨rfl, rfl⟩ <;> rfl

/-- Settles O34: a pass begins or ends by its list; a STEP ends on its fence, or reads its list and then begins or ends (R173, R175, R182, R184). -/
theorem darnerStarts : Obligations.DarnerStarts := by
  intro s trk now d m f readable kept ended sameFences recorded started hbegins
  obtain ⟨hlive, hstage⟩ := Dev.begins_live hbegins
  refine ⟨fun op i hi hop hread => ⟨fun hlist hentries => ?_, fun hbad => ?_⟩, fun hop => ?_⟩
  · refine does_beginsUpdate (f := fun d => d.startPass trk) (exec_pass hi s) hbegins hop ?_
    obtain ⟨r, hr⟩ := Dev.startPass_ok hread hlist hentries
    rw [hr]
    exact ⟨darnStarted_updCmd r d.fences hlive hstage ⟨rfl, rfl, rfl⟩, Dev.fences_updCmd ..⟩
  · refine does_beginsUpdate (f := fun d => d.startPass trk) (exec_pass hi s) hbegins hop ?_
    obtain ⟨r, hr⟩ := Dev.startPass_bad hread hbad
    rw [hr]
    exact ⟨darnEnded_finish .badDescriptor r d.fences hlive, Dev.fences_updCmd ..⟩
  have hstep : ∀ {P : Dev → Prop}, P (d.startStep trk) → Does (.stepCmd trk now) s P := fun hP =>
    does_beginsUpdate (f := fun d => d.startStep trk) rfl hbegins hop hP
  have hends : ∀ {st : Status}, f.ctx = m.ctx → f.EndsStep m st →
      Does (.stepCmd trk now) s (fun e => ended st e ∧ e.fence m.ufence = { f with running := none } ∧ sameFences e) := fun hctx h =>
    hstep (Dev.startStep_ends hctx h ▸ darnEnded_dropStep _ d.regs hlive)
  have hstarts : ∀ {c : Nat}, f.ctx = m.ctx → f.BeginsStep m c → readable → d.listBad m = false →
      Does (.stepCmd trk now) s (fun e => started c e ∧ FenceSet d m.ufence (f.begun m trk c) e) := fun hctx h hread hlist => by
    obtain ⟨r, sc, hr⟩ := Dev.startStep_ok hctx h hread hlist
    exact hstep (hr ▸ ⟨darnStarted_updCmd r _ hlive hstage ⟨rfl, rfl, rfl⟩, fenceSet_updCmd ..⟩)
  refine ⟨fun h => ?foreign, fun _ hctx => ⟨fun h => ?lost, fun h hrec => ?mismatched, fun h hle => ?notAbove, fun h hlt hread hlist => ?above,
    fun h hrec hread hlist => ?resumed, fun h hlt hread hlist => ?badList⟩⟩
  case foreign => exact hstep (Dev.startStep_foreign h ▸ ⟨darnEnded_finish .accessDenied d.regs d.fences hlive, Dev.fences_updCmd ..⟩)
  case lost => exact hends hctx (.inl ⟨h, rfl⟩)
  case mismatched => exact hends hctx (.inr (.inl ⟨h, hrec, rfl⟩))
  case notAbove => exact hends hctx (.inr (.inr ⟨h, hle, rfl⟩))
  case above =>
    obtain ⟨e, hexec, hstarted, hfence, hother⟩ := hstarts hctx (.inl ⟨h, hlt, rfl⟩) hread hlist
    exact ⟨e, hexec, hstarted, hother, hfence⟩
  case resumed =>
    obtain ⟨e, hexec, hstarted, hfence, hother⟩ := hstarts hctx (.inr ⟨h, hrec, rfl⟩) hread hlist
    exact ⟨e, hexec, hstarted, hother, hfence ▸ rfl, hfence ▸ rfl⟩
  case badList =>
    obtain ⟨r, hr⟩ := Dev.startStep_bad hctx (.inl ⟨h, hlt, rfl⟩) hread hlist
    obtain ⟨hended, hfence, hother⟩ := darnEnded_dropStep .badDescriptor r hlive
    exact hstep (hr ▸ ⟨hended, hother, by rw [hfence]; exact h⟩)

end Sys2Proof.Machine
end
section
/-! PROOFS. The statement about `LST_CTL` (chapter 8): how a write of the owner's port comes to its register, and when the value is refused. -/
namespace Sys2Proof.Machine

/-- `LST_CTL` as the page's map has it. -/
def lstCtl : RegDef := ⟨0x0100, .rw, 0, 0x1FFFFF, 0x0100, 1, false⟩

theorem regDef_lstCtl : regDef pgLst 0x0100 = some lstCtl := by decide

/-- A function's port reaches the LST page and selects an entry of a context of the function, and the page's crossing is open. -/
structure Dev.LstOpen (d : Dev) (port : Nat) : Prop where
  func : portIsFunc port = true
  arrives : d.arrives port = true
  live : d.live = true
  sel : d.bankN pgLst port 0x0030 ≤ pageSelMax pgLst
  own : ((d.lst (d.bankN pgLst port 0x0030)).assigned && d.seesCtx port (d.lst (d.bankN pgLst port 0x0030)).ctx) = true
  crossing : d.xOpen 138 = true

/-- A write of the register, while the core runs, is logged where the value breaks R188, and is a plain one otherwise. -/
theorem Dev.writeReg_lstCtl {f : Fuses} (d : Dev) {port i v : Nat} {e : WrEnv} (hlive : d.live = true) :
    writeReg f d port pgLst i lstCtl v e =
      (f, if d.lstBad i v then d.logErr port pgLst 0x0100 .value v else d.plainWrite port pgLst i lstCtl v e.collide) := by
  have hcore : d.coreWrite f.serial port pgLst i lstCtl.off v e = if d.lstBad i v then some (d.logErr port pgLst 0x0100 .value v) else none := rfl
  have hlogged : (d.logErr port pgLst 0x0100 .value v).live = true := hlive
  unfold writeReg
  rw [hcore]
  cases d.lstBad i v with
  | false => rfl
  | true => exact congrArg (Prod.mk f) (if_pos hlogged)

/-- A core that runs is live. -/
theorem Up.live {s : State} (h : Up s) : s.dev.live = true := by
  obtain ⟨-, hready, -, hhalted⟩ := h
  rw [Dev.live, hready, hhalted]
  rfl

section
variable {f : Fuses} {d : Dev} {port : Nat} (h : d.LstOpen port)
include h

/-- The owner sees the entry's control register. -/
theorem Dev.LstOpen.sees : d.sees port pgLst (d.bankN pgLst port 0x0030) 0x0100 = .yes := by
  change (if isWindow 0x0100 = true then seeFigures port 0x0100 _ else See.yes) = _
  rw [if_pos (by decide), h.own, seeFigures, if_pos h.func]
  rfl

/-- The owner's write is refused where the value breaks R188, and made otherwise. -/
theorem Dev.LstOpen.busWrite {v : Nat} {e : WrEnv} (hv : v < 2 ^ 32) (hcol : e.collide = false) :
    Machine.busWrite f d port pgLst 0x0100 v e = (f,
      if d.lstBad (d.bankN pgLst port 0x0030) v then d.logErr port pgLst 0x0100 .value v
      else d.setRegN pgLst (d.bankN pgLst port 0x0030) 0x0100 (v &&& 0x1FFFFF)) := by
  have hready : d.aon.ready = true := (Bool.and_eq_true_iff.mp h.live).1
  have hsel : ¬ pageSelMax pgLst < d.sel pgLst port := Nat.not_lt.mpr h.sel
  have hinst : d.instOf port pgLst lstCtl.off lstCtl.banked = d.bankN pgLst port 0x0030 := d.instOf_of_isWindow port pgLst rfl
  have hsees : d.sees port pgLst (d.bankN pgLst port 0x0030) lstCtl.off = .yes := h.sees
  have hlayout : d.layoutWrite port pgLst lstCtl v e.collide = none := rfl
  have hacc : ¬ (lstCtl.acc = .ro ∨ lstCtl.acc = .rc) := by decide
  have hheld : d.heldPort pgLst (d.bankN pgLst port 0x0030) = false := rfl
  have hreached : d.reached pgLst (d.bankN pgLst port 0x0030) lstCtl.off = true := h.crossing
  have hport : portBad port pgLst lstCtl.off = false := rfl
  have hvalue : d.valueBad pgLst (d.bankN pgLst port 0x0030) lstCtl.off v = false := rfl
  have htile : ¬ pgLst = pgTile := by decide
  rw [busWrite_of_isWindow h.arrives hready (by decide) rfl regDef_lstCtl hv]
  unfold writeSeen
  dsimp only
  rw [hinst, hsees, hlayout]
  simp only [hacc, hsel, hheld, hreached, hport, hvalue, htile, reduceCtorEq, if_false, or_false, and_false, false_and, Bool.false_eq_true, ne_eq,
    not_true_eq_false, Bool.true_eq_false]
  rw [d.writeReg_lstCtl h.live, hcol, d.plainWrite_rw port pgLst _ v (by decide) rfl rfl]
  rfl

end

/-- When a value breaks R188: it enables a source that is not the entry's context's, or that another entry has in force. -/
theorem Dev.lstBad_iff (d : Dev) (i v : Nat) : d.lstBad i v = true ↔
    bit v 20 = true ∧ ((d.sat (fld v 19 8)).assigned = false ∨ (d.sat (fld v 19 8)).ctx ≠ (d.lst i).ctx ∨
      ∃ j x, (j, x) ∈ d.lsts ∧ j ≠ i ∧ x.assigned = true ∧ bit (d.regN pgLst j 0x0100) 20 = true ∧ fld (d.regN pgLst j 0x0100) 19 8 = fld v 19 8) := by
  simp [Dev.lstBad, or_assoc, and_assoc]

/-- Settles O12: the write of the owner's port is logged as of a bad value or made under the register's mask (R188, R479). -/
theorem lstCtlWrite : Obligations.LstCtlWrite := by
  intro s port v now e hup hfunc hv hx i hi hass hsees hcol src clash
  have hport : port ≤ 0x41 := by simp [portIsFunc] at hfunc; omega
  let d := s.dev.at now
  have hopen : d.LstOpen port := ⟨hfunc, hup.arrives hport, hup.live, Nat.le_of_lt_succ hi, Bool.and_eq_true_iff.mpr ⟨hass, hsees⟩, hx⟩
  have hwrite : busWrite s.fuses d port pgLst 0x0100 v e =
      (s.fuses, if d.lstBad i v then d.logErr port pgLst 0x0100 .value v else d.setRegN pgLst i 0x0100 (v &&& 0x1FFFFF)) := hopen.busWrite hv hcol
  have hclash : d.lstBad i v = true ↔ clash := d.lstBad_iff i v
  refine ⟨fun hno => ?_, fun hyes => ?_⟩
  · rw [if_neg (fun hbad => hno (hclash.mp hbad))] at hwrite
    have hmask : v &&& 0x1FFFFF = v % 2 ^ 21 := Nat.and_two_pow_sub_one_eq_mod v 21
    rw [hmask] at hwrite
    refine does_registerWrite hwrite ⟨Dev.regN_setRegN_of_lt _ _ _ _ (by omega), ?_, sameMem_regs .., sameObjects_regs ..⟩
    exact (sameRegsBut_at now).mp (sameRegsBut_setRegN d _ (by omega) (by decide))
  · rw [if_pos (hclash.mpr hyes)] at hwrite
    have hx := errEntry_lt pgLst 0x0100 port v .value
    exact does_registerWrite hwrite ⟨(logged_at now).mp (logged_logEntry d pgLst port hx.1 hx.2),
      (sameRegsBut_at now).mp (sameRegsBut_logEntry d pgLst _ (by omega)), sameMem_logEntry .., sameObjects_logEntry ..⟩

end Sys2Proof.Machine
end
section
/-! PROOFS. The statement about the operations on contexts (chapter 12): what CREATE takes, that the destruction and the reset of a context leave the
operation register that asked for them alone, and what windows and fences are set to. -/
namespace Sys2Proof.Machine

/-! ### Operation registers: what a context's end leaves alone (R279, R443) -/

@[simp] theorem opCodes_reject (d : Dev) (q s : Nat) (bs : List Byte) (st : Nat) : opCodes (d.reject q s bs st).regs = opCodes d.regs := by
  simp [Dev.reject, Dev.queueIrq, apply_ite Dev.regs]

@[simp] theorem opCodes_rejectUndecided (d : Dev) (q : Nat) (st : Status) (n : Nat) : opCodes (d.rejectUndecided q st n).regs = opCodes d.regs := by
  induction n generalizing d with
  | zero => rfl
  | succ n ih =>
    unfold Dev.rejectUndecided
    dsimp only
    split
    · rfl
    · split
      · rfl
      · simp [ih]

@[simp] theorem opCodes_stopShuttle (d : Dev) (p : Nat → Bool) : opCodes (d.stopShuttle p).regs = opCodes d.regs := opCodes_foldl (fun _ _ => by rfl) _ _

@[simp] theorem opCodes_abandon (d : Dev) (c : Nat) : opCodes (d.abandon c).regs = opCodes d.regs := opCodes_foldl (fun _ _ => by rfl) _ _

@[simp] theorem opCodes_freeGroups (d : Dev) (p : Nat → Nat → Bool) : opCodes (d.freeGroups p).regs = opCodes d.regs :=
  opCodes_foldl (fun _ _ => by rfl) _ _

@[simp] theorem opCodes_freePricking (d : Dev) (c : Nat) : opCodes (d.freePricking c).regs = opCodes d.regs := by
  obtain ⟨⟨-, -, -, -, hregs, -, -⟩, -⟩ := unloaded_freePricking d c
  rw [hregs]

@[simp] theorem opCodes_mapFences (d : Dev) (f : Nat → Fence → Fence) : opCodes (d.mapFences f).regs = opCodes d.regs :=
  opCodes_foldl (fun _ _ => by rfl) _ _

@[simp] theorem opCodes_mcDropAll (d : Dev) (p : McEntry → Bool) : opCodes (d.mcDropAll p).regs = opCodes d.regs :=
  opCodes_foldl (fun _ _ => by simp [Dev.mcDrop, apply_ite Dev.regs]) _ _

@[simp] theorem opCodes_dropCipher (d : Dev) (c : Nat) : opCodes (d.dropCipher c).regs = opCodes d.regs :=
  opCodes_foldl (fun _ _ => by rw [apply_ite Dev.regs]; exact congrArg opCodes (ite_self _)) _ _

/-- Group blocks replaced one after another touch group blocks only. -/
theorem Dev.foldl_setGroup_frame (g : Dev → Nat → Nat × Group) (l : List Nat) (d : Dev) :
    l.foldl (fun d j => d.setGroup (g d j).1 (g d j).2) d = { d with groups := (l.foldl (fun d j => d.setGroup (g d j).1 (g d j).2) d).groups } := by
  induction l generalizing d with
  | nil => rfl
  | cons j l ih =>
    rw [List.foldl_cons, ih]
    rfl

/-- A page zeroed through its group blocks touches group blocks and the cellar's bytes. -/
theorem Dev.zeroPage_frame (d : Dev) (p : Nat) : ∃ g, d.zeroPage p = { d with groups := g, cellar := memZero d.cellar (p * 65536) 65536 } := by
  have hframe := Dev.foldl_setGroup_frame (fun d j => (p * 4 + j, { (d.group (p * 4 + j)).bumpMajor with written := 0, poison := 0 })) (List.range 4) d
  unfold Dev.zeroPage
  dsimp only at hframe ⊢
  rw [hframe]
  exact ⟨_, rfl⟩

@[simp] theorem opCodes_dropTables (d : Dev) (c : Nat) : opCodes (d.dropTables c).regs = opCodes d.regs := by
  have hunmap : ∀ (d : Dev) (e : Nat × Nat), opCodes (d.unmapPages e.1 e.2).regs = opCodes d.regs := fun _ _ =>
    opCodes_foldl (fun _ _ => by simp [Dev.unmapPage, apply_ite Dev.regs]) _ _
  have hreturn : ∀ (d : Dev) (p : Nat), opCodes (d.returnTable p).regs = opCodes d.regs := fun d p => by
    obtain ⟨g, hg⟩ := d.zeroPage_frame p
    unfold Dev.returnTable
    rw [hg]
    rfl
  unfold Dev.dropTables
  dsimp only
  rw [opCodes_foldl hreturn, opCodes_foldl hunmap]

@[simp] theorem opCodes_destroyCtx (d : Dev) (c : Nat) : opCodes (d.destroyCtx c).regs = opCodes d.regs := by
  have hreject := opCodes_foldl (fun (d : Dev) q => opCodes_rejectUndecided d q .contextAborted (2 ^ (d.queue q).log2))
  have hevents := opCodes_foldl opCodes_destroyEvent
  have hqueues := opCodes_foldl opCodes_destroyQueue
  unfold Dev.destroyCtx
  split
  · rfl
  · simp [Dev.clearFaults, hreject, hevents, hqueues]

@[simp] theorem opCodes_samplePut (d : Dev) (c : Nat) (l : List (Nat × List Byte)) : opCodes (d.samplePut c l).1.regs = opCodes d.regs := by
  induction l generalizing d with
  | nil => rfl
  | cons p r ih =>
    have hwrite := opCodes_writeVa d c p.1 p.2
    unfold Dev.samplePut
    split
    next hw => rw [hw] at hwrite; exact (ih _).trans hwrite
    next hw => rw [hw] at hwrite; exact hwrite

@[simp] theorem opCodes_sample (d : Dev) (c cause st : Nat) : opCodes (d.sample c cause st).regs = opCodes d.regs := by
  simp [Dev.sample, apply_ite Prod.fst, apply_ite Dev.regs, apply_ite opCodes]

@[simp] theorem opCodes_stopCtx (d : Dev) (c cause st : Nat) : opCodes (d.stopCtx c cause st).regs = opCodes d.regs := by
  simp [Dev.stopCtx]

@[simp] theorem opCodes_resetCtx (d : Dev) (c cause : Nat) (t : Option Nat) (st : Status) : opCodes (d.resetCtx c cause t st).regs = opCodes d.regs := by
  unfold Dev.resetCtx
  split
  · rfl
  · cases t <;> simp [Dev.clearFaults, apply_ite Dev.regs, apply_ite opCodes]

@[simp] theorem opCodes_classC (d : Dev) (c : Nat) (t : Option Nat) (cause : Nat) (st : Status) (i : FaultInfo) :
    opCodes (d.classC c t cause st i).regs = opCodes d.regs := by
  simp [Dev.classC]

/-! ### A page zeroed, and made a table -/

/-- Keys cleared read as unlisted, and every other key is as before. -/
theorem tabGet_tabClear {α : Type} {dflt : Nat → α} (p : Nat → Bool) (t : Table α) (k : Nat) :
    tabGet dflt (tabClear p t) k = if p k then dflt k else tabGet dflt t k := by
  induction t with
  | nil => simp [tabClear, tabGet]
  | cons e t ih =>
    obtain ⟨j, v⟩ := e
    unfold tabClear at ih ⊢
    rw [List.filter_cons]
    by_cases hj : j = k
    · subst hj
      cases hp : p j with
      | false => simp [tabGet]
      | true => simpa [hp] using ih
    · cases hp : p j <;> simp [tabGet, hj, ih]

/-- Bytes zeroed read zero, and every other byte is as before. -/
theorem memGet_memZero (m : List (Nat × Byte)) (lo n a : Nat) : memGet (memZero m lo n) a = if lo ≤ a ∧ a < lo + n then 0 else memGet m a := by
  unfold memGet memZero
  rw [tabGet_tabClear]
  simp only [Bool.and_eq_true, decide_eq_true_eq]
  rfl

/-- A page's bytes zeroed. -/
theorem memGet_memZero_page (m : List (Nat × Byte)) (p a : Nat) : memGet (memZero m (p * 65536) 65536) a = if a / 65536 = p then 0 else memGet m a := by
  have hpage : (p * 65536 ≤ a ∧ a < p * 65536 + 65536) ↔ a / 65536 = p := by omega
  rw [memGet_memZero]
  simp only [hpage]

/-- A page made a table of a context touches group blocks, the cellar's bytes and the page's ownership. -/
theorem Dev.makeTable_frame (d : Dev) (c p : Nat) : ∃ g, d.makeTable c p = { d with
    groups := g, cellar := memZero d.cellar (p * 65536) 65536,
    pot := tabPut potDflt d.pot p { d.potOf p with bound := true, key := (d.ctx c).tblKey, maps := 4095 } } := by
  obtain ⟨g, hg⟩ := d.zeroPage_frame p
  unfold Dev.makeTable
  rw [hg]
  exact ⟨g, rfl⟩

/-! ### What the operations do (R261 Table 2) -/

/-- The lowest number that satisfies a test. -/
theorem lowest_eq_some {n bound : Nat} {p : Nat → Bool} {q : Nat → Prop} (hpq : ∀ m, p m = true ↔ q m) (h : IsLowest n bound q) :
    lowest bound p = some n := by
  obtain ⟨hmax, hn, hlow⟩ := h
  exact lowestFrom_eq_some (Nat.zero_le n) (by omega) ((hpq n).mpr hn) (fun m _ hm => (Bool.not_eq_true _).mp (fun hp => hlow m hm ((hpq m).mp hp)))

/-- The context that a port's arguments describe (R261). -/
def Dev.ctxAsked (d : Dev) (port : Nat) : Ctx :=
  { state := .active, func := port, hoop := d.opArg pgCtx port 0 % 16, root := d.opArg pgCtx port 1 % 2 ^ 23,
    tblKey := fld (d.opArg pgCtx port 2) 11 0, tblGen := fld (d.opArg pgCtx port 2) 15 12 }

/-- Nothing speaks against a CREATE: the function may hold contexts in the hoop, the root page is the hoop's and not bound, the key serves it, and the
hoop holds fewer contexts than it may. -/
def Dev.CtxFits (d : Dev) (port : Nat) (x : Ctx) : Prop :=
  d.mayHold port x.hoop = true ∧ (d.potOf x.root).granted = true ∧ (d.potOf x.root).hoop = x.hoop ∧ (d.potOf x.root).bound = false ∧
  d.keyCheck x.hoop useMem x.tblKey x.tblGen = none ∧ d.ctxCount x.hoop < (d.hoop x.hoop).inForce.ctxs

/-- A CREATE that fits takes the lowest free context, and makes its root page a table. -/
theorem Dev.ctxCreate_ok {d : Dev} {port n : Nat} (h : d.CtxFits port (d.ctxAsked port)) (hlow : IsLowest n 4096 (fun m => (d.ctx m).state = .free)) :
    d.ctxCreate port = (.ok, ((d.setCtx n (d.ctxAsked port)).makeTable n (d.ctxAsked port).root).setBankN pgCtx port 0x1024 n) := by
  obtain ⟨hholds, hgranted, howner, hunbound, hkey, hroom⟩ := h
  have hfree : lowest 4096 (fun c => (d.ctx c).state == .free) = some n := lowest_eq_some (fun _ => beq_iff_eq) hlow
  have herrs : d.ctxCreateErrs port (d.ctxAsked port).hoop (d.ctxAsked port).root (d.ctxAsked port).tblKey (d.ctxAsked port).tblGen = [] := by
    simp [Dev.ctxCreateErrs, hholds, hgranted, howner, hunbound, hkey, hfree, hroom]
  unfold Dev.ctxAsked at herrs ⊢
  unfold Dev.ctxCreate
  dsimp only at herrs ⊢
  rw [herrs, opOr_nil, hfree]

/-- A DESTROY of a context of the function destroys it; one of a FREE context is refused. -/
theorem Dev.ctxDestroy_ok {d : Dev} {port : Nat} (hact : (d.ctx (d.opArg pgCtx port 0 % 4096)).state = .active)
    (hown : (d.ctx (d.opArg pgCtx port 0 % 4096)).func = port) : d.ctxDestroy port = (.ok, d.destroyCtx (d.opArg pgCtx port 0 % 4096)) := by
  unfold Dev.ctxDestroy
  simp [hact, hown]
theorem Dev.ctxDestroy_free {d : Dev} {port : Nat} (hfree : (d.ctx (d.opArg pgCtx port 0 % 4096)).state = .free) : d.ctxDestroy port = (.badDescriptor, d) := by
  unfold Dev.ctxDestroy
  exact if_pos hfree

/-- A destroyed context drains, without windows. -/
theorem Dev.ctx_destroyCtx {d : Dev} {c : Nat} (h : (d.ctx c).state = .active) :
    ((d.destroyCtx c).ctx c).state = .draining ∧ ((d.destroyCtx c).ctx c).windows = [] := by
  unfold Dev.destroyCtx
  rw [if_neg (by simp [h])]
  dsimp only
  rw [Dev.ctx_set_same]
  exact ⟨rfl, rfl⟩

/-- A context that an operation may name is active. -/
theorem Dev.ctxNamed_active {d : Dev} {port c : Nat} (h : d.ctxNamed port c = none) : (d.ctx c).state = .active := by
  unfold Dev.ctxNamed at h
  dsimp only at h
  repeat' split at h
  · cases h
  · cases h
  · cases h
  · next hact => exact Classical.not_not.mp hact

/-- A RESET of such a context is its reset of class C, cause 0x46. -/
theorem Dev.ctxReset_ok {d : Dev} {port : Nat} (h : d.ctxNamed port (d.opArg pgCtx port 0 % 4096) = none) :
    d.ctxReset port = (.ok, d.classC (d.opArg pgCtx port 0 % 4096) none 0x46 .contextAborted {}) := by
  unfold Dev.ctxReset
  simp only [h]

/-- A context reset has no fault records and no pricking. -/
theorem Dev.ctx_resetCtx {d : Dev} {c cause : Nat} {t : Option Nat} {st : Status} (h : (d.ctx c).state = .active) :
    ((d.resetCtx c cause t st).ctx c).faults = [] ∧ ((d.resetCtx c cause t st).ctx c).pricking = none := by
  unfold Dev.resetCtx
  rw [if_neg (by simp [h])]
  dsimp only
  generalize Dev.completeAll _ _ _ _ = e
  obtain ⟨⟨hpricking, -⟩, -⟩ := unloaded_freePricking e c
  have hctx : (((e.freePricking c).clearFaults c).bumpRc pgRas (((e.freePricking c).clearFaults c).ctx c).hoop 0x0100 1).ctx c =
      { (e.freePricking c).ctx c with faults := [] } := Dev.ctx_set_same ..
  rw [hctx]
  exact ⟨rfl, hpricking⟩

theorem Dev.ctx_classC {d : Dev} {c cause : Nat} {t : Option Nat} {st : Status} {i : FaultInfo} (h : (d.ctx c).state = .active) :
    ((d.classC c t cause st i).ctx c).faults = [] ∧ ((d.classC c t cause st i).ctx c).pricking = none := by
  unfold Dev.classC
  refine Dev.ctx_resetCtx ?_
  rw [Dev.ctx_set_same, Dev.rasLog_frame]
  exact h

/-- The window that a port's arguments describe (R265): none where its length is zero. -/
def Dev.windowAsked (d : Dev) (port : Nat) : Window :=
  let b := d.opArg pgCtx port 4
  if d.opArg pgCtx port 3 = 0 then {}
  else ⟨d.opArg pgCtx port 1 + 2 ^ 32 * d.opArg pgCtx port 2, d.opArg pgCtx port 3, bit b 0, bit b 1, bit b 2⟩

/-- ARG4 bit 2, by which requests to the window carry the T bit, is a VF's whose TDI is in RUN (R261 Table 2, R265). -/
def Dev.PrivAllowed (d : Dev) (port : Nat) : Prop := bit (d.opArg pgCtx port 4) 2 = true → port ≠ portPf ∧ (d.func port).tdi = .run

theorem Dev.PrivAllowed.not_denied {d : Dev} {port : Nat} (h : d.PrivAllowed port) :
    (bit (d.opArg pgCtx port 4) 2 && (port == portPf || (d.func port).tdi != .run)) = false := by
  unfold Dev.PrivAllowed at h
  cases hbit : bit (d.opArg pgCtx port 4) 2 with
  | false => rfl
  | true =>
    obtain ⟨hvf, hrun⟩ := h hbit
    rw [beq_eq_false_iff_ne.mpr hvf, hrun]
    rfl

/-- The low 12 bits of an argument name the context. -/
theorem fld_context (x : Nat) : fld x 11 0 = x % 4096 := by simp [fld]

section
variable {d : Dev} {port : Nat} (hctx : d.ctxNamed port (d.opArg pgCtx port 0 % 4096) = none)
include hctx

section
variable (hpriv : d.PrivAllowed port)
include hpriv

/-- A SET_WINDOW of a context that may be named sets a window of aligned base, and refuses another. -/
theorem Dev.ctxWindow_ok (hbase : (d.opArg pgCtx port 1 + 2 ^ 32 * d.opArg pgCtx port 2) % 4096 = 0) (hlen : d.opArg pgCtx port 3 ≤ 2 ^ 28) :
    let c := d.opArg pgCtx port 0 % 4096
    d.ctxWindow port = (.ok, d.setCtx c { d.ctx c with
      windows := tabPut windowDflt (d.ctx c).windows (fld (d.opArg pgCtx port 0) 19 16) (d.windowAsked port) }) := by
  have hform : ¬ ((d.opArg pgCtx port 1 + 2 ^ 32 * d.opArg pgCtx port 2) % 4096 ≠ 0 ∨ 2 ^ 28 < d.opArg pgCtx port 3) := by omega
  unfold Dev.ctxWindow
  dsimp only
  rw [fld_context, hctx, if_neg hform, hpriv.not_denied]
  rfl
theorem Dev.ctxWindow_misaligned (hbase : (d.opArg pgCtx port 1 + 2 ^ 32 * d.opArg pgCtx port 2) % 4096 ≠ 0) :
    d.ctxWindow port = (.badDescriptor, d) := by
  unfold Dev.ctxWindow
  dsimp only
  rw [fld_context, hctx, if_pos (Or.inl hbase), hpriv.not_denied]
  rfl

end

/-- A BIND_FENCE takes the lowest free fence for the context. -/
theorem Dev.bindFence_ok {n : Nat} (hlow : IsLowest n 1024 (fun m => (d.fence m).state = .free)) :
    let c := d.opArg pgCtx port 0 % 4096
    d.bindFence port = (.ok, (d.setFence n { state := .idle, ctx := c, hoop := (d.ctx c).hoop }).setBankN pgCtx port 0x1024 n) := by
  have hfree : lowest 1024 (fun f => (d.fence f).state == .free) = some n := lowest_eq_some (fun _ => beq_iff_eq) hlow
  unfold Dev.bindFence
  simp only [hctx, hfree]

/-- An UNBIND_FENCE frees an IDLE fence of the context that nothing waits for. -/
theorem Dev.unbindFence_ok (hidle : (d.fence (d.opArg pgCtx port 1 % 1024)).state = .idle)
    (hown : (d.fence (d.opArg pgCtx port 1 % 1024)).ctx = d.opArg pgCtx port 0 % 4096) (hwait : (d.fence (d.opArg pgCtx port 1 % 1024)).waiting = []) :
    d.unbindFence port = (.ok, d.setFence (d.opArg pgCtx port 1 % 1024) {}) := by
  unfold Dev.unbindFence
  simp [hctx, hidle, hown, hwait]

end

/-! ### The commands as operations of the page -/

/-- Where a port's operation register is not busy and the operation it starts fails, the two registers alone are written. -/
theorem Dev.runOp_failed {d e : Dev} {port page opOff stsOff code : Nat} {st : Status} {f : Dev → Status × Dev}
    (hbusy : bit (d.bankN page port stsOff) 16 = false) (hst : stSuccess st.code = false) (hf : f (d.setBankN page port opOff code) = (st, e)) :
    d.runOp port page opOff stsOff code true f = (d.setBankN page port opOff code).setBankN page port stsOff st.code := by
  rcases d.runOp_cases port page opOff stsOff code true f with ⟨hok, -⟩ | ⟨-, hb, -⟩ | ⟨-, -, hs, -⟩ | ⟨-, -, -, h⟩
  · cases hok
  · rw [hbusy] at hb; cases hb
  · rw [hf, hst] at hs; cases hs
  · rw [h, hf]

/-- The two registers of a failed operation written leave everything else alone. -/
theorem opFailed_setBankN (d : Dev) {page port opOff stsOff code : Nat} {st : Status} (hport : port < 0x80000) (hop : opOff < 0x10000) (hsts : stsOff < 0x10000)
    (hne : opOff ≠ stsOff) (hcode : code < 2 ^ 32) (hst : st.code < 2 ^ 32) :
    OpFailed page port opOff stsOff code st d ((d.setBankN page port opOff code).setBankN page port stsOff st.code) := by
  refine ⟨⟨?_, Dev.regN_setRegN_of_lt _ _ _ _ hst⟩, ?_, ⟨rfl, rfl, rfl, rfl⟩, ⟨rfl, rfl, rfl, rfl, rfl, rfl⟩, rfl⟩
  · rw [Dev.bankN_setBankN_ne _ _ _ _ hne]
    exact Dev.regN_setRegN_of_lt _ _ _ _ hcode
  · exact ((sameRegsBut_setRegN d code (bank_lt hport) hop).mono (fun _ _ _ ⟨hp, hi, ho⟩ => ⟨hp, hi, .inl ho⟩)).trans
      ((sameRegsBut_setRegN _ st.code (bank_lt hport) hsts).mono (fun _ _ _ ⟨hp, hi, ho⟩ => ⟨hp, hi, .inr ho⟩))

/-- Two devices with the same registers, memories, objects and output are the same to a failed operation. -/
theorem OpFailed.of_at {page port opOff stsOff code t : Nat} {st : Status} {d e : Dev} (h : OpFailed page port opOff stsOff code st (d.at t) e) :
    OpFailed page port opOff stsOff code st d e := by
  obtain ⟨hdone, hregs, hmem, hobjects, hout⟩ := h
  exact ⟨hdone, (sameRegsBut_at t).mp hregs, hmem.of_at, hobjects.of_at, hout⟩

/-- The device that an operation of the CTX page starts from: the operation register keeps the code. -/
def Dev.ctxStart (d : Dev) (now port code : Nat) : Dev := (d.at now).setBankN pgCtx port 0x1004 code

/-- Its arguments are the port's. -/
@[simp] theorem Dev.opArg_ctxStart (d : Dev) (now port code n : Nat) : (d.ctxStart now port code).opArg pgCtx port n = d.opArg pgCtx port n :=
  Dev.opArg_setBankN_op ..

/-- A command is operation `code` of the CTX page, with what `f` does. -/
def IsCtxOp (i : Instr) (s : State) (port code now : Nat) (f : Dev → Status × Dev) : Prop :=
  exec i s = onDev s (fun d => (d.at now).whenLive (fun d => d.runOp port pgCtx 0x1004 0x1020 code (opPort port) f))

theorem isCtxOp_ctxCreate (port now : Nat) (s : State) : IsCtxOp (.ctxCreate port now) s port 1 now (fun d => d.ctxCreate port) := rfl
theorem isCtxOp_ctxDestroy (port now : Nat) (s : State) : IsCtxOp (.ctxDestroy port now) s port 2 now (fun d => d.ctxDestroy port) := rfl
theorem isCtxOp_ctxReset (port now : Nat) (s : State) : IsCtxOp (.ctxReset port now) s port 3 now (fun d => d.ctxReset port) := rfl
theorem isCtxOp_setWindow (port now : Nat) (s : State) : IsCtxOp (.setWindow port now) s port 4 now (fun d => d.ctxWindow port) := rfl
theorem isCtxOp_bindFence (port now : Nat) (s : State) : IsCtxOp (.bindFence port now) s port 5 now (fun d => d.bindFence port) := rfl
theorem isCtxOp_unbindFence (port now : Nat) (s : State) : IsCtxOp (.unbindFence port now) s port 6 now (fun d => d.unbindFence port) := rfl

section
variable {s : State} {port now code : Nat} {i : Instr} {f : Dev → Status × Dev} (hop : IsCtxOp i s port code now f) (hlive : s.dev.live = true)
  (hfunc : portIsFunc port = true) (hbusy : bit (s.dev.bankN pgCtx port 0x1020) 16 = false) (hcode : code < 2 ^ 32)
include hop hlive hfunc hbusy hcode

/-- An operation of a function that answers `OK`, leaving the operation register alone, leaves its code and its status beside what it leaves. -/
theorem does_ctxOp_ok {e : Dev} {P : Dev → Prop} (hf : f (s.dev.ctxStart now port code) = (.ok, e))
    (hregs : opCodes e.regs = opCodes (s.dev.ctxStart now port code).regs) (hP : P (e.setBankN pgCtx port 0x1020 0)) :
    Does i s (fun e => OpDone pgCtx port 0x1004 0x1020 code .ok e ∧ P e) :=
  does_hostOp now hlive hop hfunc hbusy (by decide) hcode hf hregs (fun hdone => ⟨hdone, hP⟩)

/-- One that is refused changes nothing but the two registers. -/
theorem does_ctxOp_bad (hf : f (s.dev.ctxStart now port code) = (.badDescriptor, s.dev.ctxStart now port code)) :
    Does i s (OpFailed pgCtx port 0x1004 0x1020 code .badDescriptor s.dev) := by
  have hport : port ≤ 0x41 := by simp [portIsFunc] at hfunc; omega
  have hacc : opPort port = true := hfunc
  refine (does_whenLive_iff (now := now) hop hlive).mpr ?_
  rw [hacc, Dev.runOp_failed (d := s.dev.at now) hbusy (by decide) hf]
  exact (opFailed_setBankN (s.dev.at now) (by omega) (by decide) (by decide) (by decide) hcode (by decide)).of_at

end

/-! ### The clauses of O25 -/

/-- One fence set, the operation's registers beside it: no other fence, no memory and no object of the host interface changes. -/
theorem fence_set_frame (d : Dev) (now : Nat) (r : Table Word) (k : Nat) (x : Fence) :
    let e : Dev := { d.at now with regs := r, fences := tabPut fenceDflt d.fences k x }
    e.fence k = x ∧ (∀ m, m ≠ k → e.fence m = d.fence m) ∧ SameMem d e ∧ SameObjects d e :=
  ⟨tabGet_tabPut_same .., fun _ hm => tabGet_tabPut_ne x hm, ⟨rfl, rfl, rfl, rfl⟩, ⟨rfl, rfl, rfl, rfl, rfl, rfl⟩⟩

/-- One context set, the operation's registers beside it: no other context and no memory changes. -/
theorem ctx_set_frame (d : Dev) (now : Nat) (r : Table Word) (k : Nat) (x : Ctx) :
    let e : Dev := { d.at now with regs := r, ctxs := tabPut ctxDflt d.ctxs k x }
    e.ctx k = x ∧ (∀ m, m ≠ k → e.ctx m = d.ctx m) ∧ SameMem d e :=
  ⟨tabGet_tabPut_same .., fun _ hm => tabGet_tabPut_ne x hm, ⟨rfl, rfl, rfl, rfl⟩⟩

section
variable {s : State} {port : Nat} (now : Nat) (hlive : s.dev.live = true) (hfunc : portIsFunc port = true)
  (hbusy : bit (s.dev.bankN pgCtx port 0x1020) 16 = false)
include hlive hfunc hbusy

/-- CREATE: the lowest free context is the one asked for, its root page is zeroed and a table of the context's key. -/
theorem does_ctxCreate {n : Nat} (hfits : s.dev.CtxFits port (s.dev.ctxAsked port)) (hlow : IsLowest n 4096 (fun m => (s.dev.ctx m).state = .free)) :
    let d := s.dev
    let x := d.ctxAsked port
    Does (.ctxCreate port now) s (fun e => OpDone pgCtx port 0x1004 0x1020 1 .ok e ∧ e.bankN pgCtx port 0x1024 = n ∧ e.ctx n = x ∧
      (∀ m, m ≠ n → e.ctx m = d.ctx m) ∧ e.potOf x.root = { d.potOf x.root with bound := true, key := x.tblKey, maps := 4095 } ∧
      (∀ a, memGet e.cellar a = if a / 65536 = x.root then 0 else memGet d.cellar a) ∧ e.hostMem = d.hostMem ∧ e.queues = d.queues) := by
  intro d x
  have hasked : (d.ctxStart now port 1).ctxAsked port = x := by simp [x, d, Dev.ctxAsked]
  have hmax : n < 4096 := hlow.1
  have hok := Dev.ctxCreate_ok (d := d.ctxStart now port 1) (port := port) (n := n) (by rw [hasked]; exact hfits) hlow
  rw [hasked] at hok
  obtain ⟨g, hg⟩ := ((d.ctxStart now port 1).setCtx n x).makeTable_frame n x.root
  rw [hg, Dev.ctx_set_same] at hok
  refine does_ctxOp_ok (isCtxOp_ctxCreate ..) hlive hfunc hbusy (by decide) hok (opCodes_setRegN _ _ _ _ (by decide))
    ⟨?_, Dev.ctx_set_same .., fun m hm => Dev.ctx_set_ne _ x hm, Dev.potOf_set_same .., memGet_memZero_page _ _, rfl, rfl⟩
  rw [Dev.bankN_setBankN_ne _ _ _ _ (by decide)]
  exact Dev.regN_setRegN_of_lt _ _ _ _ (by omega)

/-- DESTROY of an active context of the function. -/
theorem does_ctxDestroy (hact : (s.dev.ctx (s.dev.opArg pgCtx port 0 % 4096)).state = .active)
    (hown : (s.dev.ctx (s.dev.opArg pgCtx port 0 % 4096)).func = port) :
    let c := s.dev.opArg pgCtx port 0 % 4096
    Does (.ctxDestroy port now) s (fun e => OpDone pgCtx port 0x1004 0x1020 2 .ok e ∧ (e.ctx c).state = .draining ∧ (e.ctx c).windows = []) := by
  intro c
  have hok := Dev.ctxDestroy_ok (d := s.dev.ctxStart now port 2) (port := port)
  rw [Dev.opArg_ctxStart] at hok
  exact does_ctxOp_ok (isCtxOp_ctxDestroy ..) hlive hfunc hbusy (by decide) (hok hact hown) (opCodes_destroyCtx ..)
    (Dev.ctx_destroyCtx (d := s.dev.ctxStart now port 2) hact)

/-- DESTROY of a FREE context. -/
theorem does_ctxDestroy_free (hfree : (s.dev.ctx (s.dev.opArg pgCtx port 0 % 4096)).state = .free) :
    Does (.ctxDestroy port now) s (OpFailed pgCtx port 0x1004 0x1020 2 .badDescriptor s.dev) := by
  have hbad := Dev.ctxDestroy_free (d := s.dev.ctxStart now port 2) (port := port)
  rw [Dev.opArg_ctxStart] at hbad
  exact does_ctxOp_bad (isCtxOp_ctxDestroy ..) hlive hfunc hbusy (by decide) (hbad hfree)

section
variable (hctx : s.dev.ctxNamed port (s.dev.opArg pgCtx port 0 % 4096) = none)
include hctx

/-- RESET: no fault record and no pricking stays. -/
theorem does_ctxReset :
    let c := s.dev.opArg pgCtx port 0 % 4096
    Does (.ctxReset port now) s (fun e => OpDone pgCtx port 0x1004 0x1020 3 .ok e ∧ (e.ctx c).faults = [] ∧ (e.ctx c).pricking = none) := by
  intro c
  have hok := Dev.ctxReset_ok (d := s.dev.ctxStart now port 3) (port := port)
  rw [Dev.opArg_ctxStart] at hok
  exact does_ctxOp_ok (isCtxOp_ctxReset ..) hlive hfunc hbusy (by decide) (hok hctx) (opCodes_classC ..)
    (Dev.ctx_classC (d := s.dev.ctxStart now port 3) (Dev.ctxNamed_active hctx))

section
variable (hpriv : s.dev.PrivAllowed port)
include hpriv

/-- SET_WINDOW with an aligned base: the window named is the one asked for, and nothing else of any context changes. -/
theorem does_setWindow (hbase : (s.dev.opArg pgCtx port 1 + 2 ^ 32 * s.dev.opArg pgCtx port 2) % 4096 = 0) (hlen : s.dev.opArg pgCtx port 3 ≤ 2 ^ 28) :
    let d := s.dev
    let c := d.opArg pgCtx port 0 % 4096
    let k := fld (d.opArg pgCtx port 0) 19 16
    Does (.setWindow port now) s (fun e => OpDone pgCtx port 0x1004 0x1020 4 .ok e ∧
      tabGet windowDflt (e.ctx c).windows k = d.windowAsked port ∧
      (∀ w, w ≠ k → tabGet windowDflt (e.ctx c).windows w = tabGet windowDflt (d.ctx c).windows w) ∧
      (∀ m, m ≠ c → e.ctx m = d.ctx m) ∧ (e.ctx c).state = .active ∧ SameMem d e) := by
  intro d c k
  have hok := Dev.ctxWindow_ok (d := d.ctxStart now port 4) (port := port)
  simp only [Dev.PrivAllowed, Dev.windowAsked, Dev.opArg_ctxStart] at hok
  refine does_ctxOp_ok (isCtxOp_setWindow ..) hlive hfunc hbusy (by decide) (hok hctx hpriv hbase hlen) rfl ?_
  obtain ⟨hset, hother, hmem⟩ := ctx_set_frame d now _ c { d.ctx c with windows := tabPut windowDflt (d.ctx c).windows k (d.windowAsked port) }
  refine ⟨?_, fun w hw => ?_, hother, ?_, hmem⟩
  · exact (congrArg (fun y : Ctx => tabGet windowDflt y.windows k) hset).trans (tabGet_tabPut_same ..)
  · exact (congrArg (fun y : Ctx => tabGet windowDflt y.windows w) hset).trans (tabGet_tabPut_ne _ hw)
  · exact (congrArg Ctx.state hset).trans (Dev.ctxNamed_active hctx)

/-- SET_WINDOW with a base that is not. -/
theorem does_setWindow_misaligned (hbase : (s.dev.opArg pgCtx port 1 + 2 ^ 32 * s.dev.opArg pgCtx port 2) % 4096 ≠ 0) :
    Does (.setWindow port now) s (OpFailed pgCtx port 0x1004 0x1020 4 .badDescriptor s.dev) := by
  have hbad := Dev.ctxWindow_misaligned (d := s.dev.ctxStart now port 4) (port := port)
  simp only [Dev.PrivAllowed, Dev.opArg_ctxStart] at hbad
  exact does_ctxOp_bad (isCtxOp_setWindow ..) hlive hfunc hbusy (by decide) (hbad hctx hpriv hbase)

end

/-- BIND_FENCE: the lowest free fence is the context's, and nothing else changes. -/
theorem does_bindFence {n : Nat} (hlow : IsLowest n 1024 (fun m => (s.dev.fence m).state = .free)) :
    let d := s.dev
    let c := d.opArg pgCtx port 0 % 4096
    Does (.bindFence port now) s (fun e => OpDone pgCtx port 0x1004 0x1020 5 .ok e ∧ e.bankN pgCtx port 0x1024 = n ∧
      e.fence n = { state := .idle, ctx := c, hoop := (d.ctx c).hoop } ∧ (∀ m, m ≠ n → e.fence m = d.fence m) ∧ SameMem d e ∧ SameObjects d e) := by
  intro d c
  have hmax : n < 1024 := hlow.1
  have hok := Dev.bindFence_ok (d := d.ctxStart now port 5) (port := port) (n := n)
  simp only [Dev.opArg_ctxStart] at hok
  refine does_ctxOp_ok (isCtxOp_bindFence ..) hlive hfunc hbusy (by decide) (hok hctx hlow) (opCodes_setRegN _ _ _ _ (by decide))
    ⟨?_, fence_set_frame d now _ n _⟩
  rw [Dev.bankN_setBankN_ne _ _ _ _ (by decide)]
  exact Dev.regN_setRegN_of_lt _ _ _ _ (by omega)

/-- UNBIND_FENCE: the fence is free, and nothing else changes. -/
theorem does_unbindFence (hidle : (s.dev.fence (s.dev.opArg pgCtx port 1 % 1024)).state = .idle)
    (hown : (s.dev.fence (s.dev.opArg pgCtx port 1 % 1024)).ctx = s.dev.opArg pgCtx port 0 % 4096)
    (hwait : (s.dev.fence (s.dev.opArg pgCtx port 1 % 1024)).waiting = []) :
    let d := s.dev
    let f := d.opArg pgCtx port 1 % 1024
    Does (.unbindFence port now) s (fun e => OpDone pgCtx port 0x1004 0x1020 6 .ok e ∧ (e.fence f).state = .free ∧
      (∀ m, m ≠ f → e.fence m = d.fence m) ∧ SameMem d e ∧ SameObjects d e) := by
  intro d f
  have hok := Dev.unbindFence_ok (d := d.ctxStart now port 6) (port := port)
  simp only [Dev.opArg_ctxStart] at hok
  refine does_ctxOp_ok (isCtxOp_unbindFence ..) hlive hfunc hbusy (by decide) (hok hctx hidle hown hwait) rfl ?_
  obtain ⟨hset, hother⟩ := fence_set_frame d now _ f {}
  exact ⟨congrArg Fence.state hset, hother⟩

end

end

section
variable {s : State} (now : Nat) (hlive : s.dev.live = true)
include hlive

/-- CREATE from a port that is no function's is logged, and that is all (R479). -/
theorem does_ctxCreate_otherPort {port : Nat} (hport : port ≤ 0x42) (hfunc : portIsFunc port = false) :
    Does (.ctxCreate port now) s (fun e => Logged pgCtx port (errEntry pgCtx 0x1004 .port port 1) s.dev e ∧
      SameRegsBut (fun p i o => p = pgCtx ∧ i = bank port ∧ logOff o) s.dev e ∧ SameMem s.dev e ∧ SameObjects s.dev e) := by
  have hacc : opPort port = false := hfunc
  obtain ⟨hx1, hx2⟩ := errEntry_lt pgCtx 0x1004 port 1 .port
  refine (does_whenLive_iff (now := now) (isCtxOp_ctxCreate ..) hlive).mpr ?_
  rw [hacc]
  exact ⟨(logged_at now).mp (logged_logEntry (s.dev.at now) pgCtx port hx1 hx2),
    (sameRegsBut_at now).mp (sameRegsBut_logEntry (s.dev.at now) pgCtx _ (by omega)), sameMem_logEntry (s.dev.at now) ..,
    sameObjects_logEntry (s.dev.at now) ..⟩

/-- The end of the fabric drain frees a draining context, and touches no other (R279). -/
theorem does_fabricDrainEnd (n : Nat) :
    Does (.fabricDrainEnd n now) s (fun e => ((s.dev.ctx n).state = .draining → (e.ctx n).state = .free) ∧
      ((s.dev.ctx n).state ≠ .draining → e.ctx n = s.dev.ctx n) ∧ (∀ m, m ≠ n → e.ctx m = s.dev.ctx m) ∧ e.regs = s.dev.regs ∧ SameMem s.dev e) := by
  refine (does_whenLive_iff (now := now) rfl hlive).mpr ?_
  by_cases hdrain : (s.dev.ctx n).state = .draining
  · have hend : (if ((s.dev.at now).ctx n).state = .draining then (s.dev.at now).setCtx n {} else s.dev.at now) = (s.dev.at now).setCtx n {} := if_pos hdrain
    rw [hend]
    exact ⟨fun _ => congrArg Ctx.state (Dev.ctx_set_same ..), fun h => absurd hdrain h, fun m hm => Dev.ctx_set_ne _ _ hm, rfl, rfl, rfl, rfl, rfl⟩
  · have hend : (if ((s.dev.at now).ctx n).state = .draining then (s.dev.at now).setCtx n {} else s.dev.at now) = s.dev.at now := if_neg hdrain
    rw [hend]
    exact ⟨fun h => absurd h hdrain, fun _ => rfl, fun _ _ => rfl, rfl, rfl, rfl, rfl, rfl⟩

end

/-- Settles O25: each operation's clause by what the operation does; the destruction and the reset keep the operation register (R261, R265, R279, R443). -/
theorem contextOperations : Obligations.ContextOperations := by
  intro s port now hlive hport hbusy d done a0 h c ppn key gen base len b f
  refine ⟨fun hfunc => ⟨fun n hholds hgranted howner hunbound hkey hroom hlow => ?_, fun hact hown => ?_, fun hfree => ?_, fun hctx => ?_,
    fun hctx hbase hlen hpriv => ?_, fun hctx hbase hpriv => ?_, fun n hctx hlow => ?_, fun hctx hidle hown hwait => ?_⟩, fun hfunc => ?_, fun n => ?_⟩
  · exact does_ctxCreate now hlive hfunc hbusy ⟨hholds, hgranted, howner, hunbound, hkey, hroom⟩ hlow
  · exact does_ctxDestroy now hlive hfunc hbusy hact hown
  · exact does_ctxDestroy_free now hlive hfunc hbusy hfree
  · exact does_ctxReset now hlive hfunc hbusy hctx
  · exact does_setWindow now hlive hfunc hbusy hctx hpriv hbase hlen
  · exact does_setWindow_misaligned now hlive hfunc hbusy hctx hpriv hbase
  · exact does_bindFence now hlive hfunc hbusy hctx hlow
  · exact does_unbindFence now hlive hfunc hbusy hctx hidle hown hwait
  · exact does_ctxCreate_otherPort now hlive hport hfunc
  · exact does_fabricDrainEnd now hlive n

end Sys2Proof.Machine
end

section
/-! PROOFS. The statement about answers to fault records (chapter 10): that taking a context's work down takes no command on, so that the command of a
fault is over where its context is reset, and what a client that goes on leaves alone. -/
namespace Sys2Proof.Machine

/-! ### Updates that leave the trackers alone -/

@[simp] theorem Dev.cmds_writeVa (d : Dev) (c va : Nat) (bs : List Byte) : (d.writeVa c va bs).1.cmds = d.cmds :=
  (congrArg Dev.cmds (d.offCellar_writeVa c va bs) :)

@[simp] theorem Dev.ctxs_writeVa (d : Dev) (c va : Nat) (bs : List Byte) : (d.writeVa c va bs).1.ctxs = d.ctxs :=
  (congrArg Dev.ctxs (d.offCellar_writeVa c va bs) :)

theorem Dev.cmds_ringWrite {d e : Dev} {host : Bool} {c a : Nat} {bs : List Byte} (h : d.ringWrite host c a bs = some e) : e.cmds = d.cmds := by
  have hva := d.cmds_writeVa c a bs
  unfold Dev.ringWrite at h
  split at h
  · split at h
    · cases h; rfl
    · cases h
  · split at h
    next hw => cases h; rw [hw] at hva; exact hva
    next => cases h

@[simp] theorem Dev.cmds_writeCpl (d : Dev) (q st k s g t : Nat) : (d.writeCpl q st k s g t).cmds = d.cmds := by
  unfold Dev.writeCpl
  dsimp only
  split
  next hw => exact (Dev.cmds_ringWrite hw :)
  next => rfl

@[simp] theorem Dev.cmds_signalEvt (d : Dev) (e v : Nat) : (d.signalEvt e v).cmds = d.cmds := by rw [Dev.signalEvt_frame]

@[simp] theorem Dev.cmds_refillHoop (d : Dev) (h : Nat) : (d.refillHoop h).cmds = d.cmds := by simp [Dev.refillHoop, apply_ite Dev.cmds]

@[simp] theorem Dev.cmds_releaseHolds (d : Dev) (t : Nat) : (d.releaseHolds t).cmds = d.cmds :=
  (Dev.foldl_keeps (fun _ _ => by rfl) _ _).trans (Dev.foldl_keeps (fun _ _ => by rfl) _ _)

@[simp] theorem Dev.cmds_rasLog (d : Dev) (e : LogEntry) : (d.rasLog e).cmds = d.cmds := by rw [Dev.rasLog_frame]

@[simp] theorem Dev.ctx_rasLog (d : Dev) (e : LogEntry) (c : Nat) : (d.rasLog e).ctx c = d.ctx c := by rw [Dev.rasLog_frame]; rfl

@[simp] theorem Dev.cmds_captureOver (d : Dev) (t st : Nat) : (d.captureOver t st).cmds = d.cmds := by
  simp [Dev.captureOver, Dev.setTrig, apply_ite Dev.cmds]

theorem Dev.cmds_stopDma (d : Dev) (p : Cmd → Bool) : (d.stopDma p).cmds = d.cmds := Dev.foldl_keeps (fun _ _ => by rfl) _ _
theorem Dev.cmds_stopShuttle (d : Dev) (p : Nat → Bool) : (d.stopShuttle p).cmds = d.cmds := Dev.foldl_keeps (fun _ _ => by rfl) _ _
theorem Dev.cmds_abandon (d : Dev) (c : Nat) : (d.abandon c).cmds = d.cmds := Dev.foldl_keeps (fun _ _ => by rfl) _ _

theorem Dev.cmds_samplePut (d : Dev) (c : Nat) (l : List (Nat × List Byte)) : (d.samplePut c l).1.cmds = d.cmds := by
  induction l generalizing d with
  | nil => rfl
  | cons p r ih =>
    have hwrite := d.cmds_writeVa c p.1 p.2
    unfold Dev.samplePut
    split
    next hw => rw [hw] at hwrite; exact (ih _).trans hwrite
    next hw => rw [hw] at hwrite; exact hwrite

theorem Dev.cmds_sample (d : Dev) (c cause st : Nat) : (d.sample c cause st).cmds = d.cmds := by
  simp [Dev.sample, apply_ite Prod.fst, apply_ite Dev.cmds, Dev.cmds_samplePut]

/-- The undefined bytes of a segment touch neither trackers nor contexts. -/
theorem Dev.dmaUndef_keeps (d : Dev) (m : Cmd) (i : Nat) : (d.dmaUndef m i).cmds = d.cmds ∧ (d.dmaUndef m i).ctxs = d.ctxs :=
  ⟨Dev.foldl_keeps (fun _ _ => by simp [Dev.hostWrite, apply_ite Dev.cmds]) _ _, Dev.foldl_keeps (fun _ _ => by simp [Dev.hostWrite, apply_ite Dev.ctxs]) _ _⟩

/-- A result record written touches neither trackers nor contexts. -/
theorem Dev.dmaRecord_keeps (d : Dev) (t : Nat) (st : Status) : (d.dmaRecord t st).cmds = d.cmds ∧ (d.dmaRecord t st).ctxs = d.ctxs := by
  simp [Dev.dmaRecord, apply_ite Dev.cmds, apply_ite Dev.ctxs]

/-- A change of a command leaves the contexts alone. -/
theorem Dev.ctxs_updCmd (d : Dev) (t : Nat) (f : Cmd → Cmd) : (d.updCmd t f).ctxs = d.ctxs := by
  simp [Dev.updCmd, apply_ite Dev.ctxs]

theorem Dev.ctxs_dmaStop (d : Dev) (t : Nat) (st : Status) : (d.dmaStop t st).ctxs = d.ctxs := by
  have hundef := fun m l => Dev.foldl_keeps (keep := Dev.ctxs) (fun d i => (d.dmaUndef_keeps m i).2) l d
  simp [Dev.dmaStop, apply_ite Dev.ctxs, Dev.dmaRecord_keeps, Dev.ctxs_updCmd, hundef]

/-! ### No command is taken on -/

/-- No command is taken on: one accepted and not completed after was so before, of the same context. -/
structure NoneTakenOn (d e : Dev) : Prop where
  of_live : ∀ t, (e.cmd t).live = true → (d.cmd t).live = true ∧ (e.cmd t).ctx = (d.cmd t).ctx

theorem NoneTakenOn.trans {d e f : Dev} (h : NoneTakenOn d e) (g : NoneTakenOn e f) : NoneTakenOn d f := by
  refine ⟨fun t hf => ?_⟩
  obtain ⟨he, hctx⟩ := g.of_live t hf
  obtain ⟨hd, hctx'⟩ := h.of_live t he
  exact ⟨hd, hctx.trans hctx'⟩

theorem noneTakenOn_of_cmds {d e : Dev} (h : e.cmds = d.cmds) : NoneTakenOn d e := by
  refine ⟨fun t hlive => ?_⟩
  unfold Dev.cmd at *
  rw [h] at hlive ⊢
  exact ⟨hlive, rfl⟩

theorem NoneTakenOn.refl (d : Dev) : NoneTakenOn d d := noneTakenOn_of_cmds rfl

/-- After updates that leave the trackers alone. -/
theorem NoneTakenOn.of_cmds {d e f : Dev} (h : NoneTakenOn d e) (hf : f.cmds = e.cmds) : NoneTakenOn d f := h.trans (noneTakenOn_of_cmds hf)

theorem noneTakenOn_foldl {α : Type} {f : Dev → α → Dev} (h : ∀ d x, NoneTakenOn d (f d x)) (l : List α) (d : Dev) : NoneTakenOn d (l.foldl f d) := by
  induction l generalizing d with
  | nil => exact .refl d
  | cons x r ih => exact (h d x).trans (ih _)

theorem noneTakenOn_ite {d e f : Dev} {p : Prop} [Decidable p] (he : NoneTakenOn d e) (hf : NoneTakenOn d f) : NoneTakenOn d (if p then e else f) := by
  split
  · exact he
  · exact hf

/-- A tracker replaced takes no command on where its command, if live, is the one that was there. -/
theorem noneTakenOn_setCmd {d : Dev} {t : Nat} {x : Cmd} (h : x.live = true → (d.cmd t).live = true ∧ x.ctx = (d.cmd t).ctx) :
    NoneTakenOn d (d.setCmd t x) := by
  refine ⟨fun j hj => ?_⟩
  by_cases heq : j = t
  · subst heq
    rw [Dev.cmd_set_same] at hj ⊢
    exact h hj
  · rw [Dev.cmd_set_ne _ _ heq] at hj ⊢
    exact ⟨hj, rfl⟩

theorem noneTakenOn_updCmd (d : Dev) (t : Nat) {f : Cmd → Cmd} (hf : ∀ m, (f m).ctx = m.ctx) : NoneTakenOn d (d.updCmd t f) := by
  unfold Dev.updCmd
  dsimp only
  split
  next hlive => exact noneTakenOn_setCmd (fun _ => ⟨hlive, hf _⟩)
  next => exact .refl d

theorem noneTakenOn_finish (d : Dev) (t : Nat) (st : Status) : NoneTakenOn d (d.finish t st) := noneTakenOn_updCmd d t (fun _ => rfl)

theorem noneTakenOn_abortHolds (d : Dev) (f : Fence) : NoneTakenOn d (d.abortHolds f) :=
  noneTakenOn_foldl (fun _ _ => NoneTakenOn.trans (noneTakenOn_of_cmds (by simp [Dev.setCap])) (noneTakenOn_finish ..)) _ _

theorem noneTakenOn_stopStep (d : Dev) (t : Nat) : NoneTakenOn d (d.stopStep t) := by
  unfold Dev.stopStep
  dsimp only
  refine noneTakenOn_ite ((noneTakenOn_of_cmds ?_).trans (noneTakenOn_abortHolds ..)) (.refl d)
  simp [apply_ite Dev.cmds]

theorem noneTakenOn_restoreStop (d : Dev) (t : Nat) : NoneTakenOn d (d.restoreStop t) := by
  unfold Dev.restoreStop
  dsimp only
  refine noneTakenOn_ite (noneTakenOn_ite ?_ (noneTakenOn_ite (noneTakenOn_of_cmds rfl) (.refl d))) (.refl d)
  exact NoneTakenOn.trans (noneTakenOn_of_cmds (by rfl)) (noneTakenOn_abortHolds ..)

theorem noneTakenOn_stopStorage (d : Dev) (p : Cmd → Bool) : NoneTakenOn d (d.stopStorage p) :=
  noneTakenOn_foldl (fun d t => (noneTakenOn_restoreStop d t).of_cmds (by simp [Dev.setCap, Dev.closeIos, apply_ite Dev.cmds])) _ _

theorem noneTakenOn_dmaStop (d : Dev) (t : Nat) (st : Status) : NoneTakenOn d (d.dmaStop t st) := by
  have hundef := fun m l => Dev.foldl_keeps (keep := Dev.cmds) (fun d i => (d.dmaUndef_keeps m i).1) l d
  unfold Dev.dmaStop
  dsimp only
  refine noneTakenOn_ite (NoneTakenOn.of_cmds ?_ (Dev.dmaRecord_keeps ..).1) (.refl d)
  exact (noneTakenOn_of_cmds (hundef ..)).trans (noneTakenOn_updCmd _ t (fun _ => rfl))

/-- Steps 2 to 6 of a context reset (R443). -/
theorem noneTakenOn_stopCtx (d : Dev) (c cause st : Nat) : NoneTakenOn d (d.stopCtx c cause st) := by
  unfold Dev.stopCtx
  refine NoneTakenOn.of_cmds ?_ ((Dev.cmds_abandon ..).trans (Dev.cmds_sample ..))
  refine NoneTakenOn.trans ?_ (noneTakenOn_foldl noneTakenOn_stopStep _ _)
  exact (noneTakenOn_of_cmds ((Dev.cmds_stopShuttle ..).trans (Dev.cmds_stopDma ..))).trans (noneTakenOn_stopStorage ..)

theorem noneTakenOn_withdraw (d : Dev) (t w : Nat) : NoneTakenOn d (d.withdraw t w) := by
  unfold Dev.withdraw
  exact noneTakenOn_ite (NoneTakenOn.of_cmds (e := d.setCmd t { d.cmd t with cause := w }) (noneTakenOn_setCmd (fun h => ⟨h, rfl⟩)) rfl) (.refl d)

theorem noneTakenOn_missDeadline (d : Dev) (t : Nat) : NoneTakenOn d (d.missDeadline t) := by
  unfold Dev.missDeadline
  exact noneTakenOn_ite ((noneTakenOn_withdraw d t wMiss).of_cmds (by simp)) (.refl d)

/-- A completion empties the tracker of a live command, and takes none on (R270). -/
theorem Dev.complete_frees (d : Dev) (t st : Nat) (silent : Bool) : NoneTakenOn d (d.complete t st silent) ∧ ((d.complete t st silent).cmd t).live = false := by
  unfold Dev.complete
  dsimp only
  split
  next hdead => exact ⟨.refl d, by simpa using hdead⟩
  next =>
    refine ⟨?_, by rw [Dev.cmd_set_same]⟩
    refine NoneTakenOn.trans ?_ (noneTakenOn_setCmd (fun h => nomatch h))
    exact (noneTakenOn_missDeadline d t).of_cmds (by simp [apply_ite Dev.cmds, Dev.queueIrq])

theorem noneTakenOn_completeAll (d : Dev) (p : Cmd → Bool) (st : Status) (silent : Bool) : NoneTakenOn d (d.completeAll p st silent) :=
  noneTakenOn_foldl (fun d t => (d.complete_frees t st.code silent).1) _ _

/-! ### The command of a fault ends (R223, R437, R443) -/

/-- A context reset ends every step after the faulting command's completion without taking that command on again. -/
theorem Dev.live_resetCtx {d : Dev} {c t : Nat} (cause : Nat) (st : Status) (hact : (d.ctx c).state = .active)
    (hctx : (d.cmd t).live = true → (d.cmd t).ctx = c) :
    ((d.resetCtx c cause (some t) st).cmd t).live = false := by
  unfold Dev.resetCtx
  rw [if_neg (by simp [hact])]
  dsimp only
  have hstop := noneTakenOn_stopCtx d c cause st.code
  generalize d.stopCtx c cause st.code = e at hstop ⊢
  have hfreed : ((if ((e.cmd t).live && (e.cmd t).ctx == c) = true then e.complete t st.code false else e).cmd t).live = false := by
    split
    next => exact (e.complete_frees t st.code false).2
    next hnot =>
      refine Bool.eq_false_iff.mpr (fun hlive => hnot ?_)
      obtain ⟨hbefore, hsame⟩ := hstop.of_live t hlive
      simp [hlive, hsame, hctx hbefore]
  generalize (if ((e.cmd t).live && (e.cmd t).ctx == c) = true then e.complete t st.code false else e) = f at hfreed ⊢
  have hall := noneTakenOn_completeAll f (fun m => m.ctx == c) .contextAborted false
  obtain ⟨-, hpricking⟩ := unloaded_freePricking (f.completeAll (fun m => m.ctx == c) .contextAborted false) c
  refine Bool.eq_false_iff.mpr (fun hlive => ?_)
  obtain ⟨hbefore, -⟩ := (hall.of_cmds hpricking).of_live t hlive
  rw [hfreed] at hbefore
  cases hbefore

/-- A class C fault of an active context ends its command. -/
theorem Dev.live_classC {d : Dev} {c t : Nat} (cause : Nat) (st : Status) (i : FaultInfo) (hact : (d.ctx c).state = .active)
    (hctx : (d.cmd t).live = true → (d.cmd t).ctx = c) :
    ((d.classC c (some t) cause st i).cmd t).live = false := by
  unfold Dev.classC
  refine Dev.live_resetCtx cause st ?_ ?_
  · rw [Dev.ctx_set_same, Dev.ctx_rasLog]
    exact hact
  · rw [Dev.rasLog_frame]
    exact hctx

/-- A class C fault leaves the fault records of a context that is not active. -/
theorem Dev.faults_classC_inactive {d : Dev} {c : Nat} (t : Option Nat) (cause : Nat) (st : Status) (i : FaultInfo) (hact : (d.ctx c).state ≠ .active) :
    ((d.classC c t cause st i).ctx c).faults = (d.ctx c).faults := by
  unfold Dev.classC Dev.resetCtx
  dsimp only
  rw [Dev.ctx_set_same, Dev.ctx_rasLog, if_pos hact, Dev.ctx_set_same]

/-- A fault record is over with its command: it is not pending, and where its context was active, the context has no pricking, and the record's command, if
it is the context's, has completed. -/
def FaultEnded (d : Dev) (c n : Nat) (e : Dev) : Prop :=
  (e.faultOf c n).pending = false ∧ ((d.ctx c).state = .active → (e.ctx c).pricking = none ∧
    ((d.cmd (d.faultOf c n).tracker).ctx = c → (e.cmd (d.faultOf c n).tracker).live = false))

/-- The record is given up first, then the command of a DMA channel is stopped, then the fault takes the context. -/
theorem faultEnded_faultEnd (d : Dev) (c n : Nat) : FaultEnded d c n (d.faultEnd c n) := by
  let t := (d.faultOf c n).tracker
  let a := d.setFault c n { d.faultOf c n with pending := false }
  let b := a.dmaStop t .pageFault
  have hctx : b.ctx c = { d.ctx c with faults := tabPut faultDflt (d.ctx c).faults n { d.faultOf c n with pending := false } } := by
    have hctxs : b.ctx c = a.ctx c := congrArg (fun x => tabGet ctxDflt x c) (a.ctxs_dmaStop t .pageFault)
    exact hctxs.trans (Dev.ctx_set_same ..)
  obtain ⟨i, hend⟩ : ∃ i, d.faultEnd c n = b.classC c (some t) (causeOf .pageFault) .pageFault i := ⟨_, rfl⟩
  rw [hend]
  by_cases hact : (d.ctx c).state = .active
  · have hbact : (b.ctx c).state = .active := (congrArg Ctx.state hctx).trans hact
    obtain ⟨hfaults, hpricking⟩ := Dev.ctx_classC (t := some t) (cause := causeOf .pageFault) (st := .pageFault) (i := i) hbact
    refine ⟨congrArg (fun x => (tabGet faultDflt x n).pending) hfaults, fun _ => ⟨hpricking, fun hown => ?_⟩⟩
    refine Dev.live_classC _ _ _ hbact (fun hlive => ?_)
    obtain ⟨-, hsame⟩ := (noneTakenOn_dmaStop a t .pageFault).of_live t hlive
    exact hsame.trans hown
  · have hbact : (b.ctx c).state ≠ .active := fun h => hact ((congrArg Ctx.state hctx).symm.trans h)
    refine ⟨?_, fun h => absurd h hact⟩
    unfold Dev.faultOf
    rw [Dev.faults_classC_inactive _ _ _ _ hbact, hctx, tabGet_tabPut_same]

/-- A fault record set. -/
theorem Dev.faultOf_setFault_same (d : Dev) (c n : Nat) (f : FaultRec) : (d.setFault c n f).faultOf c n = f :=
  (congrArg (fun x : Ctx => tabGet faultDflt x.faults n) (Dev.ctx_set_same ..)).trans (tabGet_tabPut_same ..)

/-! ### A client that goes on (R223) -/

/-- A withdrawal touches trackers and registers only. -/
theorem Dev.withdraw_frame (d : Dev) (t w : Nat) : d.withdraw t w = { d with cmds := (d.withdraw t w).cmds, regs := (d.withdraw t w).regs } := by
  unfold Dev.withdraw
  dsimp only
  split <;> rfl

/-- A command whose promise stands, after its withdrawal: the cause, and nothing else of the command (R296). -/
theorem Dev.cmd_withdraw (d : Dev) (t w : Nat) : (d.withdraw t w).cmd t =
    if (d.cmd t).live = true ∧ (d.cmd t).cls = 0 ∧ (d.cmd t).cause = 0 then { d.cmd t with cause := w } else d.cmd t := by
  unfold Dev.withdraw
  simp only [Bool.and_eq_true, beq_iff_eq, and_assoc]
  split
  · exact Dev.cmd_set_same ..
  · rfl

/-- A slot as its shelf goes on from record `n` of a context. -/
def Slot.goOn (x : Slot) (c n : Nat) : Slot := if x.ctx = c ∧ x.suspended = some n then { x with suspended := none } else x

/-- A shelf goes on once. -/
theorem Slot.goOn_goOn (x : Slot) (c n : Nat) : (x.goOn c n).goOn c n = x.goOn c n := by
  by_cases h : x.ctx = c ∧ x.suspended = some n
  · have hgoes : x.goOn c n = { x with suspended := none } := if_pos h
    rw [hgoes]
    exact if_neg (fun hnone => nomatch hnone.2)
  · have hstays : x.goOn c n = x := if_neg h
    rw [hstays, hstays]

/-- A slot that waited for the record waits no more. -/
theorem Slot.suspended_goOn {x : Slot} {c n : Nat} (hctx : x.ctx = c) (hwait : x.suspended = some n) : (x.goOn c n).suspended = none :=
  congrArg Slot.suspended (if_pos ⟨hctx, hwait⟩)

/-- Slot `k` of tile `u` goes on. -/
def Dev.goOn (d : Dev) (u c n k : Nat) : Dev :=
  if (d.slot u k).ctx = c ∧ (d.slot u k).suspended = some n then d.setSlot u k { d.slot u k with suspended := none } else d

theorem Dev.slot_goOn (d : Dev) (u c n k u' k' : Nat) :
    (d.goOn u c n k).slot u' k' = if u' = u ∧ k' = k then (d.slot u' k').goOn c n else d.slot u' k' := by
  unfold Dev.goOn Slot.goOn
  by_cases hat : u' = u ∧ k' = k
  · obtain ⟨rfl, rfl⟩ := hat
    rw [if_pos (And.intro (Eq.refl u') (Eq.refl k'))]
    split
    · exact Dev.slot_setSlot_same ..
    · rfl
  · rw [if_neg hat]
    split
    · exact Dev.slot_setSlot_ne _ _ hat
    · rfl

/-- Slots of a tile going on, one after another. -/
theorem Dev.slot_foldl_goOn (u c n : Nat) (l : List Nat) (d : Dev) (u' k' : Nat) :
    (l.foldl (fun d k => d.goOn u c n k) d).slot u' k' = if u' = u ∧ k' ∈ l then (d.slot u' k').goOn c n else d.slot u' k' := by
  induction l generalizing d with
  | nil => simp
  | cons k l ih =>
    rw [List.foldl_cons, ih, Dev.slot_goOn]
    by_cases hu : u' = u
    · by_cases hk : k' = k
      · simp [hu, hk, Slot.goOn_goOn]
      · simp [hu, hk]
    · simp [hu]

/-- The record is given up, its command's promise is withdrawn, and no memory has changed. -/
def FaultResumed (d : Dev) (c n : Nat) (e : Dev) : Prop :=
  let t := (d.faultOf c n).tracker
  (e.faultOf c n).pending = false ∧ SameMem d e ∧ ((d.cmd t).live = true → (d.cmd t).cls = 0 → (d.cmd t).cause = 0 → (e.cmd t).cause = wFault)

/-- The device with the record given up and the promise withdrawn, before its client goes on. -/
def Dev.faultFreed (d : Dev) (c n : Nat) : Dev :=
  (d.setFault c n { d.faultOf c n with pending := false }).withdraw (d.faultOf c n).tracker wFault

/-- The client of a record goes on: a tile's shelf, a DMA channel with its command, or a command of another engine. -/
def Dev.clientGoesOn (d : Dev) (c n : Nat) (f : FaultRec) : Client → Dev
  | .tile => (List.range 16).foldl (fun d k => d.goOn f.unit c n k) d
  | .dma =>
    let d := d.updCmd f.tracker (fun m => { m with stage := .running })
    let d := d.setChannel f.unit { d.channel f.unit with suspended := false }
    if (d.cmd f.tracker).dRecReady then d else d.dmaBegin f.unit f.tracker
  | _ => d.updCmd f.tracker (fun m => { m with stage := .running })

theorem Dev.faultResume_eq (d : Dev) (c n : Nat) :
    d.faultResume c n = (d.faultFreed c n).clientGoesOn c n (d.faultOf c n) (d.faultOf c n).client := rfl

/-- It is as before but for the record, the trackers and registers. -/
theorem Dev.faultFreed_keeps (d : Dev) (c n : Nat) : (d.faultFreed c n).ctxs = (d.setFault c n { d.faultOf c n with pending := false }).ctxs ∧
    SameMem d (d.faultFreed c n) ∧ (d.faultFreed c n).tiles = d.tiles := by
  unfold Dev.faultFreed
  rw [Dev.withdraw_frame]
  exact ⟨rfl, ⟨rfl, rfl, rfl, rfl⟩, rfl⟩

/-- Of the record's command, the withdrawal sets the cause, if anything. -/
theorem Dev.cmd_faultFreed (d : Dev) (c n t : Nat) (ht : t = (d.faultOf c n).tracker) : (d.faultFreed c n).cmd t =
    if (d.cmd t).live = true ∧ (d.cmd t).cls = 0 ∧ (d.cmd t).cause = 0 then { d.cmd t with cause := wFault } else d.cmd t := by
  subst ht
  exact Dev.cmd_withdraw ..

/-- It keeps the command accepted, and its scratch. -/
theorem Dev.cmd_faultFreed_keeps (d : Dev) (c n : Nat) : ((d.faultFreed c n).cmd (d.faultOf c n).tracker).live = (d.cmd (d.faultOf c n).tracker).live ∧
    ((d.faultFreed c n).cmd (d.faultOf c n).tracker).scratch = (d.cmd (d.faultOf c n).tracker).scratch := by
  rw [Dev.cmd_faultFreed d c n _ rfl]
  split
  · exact ⟨rfl, rfl⟩
  · exact ⟨rfl, rfl⟩

/-- A client that goes on leaves the contexts and the memories alone, and the cause of its command. -/
theorem FaultResumed.of_freed {d e : Dev} {c n : Nat} (hctxs : e.ctxs = (d.faultFreed c n).ctxs) (hmem : SameMem (d.faultFreed c n) e)
    (hcause : (e.cmd (d.faultOf c n).tracker).cause = ((d.faultFreed c n).cmd (d.faultOf c n).tracker).cause) : FaultResumed d c n e := by
  obtain ⟨hfreed, hsame, -⟩ := d.faultFreed_keeps c n
  refine ⟨?_, hsame.trans hmem, fun hlive hcls hnone => ?_⟩
  · have hrec : e.faultOf c n = (d.setFault c n { d.faultOf c n with pending := false }).faultOf c n :=
      congrArg (fun x => tabGet faultDflt (tabGet ctxDflt x c).faults n) (hctxs.trans hfreed)
    rw [hrec, Dev.faultOf_setFault_same]
  · rw [hcause, Dev.cmd_faultFreed d c n _ rfl]
    exact congrArg Cmd.cause (if_pos ⟨hlive, hcls, hnone⟩)

section
variable {d : Dev} {c n : Nat}

/-- A tile's shelf goes on (R223). -/
theorem faultResumed_tile (hclient : (d.faultOf c n).client = .tile) :
    FaultResumed d c n (d.faultResume c n) ∧
    (∀ k, k < 16 → (d.slot (d.faultOf c n).unit k).ctx = c → (d.slot (d.faultOf c n).unit k).suspended = some n →
      ((d.faultResume c n).slot (d.faultOf c n).unit k).suspended = none) ∧
    (∀ u k, u ≠ (d.faultOf c n).unit → (d.faultResume c n).slot u k = d.slot u k) := by
  have hres : d.faultResume c n = (List.range 16).foldl (fun d' k => d'.goOn (d.faultOf c n).unit c n k) (d.faultFreed c n) := by
    rw [Dev.faultResume_eq, hclient]
    rfl
  have hkeep := Dev.foldl_keeps (keep := fun x : Dev => ({ x with tiles := [] } : Dev)) (f := fun d' k => d'.goOn (d.faultOf c n).unit c n k)
    (fun x k => by unfold Dev.goOn; dsimp only; split <;> rfl) (List.range 16) (d.faultFreed c n)
  have hslot : ∀ u k, (d.faultFreed c n).slot u k = d.slot u k := fun u k =>
    congrArg (fun x => (tabGet tileDflt x u).slot k) (d.faultFreed_keeps c n).2.2
  rw [← hres] at hkeep
  refine ⟨.of_freed (congrArg Dev.ctxs hkeep :) ⟨(congrArg Dev.cellar hkeep :), (congrArg Dev.hostMem hkeep :), (congrArg Dev.pantry hkeep :),
    (congrArg Dev.flash hkeep :)⟩ (congrArg (fun x => (x.cmd (d.faultOf c n).tracker).cause) hkeep :), fun k hk hctx hwait => ?_, fun u k hu => ?_⟩
  · rw [hres, Dev.slot_foldl_goOn, if_pos ⟨rfl, List.mem_range.mpr hk⟩, hslot]
    exact Slot.suspended_goOn hctx hwait
  · rw [hres, Dev.slot_foldl_goOn, if_neg (fun h => hu h.1), hslot]

/-- Another engine's command runs on. -/
theorem faultResumed_engine (hclient : (d.faultOf c n).client = .darner ∨ (d.faultOf c n).client = .shuttle ∨ (d.faultOf c n).client = .storage)
    (hlive : (d.cmd (d.faultOf c n).tracker).live = true) :
    FaultResumed d c n (d.faultResume c n) ∧ ((d.faultResume c n).cmd (d.faultOf c n).tracker).stage = .running ∧ (d.faultResume c n).tiles = d.tiles := by
  let t := (d.faultOf c n).tracker
  have hres : d.faultResume c n = (d.faultFreed c n).setCmd t { (d.faultFreed c n).cmd t with stage := .running } := by
    have hupd : d.faultResume c n = (d.faultFreed c n).updCmd t (fun m => { m with stage := .running }) := by
      rw [Dev.faultResume_eq]
      rcases hclient with h | h | h <;> rw [h] <;> rfl
    rw [hupd, Dev.updCmd_of_live _ ((d.cmd_faultFreed_keeps c n).1.trans hlive)]
  rw [hres]
  refine ⟨.of_freed rfl ⟨rfl, rfl, rfl, rfl⟩ (by rw [Dev.cmd_set_same]), by rw [Dev.cmd_set_same], (d.faultFreed_keeps c n).2.2⟩

/-- A DMA channel whose result pages are known goes on with its command. -/
theorem faultResumed_dma (hclient : (d.faultOf c n).client = .dma) (hlive : (d.cmd (d.faultOf c n).tracker).live = true)
    (hready : (d.cmd (d.faultOf c n).tracker).dRecReady = true) :
    FaultResumed d c n (d.faultResume c n) ∧ ((d.faultResume c n).cmd (d.faultOf c n).tracker).stage = .running ∧
    ((d.faultResume c n).channel (d.faultOf c n).unit).suspended = false ∧ (d.faultResume c n).tiles = d.tiles := by
  let t := (d.faultOf c n).tracker
  let u := (d.faultOf c n).unit
  let e := (d.faultFreed c n).setCmd t { (d.faultFreed c n).cmd t with stage := .running }
  let f := e.setChannel u { e.channel u with suspended := false }
  obtain ⟨hkept, hscratch⟩ := d.cmd_faultFreed_keeps c n
  have hcmd : f.cmd t = { (d.faultFreed c n).cmd t with stage := .running } := Dev.cmd_set_same ..
  have hknown : (f.cmd t).dRecReady = true := by
    rw [hcmd]
    exact (congrArg (fun x => x.headD 0 == 1) hscratch).trans hready
  have hupd : (d.faultFreed c n).updCmd t (fun m => { m with stage := .running }) = e := Dev.updCmd_of_live _ (hkept.trans hlive)
  have hres : d.faultResume c n = f := by
    rw [Dev.faultResume_eq, hclient]
    unfold Dev.clientGoesOn
    dsimp only
    rw [hupd, if_pos hknown]
  rw [hres]
  exact ⟨.of_freed rfl ⟨rfl, rfl, rfl, rfl⟩ (congrArg Cmd.cause hcmd :), (congrArg Cmd.stage hcmd :), congrArg DmaChannel.suspended (Dev.channel_set_same ..),
    (d.faultFreed_keeps c n).2.2⟩

end

/-! ### Answers (R223, R232) -/

section
variable {d : Dev} {port c n : Nat}

/-- An answer for a context that the port does not see is logged. -/
theorem Dev.faultAnswer_unseen (v : Nat) (h : d.seesCtx port (d.sel pgMmu port) = false) :
    d.faultAnswer port v = d.logErr port pgMmu 0x0124 .notVisible v := by
  unfold Dev.faultAnswer
  dsimp only
  rw [h]
  rfl

variable (hc : d.sel pgMmu port = c) (hn : d.bankN pgMmu port 0x0110 % 16 = n) (hsees : d.seesCtx port c = true)
include hc hn hsees

/-- A record that is not pending is left alone. -/
theorem Dev.faultAnswer_idle (v : Nat) (h : (d.faultOf c n).pending = false) : d.faultAnswer port v = d := by
  unfold Dev.faultAnswer
  dsimp only
  rw [hc, hn, hsees, h]
  rfl

/-- RESUME of a pending record lets the client translate again; ABORT ends its command. -/
theorem Dev.faultAnswer_resume (h : (d.faultOf c n).pending = true) :
    d.faultAnswer port 1 = d.faultRetry c n := by
  unfold Dev.faultAnswer
  dsimp only
  rw [hc, hn, hsees, h]
  rfl
theorem Dev.faultAnswer_abort (h : (d.faultOf c n).pending = true) :
    d.faultAnswer port 2 = d.faultEnd c n := by
  unfold Dev.faultAnswer
  dsimp only
  rw [hc, hn, hsees, h]
  rfl

end

/-- A page still not mapped ends the command; any other answer of the translation lets the client go on. -/
theorem Dev.faultRetry_notMapped {d : Dev} {c n l : Nat} (h : d.translate c (d.faultOf c n).va (d.faultOf c n).write = .notMapped l) :
    d.faultRetry c n = d.faultEnd c n := by
  unfold Dev.faultRetry
  dsimp only
  rw [h]
theorem Dev.faultRetry_mapped {d : Dev} {c n : Nat} (h : ∀ l, d.translate c (d.faultOf c n).va (d.faultOf c n).write ≠ .notMapped l) :
    d.faultRetry c n = d.faultResume c n := by
  unfold Dev.faultRetry
  dsimp only
  split
  next l hx => exact absurd hx (h l)
  next => rfl

/-- Settles O37: an answer comes to a pending record of a context that the port sees. What ends the command is a class C fault, whose reset completes it
(`faultEnded_faultEnd`); what lets a client go on keeps contexts and memories (`FaultResumed.of_freed`). -/
theorem faultAnswers : Obligations.FaultAnswers := by
  intro s port now hlive _ d c n f t ended resumed
  have hresume : ∀ P, Does (.mmuFRespResume port now) s P ↔ P (d.faultAnswer port 1) :=
    fun P => does_whenLive_iff (f := fun d => d.faultAnswer port 1) (now := now) rfl hlive
  have habort : ∀ P, Does (.mmuFRespAbort port now) s P ↔ P (d.faultAnswer port 2) :=
    fun P => does_whenLive_iff (f := fun d => d.faultAnswer port 2) (now := now) rfl hlive
  have htimeout : ∀ k j P, Does (.faultAnswerTimeout k j now) s P ↔
      P (if (d.faultOf k j).pending && decide ((d.faultOf k j).time + 10 * d.regN pgMmu 0 0x1000 ≤ d.now) then d.faultEnd k j else d) :=
    fun k j P => does_whenLive_iff (now := now) rfl hlive
  refine ⟨fun hsees hpending => ?_, fun hsees hidle => ?_, fun hunseen v i hi => ?_, fun k j hpending hlate => ?_, fun k j hnone => ?_⟩
  · have hretry : d.faultAnswer port 1 = d.faultRetry c n := Dev.faultAnswer_resume rfl rfl hsees hpending
    refine ⟨fun hmapped => ?_, fun l hnot => ?_, ?_⟩
    · have hgo : d.faultAnswer port 1 = d.faultResume c n := hretry.trans (Dev.faultRetry_mapped hmapped)
      simp only [hresume, hgo]
      exact ⟨faultResumed_tile, faultResumed_engine, faultResumed_dma⟩
    · rw [hresume, hretry, Dev.faultRetry_notMapped hnot]
      exact faultEnded_faultEnd d c n
    · rw [habort, Dev.faultAnswer_abort rfl rfl hsees hpending]
      exact faultEnded_faultEnd d c n
  · rw [hresume, habort]
    exact ⟨Dev.faultAnswer_idle rfl rfl hsees 1 hidle, Dev.faultAnswer_idle rfl rfl hsees 2 hidle⟩
  · have hanswer : ∀ P, Does i s P ↔ P (d.faultAnswer port v) := by
      simp only [List.mem_cons, Prod.mk.injEq, List.not_mem_nil, or_false] at hi
      rcases hi with ⟨rfl, rfl⟩ | ⟨rfl, rfl⟩
      · exact hresume
      · exact habort
    obtain ⟨hx1, hx2⟩ := errEntry_lt pgMmu 0x0124 port v .notVisible
    rw [hanswer, Dev.faultAnswer_unseen v hunseen]
    exact ⟨rfl, rfl, rfl, sameMem_logEntry .., logged_logEntry d pgMmu port hx1 hx2⟩
  · rw [htimeout, if_pos (by simp [hpending, hlate])]
    exact faultEnded_faultEnd d k j
  · rw [htimeout, if_neg]
    rcases hnone with hidle | hearly
    · simp [hidle]
    · simp [hearly]

end Sys2Proof.Machine
end

section
/-! PROOFS. The statement about cipher requests (chapter 17), refuted: a request whose own output halts the device finds its key's deck gone. -/
namespace Sys2Proof.Machine

/-- The descriptor of an HMAC384 over no bytes under slot 9, its output at 0xA000 (R407 Table 11). -/
def lastHmac : List Byte := toBytes 2 opHmac ++ toBytes 2 9 ++ toBytes 4 0 ++ toBytes 8 0 ++ toBytes 8 0xA000 ++ toBytes 40 0

/-- A running device whose context 1 has its first 512 MiB mapped where they lie, under memory slot 1. Hoop 0's cipher queue of 16 requests, at 0x2000
with its records at 0x9000, holds `lastHmac`, the last use of slot 9's phase, and the slot's next deck is ready. The counters of the granule at 0xA000
are at their ends: its minor is 255, and its group's major can rise no more. -/
def spentGranule : Dev :=
  let d : Dev :=
    { aon := { ready := true }
      ctxs := [(1, { state := .active, root := 3 })]
      keys := [(1, { state := .active, usage := useMem }), (9, { state := .active, usage := useCiph, limit := 1, deckReady := true })]
      groups := [(2, { major := 2 ^ 56 - 1, minors := [(32, 255)] })]
      cellar := memWrite (memWrite (memWrite [] 0x2000 lastHmac) 0x30000 (toBytes 8 (1 + 4 * 65536))) 0x40000 (toBytes 8 (0x1F + 2 ^ 48)) }
  (((d.setRegN pgCiphu 0 0x1000 (1 + 4 * 256 + 4096)).setRegN pgCiphu 0 0x1004 0x2000).setRegN pgCiphu 0 0x100C 0x9000).setRegN pgCiphu 0 0x1014 1

/-- The queue serves `lastHmac`: it is enabled, holds an untaken request of an active context, and the descriptor can be read. -/
theorem spentGranule_serves : spentGranule.live = true ∧
    (bit (spentGranule.cu 0 0x1000) 0 = true ∧ spentGranule.cuTaken 0 ≠ spentGranule.cu 0 0x1014 ∧ (spentGranule.ctx (spentGranule.cuCtx 0)).state = .active) ∧
    spentGranule.readVa 1 0x2000 64 = .data lastHmac := by
  decide +kernel

/-- `lastHmac` is well formed and its slot, under its limit, is the hoop's cipher key; its output's one page translates. -/
theorem lastHmac_fits : (creqOf lastHmac).bad = false ∧ (creqOf lastHmac).op = opHmac ∧ (creqOf lastHmac).key = 9 ∧ (creqOf lastHmac).gen = 0 ∧
    (creqOf lastHmac).writes = [(0xA000, 48)] ∧ spentGranule.reach 1 0xA000 48 true = .ok [(0xA000, 48, 1)] ∧
    spentGranule.creqEgressBad 0 1 (creqOf lastHmac) = false ∧ spentGranule.readVa 1 (creqOf lastHmac).src (creqOf lastHmac).len = .data [] := by
  decide +kernel

/-- Slot 9 is at the last use of its phase, its next deck ready and no sweep running. -/
theorem spentGranule_lastUse : let x := spentGranule.key 9
    (x.state = .active ∧ x.hoop = 0 ∧ x.gen = 0) ∧ x.usage = useCiph ∧ x.uses < x.phaseLimit ∧ x.phaseLimit = x.uses + 1 ∧ x.phase < 255 ∧
    x.deckReady = true ∧ x.sweeping = false := by
  decide +kernel

/-- Served, the request halts the device when its output reaches the granule; the halt takes the deck, and the use counted after it starts no phase. -/
theorem cipherServe_spentGranule : let e := (spentGranule.at 0).cipherServe opHmac 0 0 0 0
    e.aon.halted = true ∧ (e.key 9).deckReady = false ∧ (e.key 9).uses = 1 := by
  decide +kernel

/-- Refutes O48: an HMAC384 at its slot's limit is to take the deck phase wherever a deck is ready before it. In `spentGranule` the write of its output
halts the device (the major of the granule's group would wrap, R240), the halt zeroizes the keys, decks and all (R248), and only then is the use
counted: the slot stays in its phase, with its uses at the limit. -/
theorem not_cipherRequests : ¬ Obligations.CipherRequests := by
  unfold Obligations.CipherRequests
  intro h
  obtain ⟨hlive, hserved, hdesc⟩ := spentGranule_serves
  obtain ⟨hbad, hop, hkey, hgen, hwrites, hreach, hegress, hsrc⟩ := lastHmac_fits
  obtain ⟨⟨hactive, hhoop, hslotGen⟩, husage, hleft, hlimit, hphase, hdeck, hsweep⟩ := spentGranule_lastUse
  obtain ⟨-, -, -, -, hruns⟩ := h { dev := spentGranule } 0 0 0 0 0 hlive (by decide)
  obtain ⟨-, -, -, -, -, hgood, -⟩ := hruns hserved lastHmac 3 (.hmac384 0 0 0 0 0) hdesc rfl hop
  have hfits : ∀ w ∈ (creqOf lastHmac).writes, ∃ ps, spentGranule.reach 1 w.1 w.2 true = .ok ps := by
    rw [hwrites]
    exact List.forall_mem_singleton.mpr ⟨_, hreach⟩
  obtain ⟨-, -, -, hhmac⟩ := hgood hbad ⟨hfits, hegress⟩
  rw [hkey, hgen] at hhmac
  have hdoes := hhmac [] hop ⟨hactive, by decide, hhoop, hslotGen⟩ husage hleft hsrc
  obtain ⟨-, -, hcounts⟩ := (does_whenLive_iff (now := 0) rfl hlive).mp hdoes
  obtain ⟨huses, -⟩ := hcounts hactive hlimit hphase hdeck hsweep
  obtain ⟨-, -, hone⟩ := cipherServe_spentGranule
  exact absurd (huses.symm.trans hone) (by decide)

end Sys2Proof.Machine
end
